-- ==== Sys2Proof/Word.lean ====
section
/-! DEFINITION. The word types of the ET6432 and nothing else. -/

namespace Sys2Proof

/-- A register or window word (R404). -/
abbrev Word := BitVec 16

/-- A byte of the store (R362) or of the legacy bus (R462). -/
abbrev Byte := BitVec 8

/-- A value of the 48-bit timebase TB, in TB ticks (R16, R316). -/
abbrev Tb := BitVec 48

end Sys2Proof
end

