-- ==== Sys2Proof/Syntax.lean ====
section
/-! DEFINITION. The commands of the block: one constructor of `Instr` for each row of
spec/opcode_table.json, in the order of the table. A row's docstring names the rule of the table;
the operands are what the environment brings with the event or the access. -/

namespace Sys2Proof

/-- The four argument words MBARG0 to MBARG3 of a mailbox command (R416). -/
structure Args where
  a0 : Word
  a1 : Word
  a2 : Word
  a3 : Word
deriving DecidableEq, Repr

/-- The reference edge of a wake (R352): AOC cycles from the last anchor to it, and FCO cycles from it
to the resumption of TB. -/
structure RefEdge where
  dA : Nat
  c : Nat
deriving DecidableEq, Repr

/-- A wheel input of the wake capture (R353): the crank, or one of the four cams. -/
inductive EdgeSrc where
  | crank
  | cam (c : Fin 4)
deriving DecidableEq, Repr

/-- The bytes at positions 1 to 8 of a full slot (R277, R278): header, EXT, payload and CRC. -/
structure Frame where
  hdr : BitVec 16
  ext : BitVec 8
  payload : BitVec 32
  crc : BitVec 8
deriving DecidableEq, Repr

/-- What arrives in one slot on LINKI (R277, R285): an empty slot, whose k is odd or not (R283); a full slot; a full slot in which an
invalid code group or disparity error appears first here (`bad`), or in which K30.7 was received
(`marked`). -/
inductive RxSlot where
  | empty (odd : Bool)
  | full (f : Frame)
  | bad (f : Frame)
  | marked (f : Frame)
deriving DecidableEq, Repr

/-- OP of a debug transaction (R395). -/
inductive DbgOp where
  | drd
  | dwr
  | hrd
  | hwr
deriving DecidableEq, Repr

/-- The commands. -/
inductive Instr where
  -- Boot, reset and power
  /-- R340: power-on reset; `mode` is the level of MODE at the release (R4). -/
  | powerOnReset (mode : Bool)
  /-- R340: a RESET# low pulse and its release, with the level of MODE there. -/
  | resetPin (mode : Bool)
  /-- R415: a SYSCTL write with RST = 1 and KEY = 0x5A, with the level of MODE at the release. -/
  | resetRequest (mode : Bool)
  /-- R341: FCO is judged and FCLK starts; the reference edge is used at a wake from STANDBY (R356). -/
  | bootB0End (ref : RefEdge)
  /-- R344: the end of B1, with the outcome of the ROM integrity check. -/
  | romIntegrityCheck (ok : Bool)
  /-- R366: the end of B2. -/
  | storeBanksRead
  /-- R341: the end of B3. -/
  | recordApplied
  /-- R343: the command BOOT_DONE. -/
  | bootDone
  /-- R440: the command IDENT. -/
  | ident (a : Args)
  /-- R143: a SYSCTL write of OE = 1. -/
  | oeSet
  /-- R144: a SYSCTL write of OE = 0. -/
  | oeClear
  /-- R348: a PWRCTL write with REQ = 1. The second operand is the error of the anchor that the entry keeps (R320): 0, 1 and
  2 stand for -1, 0 and 1 TB tick. -/
  | stopRequest (w : Word) (err : Fin 3)
  /-- R349: a PWRCTL write with REQ = 2, and the error of the anchor that the entry keeps. -/
  | standbyRequest (w : Word) (err : Fin 3)
  /-- R354: a wake source in STOP, with its code (R350) and the reference edge (R352). -/
  | wakeFromStop (code : Fin 8) (ref : RefEdge)
  /-- R356: a wake source in STANDBY, with its code. -/
  | wakeFromStandby (code : Fin 8)
  /-- R350: the expiry of the wake timer. -/
  | wakeTimer (ref : RefEdge)
  /-- R353: an edge latched by the wake capture, with the AOC cycles from the anchor to the latest AOC edge not after
  it, and after the wake the error of that anchor (R320). -/
  | wakeCaptureEdge (src : EdgeSrc) (rise : Bool) (dA : Nat) (err : Fin 3)
  /-- R373: VDDIOB falls through 2.85 V. -/
  | powerFailFall
  /-- R373: VDDIOB rises through 2.90 V. -/
  | powerFailRise
  -- Clocks
  /-- R307: 16 384 consecutive AOC cycles have been counted. -/
  | aocJudged
  /-- R308: no AOC edge within two LRC periods. -/
  | aocLoss
  /-- R325: the AOC cycles counted over 1 024 LRC cycles. -/
  | aocGrossCheck (count : Nat)
  /-- R325: no LRC edge for 64 µs. -/
  | lrcLoss
  /-- R307: 4 096 FCO cycles have been counted since its enable. -/
  | fcoJudged
  /-- R308: an enabled FCO gives no edge of FCO/4 096 within one LRC period. -/
  | fcoLoss
  /-- R307: symbol lock and then 8 192 RCK cycles. -/
  | rckJudged
  /-- R313: symbol lock has not returned within 4 µs. -/
  | rckHoldoverEnd
  /-- R311: the FCO cycles counted over one window of 64 AOC cycles. -/
  | fllWindow (count : Nat)
  /-- R317: FCLK has had no rising edge for 50 to 100 ns. -/
  | fclkStopDetect
  /-- R318: the preferred source differs from the one in use, or the source in use is lost. -/
  | cleanSwitchRequest
  /-- R315: the mux has changed FCLK to the new source. -/
  | cleanSwitchComplete
  /-- R318: the fourth LRC edge after the first one following the request; FCLK stop time in LRC periods. -/
  | muxHangDetect (stopLrc : Nat)
  /-- R318: every 4 LRC periods in HELD, FCO is disabled and enabled again. -/
  | heldFcoRestart
  /-- R319: step 1 of an escape with cause held; FCLK stop time in LRC periods. -/
  | escapeStart (stopLrc : Nat)
  /-- R319: steps 3 to 5 of an escape; AOC cycles from the anchor to the reload edge, and the error of the anchor
  (R320). -/
  | escapeComplete (dA : Nat) (err : Fin 3)
  /-- R326: the RCK cycles counted over 32 768 AOC cycles. -/
  | driftCheck (count : Nat)
  /-- R335: a CLKCTL write. -/
  | clkctlWrite (w : Word)
  /-- R336: a CLKSTAT read. -/
  | clkstatRead
  /-- R331: a GATEEN write. -/
  | gateenWrite (w : Word)
  /-- R331: a block with a pending clear becomes idle. -/
  | gateClearEffect (b : Fin 7)
  /-- R333: an FMCTL write of START. -/
  | fmStart (w : Word)
  /-- R332: an FMCTL write of ABORT. -/
  | fmAbort (w : Word)
  /-- R333: the gate of the measurement has closed on this many MEAS edges. -/
  | fmDone (count : Nat)
  -- Wheel and cams
  /-- R69: a filtered crank tooth edge with its stamp (R16, R30). -/
  | crankToothEdge (stamp : Tb)
  /-- R40: the late deadline of the next tooth. -/
  | lateToothDeadline
  /-- R43: the opposite edge of a tooth pulse. -/
  | directionCodeEdge (stamp : Tb)
  /-- R48: a filtered cam edge with its polarity and stamp. -/
  | camEdge (c : Fin 4) (rise : Bool) (stamp : Tb)
  /-- R42: the window of programmed edge `i` of the sync cam closes. -/
  | camWindowClose (i : Fin 16)
  /-- R51: no sync-cam edge by 1.25 times the predicted interval. -/
  | limpCamTimeout
  /-- R50: no crank tooth edge for STALL × 10 ms. -/
  | stallTimeout
  /-- R60: the command WHEEL_SET. -/
  | wheelSet (a : Args)
  /-- R62: the edge form of CAM_SET. -/
  | camSetEdge (a : Args)
  /-- R62: the header form of CAM_SET. -/
  | camSetHeader (a : Args)
  /-- R63: the command SYNC_POLICY. -/
  | syncPolicy (a : Args)
  /-- R64: the command DIR_SET. -/
  | dirSet (a : Args)
  /-- R83: the command LEARN_CTL. -/
  | learnCtl (a : Args)
  -- Scheduler and reports
  /-- R114: the angle wraps at C. -/
  | cycleStart
  /-- R101: slot `i` is evaluated in its round cycle. -/
  | slotEvaluation (i : Fin 64)
  /-- R105: the armed value of slot `i` is reached. -/
  | slotFire (i : Fin 64)
  /-- R94: the width of a PULSE elapses. -/
  | pulseWidthEnd (ch : Fin 12)
  /-- R96: a write of CTL2 of slot `i` with GO. -/
  | slotGo (i : Fin 64) (w : Word)
  /-- R97: a write of CTL2 of slot `i` with CANCEL. -/
  | slotCancel (i : Fin 64) (w : Word)
  /-- R119: an RPTDAT read. -/
  | reportPop
  /-- R118: an RPTSTAT read. -/
  | rptstatRead
  -- Windows and buffers
  /-- R127: window `w` begins a pass. -/
  | windowPassStart (w : Fin 8)
  /-- R128: a strobe of window `w` that is due issues. -/
  | windowStrobe (w : Fin 8)
  /-- R128: a strobe of window `w` that waited issues late. -/
  | delayedStrobeIssue (w : Fin 8)
  /-- R130: a write of WCTL of window `w` with APPLY. -/
  | windowApply (w : Fin 8) (v : Word)
  /-- R133: the frame claimed by the oldest open strobe completes; `x` holds its samples as for a sense line. -/
  | converterEntry (x : BitVec 82)
  /-- R132: no frame begins within 50 TB ticks of the claim point of the oldest open strobe. -/
  | converterSearchTimeout
  /-- R135: a read at word `j` of a pop port: the converter's when `conv`, else the cam-phase port. -/
  | bufferPop (conv : Bool) (j : Fin 4)
  /-- R136: a CVSTAT read when `conv`, else a PHSTAT read. -/
  | bufferStatusRead (conv : Bool)
  -- Channels
  /-- R146: a frame on SNSn completes; bits 0 and 1 of `x` are the samples before sample 0, and bit k + 2 is sample k. -/
  | senseFrameComplete (n : Fin 8) (x : BitVec 82)
  /-- R148: a frame deadline of a line passes with no detected start (8 is CDAT). -/
  | senseSlotMissing (l : Fin 9)
  /-- R148: a line (8 is CDAT) has held one level for 240 FCLK cycles. -/
  | lineStuckTimeout (l : Fin 9) (high : Bool)
  /-- R155: TBOOST elapses in BOOST. -/
  | tboostElapsed (n : Fin 8)
  /-- R157: the dead time of channel `n` ends. -/
  | deadTimeEnd (n : Fin 8)
  /-- R155: TPEAK elapses from the boost exit. -/
  | tpeakElapsed (n : Fin 8)
  /-- R155: THOLD elapses in HOLD. -/
  | tholdElapsed (n : Fin 8)
  /-- R156: the max on-time of a pulse elapses. -/
  | maxOnTime (n : Fin 12)
  /-- R158: DECMAX elapses in DECAY. -/
  | decayTimeout (n : Fin 8)
  /-- R169: the command CHANNEL_SET. -/
  | channelSet (a : Args)
  /-- R443: the command PROFILE_LOAD. -/
  | profileLoad (a : Args)
  /-- R171: the command PAIR_SET. -/
  | pairSet (a : Args)
  /-- R172: the command SENSE_SCALE. -/
  | senseScale (a : Args)
  -- Brass
  /-- R183: channel `n` issues END. -/
  | brassEnd (n : Fin 8)
  /-- R179: channel `n` issues SETT. -/
  | sett (n : Fin 8) (level : Word) (thr noslew : Bool)
  /-- R179: channel `n` issues SETH. -/
  | seth (n : Fin 8) (hys : Word)
  /-- R178: channel `n` issues WAITT. -/
  | waitt (n : Fin 8) (t : BitVec 24) (abs : Bool)
  /-- R178: the time of a WAITT elapses. -/
  | waittExpiry (n : Fin 8)
  /-- R181: channel `n` issues WAITI. -/
  | waiti (n : Fin 8) (level : Word) (dir : Bool) (tmo : BitVec 12)
  /-- R181: the timeout of a WAITI elapses. -/
  | waitiTimeout (n : Fin 8)
  /-- R176: channel `n` issues BR. -/
  | br (n : Fin 8) (dest : BitVec 5) (inv : Bool) (cond : BitVec 4) (level : Word)
  /-- R180: channel `n` issues BOOST. -/
  | boost (n : Fin 8) (on : Bool)
  /-- R182: channel `n` issues SIG. -/
  | sig (n : Fin 8) (value mask : BitVec 2) (irq : Bool)
  /-- R178: the issue cycle of channel `n`. -/
  | brassIssueCycle (n : Fin 8)
  /-- R186: the instruction form of BRASS_LOAD. -/
  | brassLoadInstruction (a : Args)
  /-- R186: the header form of BRASS_LOAD. -/
  | brassLoadHeader (a : Args)
  /-- R174: a read of SIGIRQ. -/
  | sigirqRead
  -- Trip and diagnostics
  /-- R203: TRIP# is asserted after its filter. -/
  | tripAssert
  /-- R201: TRIP# is released after its filter. -/
  | tripRelease
  /-- R204: the deferral of group `g` ends. -/
  | tripDeferralEnd (g : Fin 4)
  /-- R207: the command TRIP_CLEAR. -/
  | tripClear (a : Args)
  /-- R208: the CHAN form of DIAG_RUN. -/
  | diagRunChan (a : Args)
  /-- R209: the TRIP form of DIAG_RUN. -/
  | diagRunTrip (a : Args)
  /-- R211: the TEST form of DIAG_RUN. -/
  | diagRunTest (a : Args)
  /-- R211: 20 µs have passed without CONF off-frames. -/
  | diagTestWaitTimeout
  /-- R211: TPULSE of the test pulse ends. -/
  | diagTestPulseEnd
  -- Thermal
  /-- R219: a TB value that is a multiple of 10 000. -/
  | thermalTick
  /-- R215: die sensor `k` converts; the reading is in 0.5 °C. -/
  | dieConversion (k : Fin 4) (reading : Int)
  /-- R225: the STAGE form of THERM_SET. -/
  | thermSetStage (a : Args)
  /-- R225: the APPLY form of THERM_SET. -/
  | thermSetApply (a : Args)
  /-- R225: the AMB form of THERM_SET. -/
  | thermSetAmb (a : Args)
  /-- R225: the INIT form of THERM_SET. -/
  | thermSetInit (a : Args)
  /-- R225: the DIE form of THERM_SET. -/
  | thermSetDie (a : Args)
  /-- R227: a read of TW of channel `n`. -/
  | thermCapture (n : Fin 8)
  -- Timers
  /-- R231: the increment of timer `k` that reaches the compare. -/
  | timerMatch (k : Fin 8)
  /-- R230: the increment of timer `k` from 0xFFFF_FFFF. -/
  | timerOverflow (k : Fin 8)
  /-- R232: the gate of one-shot timer `k` leaves the chosen level. -/
  | timerGateStop (k : Fin 8)
  /-- R240: a TIMCTL write of EN = 1 to the selected timer while EN is 0. -/
  | timerRearm (w : Word)
  /-- R236: a TIMCNT_H write. -/
  | countLoad (hi : Word)
  /-- R235: a TIMCMP_H write. -/
  | preloadLoad (hi : Word)
  /-- R242: a TIMFLG write. -/
  | timerFlagClear (w : Word)
  -- Collector
  /-- R246: the collector applies the first event that waits. -/
  | faultEventApply
  /-- R257: the collector's copies differ, or a parity is wrong. -/
  | collectorSelfCheck
  /-- R262: the firmware has missed a refresh of the watchdog. -/
  | watchdogExpiry
  /-- R253: a FLTACK write of ACK. -/
  | faultAck
  /-- R250: a FLTACK write of LIFT bits. -/
  | containmentLift (mask : BitVec 12)
  /-- R266: a FLTACK write of HCLR. -/
  | historyClear
  /-- R258: a FLTACK write of SELFCLR. -/
  | selfClear
  /-- R267: a FLTHIST read. -/
  | historyPop
  /-- R265: a FLTSTAT read. -/
  | fltstatRead
  /-- R269: a read of OSUM. -/
  | openRecordCapture
  /-- R270: the command FSRC_SET. -/
  | fsrcSet (a : Args)
  /-- R271: the COUNT form of FLT_READ. -/
  | fltReadCount (a : Args)
  /-- R271: the CLEAR form of FLT_READ. -/
  | fltReadClear (a : Args)
  /-- R271: the HIST form of FLT_READ. -/
  | fltReadHist (a : Args)
  -- Link
  /-- R276: the receiver acquires symbol lock. -/
  | lockAcquired
  /-- R276: the receiver loses symbol lock. -/
  | lockLost
  /-- R293: a break, upstream when `up`. -/
  | linkBreak (up : Bool)
  /-- R284: the master receives a slot and sends its next one. -/
  | slotTransmit (rx : RxSlot)
  /-- R283: a member may replace the empty odd slot that it forwards by a local frame. -/
  | localInjection
  /-- R285: a malformed slot is met by an endpoint. -/
  | linkFrameError (rx : RxSlot)
  /-- R287: a TOOTH frame recognised at TB `trx`, and what arrived in the next even slot. -/
  | toothRecord (tooth : Frame) (next : RxSlot) (trx : Tb)
  /-- R287: a STATE1 frame. -/
  | state1 (f : Frame)
  /-- R290: a STATE2 frame. -/
  | state2 (f : Frame)
  /-- R288: a CONFIG frame. -/
  | config (f : Frame)
  /-- R288: the mirror deadline of a missing record. -/
  | recordMissingDeadline
  /-- R299: a FAULT frame. -/
  | faultFrame (f : Frame)
  /-- R297: a HOST frame. -/
  | hostFrame (f : Frame)
  /-- R297: a CREDIT frame. -/
  | creditFrame (f : Frame)
  /-- R302: a JOIN frame; `delay` is the loop delay that a master measures at its return. -/
  | joinFrame (f : Frame) (delay : Nat)
  /-- R298: a REMOTE frame. -/
  | remoteFrame (f : Frame)
  /-- R297: a REPLY frame. -/
  | replyFrame (f : Frame)
  /-- R301: a JOIN frame has not returned within 100 µs. -/
  | joinTimeout
  /-- R303: the command LINK_ROLE with ROLE 0 to 2. -/
  | linkRole (a : Args)
  /-- R300: the QUERY form of LINK_ROLE. -/
  | linkRoleQuery (a : Args)
  /-- R301: the command LINK_JOIN. -/
  | linkJoin
  /-- R296: the SEND form of LINK_SEND. -/
  | linkSend (a : Args)
  /-- R453: the RECV form of LINK_SEND. -/
  | linkSendRecv (a : Args)
  /-- R296: the REMOTE form of LINK_SEND. -/
  | linkSendRemote (a : Args)
  /-- R453: the DATA form of LINK_SEND. -/
  | linkSendData (a : Args)
  -- Store and lifecycle
  /-- R377: the command STORE_READ. -/
  | storeRead (a : Args)
  /-- R375: a STORE_READ that waited for a power-fail commit is served. -/
  | storeReadComplete
  /-- R378: the COMMIT form of STORE_COMMIT. -/
  | storeCommit (a : Args)
  /-- R378: the CLEAR form of STORE_COMMIT. -/
  | storeCommitClear (a : Args)
  /-- R370: the read-back of a commit ends, with its outcome. -/
  | commitComplete (ok : Bool)
  /-- R383: the KEY form of LIFECYCLE_ADVANCE. -/
  | lifecycleAdvanceKey (a : Args)
  /-- R383: the STEP form of LIFECYCLE_ADVANCE. -/
  | lifecycleAdvanceStep (a : Args)
  /-- R382: the write of a key-area word completes. -/
  | keyWriteComplete
  /-- R457: the command UNLOCK_CHALLENGE. -/
  | unlockChallenge (a : Args)
  /-- R458: the command UNLOCK_ANSWER. -/
  | unlockAnswer (a : Args)
  /-- R392: the check of an answer ends. -/
  | answerCheckComplete
  /-- R392: 32 768 AOC cycles of lockout have passed. -/
  | lockoutEnd
  -- Debug port
  /-- R394: a line reset. -/
  | lineReset
  /-- R394: 32 768 LRC cycles without a DBGCK edge. -/
  | detachTimeout
  /-- R396: a header with a wrong PAR, STOP or PARK. -/
  | debugHeaderError
  /-- R398: an HRD or HWR of the register at byte address 2A, and the DRD and DWR of R397 that no row of their own
  covers (log 25); `parity` tells whether the data parity of a write is right. -/
  | debugHostAccess (op : DbgOp) (a : BitVec 6) (data : Word) (parity : Bool)
  /-- R400: a DCTL write of HALT. -/
  | halt (on : Bool)
  /-- R401: a DCTL write of PTEST. -/
  | ptest (on : Bool)
  /-- R399: a DCTL write of WAKE. -/
  | wake (ref : RefEdge)
  /-- R399: a DCTL write of DRESET, with the level of MODE at the release. -/
  | dreset (mode : Bool)
  /-- R390: a DCTL write of CHAL. -/
  | chal
  /-- R396: a DCTL write of CLRERR. -/
  | clrerr
  /-- R394: a DCTL write of DETACH. -/
  | detach
  /-- R397: a DCHAL read. -/
  | dchalRead
  /-- R397: a DANS write. -/
  | dansWrite (w : Word)
  /-- R401: a DPIN write. -/
  | dpinWrite (w : Word)
  -- Host bus and mailbox
  /-- R424: an INTSTAT write. -/
  | interruptClear (w : Word)
  /-- R85: an ANGLE_L read. -/
  | angleCapture
  /-- R427: a TB_0 read. -/
  | tbCapture
  /-- R411: a host write; in legacy mode the low byte is the data. -/
  | registerWrite (addr : BitVec 8) (w : Word)
  /-- R429: a submitted command that waited starts running. -/
  | mailboxCommandStart
  /-- R435: the command in progress is cut short by a reset of the firmware core. -/
  | commandInterrupted
  -- Emitter
  /-- R501: the command EMIT_START. -/
  | emitStart (a : Args)
  /-- R508: the command EMIT_STOP. -/
  | emitStop
  /-- R499: a position step of the emitter ends. -/
  | emitStep
  /-- R500: the emitter's angle reaches a programmed angle of cam `c`. -/
  | emitCamEdge (c : Fin 3)
  -- Legacy
  /-- R464: the end of the legacy B1, with the outcome of the ROM check. -/
  | legacyReady (ok : Bool)
  /-- R467: an LCTL write. -/
  | lctlWrite (v : Byte)
  /-- R469: an LWHEEL write. -/
  | lwheelWrite (v : Byte)
  /-- R477: an LEVCMD write with ARM. -/
  | legacyArm (v : Byte)
  /-- R477: an LEVCMD write with CANCEL. -/
  | legacyCancel (v : Byte)
  /-- R478: the legacy tick of armed slot `i` is reached. -/
  | legacySlotFire (i : Fin 16)
  /-- R473: an LANGL read. -/
  | legacyAngleCapture
  /-- R474: an LPERL read. -/
  | legacyPeriodCapture
  /-- R481: an LPROFDAT write, or a read when no byte is given. -/
  | lprofdatAccess (v : Option Byte)
  /-- R482: a boost, dead or peak phase of channel `n` ends. -/
  | legacyPhaseEnd (n : Fin 8)
  /-- R482: a PWM period of channel `n` starts, or its high time ends. -/
  | legacyPwmPeriod (n : Fin 8)
  /-- R483: MAXON of channel `n` elapses. -/
  | legacyMaxon (n : Fin 8)
  /-- R485: TRIP# is asserted after the legacy filter. -/
  | legacyTripAssert
  /-- R486: a write of 1 to LDIAG.TRIPLAT. -/
  | triplatClear
  /-- R491: an LSTAT write. -/
  | lstatClear (v : Byte)
  /-- R487: the increment of legacy timer `k` that reaches the compare. -/
  | legacyTimerMatch (k : Fin 2)
  /-- R487: the increment of legacy timer `k` from 0xFFFF. -/
  | legacyTimerOverflow (k : Fin 2)
  /-- R488: an LTIMCNTH write. -/
  | legacyCountLoad (hi : Byte)
  /-- R489: an LTIMCMPH write. -/
  | legacyCompareLoad (hi : Byte)
  /-- R487: an LTIMCTL write. -/
  | ltimctlWrite (v : Byte)
  -- Rows that the table lists last
  /-- R419: a read of WINDAT. -/
  | windatRead
  /-- R281: a follower forwards one slot. -/
  | cutThroughForward (rx : RxSlot)
  /-- R280: a frame of reserved TYPE. -/
  | reservedFrame (f : Frame)
  /-- R431: a submission of an unassigned code. -/
  | unassignedCommand (code : BitVec 8) (a : Args)
  /-- R468: an LOUTEN write. -/
  | loutenWrite (v : Byte)
  /-- R494: FCO stops in legacy mode. -/
  | legacyFcoStop
  /-- R325: LRC edges return. -/
  | lrcReturn
  /-- R513: VDDIOA falls while the device runs. -/
  | vddioaLoss
  /-- R534: VDDIOA rises past its detector threshold; the level of MODE if a held reset is released. -/
  | vddioaReturn (mode : Bool)
deriving DecidableEq, Repr

end Sys2Proof
end

