-- ==== Sys2Proof/Config.lean ====
section
/-! DEFINITION. The values that the spec leaves open and that nothing in the model may evaluate
(log entry 9): each is an opaque constant without a body. -/

namespace Sys2Proof.Config

/-- The n-th draw of the on-chip random generator (R390): the 128 bits of a challenge. -/
opaque random : Nat → BitVec 128

/-- The unique identifier of the part (R397, R440): UID words 0 to 3, word 0 in the low bits. -/
opaque uid : BitVec 64

/-- The error of the factory trim of FCO, in counts of one FLL window (R307 bounds it by 1.5 %). -/
opaque factoryTrim : Int

/-- Whether PWRSTAT.STATE reads IDLE at this TB (R338): automatic gating fixes no value. -/
opaque idleSeen : Tb → Bool

/-- A byte of the array at an address of a bank that a commit has erased or left invalid, by the draw: the spec
fixes only that MAGIC is erased (R370, R371). -/
opaque arrayByte : Nat → Nat → Byte

/-- How many words of the record a running commit has programmed when a read looks, by the draw: R370 gives their order and
not their times. -/
opaque commitWords : Nat → Nat

/-- The ring size that a member's check of DST goes by, by the draw at its JOIN frame: no frame tells it (R302, R453). -/
opaque ringEnd : Nat → Nat

/-- Whether a power-on reset without VDDIOA comes with a first rise of the supplies, by the draw (R534). -/
opaque firstRise : Nat → Bool

/-- Detail [1:0] of source 39 when the mirror becomes invalid for a reason that R305 does not list. -/
opaque otherLoss : BitVec 2

/-- GEOM[pn].ACT of a follower's synthetic tooth, by the position pn: no record has carried it (R288, R71). -/
opaque unsentAct : Nat → BitVec 16

/-- Detail [10:0] of source 31 where no count of AOC cycles has failed: the loss of AOC and the fast-domain check
(R322, R325, R357). -/
opaque lossCount : BitVec 11

/-- Whether a key-area word that is being written when a reset falls holds its new value, by the draw (R361). -/
opaque keyLanded : Nat → Bool

/-- Whether a rising edge of AOC falls in this TB tick: the spec fixes no phase of AOC against TB (R320). -/
opaque aocEdge : BitVec 48 → Bool

/-- The reference edge of a wake whose row carries none, by TB: AOC cycles from the anchor to it, and FCO cycles from it
to the resumption (R352). -/
opaque wakeRef : BitVec 48 → Nat × Nat

/-- What DCHAL returns while no challenge is in force, by the index of the word: the spec states no value (R397). -/
opaque idleChal : Nat → BitVec 16

/-- PH and the edge index of a measured edge of a polarity that no programmed edge of its cam has, by the draw: R122 names
no matched edge there. -/
opaque noMatch : Nat → BitVec 20

/-- The quotient of a division whose divisor is 0, by the dividend: the spec states no result. -/
opaque divByZero : Int → Int

end Sys2Proof.Config
end

