-- ==== Sys2Proof/Machine/State.lean ====
section
/-! DEFINITION. The state of the ET6432 as plain data, one structure for each block of R16's table.
The default value of a field is its value at State.reset; INVENTORY.md names the rule that gives it. -/

namespace Sys2Proof.Machine

/-- No command of the block ends in a fault: an anomaly is an event of one of the 48 sources (R245). -/
inductive Fault
deriving DecidableEq, Repr

/-- Reasons for which the model gives a command no meaning. -/
inductive Refusal where
  /-- Raised only by an arm of exec that has no meaning yet. Safe: nothing is claimed of that command. -/
  | notModelled (mnemonic : String)
deriving DecidableEq, Repr

/-! ### Mode, power, reset and boot -/

/-- The face latched from MODE (R4). -/
inductive Face where
  | native
  | legacy
deriving DecidableEq, Repr

/-- The power states of R337; automatic gating makes no state of its own (R338). -/
inductive Pwr where
  | run
  | entering
  | stop
  | standby
deriving DecidableEq, Repr

/-- An edge held by the wake capture with its coarse stamp (R353). -/
structure CapEdge where
  src : EdgeSrc
  rise : Bool
  stamp : Tb
deriving DecidableEq, Repr

/-- Mode, power, reset and boot. -/
structure Sys where
  face : Face := .native
  pwr : Pwr := .run
  /-- PWRSTAT.BOOT, 0 while B0 runs (R341). -/
  boot : Nat := 0
  inReset : Bool := false
  /-- The first power-on reset waits for VDDIOA (R534). -/
  porHold : Bool := false
  vddioa : Bool := true
  /-- SYSCTL.OE (R415). -/
  oe : Bool := false
  /-- The output disable held by the FCLK stop detector or the supervisor (R317, R318). -/
  odStop : Bool := false
  rstCause : Nat := 0
  wakeSrc : Nat := 0
  fromStop : Bool := false
  fromStby : Bool := false
  refuse : Nat := 0
  resdef : Bool := false
  pfail : Bool := false
  wcrank : Bool := false
  wcam : Bool := false
  wcs : Bool := false
  wlink : Bool := false
  wtmr : Bool := false
  wunit : Bool := false
  wtim : Nat := 0
  /-- A wake latched during an entry: the lowest code (R350, R351). -/
  wakeLatch : Option Nat := none
  /-- The debug port has asked for a wake during the entry (R399). -/
  latchDbg : Bool := false
  capture : List CapEdge := []
  /-- Coarse stamps in use, and the crank edges captured or taken as coarse since the wake (R57). -/
  coarse : Bool := false
  coarseSeen : Nat := 0
  /-- The captured edges of this wake are discarded (R353, AOCOK = 0). -/
  coarseOff : Bool := false
  /-- The chip is in a wake from STANDBY, in B0 to B3 (R356). -/
  stbyWake : Bool := false
  /-- Edges of cams captured since the capture was armed (R353). -/
  capCams : Nat := 0
  /-- The lowest code of the wake sources that have occurred while the wake has not begun: of the fall of CS#, of a captured
  edge, of a PFAIL that stands at the entry into STOP (R350, R355). -/
  wakeReq : Option Nat := none
  /-- The debug port has asked for the wake from STOP that has not begun: the AOC edge that serves as its reference (R399). -/
  dbgRef : Option RefEdge := none
deriving DecidableEq, Repr

/-! ### Clocks -/

/-- States of the supervisor (R318). -/
inductive Sup where
  | run
  | switching
  | held
  | escape
deriving DecidableEq, Repr

/-- The frequency meter (R332 to R334). -/
structure Meter where
  refSel : Nat := 0
  meas : Nat := 0
  nexp : Nat := 0
  ovf : Bool := false
  busy : Bool := false
  done : Bool := false
  res : Nat := 0
deriving DecidableEq, Repr

/-- The frequency lock of FCO (R310, R311). -/
structure Fll where
  /-- The trim in force, in sixteenths of a count of one window. -/
  trim : Int := 16 * Config.factoryTrim
  /-- Error of the last window, in FCO counts (R322). -/
  err : Int := 0
  lock : Bool := false
  good : Nat := 0
  bad : Nat := 0
  /-- Windows for which FCO still holds its trim after an unlock. -/
  hold : Nat := 0
  slew : Bool := false
deriving DecidableEq, Repr

/-- Clocks and the supervisor. -/
structure Clk where
  tb : Tb := 0
  /-- FCLK cycles since the origin of R178: the issue count and the evaluation rounds (R104). -/
  fcyc : Nat := 0
  /-- The part of the TB tick in progress whose rows fall due next, 0 between ticks: the model's own field (log 3). -/
  phase : Nat := 0
  fclkOn : Bool := false
  fdReset : Bool := false
  aocok : Bool := false
  aocCount : Nat := 0
  fcoOn : Bool := true
  fcook : Bool := false
  rckok : Bool := false
  holdover : Bool := false
  lrcok : Bool := false
  /-- The fast domain has found LRC missing since it last saw it (R325). -/
  lrcLost : Bool := false
  fll : Fll := {}
  /-- CLKSTAT.SEL: FCLK is taken from RCK. -/
  sel : Bool := false
  sup : Sup := .run
  /-- The forced target of the escape is RCK (R319). -/
  escRck : Bool := false
  drift : Bool := false
  esc : Bool := false
  tbgap : Bool := false
  /-- CLKCTL.SRC = 1 (R335). -/
  srcRck : Bool := false
  fcostby : Bool := false
  drw : Nat := 4
  /-- A CLKCTL write in SWITCH, which waits for the end of the switch (R335). -/
  ctlNext : Option Word := none
  gateen : BitVec 7 := 0x7F
  gateEff : BitVec 7 := 0x7F
  /-- The anchor: TB at the last rising edge of AOC while FCLK ran (R320, R348). -/
  anchor : Tb := 0
  /-- TB at the latest AOC edge and at the one before it, also those of a wake from STOP, for coarse stamps (R353). -/
  aocTb : Tb := 0
  aocPrev : Tb := 0
  fm : Meter := {}
deriving DecidableEq, Repr

/-! ### Wheel decoder and cams -/

/-- States of R45. -/
inductive Sync where
  | nosync
  | gap
  | confirm
  | sync
  | limp
  | reverse
deriving DecidableEq, Repr

/-- The fields of SYNC_POLICY (R63). -/
structure Policy where
  badlo : Nat := 10
  badhi : Nat := 32
  syncap : Nat := 1
  k : Nat := 3
  gapverify : Bool := false
  camloss : Bool := false
  stall : Nat := 50
  limpen : Bool := false
  limpmask : BitVec 13 := 0
deriving DecidableEq, Repr

/-- A programmed cam edge (R33). -/
structure CamEdge where
  pol : Bool
  angle : Nat
deriving DecidableEq, Repr

/-- One cam input (R33 to R36, R62). -/
structure Cam where
  en : Bool := false
  /-- Edge mode: 0 rising, 1 falling, 2 both. -/
  mode : Nat := 0
  tol : Nat := 0
  sync : Bool := false
  /-- Applied programmed edges, edge 0 first. -/
  edges : List CamEdge := []
  staged : Vector (Option CamEdge) 16 := Vector.replicate 16 none
  /-- Arguments of the last applied header (R364). -/
  hdr : Args := ⟨0, 0, 0, 0⟩
deriving DecidableEq, Repr

/-- The crank wheel in force (R60). -/
structure WheelCfg where
  n : Nat := 0
  m : Nat := 0
  two : Bool := false
  edge : Bool := false
  filter : Nat := 0
  offset : Nat := 0
deriving DecidableEq, Repr

/-- Arguments of the last accepted decoder commands, kept for the resume section (R364). -/
structure WheelArgs where
  wheel : Args := ⟨0, 0, 0, 0⟩
  policy : Args := ⟨0x0C0A, 0x3203, 0, 0⟩
  dir : Args := ⟨0, 6000, 0, 0⟩
  learn : Args := ⟨0x1000, 0x0510, 3277, 0⟩
deriving DecidableEq, Repr

/-- The wheel decoder. -/
structure Wheel where
  cfgd : Bool := false
  cfg : WheelCfg := {}
  pol : Policy := {}
  /-- An accepted SYNC_POLICY that waits for the next crank tooth edge (R63). -/
  polNext : Option Policy := none
  /-- K as taken at the entry into CONFIRM (R63). -/
  kNow : Nat := 3
  dirPulse : Bool := false
  sense : Bool := false
  thresh : Nat := 6000
  st : Sync := .nosync
  dir : Bool := false
  stallF : Bool := false
  confcnt : Nat := 0
  syncnt : Nat := 0
  badRun : Nat := 0
  pos : Nat := 0
  half : Nat := 0
  /-- Stamp from which the next tooth period is measured (R31). -/
  tPrev : Option Tb := none
  /-- Stamp of the last fine tooth edge outside the position-knowing states (R32, R87). -/
  tFine : Option Tb := none
  /-- Periods of the gap search, the newest first, at most three (R37). -/
  periods : List Nat := []
  gapsSeen : Nat := 0
  halfRes : Bool := false
  camTo : Bool := false
  stallFrom : Option Tb := none
  /-- Stamp of the tooth edge whose pulse width is being measured, and its tooth period (R43, R44). -/
  pulse : Option (Tb × Nat) := none
  /-- Period and span of the last accepted or synthetic tooth (R44, R474). -/
  lastP : Nat := 0
  lastG : Nat := 1
  /-- Per programmed sync-cam edge: its window counts as matched in this pass (R42). -/
  winHit : Vector Bool 16 := Vector.replicate 16 false
  /-- TB of the last close of each window. -/
  winShut : Vector (Option Tb) 16 := Vector.replicate 16 none
  /-- Polarity and stamp of the last sync-cam edges, the newest first (R51). -/
  limpHist : List (Bool × Tb) := []
  /-- A gap confirmed by a coarse edge gave the position, and the predictor has not started yet (R57; log 16). -/
  bare : Bool := false
  /-- In LIMP: index of the last matched edge, its stamp, and TB ticks predicted to the next edge. -/
  limpIdx : Nat := 0
  limpAt : Tb := 0
  limpPred : Nat := 0
  /-- The decoder's own angle in the previous and in the present TB tick (R42). -/
  prevAngle : Nat := 0
  nowAngle : Nat := 0
  args : WheelArgs := {}
deriving DecidableEq, Repr

/-! ### Predictor and geometry -/

/-- The predictor state of R68, with the counts of R73. -/
structure Pred where
  th16 : Nat := 0
  tk : Tb := 0
  ak : Nat := 0
  uk : Nat := 0
  sF : Int := 0
  nA : Nat := 0
  ppred : Nat := 1
  o2 : Bool := false
  syn : Bool := false
  havePrev : Bool := false
  slopes : Nat := 0
  teeth : Nat := 0
deriving DecidableEq, Repr

/-- A GEOM entry (R84). -/
structure GeomE where
  act : Int := 0
  shd : Int := 0
  res : Int := 0
  rmax : Nat := 0
deriving DecidableEq, Repr

/-- Learning settings and partial sums (R79, R80, R83). -/
structure Learn where
  mode : Nat := 0
  cycles : Nat := 16
  blend : Nat := 16
  steady : Nat := 5
  resth : Nat := 3277
  resrep : Bool := false
  sums : Vector Int 256 := Vector.replicate 256 0
  counted : Nat := 0
  /-- Stamp of the position-0 tooth that began the revolution, its later stamps, and whether it was clean. -/
  t0 : Option Tb := none
  stamps : List (Nat × Tb) := []
  clean : Bool := false
  lastRev : Option Nat := none
deriving DecidableEq, Repr

/-- The tooth-geometry table (R84). -/
structure Geom where
  e : Vector GeomE 256 := Vector.replicate 256 {}
  src : Nat := 0
  ready : Bool := false
  swaps : Nat := 0
  tableN : Nat := 0
  tableM : Nat := 0
  learn : Learn := {}
deriving DecidableEq, Repr

/-! ### Scheduler and reports -/

/-- Words 0 to 4 of a slot (R89). -/
structure SlotW where
  angl : Word := 0
  ctl1 : Word := 0
  hor : Word := 0
  param : Word := 0
  ctl2 : Word := 0
deriving DecidableEq, Repr

/-- STAT.STATE (R92). -/
inductive SlotSt where
  | empty
  | pending
  | armed
  | retired
deriving DecidableEq, Repr

/-- What a pending slot waits for (R99, R100). -/
inductive SlotRef where
  /-- The reference equals the target: due at once, not late. -/
  | due
  /-- Late at once. -/
  | late
  /-- The next time the angle reaches the target, with Dc at the previous evaluation. -/
  | wait (dc : Nat)
  /-- Re-pended at the target: the occurrence lies one cycle later, with Dc at the previous evaluation. -/
  | repend (dc : Nat)
deriving DecidableEq, Repr

/-- One event slot (R89 to R92, R554). -/
structure Slot where
  staged : SlotW := {}
  live : SlotW := {}
  /-- The waiting content; NEXT reads 1 while there is one (R554). -/
  waiting : Option SlotW := none
  st : SlotSt := .empty
  hold : Bool := false
  last : Nat := 0
  shift : Bool := false
  atb : Tb := 0
  late : Bool := false
  /-- Cycle assigned at arming (R115). -/
  cyc : Word := 0
  /-- Dc at an arming that found the target behind the angle: late, or just past (R97). -/
  past : Option Nat := none
  ref : SlotRef := .due
deriving DecidableEq, Repr

/-- The event scheduler. -/
structure Sched where
  slots : Vector Slot 64 := Vector.replicate 64 {}
  cntLate : Nat := 0
  cntDrop : Nat := 0
  cntShift : Nat := 0
  /-- TB of the last pin action of DRV0 to DRV11 and of CSTB (R102). -/
  lastFire : Vector (Option Tb) 13 := Vector.replicate 13 none
  seq : Word := 0
  /-- The ranks of the records created in the tick `ranksAt`, in the order of their SEQ (R112). -/
  ranks : List Nat := []
  ranksAt : Tb := 0
  cyc : Word := 0
  /-- TB of the last change of CYC, and CYC before it: a stamp that lies before has the earlier value (R139). -/
  cycAt : Tb := 0
  cycPrev : Word := 0
  /-- ANGLE of the previous and of the present TB tick, as the tick found them (R114, R127). -/
  prevAngle : Nat := 0
  nowAngle : Nat := 0
  /-- What ANGLE counts from in the present tick: 0 nothing, 1 the revolution, 2 the cycle; and whether that has changed in
  it, so that ANGLE has jumped (R75, R127). -/
  angRef : Nat := 0
  angJump : Bool := false
  /-- Round cycle of the last evaluation of each slot, in FCLK cycles (R104). -/
  evalAt : Vector (Option Nat) 64 := Vector.replicate 64 none
deriving DecidableEq, Repr

/-- Four words: a report record, a history record or a buffer entry. -/
structure Quad where
  w0 : Word := 0
  w1 : Word := 0
  w2 : Word := 0
  w3 : Word := 0
deriving DecidableEq, Repr

/-- The report FIFO (R117 to R119). -/
structure Rpt where
  fifo : List Quad := []
  wptr : Nat := 0
  held : Quad := {}
  lost : Nat := 0
  /-- Records that a full FIFO has dropped in the tick `dropAt`, and LOST before them: a pop in the same tick takes
  effect first (R26). -/
  dropped : List Quad := []
  dropAt : Tb := 0
  lostWas : Nat := 0
deriving DecidableEq, Repr

/-! ### Cam phase and sampling -/

/-- Cam phase of one cam (R124, R125, R138). -/
structure CpcCam where
  cfg : Word := 0
  target : Word := 0
  band : Word := 0
  acc : Int := 0
  lastph : Int := 0
  out : Bool := false
  valid : Bool := false
  cnt : Nat := 0
deriving DecidableEq, Repr

/-- Live fields of an angle window (R126). -/
structure WinLive where
  start : Nat := 0
  stop : Nat := 0
  count : Nat := 0
  en : Bool := false
  limp : Bool := false
deriving DecidableEq, Repr

/-- One angle window (R126 to R130). -/
structure Win where
  w0 : Word := 0
  w1 : Word := 0
  w2 : Word := 0
  w3 : Word := 0
  live : WinLive := {}
  /-- A copy that waits for the end of the pass; STAGED reads 1. -/
  copy : Option WinLive := none
  bad : Bool := false
  active : Bool := false
  /-- Index of the next strobe to issue. -/
  k : Nat := 0
  /-- In this tick a_0 was crossed, half a cycle or more after the crossing before (R127). -/
  cross : Bool := false
  /-- Forward travel since a_0 in this pass, in ticks. -/
  trav : Nat := 0
  /-- Forward travel since the last crossing of a_0; none before the first. -/
  sinceCross : Option Nat := none
  /-- Ticks in which the strobes that have not issued yet fell due, the oldest first. -/
  dueAt : List Tb := []
deriving DecidableEq, Repr

/-- An outstanding strobe (R132, R133): the claim's outcome is its ERR and its RESULT. -/
structure Strobe where
  issue : Tb
  angle : Nat
  src : Nat
  dly : Bool
  cyc0 : Bool
deriving DecidableEq, Repr

/-- A buffer of the block with its holding register (R134, R135). -/
structure Buf where
  q : List Quad := []
  lost : Nat := 0
  held : Quad := {}
  /-- Entries overwritten in the tick `goneAt`, and LOST before them: a pop in the same tick takes effect first. -/
  gone : List Quad := []
  goneAt : Tb := 0
  lostWas : Nat := 0
deriving DecidableEq, Repr

/-- Cam phase and sampling. -/
structure Cpc where
  cams : Vector CpcCam 4 := Vector.replicate 4 {}
  wins : Vector Win 8 := Vector.replicate 8 {}
  clat : Nat := 0
  cvthr : Nat := 0
  phthr : Nat := 0
  lastStrobe : Option Tb := none
  /-- Start of the CSTB pulse in progress, if the output disable has not ended it (R128, R144). -/
  strobeAt : Option Tb := none
  strobes : List Strobe := []
  ph : Buf := {}
  cv : Buf := {}
deriving DecidableEq, Repr

/-! ### Channels and sense lines -/

/-- States of R159 and R161, in the order of their codes. -/
inductive ChSt where
  | off
  | idle
  | boost
  | dead
  | peak
  | hold
  | prog
  | decay
  | contained
  | tripped
  | low
  | high
deriving DecidableEq, Repr

/-- A profile (R154). -/
structure Prof where
  peak : Nat := 0
  hold : Nat := 0
  tboost : Nat := 0
  tpeak : Nat := 0
  thold : Nat := 0
  hysp : Nat := 0
  hysh : Nat := 0
  maxon : Nat := 0
deriving DecidableEq, Repr

/-- What holds a Brass program (R178, R181). -/
inductive BrWait where
  | none
  | time (stop : Tb)
  | boostOff
  | current (code : Nat) (le : Bool) (tmo : Option Tb)
deriving DecidableEq, Repr

/-- The Brass program of a channel (R174, R177). -/
structure Prog where
  pc : Nat := 0
  entry : Nat := 0
  run : Bool := false
  wait : BrWait := .none
  timedOut : Bool := false
  siga : Bool := false
  sigb : Bool := false
  thr : Bool := false
  /-- Target before the throttle reduction, in codes (R179, R221). -/
  full : Nat := 0
  issued : Nat := 0
  /-- First FCLK cycle in which the next instruction may issue. -/
  next : Nat := 0
deriving DecidableEq, Repr

/-- The regulation of a channel (R152, R153). -/
structure Reg where
  target : Nat := 0
  teff : Nat := 0
  h : Nat := 0
  /-- The next valid frame is the first after a retarget. -/
  retarget : Bool := false
  /-- The retarget in progress proceeds as with SLEW = 0 (R179). -/
  noslew : Bool := false
  /-- Decisions wait for the end of this dead time (R157). -/
  deadTo : Option Tb := none
deriving DecidableEq, Repr

/-- Settings of a channel (R140, R150, R169). -/
structure ChCfg where
  mode : Nat := 0
  boostuse : Bool := false
  slew : Nat := 0
  decthr : Nat := 16
  decmax : Nat := 1000
  scale : Nat := 0
  scpend : Nat := 0
deriving DecidableEq, Repr

/-- The pulse in progress on a channel (R155, R156). -/
structure Pulse where
  startAt : Tb := 0
  prof : Prof := {}
  cPeak : Nat := 0
  cHold : Nat := 0
  cHysp : Nat := 0
  cHysh : Nat := 0
  /-- Instant from which TPEAK counts; none before the boost exit. -/
  exitAt : Option Tb := none
  /-- TPEAK has elapsed during DEAD. -/
  peakOver : Bool := false
  /-- Instant of the end of peak, from which THOLD counts. -/
  holdAt : Tb := 0
  /-- Max on-time in TB ticks from the start of the pulse; 0: the image gives none. -/
  maxTicks : Nat := 0
  /-- End of a PULSE (R94). -/
  pulseEnd : Option Tb := none
  /-- Entry into DECAY, and the frames at or below DECTHR counted in it. -/
  decAt : Tb := 0
  decRun : Nat := 0
  /-- Every word of the copied profile is zero: the pulse ends at its first valid frame (R154). -/
  blank : Bool := false
deriving DecidableEq, Repr

/-- One actuator channel. -/
structure Chan where
  cfg : ChCfg := {}
  st : ChSt := .off
  /-- The decided level of DRVn, which the pin takes with the latency of R19. -/
  drv : Bool := false
  /-- TB of the last rise and of the last fall of the pin. -/
  riseAt : Option Tb := none
  /-- TBLANK as it was at that rise (R209). -/
  riseBlank : Nat := 50
  fallAt : Option Tb := none
  pulse : Pulse := {}
  reg : Reg := {}
  /-- A boost request is held. -/
  breq : Bool := false
  /-- Forced low by BOOSTEN (R157). -/
  forced : Bool := false
  /-- Contained by the collector (R249), and through its own wire break (R165). -/
  cont : Bool := false
  /-- The tick of the last containment by the collector, and whether the channel was contained before that tick (R250). -/
  contAt : Option Tb := none
  contWas : Bool := false
  own : Bool := false
  /-- A pair regulates on one line (R164): the healthy line is the upper one when the value is true. -/
  fallback : Option Bool := none
  /-- Current of the last valid frame that the channel decides on; of a pair the sum of R163 (R176). -/
  lastI : Nat := 0
  /-- Consecutive slots without a valid frame, of a pair also decisions without a fresh upper frame (R149, R163). -/
  gaps : Nat := 0
  prog : Prog := {}
deriving DecidableEq, Repr

/-- State shared by the channels. -/
structure Chs where
  /-- The decided level of BOOSTEN, and the channels that held a request when it fell last (R157, R203). -/
  boosten : Bool := false
  held : Vector Bool 12 := Vector.replicate 12 false
  profs : Vector Prof 16 := Vector.replicate 16 {}
  stage : Vector Word 8 := Vector.replicate 8 0
  pairs : Vector Bool 4 := Vector.replicate 4 false
deriving DecidableEq, Repr

/-- A sense line or CDAT (R145 to R149, R167). -/
structure Line where
  ferr : Nat := 0
  missing : Nat := 0
  good : Nat := 0
  wbrk : Bool := false
  wbrkAt : Tb := 0
  lastI : Nat := 0
  lastDl : Nat := 0
  lastOt : Bool := false
  any : Bool := false
  /-- TB of the last valid frame's completion. -/
  lastAt : Option Tb := none
  /-- FCLK cycle of the last frame's completion: the hunt for the next start began one cycle before it (R146). -/
  doneAt : Option Nat := none
  /-- Deadline of the next detected start, in FCLK cycles (R148). -/
  deadline : Option Nat := none
  /-- The level driven when the deadline passed (R218). -/
  dueLvl : Bool := false
  /-- The immediately preceding slot held a valid frame (R193). -/
  prevOk : Bool := false
deriving DecidableEq, Repr

/-! ### Brass store -/

/-- A directory entry (R173). -/
structure BrDir where
  base : Nat := 0
  len : Nat := 0
  maxon : Nat := 0
deriving DecidableEq, Repr

/-- The Brass store. -/
structure Brass where
  code : Vector (BitVec 32) 256 := Vector.replicate 256 0
  dir : Vector BrDir 16 := Vector.replicate 16 {}
  staged : Vector (BitVec 32) 32 := Vector.replicate 32 0
  sigirq : BitVec 8 := 0
deriving DecidableEq, Repr

/-! ### Diagnostics and trip -/

/-- Diagnostics of a channel (R194, R208, R212). -/
structure DiagCh where
  en : Bool := true
  nocur : Nat := 16
  oclim : Nat := 4095
  didt : Nat := 255
  nrise : Nat := 8
  conf : Nat := 4
  cls : Nat := 0
  cand : Nat := 0
  cnt : Nat := 0
  lastbad : Nat := 0
  lastrun : Nat := 0
  dcnt : Nat := 0
  /-- On-frames since the last rise. -/
  onIdx : Nat := 0
deriving DecidableEq, Repr

/-- Steps of a DIAG_RUN TEST (R211). -/
inductive TestPh where
  | wait
  | pulse
  | decay
  /-- Step 1 is over, and the next channel is due: both wait for the firmware, which is halted (R27). -/
  | over
  | next
deriving DecidableEq, Repr

/-- A running DIAG_RUN TEST (R210, R211). -/
structure DTest where
  mask : BitVec 8
  pulse : Bool
  tpulse : Nat
  ch : Nat := 0
  ph : TestPh := .wait
  since : Tb := 0
  /-- Consecutive off-frames and the verdict of each of the (at most two) lines tested together. -/
  offs : Vector Nat 2 := Vector.replicate 2 0
  verdict : Vector Nat 2 := Vector.replicate 2 0
  sawI : Vector Bool 2 := Vector.replicate 2 false
  pv : Vector Nat 2 := Vector.replicate 2 0
  res : Vector Nat 8 := Vector.replicate 8 0
deriving DecidableEq, Repr

/-- Load diagnostics. -/
structure Diag where
  ch : Vector DiagCh 8 := Vector.replicate 8 {}
  test : Option DTest := none
deriving DecidableEq, Repr

/-- The trip input (R200 to R206, R212). -/
structure Trip where
  dead : Nat := 20
  tblank : Nat := 50
  group : Vector Nat 12 := Vector.replicate 12 0
  latched : Vector Bool 4 := Vector.replicate 4 false
  /-- Ends of the deferrals that run (R204). -/
  defer : Vector (List Tb) 4 := Vector.replicate 4 []
  tripin : Bool := false
  tcnt : Nat := 0
  blankEnd : Vector (Option Tb) 4 := Vector.replicate 4 none
  deadEnd : Vector (Option Tb) 4 := Vector.replicate 4 none
deriving DecidableEq, Repr

/-! ### Thermal models -/

/-- The parameter words of a channel at reset (R226). -/
def thermDefault : Vector Word 18 :=
  #v[0x1000, 1000, 3930, 1000, 100, 1000, 100, 0x7FFF, 16, 0x7FFF, 100, 700, 100, 100, 0x7FFF, 16,
    0x7FFF, 32]

/-- The thermal models of a channel (R217 to R227). Nodes are in 2^-32 degrees. -/
structure ThCh where
  live : Vector Word 18 := thermDefault
  staged : Vector Word 18 := thermDefault
  waiting : Option (Vector Word 18) := none
  init : Option Int := none
  tw : Int := 25 * 4294967296
  th : Int := 25 * 4294967296
  tj : Int := 25 * 4294967296
  step : Nat := 0
  raw : Nat := 0
  flr : Bool := false
  clim : Bool := false
  jlim : Bool := false
  e2 : Nat := 0
  e2on : Nat := 0
  e1off : Nat := 0
  pc : Nat := 0
  pj : Nat := 0
  /-- Words 19 to 23 as captured by the last TW read of the host and of the debug port. -/
  capH : Vector Word 5 := #v[400, 400, 0, 0, 0]
  capD : Vector Word 5 := #v[400, 400, 0, 0, 0]
deriving DecidableEq, Repr

/-- Thermal models and die sensors. -/
structure Therm where
  ch : Vector ThCh 8 := Vector.replicate 8 {}
  ta : Int := 400
  tref : Int := 400
  amb : Option (Int × Int) := none
  /-- TB of the last tick that was made. -/
  tickAt : Option Tb := none
  dieSet : Option (Nat × Nat) := none
  diethr : Nat := 280
  diehys : Nat := 10
  diemax : Int := 0
  die : Vector Int 4 := Vector.replicate 4 0
  dieval : Vector Bool 4 := Vector.replicate 4 false
  diepeak : Int := 0
  diehi : Bool := false
deriving DecidableEq, Repr

/-! ### Timers -/

/-- One general timer (R229 to R243). -/
structure Timer where
  en : Bool := false
  os : Bool := false
  clrm : Bool := false
  pre : Nat := 0
  gsrc : Nat := 0
  glvl : Bool := false
  ie : Bool := false
  pld : Bool := false
  count : Nat := 0
  residue : Nat := 0
  cmp : Nat := 0xFFFFFFFF
  preload : Nat := 0xFFFFFFFF
  cntStage : Word := 0
  cmpStage : Word := 0
  gateSeen : Bool := false
  hit : Bool := false
  ovf : Bool := false
  /-- The ticks in which MATCH and OVF were last set: a clear in the same tick leaves them (R242). -/
  hitAt : Option Tb := none
  ovfAt : Option Tb := none
  /-- An increment that sets a flag falls in this TB tick and has not been made yet. -/
  inc : Bool := false
  /-- In this TB tick the gate has left the chosen level (R232). -/
  shut : Bool := false
deriving DecidableEq, Repr

/-- The general timers. -/
structure Tim where
  sel : Nat := 0
  t : Vector Timer 8 := Vector.replicate 8 {}
deriving DecidableEq, Repr

/-! ### Fault collector -/

/-- An event that waits for its action cycle (R246). -/
structure FEvent where
  /-- Instant of the event: events of one instant are applied in source and channel order. -/
  batch : Nat
  src : Nat
  /-- Channel, or group mask, or 0. -/
  ch : Nat
  det : Word
  /-- The event itself carries a containment (R248). -/
  carried : Bool
deriving DecidableEq, Repr

/-- The open record (R251). -/
structure OpenRec where
  src : Nat
  ch : Nat
  sev : Nat
  cls : Nat
  det : Word
  seq : Word
  tbl : Word
  tbh : Word
  merges : Nat
  map : BitVec 48
deriving DecidableEq, Repr

/-- Severities at reset (R245). -/
def sevDefault : Vector Nat 48 :=
  #v[1, 2, 1, 1, 2, 2, 1, 1, 2, 2, 1, 1, 2, 2, 1, 2,
     3, 3, 2, 2, 2, 2, 1, 2, 1, 2, 3, 3, 2, 2, 2, 2,
     1, 2, 2, 1, 1, 2, 2, 2, 2, 2, 1, 2, 2, 2, 0, 5]

/-- The fault collector. -/
structure Flt where
  sev : Vector Nat 48 := sevDefault
  ring : Vector Bool 48 := Vector.replicate 48 false
  cnt : Vector Nat 48 := Vector.replicate 48 0
  queue : List FEvent := []
  batch : Nat := 0
  /-- The BULK CANCEL record of the safe-state entry waits for the history records of its instant (R112): the instant,
  the slots counted, and how many of them were armed. -/
  bulk : Option (Nat × Nat × Nat) := none
  openRec : Option OpenRec := none
  /-- The record that the events of the tick `freshAt` alone would have opened: an ACK in the same tick comes before them
  (R253). -/
  fresh : Option OpenRec := none
  freshAt : Tb := 0
  hist : List Quad := []
  /-- How many of the history records entered in the tick `histAt`: an HCLR in the same tick comes before them (R266). -/
  histNew : Nat := 0
  histAt : Tb := 0
  hlost : Bool := false
  hwptr : Nat := 0
  held : Quad := {}
  /-- History records overwritten in the tick `goneAt`, and HLOST before them: a pop in the same tick takes effect first
  (R255). -/
  gone : List Quad := []
  goneAt : Tb := 0
  hlostWas : Bool := false
  /-- Words 129 to 136 as captured by the last OSUM read, for each path (R269, R421). -/
  capH : Option (Vector Word 8) := none
  capD : Option (Vector Word 8) := none
  safe : Bool := false
  safeSrc : Word := 0
  self : Bool := false
deriving DecidableEq, Repr

/-! ### Link -/

/-- Link states (R303). -/
inductive LState where
  | off
  | master
  | unlocked
  | forward
  | joining
  | member
deriving DecidableEq, Repr

/-- A frame that waits to leave; the OFS of a TOOTH frame is formed at its departure from the stamp. -/
structure OutFrame where
  rank : Nat
  frame : Frame
  stamp : Option Tb
deriving DecidableEq, Repr

/-- A message of the receive store (R297). -/
structure RxMsg where
  src : Nat
  reply : Bool
  payload : BitVec 32
deriving DecidableEq, Repr

/-- The mirror of a follower (R287 to R294). -/
structure Mirror where
  p : Pred := {}
  /-- The preceding mirror state (R121). -/
  prev : Pred := {}
  /-- The pace that SPEED shows (R87). -/
  spd : Option Nat := none
  /-- The last CONFIG received (R288). -/
  cfg : Option (BitVec 32) := none
  pos : Nat := 0
  half : Nat := 0
  /-- GEOM[pn] of the last record. -/
  gNext : Int := 0
  /-- GEOM[p] of the last record. -/
  gLast : Int := 0
  cfgOk : Bool := false
  stateSeen : Bool := false
  /-- The tick in which the last STATE2 has set CYC (R290). -/
  cycAt : Option Tb := none
  applied : Nat := 0
  missing : Nat := 0
  valid : Bool := false
  /-- The hop count of the last TOOTH frame. -/
  hc : Nat := 0
  /-- STATE1 of a pair whose STATE2 has not come (R287). -/
  state1 : Option (BitVec 32) := none
  /-- The tick in which a TOOTH frame was recognised whose GEOM frame has not come (R288). -/
  tooth : Option Tb := none
  /-- The mirror is required with FCLK not from RCK, and source 37 has said so (R305). -/
  conflict : Bool := false
  rstate : Sync := .nosync
  hv : Bool := false
  /-- The ring supplies the angle (R289). -/
  ring : Bool := false
  bkup : Bool := false
  /-- The ring angle was lost and no backup serves: the effective state is NOSYNC (R294). -/
  lost : Bool := false
  /-- The effective sync state last reported (R289). -/
  eff : Sync := .nosync
  /-- Mirror cycle starts since the mirror has been valid with the master in SYNC (R294). -/
  whole : Nat := 0
  /-- The mirror's angle in the previous and in the present TB tick (R294). -/
  prevAngle : Nat := 0
  nowAngle : Nat := 0
deriving DecidableEq, Repr

/-- The Dergor link. -/
structure Link where
  st : LState := .off
  node : Nat := 0
  rejoin : Bool := false
  brk : Bool := false
  lock : Bool := false
  backup : Bool := false
  cable : Nat := 0
  /-- Of the last enumeration on a master (R301); on a member a free value above its own number (R453, log 9). -/
  ringSize : Nat := 0
  loopDelay : Nat := 0
  /-- An enumeration has completed since the role began (R303). -/
  enumerated : Bool := false
  crcErr : Nat := 0
  codeViol : Nat := 0
  resvd : Nat := 0
  k : Word := 0
  fwd : List Frame := []
  out : List OutFrame := []
  mir : Mirror := {}
  credits : Vector Nat 32 := Vector.replicate 32 0
  rx : List RxMsg := []
  rxHold : RxMsg := ⟨0, false, 0⟩
  /-- A SEND or REMOTE that waits for a credit: destination and frame. -/
  sendWait : Option (Nat × OutFrame) := none
  /-- An enumeration in progress, and the TB at which its JOIN frame has left (R301). -/
  joining : Bool := false
  joinAt : Option Tb := none
  /-- The slot that this unit has sent last. -/
  sent : RxSlot := .empty false
  /-- That slot has an odd k, arrived empty and still is (R283). -/
  open_ : Bool := false
deriving DecidableEq, Repr

/-! ### Store -/

/-- Causes of a commit (R371, R372). -/
inductive CommitCause where
  | host (force : Bool)
  | clear
  | safe
  | standby
  | pfail
  /-- A request whose command has been interrupted: the commit takes place if `need` or DIRTY is 1, and ends no command
  (R435). -/
  | orphan (need : Bool)
deriving DecidableEq, Repr

/-- A running commit (R370, R371). -/
structure Commit where
  target : Bool
  cause : CommitCause
  second : Bool
  seq : Nat
  /-- Words that were programmed when a read last looked, in the order of R370 (R375). -/
  prog : Nat := 0
deriving DecidableEq, Repr

/-- A shadow update held by the lock (R369): the bytes written from an address on. -/
structure Held where
  addr : Nat
  bytes : List Byte
deriving DecidableEq, Repr

/-- The nonvolatile store. -/
structure Store where
  bankA : List Host.Cell := []
  bankB : List Host.Cell := []
  shadow : List Host.Cell := []
  dirty : Bool := false
  pfc : Bool := false
  lastTarget : Bool := false
  chosen : Nat := 0
  bothBlank : Bool := false
  /-- The bank that holds the latest valid record: 0 none, 1 A, 2 B. -/
  latest : Nat := 0
  seq : Nat := 0
  commits : Nat := 0
  failed : Nat := 0
  detail : Word := 0
  run : Option Commit := none
  /-- The commit is suspended for a read (R375). -/
  yielded : Bool := false
  /-- What source 40 has recorded in B2, until B3 ends (R367). -/
  bootEv : Option Word := none
  queue : List CommitCause := []
  held : List Held := []
  heldCnt : Vector Nat 48 := Vector.replicate 48 0
deriving DecidableEq, Repr

/-! ### Security and debug -/

/-- A running advance (R383). -/
inductive Advance where
  | key (w : Nat) (v : Word)
  | lock (target : Nat)
  | seal
  /-- The second word of a STEP to SEALED, which the firmware has still to begin (R27). -/
  | sealNext
deriving DecidableEq, Repr

/-- A running check of an answer (R391): what was answered, the challenge, and whether the answer came through the
debug port. -/
structure Check where
  answer : BitVec 128
  chal : BitVec 128
  dbg : Bool
  /-- The answer came by UNLOCK_ANSWER, which ends with the check. -/
  cmd : Bool
deriving DecidableEq, Repr

/-- Lifecycle, protection image and unlock. -/
structure Sec where
  keys : Vector Word 32 := Vector.replicate 32 0xFFFF
  lc : Nat := 0
  img : Vector Word 64 := Vector.replicate 64 0
  src : Nat := 0
  ro : Bool := false
  unlk : Bool := false
  chal : Option (BitVec 128) := none
  fails : Nat := 0
  lockout : Bool := false
  /-- First half of an answer given through the mailbox. -/
  ansM : Option (BitVec 64) := none
  chk : Option Check := none
  adv : Option Advance := none
deriving DecidableEq, Repr

/-- The debug port (R394 to R401). -/
structure Dbg where
  attached : Bool := false
  /-- A header error: the line is ignored until a line reset. -/
  ignoring : Bool := false
  err : Bool := false
  halt : Bool := false
  halted : Bool := false
  ptest : Bool := false
  dwk : Bool := false
  dwsel : Word := 0
  dwadr : Word := 0
  dpin : Word := 0
  p : Nat := 0
  /-- Answer words written to DANS, the first one first. -/
  ans : List Word := []
  /-- The ACK of the last transaction: 1 OK, 2 WAIT, 4 FAULT, 7 none. -/
  ack : Nat := 7
deriving DecidableEq, Repr

/-! ### Host bus and mailbox -/

/-- Who gave a command: the host, or a ring node with a tag (R437). -/
inductive Sender where
  | host
  | ring (node : Nat) (tag : Byte)
deriving DecidableEq, Repr

/-- A submitted command (R416, R429). -/
structure Cmd where
  sender : Sender
  code : Byte
  args : Args
deriving DecidableEq, Repr

/-- The mailbox registers and the firmware core (R416, R417, R429). -/
structure Mbox where
  cmd : Byte := 0
  args : Args := ⟨0, 0, 0, 0⟩
  busy : Bool := false
  done : Bool := false
  ovr : Bool := false
  status : Byte := 0
  res0 : Word := 0
  res1 : Word := 0
  /-- The command the firmware runs. -/
  run : Option Cmd := none
  /-- The running command has passed its commit cycle and waits for hardware. -/
  committed : Bool := false
  /-- The firmware core has been reset during the command (R435). -/
  cut : Bool := false
  /-- Status and results of a process that has ended while the core is halted (R27). -/
  ready : Option (Nat × Nat × Nat) := none
  /-- The host command came through the debug port (R403). -/
  byDbg : Bool := false
  /-- The submitted host command that has not started yet. -/
  waiting : Option Cmd := none
  /-- Received remote commands, the oldest first. -/
  remote : List Cmd := []
deriving DecidableEq, Repr

/-- The native host bus. -/
structure Bus where
  winsel : Word := 0
  winadr : Word := 0
  intstat : Word := 0
  inten : Word := 0
  /-- The conditions that occurred in the tick `freshAt`: a clear in the same tick leaves them (R424). -/
  fresh : Word := 0
  freshAt : Tb := 0
  /-- The value of INT# at the entry into STOP (R345). -/
  intStop : Bool := false
  /-- TB[47:16] and ANGLE_H as captured for the host and for the debug port (R421). -/
  tbH : BitVec 32 := 0
  tbD : BitVec 32 := 0
  angH : Word := 0
  angD : Word := 0
  /-- The word driven in the last read: the model's own field (log 8). -/
  data : Word := 0
  /-- Accesses for which RDY is low until the device is in RUN (R355). -/
  rdyWait : List Instr := []
deriving DecidableEq, Repr

/-- Levels that the block decides for its outputs. -/
structure OutLevels where
  drv : Vector Bool 12 := Vector.replicate 12 false
  boosten : Bool := false
  cstb : Bool := false
deriving DecidableEq, Repr

/-- An input pin with its glitch filter (R30, R234): the level behind the filter, the level at the pin, and the instant of
the pin's last transition. -/
structure PinIn where
  lvl : Bool := false
  raw : Bool := false
  since : Tb := 0
deriving DecidableEq, Repr

/-- The pins: levels of inputs (R397, R511) and the latency of the outputs (R19). -/
structure Pins where
  /-- CRANK and the cams, for the timer gates and the legacy half (R234, R471), and a transition that waits in the decoder's
  filter because the pin has not held the new level long enough, with its instant (R30, R33). -/
  crank : PinIn := {}
  crankWait : Option (Bool × Tb) := none
  cam : Vector PinIn 4 := Vector.replicate 4 {}
  camWait : Vector (Option (Bool × Tb)) 4 := Vector.replicate 4 none
  linki : Bool := false
  mode : Bool := true
  sns : Vector Bool 8 := Vector.replicate 8 true
  /-- TRIP#, high while it is not asserted, for the timer gates (R234). -/
  trip : PinIn := { lvl := true, raw := true }
  /-- The levels decided in the last three ticks, the newest first: the last ones stand at the pins (R19). -/
  outs : Vector OutLevels 3 := Vector.replicate 3 {}
  /-- The levels of DRV0 to DRV11 and of BOOSTEN at the pins in this tick, after the output disable. -/
  drv : Vector Bool 12 := Vector.replicate 12 false
  boost : Bool := false
deriving DecidableEq, Repr

/-! ### Emitter -/

/-- A transition of the emitted crank signal: its tick, whether it starts a pulse, and whether it has happened in the
present tick. -/
structure EmEdge where
  tick : Tb
  start : Bool
  now : Bool := false
deriving DecidableEq, Repr

/-- The wheel emitter (R497 to R508). -/
structure Emit where
  win : Vector Word 272 := Vector.replicate 272 0
  tab : Vector Word 272 := Vector.replicate 272 0
  run : Bool := false
  loop : Bool := false
  dircode : Bool := false
  ncam : Nat := 0
  nseg : Nat := 1
  cycle : Bool := false
  holding : Bool := false
  seg : Nat := 0
  step : Nat := 0
  p : Nat := 0
  h : Nat := 0
  /-- The first tick of the step in progress and its length; the tooth 0 edge ends step 0. -/
  t0 : Tb := 0
  len : Nat := 0
  spd : Nat := 0
  lfsr : Word := 0
  crank : Bool := false
  /-- In loopback, a transition of the crank signal that waits in the decoder's glitch filter (R30). -/
  crankWait : Option (Bool × Tb) := none
  edges : List EmEdge := []
  cam : Vector Bool 3 := Vector.replicate 3 false
  /-- In loopback, a transition of each emitted cam that waits in the decoder's glitch filter (R33). -/
  camWait : Vector (Option (Bool × Tb)) 3 := Vector.replicate 3 none
  /-- Cam edges already met in this step. -/
  camMet : List (Nat × Nat) := []
  ecyc : Nat := 0
  eerr : Nat := 0
deriving DecidableEq, Repr

/-! ### Legacy face -/

/-- A legacy slot (R475 to R478). -/
structure LSlot where
  act : Nat := 0
  ch : Nat := 0
  prof : Nat := 0
  armed : Bool := false
  fired : Bool := false
  refused : Bool := false
  cancelled : Bool := false
  /-- Legacy tick of firing, as a TB value divided by 50. -/
  lf : Nat := 0
deriving DecidableEq, Repr

/-- States of R480. -/
inductive LChSt where
  | idle
  | set
  | boost
  | dead
  | peak
  | hold
deriving DecidableEq, Repr

/-- A legacy channel (R480 to R484). -/
structure LChan where
  st : LChSt := .idle
  prof : Nat := 0
  boostuse : Bool := false
  /-- BOOSTEN holds the pin low, or held it low when it fell last (R157). -/
  forced : Bool := false
  startAt : Tb := 0
  phaseAt : Tb := 0
  /-- End of the boost or peak phase, and of MAXON. -/
  phaseEnd : Option Tb := none
  maxEnd : Option Tb := none
  /-- End of the high time and of the PWM period. -/
  highEnd : Option Tb := none
  perEnd : Option Tb := none
  /-- The PWM period stands in its high time. -/
  want : Bool := false
deriving DecidableEq, Repr

/-- A legacy timer (R487 to R489). -/
structure LTimer where
  en : Bool := false
  clrm : Bool := false
  pre : Nat := 0
  hit : Bool := false
  ovf : Bool := false
  ie : Bool := false
  count : Nat := 0
  residue : Nat := 0
  cmp : Nat := 0xFFFF
  cntStage : Byte := 0
  cmpStage : Byte := 0xFF
  /-- An increment that sets a flag waits for its row. -/
  inc : Bool := false
  /-- TB of the last set of MATCH and of OVF: a clear in the same tick leaves the flag (R411, R487). -/
  hitAt : Option Tb := none
  ovfAt : Option Tb := none
deriving DecidableEq, Repr

/-- The legacy face. -/
structure Leg where
  ready : Bool := false
  oe : Bool := false
  decen : Bool := false
  lost : Bool := false
  bad : Bool := false
  sloterr : Bool := false
  trip : Bool := false
  maxon : Bool := false
  tim : Bool := false
  lint : Byte := 0
  wheel : Byte := 0
  louten : Byte := 0
  triplat : Bool := false
  tripin : Bool := false
  maxch : Nat := 0
  evsel : Nat := 0
  evang : Word := 0
  evch : Byte := 0
  profsel : Nat := 0
  profbyte : Nat := 0
  timsel : Nat := 0
  slots : Vector LSlot 16 := Vector.replicate 16 {}
  ch : Vector LChan 8 := Vector.replicate 8 {}
  profs : Vector (Vector Byte 8) 4 := Vector.replicate 4 (Vector.replicate 8 0)
  boosten : Bool := false
  /-- TB of the last fall of BOOSTEN. -/
  boostLow : Option Tb := none
  timers : Vector LTimer 2 := Vector.replicate 2 {}
  langCap : Byte := 0
  perCap : Byte := 0
  /-- The LSTAT bits that were set in the tick `freshAt`: a clear in the same tick leaves them (R411, R491). -/
  fresh : Byte := 0
  freshAt : Tb := 0
deriving DecidableEq, Repr

/-! ### The state -/

/-- The machine state. -/
structure State where
  sys : Sys := {}
  clk : Clk := {}
  wheel : Wheel := {}
  cams : Vector Cam 4 := Vector.replicate 4 {}
  pred : Pred := {}
  /-- The preceding predictor state (R121). -/
  predPrev : Pred := {}
  /-- The pace that SPEED shows, of the last interval formed under R69 or R76; none: SPEED reads 0 (R87). -/
  spd : Option Nat := none
  geom : Geom := {}
  sched : Sched := {}
  rpt : Rpt := {}
  cpc : Cpc := {}
  chan : Vector Chan 12 := Vector.replicate 12 {}
  chs : Chs := {}
  lines : Vector Line 8 := Vector.replicate 8 {}
  cdat : Line := {}
  brass : Brass := {}
  diag : Diag := {}
  trip : Trip := {}
  therm : Therm := {}
  tim : Tim := {}
  flt : Flt := {}
  link : Link := {}
  store : Store := {}
  sec : Sec := {}
  dbg : Dbg := {}
  bus : Bus := {}
  mbox : Mbox := {}
  pins : Pins := {}
  emit : Emit := {}
  leg : Leg := {}
  /-- Free values drawn so far: the model's own field (log 9). -/
  free : Nat := 0
  /-- The commands that wait, the first one first. -/
  pending : List Instr := []
deriving DecidableEq, Repr

/-- The machine right after the release of a power-on reset in native mode (R340, R341; log 5, log 6). -/
def State.reset : State := {}

end Sys2Proof.Machine
end

