-- ==== Sys2Proof/Machine/Ops.lean ====
section
/-! DEFINITION. The named operations that every block uses: tables, saturation, time, interrupt
conditions, events for the collector, report records and free values. -/

namespace Sys2Proof.Machine

/-! ### Tables -/

/-- One entry of a table replaced by a function of itself. -/
def vupd {α : Type} {n : Nat} (v : Vector α n) (i : Fin n) (f : α → α) : Vector α n :=
  v.set i (f v[i])

/-- Every entry of a table replaced by a function of its index and itself. -/
def vmapi {α β : Type} {n : Nat} (f : Fin n → α → β) (v : Vector α n) : Vector β n :=
  Vector.ofFn fun i => f i v[i]

/-- The indices of a table for which a condition holds, in ascending order. -/
def vwhere {n : Nat} (p : Fin n → Bool) : List (Fin n) := (List.finRange n).filter p

/-- The entry of a table at a number, or a default outside the table. -/
def vget {α : Type} {n : Nat} (v : Vector α n) (i : Nat) (d : α) : α :=
  if h : i < n then v[i] else d

/-- The table with the entry at a number replaced; unchanged outside the table. -/
def vput {α : Type} {n : Nat} (v : Vector α n) (i : Nat) (x : α) : Vector α n :=
  if h : i < n then v.set i x else v

/-- The state after an operation on every index that a condition selects. -/
def foldSt {α : Type} (xs : List α) (f : α → State → State) (s : State) : State :=
  xs.foldl (fun t x => f x t) s

/-! ### Numbers -/

/-- A value limited to a range. -/
def clampI (lo hi x : Int) : Int := max lo (min hi x)

/-- Saturation to a signed width (R68). -/
def satS (w : Nat) (x : Int) : Int := clampI (-(2 ^ (w - 1))) (2 ^ (w - 1) - 1) x

/-- Saturation to an unsigned width. -/
def satU (w : Nat) (x : Int) : Nat := (clampI 0 (2 ^ w - 1) x).toNat

/-- Division that truncates toward zero (R69); the quotient by 0 is a free value (log 9). -/
def tdivI (a b : Int) : Int := if b = 0 then Config.divByZero a else Int.tdiv a b

/-- Arithmetic shift right. -/
def sar (x : Int) (n : Nat) : Int := x / (2 ^ n)

/-- The low 16 bits of a number. -/
def w16 (x : Nat) : Word := BitVec.ofNat 16 x

/-- The 16-bit word of a signed number. -/
def i16 (x : Int) : Word := BitVec.ofInt 16 x

/-- The signed value of a word. -/
def sgn (w : Word) : Int := w.toInt

/-- Bits lo to lo + w - 1 of a word, as a number. -/
def fld (x : Word) (lo w : Nat) : Nat := x.toNat / 2 ^ lo % 2 ^ w

/-- Bit i of a word. -/
def bit (x : Word) (i : Nat) : Bool := x.getLsbD i

/-- A flag as the number of a field bit. -/
def b2n (b : Bool) (i : Nat) : Nat := if b then 2 ^ i else 0

/-- Increment with saturation at a limit. -/
def satInc (x lim : Nat) : Nat := if x < lim then x + 1 else lim

/-! ### Time -/

/-- TB ticks from `a` to `b`, modulo 2^48. -/
def tbSince (a b : Tb) : Nat := (b - a).toNat

/-- `b` is `a` or lies after it, by less than half the range of TB. -/
def tbGe (b a : Tb) : Bool := decide ((b - a).toNat < 2 ^ 47)

/-- A TB value some ticks later. -/
def tbAdd (a : Tb) (n : Nat) : Tb := a + BitVec.ofNat 48 n

/-- Low and middle words of a TB value. -/
def tbLo (t : Tb) : Word := t.setWidth 16
def tbHi (t : Tb) : Word := (t >>> 16).setWidth 16

/-- An instant that may be absent has been reached. -/
def reached (t : Option Tb) (now : Tb) : Bool :=
  match t with
  | some x => tbGe now x
  | none => false

/-- An instant that may be absent still lies ahead. -/
def ahead (t : Option Tb) (now : Tb) : Bool :=
  match t with
  | some x => !tbGe now x
  | none => false

/-! ### Modes -/

/-- The native face is latched (R4). -/
def isNative (s : State) : Bool := s.sys.face == .native

/-- FCLK runs and the fast datapath is out of reset. -/
def fclkRuns (s : State) : Bool := s.clk.fclkOn && !s.sys.inReset

/-- The blocks of GATEEN (R329). -/
inductive Blk where
  | chan
  | therm
  | cps
  | tim
  | link
  | emit
  | fm
deriving DecidableEq, Repr

/-- The GATEEN bit of a block. -/
def Blk.bit : Blk → Nat
  | .chan => 0
  | .therm => 1
  | .cps => 2
  | .tim => 3
  | .link => 4
  | .emit => 5
  | .fm => 6

/-- The block's clock runs: its GATEEN bit is 1 or its clear has not taken effect (R331). -/
def blkOn (s : State) (b : Blk) : Bool := s.clk.gateEff.getLsbD b.bit

/-- The native device runs its fast blocks: FCLK runs and the device is in RUN. -/
def liveN (s : State) : Bool := isNative s && fclkRuns s

/-- The legacy face answers: FCLK runs and B1 has ended with a good ROM (R464, R495). -/
def legLive (s : State) : Bool := !isNative s && fclkRuns s && s.leg.ready

/-- SYSCTL.OE, or LCTL.OE in legacy mode (R467). -/
def oeOn (s : State) : Bool := if isNative s then s.sys.oe else s.leg.oe

/-- The output disable is released (R142, R414): pins carry their levels. The disabled channel block acts through it
(R329). In legacy mode a stop of FCLK does not act (R467, R494). -/
def outputsOn (s : State) : Bool :=
  if isNative s then
    s.sys.oe && s.clk.fclkOn && !s.clk.fdReset && !s.flt.safe && !s.sys.odStop && !s.sys.inReset &&
      !s.dbg.ptest && blkOn s .chan
  else s.leg.oe && !s.sys.inReset

/-! ### Interrupt conditions -/

/-- The conditions that have occurred in this tick (R424). -/
def freshInts (s : State) : Word := if s.bus.freshAt == s.clk.tb then s.bus.fresh else 0

/-- Sets a bit of INTSTAT (R423). -/
def setInt (b : Nat) (s : State) : State :=
  { s with bus := { s.bus with intstat := s.bus.intstat ||| w16 (2 ^ b), fresh := freshInts s ||| w16 (2 ^ b), freshAt := s.clk.tb } }

/-- A condition that is set only when something holds. -/
def setIntIf (c : Bool) (b : Nat) (s : State) : State := if c then setInt b s else s

/-- The LSTAT bits that were set in this tick (R411, R491). -/
def freshLeg (s : State) : Byte := if s.leg.freshAt == s.clk.tb then s.leg.fresh else 0

/-- An LSTAT bit is set in this tick (R411, R491). -/
def noteLeg (b : Nat) (s : State) : State :=
  { s with leg := { s.leg with fresh := freshLeg s ||| BitVec.ofNat 8 (2 ^ b), freshAt := s.clk.tb } }

/-! ### Free values -/

/-- Draws a free value (R390): the 128 bits of a challenge. -/
def drawRandom (s : State) : BitVec 128 × State :=
  (Config.random s.free, { s with free := s.free + 1 })

/-! ### Events for the collector -/

/-- The order in which events are applied: instant, source, channel (R246, R263). -/
def FEvent.before (a b : FEvent) : Bool :=
  decide (a.batch < b.batch) ||
    (a.batch == b.batch && (decide (a.src < b.src) || (a.src == b.src && decide (a.ch ≤ b.ch))))

/-- Inserts an event behind those that are applied before it. -/
def insertEvent (e : FEvent) : List FEvent → List FEvent
  | [] => [e]
  | x :: xs => if FEvent.before x e then x :: insertEvent e xs else e :: x :: xs

/-- An event of a source occurs, with its channel or mask, detail and own containment (R245, R248).
Legacy mode has no collector (R10). -/
def raiseC (src ch : Nat) (det : Word) (carried : Bool) (s : State) : State :=
  if isNative s then
    let e : FEvent := ⟨s.flt.batch, src, ch, det, carried⟩
    { s with flt := { s.flt with queue := insertEvent e s.flt.queue } }
  else s

/-- An event that carries no containment of its own. -/
def raise (src ch : Nat) (det : Word) (s : State) : State := raiseC src ch det false s

/-- A new instant for events: each tick, and each detection while FCLK is stopped (R263). -/
def newInstant (s : State) : State := { s with flt := { s.flt with batch := s.flt.batch + 1 } }

/-! ### Records -/

/-- The ranks of the records created so far in this tick, in the order of their SEQ (R112). -/
def ranksNow (s : State) : List Nat := if s.sched.ranksAt == s.clk.tb then s.sched.ranks else []

/-- The record takes the next SEQ value when it lies from `q` on within the last `k` values. -/
def bumpRec (q : Word) (k : Nat) (r : Quad) : Quad := if (r.w1 - q).toNat < k then { r with w1 := r.w1 + 1 } else r

/-- Of the last `k` entries of a queue, those that carry one of the last `k` SEQ values take the next one. -/
def bumpTail (q : Word) (k : Nat) (rs : List Quad) : List Quad :=
  rs.take (rs.length - k) ++ (rs.drop (rs.length - k)).map (bumpRec q k)

/-- The last `k` records of this tick make room for one that R112 puts before them: each takes the next SEQ value. -/
def makeRoom (k : Nat) (s : State) : State :=
  if k = 0 then s else
  let q := s.sched.seq - BitVec.ofNat 16 k
  let rpt := { s.rpt with fifo := bumpTail q k s.rpt.fifo, dropped := s.rpt.dropped.map (bumpRec q k) }
  { s with rpt := rpt, cpc := { s.cpc with cv := { s.cpc.cv with q := bumpTail q k s.cpc.cv.q } } }

/-- The records of this tick that R112 puts behind one of a rank. -/
def laterRecs (rank : Nat) (s : State) : Nat := ((ranksNow s).filter (rank < ·)).length

/-- A record takes its value of SEQ (R111): the next one, or the one before the records of this tick that R112 puts behind
it. Of R111's two sentences the first fixes the count after reset and the second its order: the first record after reset
takes 0 (log 15). -/
def takeSeq (rank : Nat) (s : State) : Word × State :=
  let k := laterRecs rank s
  let rs := ranksNow s
  let s := makeRoom k s
  (s.sched.seq - BitVec.ofNat 16 k,
   { s with sched := { s.sched with seq := s.sched.seq + 1, ranks := rs.filter (· ≤ rank) ++ rank :: rs.filter (rank < ·), ranksAt := s.clk.tb } })

/-- A record has been read: if it is one of this tick, the SEQ values taken so far stand. -/
def settleSeq (r : Quad) (s : State) : State :=
  if (s.sched.seq - r.w1).toNat ≤ (ranksNow s).length then { s with sched := { s.sched with ranks := [] } } else s

/-- The order of the records of one cycle (R112): history records, the records of the report FIFO by their type, source
and flags, converter entries. -/
def rankHist : Nat := 0
def recRank (ty src flags : Nat) : Nat :=
  match ty with
  | 1 => 6144 + src
  | 2 => 1024
  | 3 => 4096
  | 4 => if flags.testBit 4 then 2048 + flags % 8 else 3072 + src
  | 5 => 5120
  | _ => 7168
def rankConv : Nat := 8192

/-- The records that a full FIFO has dropped in this tick (R26). -/
def droppedNow (s : State) : List Quad := if s.rpt.dropAt == s.clk.tb then s.rpt.dropped else []

/-- A full FIFO drops a record and counts it (R117); a pop in the same tick can still take it (R26). -/
def dropRec (r : Quad) (s : State) : State :=
  let d := droppedNow s
  { s with rpt := { s.rpt with lost := satInc s.rpt.lost 63, dropped := d ++ [r], dropAt := s.clk.tb, lostWas := if d.isEmpty then s.rpt.lost else s.rpt.lostWas } }

/-- The records at the end of the FIFO that lie behind a SEQ value. -/
def fifoAfter (q : Word) (k : Nat) (rs : List Quad) : Nat :=
  ((rs.drop (rs.length - k)).filter fun r => decide ((r.w1 - q).toNat ≤ k)).length

/-- A record enters the FIFO, before the last `j` records (R112); of more than 128 the last one is dropped (R117). -/
def enterFifo (j : Nat) (r : Quad) (s : State) : State :=
  let n := s.rpt.fifo.length - j
  let fifo := s.rpt.fifo.take n ++ r :: s.rpt.fifo.drop n
  if s.rpt.fifo.length < 128 then setInt 0 { s with rpt := { s.rpt with fifo := fifo } }
  else if j = 0 then dropRec r s
  else setInt 0 (dropRec (fifo.getLast?.getD r) { s with rpt := { s.rpt with fifo := fifo.dropLast } })

/-- Writes a report record (R108, R112, R117): a full FIFO drops a record and counts it. -/
def pushRec (ty src flags : Nat) (w2 w3 : Word) (s : State) : State :=
  if isNative s then
    let rank := recRank ty src flags
    let k := laterRecs rank s
    let (q, s) := takeSeq rank s
    enterFifo (fifoAfter q k s.rpt.fifo) ⟨w16 (ty + 16 * src + 1024 * flags), q, w2, w3⟩ s
  else s

/-- What a read leaves on the bus: the model's own field (log 8). -/
def putData (w : Word) (s : State) : State := { s with bus := { s.bus with data := w } }

/-- The two paths to the registers, which have their own captures and pointers (R398, R421). -/
inductive Path where
  | host
  | debug
deriving DecidableEq, Repr

/-- Registers other than the supervisor's copy answer: the native device has its FCLK and its ROM passed
the check (R323, R344, R409). -/
def busUp (s : State) : Bool := isNative s && fclkRuns s && s.sys.boot != 6

/-- A read: when registers answer, its word and side effect; otherwise 0x0000 and nothing (R323). -/
def readIf (c : Bool) (f : State → Word × State) (s : State) : State :=
  if c then let (w, t) := f s; putData w t else putData 0 s

/-- The emitter inverts its crank signal (R504). -/
def emitInv (s : State) : Bool := bit (vget s.emit.tab 0 0) 11

/-! ### The glitch filter -/

/-- A level that the input has had since an instant: it passes the glitch filter, or it waits (R30). -/
def filterLevel (filter : Nat) (now : Tb) (w : Bool × Tb) : List (Bool × Tb) × Option (Bool × Tb) :=
  if filter ≤ 2 * tbSince w.2 now then ([w], none) else ([], some w)

/-- A transition at the input of the glitch filter (R30): the edges that pass, each with its level and its instant, and
what waits. A transition whose level the input has not held for FILTER cycles waits. One back to the old level ends the
level that waits: held for FILTER cycles by then, that level has passed; a shorter pulse gives no edge. -/
def filterEdge (filter : Nat) (now : Tb) (wait : Option (Bool × Tb)) (lvl : Bool) (stamp : Tb) :
    List (Bool × Tb) × Option (Bool × Tb) :=
  let w := wait.getD (lvl, stamp)
  if w.1 == lvl then filterLevel filter now w
  else if filter ≤ 2 * tbSince w.2 stamp then
    let r := filterLevel filter now (lvl, stamp)
    (w :: r.1, r.2)
  else ([], none)

/-- A pin has a level since an instant. -/
def PinIn.put (lvl : Bool) (t : Tb) (p : PinIn) : PinIn := if p.raw == lvl then p else { p with raw := lvl, since := t }

/-- The glitch filter passes the level that a pin has held long enough (R30, R234). -/
def PinIn.pass (filter : Nat) (now : Tb) (p : PinIn) : PinIn :=
  if decide (filter ≤ 2 * tbSince p.since now) then { p with lvl := p.raw } else p

/-- A transition that waits in the filter has held its level long enough (R30). -/
def filterDue (filter : Nat) (now : Tb) (wait : Option (Bool × Tb)) : Bool :=
  match wait with
  | some w => decide (filter ≤ 2 * tbSince w.2 now)
  | none => false

/-! ### Output pins (R19, R142, R401) -/

/-- The emitter drives this channel's pin (R506). -/
def emitDrives (s : State) (n : Nat) : Bool := s.emit.run && decide (8 ≤ n) && decide (n ≤ 8 + s.emit.ncam)

/-- The channel's group is latched. -/
def groupLatched (s : State) (n : Fin 12) : Bool := vget s.trip.latched s.trip.group[n] false

/-- The decided level of DRVn: of the emitter while it drives the pin, else of the channel (R506). The pin of a latched
group is low (R205). -/
def drvLevel (s : State) (n : Fin 12) : Bool :=
  if emitDrives s n.val then !groupLatched s n && (if n.val = 8 then s.emit.crank != emitInv s else vget s.emit.cam (n.val - 9) false)
  else s.chan[n].drv

/-- The levels decided in this tick; a CSTB pulse lasts 100 ns (R94, R128). -/
def decided (s : State) : OutLevels :=
  { drv := Vector.ofFn (drvLevel s), boosten := s.chs.boosten, cstb := match s.cpc.strobeAt with | some t => decide (tbSince t s.clk.tb < 10) | none => false }

/-- The pin-drive test drives a pin by its bit of DPIN while FCLK runs; TRIP# asserted holds DRV0 to DRV11 and BOOSTEN
low (R401). -/
def testPin (s : State) (b : Nat) : Bool := bit s.dbg.dpin b && s.clk.fclkOn && !s.sys.odStop && !(s.trip.tripin && decide (b ≤ 12))

/-- The level of DRVn on the pin (R19, R142, R233, R401). -/
def pinDrv (s : State) (n : Fin 12) : Bool :=
  if s.dbg.ptest then testPin s n.val else s.pins.outs[2].drv[n] && outputsOn s

/-- The level of BOOSTEN on the pin (R19, R142, R401). -/
def pinBoost (s : State) : Bool := if s.dbg.ptest then testPin s 12 else s.pins.outs[2].boosten && outputsOn s

/-- The level of CSTB on the pin (R19, R142, R401). -/
def pinCstb (s : State) : Bool := if s.dbg.ptest then testPin s 13 else s.pins.outs[2].cstb && outputsOn s

/-! ### Frames of updates -/

/-- One channel replaced by a function of itself. -/
def updChan (n : Fin 12) (f : Chan → Chan) (s : State) : State :=
  { s with chan := vupd s.chan n f }

/-- The channel of a number. -/
def chOf (n : Nat) : Fin 12 := ⟨n % 12, Nat.mod_lt _ (by decide)⟩

/-- A shaped channel as a channel. -/
def sh (n : Fin 8) : Fin 12 := ⟨n.val, by omega⟩

end Sys2Proof.Machine
end

