-- ==== Sys2Proof/Machine/BusOps.lean ====
section
/-! DEFINITION. Which accesses reach a register or a window: the boot window, the safe state and disabled
blocks (R260, R330, R342). -/

namespace Sys2Proof.Machine

/-- The bit that marks an event of the debug port (R403). -/
def Path.dbgBit : Path → Nat
  | .host => 0
  | .debug => 8

/-- Registers that a write reaches before BOOT = 5 (R342). -/
def bootWrites : List Nat := [0x18, 0x1A, 0x1C, 0x1E, 0x20, 0x28, 0x2A, 0x2C, 0x2E, 0x30]

/-- Registers that a write reaches in the safe state (R260); of SYSCTL only a reset request acts (R415), and INTEN is not
writable (R426). -/
def safeWrites : List Nat :=
  [0x06, 0x18, 0x1A, 0x1C, 0x1E, 0x20, 0x28, 0x2A, 0x2C, 0x2E, 0x4C, 0x50, 0x52, 0x54, 0x56, 0x58, 0x5A, 0x5C]

/-- A write of the register at this address has effect (R323, R342, R260, R344): before BOOT = 5 and in the safe state
each limit holds. -/
def regOpen (s : State) (a : Nat) : Bool :=
  busUp s && (decide (5 ≤ s.sys.boot) || bootWrites.contains a) && (!s.flt.safe || safeWrites.contains a)

/-- A WINDAT write reaches this space (R342, R260); PROT decides by R388. -/
def winOpen (s : State) (space : Nat) : Bool :=
  busUp s && (decide (5 ≤ s.sys.boot) || space == 9) && (!s.flt.safe || space == 1 || space == 9)

/-- An access to what a disabled block owns (R330). -/
def gateEvent (b : Blk) (win : Bool) (id : Nat) (s : State) : State :=
  raise 46 0 (w16 (b.bit + b2n win 3 + 256 * id)) s

/-- A write of a register that a block owns (R330). -/
def gatedWrite (b : Blk) (a : Nat) (f : State → State) (s : State) : State :=
  if !regOpen s a then s else if blkOn s b then f s else gateEvent b false a s

/-- A read of a register that a block owns (R330). -/
def gatedRead (b : Blk) (a : Nat) (f : State → Word × State) (s : State) : Word × State :=
  if blkOn s b then f s else (0, gateEvent b false a s)

/-- A read of a window that a block owns (R330). -/
def gatedWindow (b : Blk) (space : Nat) (f : State → Word × State) (s : State) : Word × State :=
  if blkOn s b then f s else (0, gateEvent b true space s)

/-! ### Accesses of the host outside RUN (R351, R355) -/

/-- An access of the host takes CS# low, and WCS lets that wake the device (R350); without VDDIOA the pin reads high
(R513). -/
def csWakes (s : State) : Bool := isNative s && !s.sys.inReset && s.sys.vddioa && s.sys.wcs

/-- Of the wake sources that occur together or during one entry the lowest code stays (R350). -/
def lowerCode (code : Nat) (k : Option Nat) : Option Nat := some (min (k.getD code) code)

/-- A wake source has occurred, and the wake begins with the next TB tick. -/
def askWake (code : Nat) (s : State) : State := { s with sys := { s.sys with wakeReq := lowerCode code s.sys.wakeReq } }

/-- RDY stays low until the device is in RUN: the access comes in STOP and wakes it (R355). -/
def rdyHeld (s : State) : Bool := csWakes s && s.sys.pwr == .stop

/-- Accesses that RDY holds back, and the wake that they ask for (R355). -/
def holdRows (is : List Instr) (s : State) : State :=
  let t := askWake 6 s
  { t with bus := { t.bus with rdyWait := t.bus.rdyWait ++ is } }

/-- A wake code latched during an entry (R350, R351). -/
def latchWake (code : Nat) (s : State) : State :=
  { s with sys := { s.sys with wakeLatch := lowerCode code s.sys.wakeLatch } }

/-- What the fall of CS# does besides the access: during an entry the wake is latched, in STANDBY it begins (R351, R355). -/
def csFalls (s : State) : State :=
  if !csWakes s then s
  else match s.sys.pwr with
    | .entering => latchWake 6 s
    | .standby => askWake 6 s
    | _ => s

/-- A row of the host bus (R355, log 31); without VDDIOA its pins read inactive, and no access takes place (R513). -/
def hostRow (i : Instr) (f : State → State) (s : State) : State :=
  if !s.sys.vddioa then s else if rdyHeld s then holdRows [i] s else f (csFalls s)

/-- A read of the host bus whose register answers while FCLK runs (R323, R355). -/
def hostRead (i : Instr) (f : State → Word × State) (s : State) : State :=
  hostRow i (fun s => readIf (busUp s) f s) s

/-! ### Rows that are accesses of WINDAT (R418, R419) -/

/-- WINADR moves to the next word (R419); a debug access leaves the host's pointer alone (R421, log 25). -/
def stepWinadr (p : Path) (s : State) : State :=
  match p with
  | .host => { s with bus := { s.bus with winadr := s.bus.winadr + 1 } }
  | .debug => s

/-- WINSEL and WINADR stand at a word of a window (R418, R419): a row that names an access of that word comes with the host's
writes of both (log 8). -/
def pointAt (space off : Nat) (s : State) : State :=
  if regOpen s 0x2A then { s with bus := { s.bus with winsel := w16 space, winadr := w16 off } } else s

/-- A read of a window word through WINDAT (R419). -/
def windowRead (i : Instr) (space off : Nat) (f : State → Word × State) (s : State) : State :=
  hostRead i (fun s => let r := f (pointAt space off s); (r.1, stepWinadr .host r.2)) s

/-- A write of a window word through WINDAT (R419); WINADR moves also when the write is ignored. -/
def windowWrite (i : Instr) (space off : Nat) (f : State → State) (s : State) : State :=
  hostRow i (fun s => if regOpen s 0x2C then stepWinadr .host (f (pointAt space off s)) else s) s

/-- A protection violation (R403). -/
def deny (p : Path) (kind id : Nat) (s : State) : State := raise 45 0 (w16 (kind + p.dbgBit + 256 * id)) s

end Sys2Proof.Machine
end

