-- ==== Sys2Proof/Machine/Predictor.lean ====
section
/-! DEFINITION. The angle predictor (R66 to R88): its arithmetic to the bit, the angle between teeth, the
geometry table and its learning, ANGLE and SPEED. -/

namespace Sys2Proof.Machine

/-- Code of a sync state (R45). -/
def Sync.code : Sync → Nat
  | .nosync => 0
  | .gap => 1
  | .confirm => 2
  | .sync => 3
  | .limp => 4
  | .reverse => 5

/-! ### Wheel geometry -/

/-- Position spacing S in ticks (R28). -/
def spacing (c : WheelCfg) : Nat := 368640 / c.n

/-- The cycle C in ticks (R66). -/
def cycC (c : WheelCfg) : Nat := if c.two then 368640 else 737280

/-- C16 = 16 C (R66). -/
def cyc16 (c : WheelCfg) : Nat := 16 * cycC c

/-- Position of the last tooth before the gap. -/
def lastPos (c : WheelCfg) : Nat := c.n - c.m - 1

/-- The next and the previous tooth position (R69). -/
def nextPos (c : WheelCfg) (p : Nat) : Nat := if p = lastPos c then 0 else p + 1
def prevPos (c : WheelCfg) (p : Nat) : Nat := if p = 0 then lastPos c else p - 1

/-- The span of tooth p (R31). -/
def span (c : WheelCfg) (p : Nat) : Nat := if p = 0 then c.m + 1 else 1

/-- The nominal angle of tooth p in half h, in ticks (R29). -/
def theta (c : WheelCfg) (h p : Nat) : Nat := (h * 368640 + c.offset + p * spacing c) % cycC c

/-- The active deviation of position p: 0 for position 0 and for the gap (R67). -/
def gAct (s : State) (p : Nat) : Int :=
  if p = 0 || s.wheel.cfg.n - s.wheel.cfg.m ≤ p then 0 else (vget s.geom.e p {}).act

/-- The true angle of tooth p in half h, in 1/16 tick (R67). -/
def theta16 (c : WheelCfg) (h p : Nat) (act : Int) : Nat :=
  ((16 * (theta c h p : Int) + act) % (cyc16 c : Int)).toNat

/-! ### Predictor arithmetic -/

/-- The predicted time T(D) in TB ticks (R70). -/
def predT (p : Pred) (d : Nat) : Nat :=
  let corr := if p.o2 then sar (p.sF * ((d : Int) + p.ak)) 21 else 0
  let lim : Int := p.uk / 4
  let up := max 1 ((p.uk : Int) + clampI (-lim) lim corr)
  d * up.toNat / 2 ^ 24

/-- The pace of an interval of P ticks over A sixteenths (R69). -/
def pace (per : Nat) (a : Int) : Nat := satU 32 (tdivI ((per : Int) * 2 ^ 24) a)

/-- What an update needs to know of a tooth: its stamp, position and half, and the deviations of its own,
the previous and the next position (R69, R287). -/
structure ToothIn where
  stamp : Tb
  pos : Nat
  half : Nat
  act : Int
  actPrev : Int
  actNext : Int
deriving DecidableEq, Repr

/-- A span in the 23 bits that hold it (R68). -/
def u23 (x : Int) : Nat := (x % 8388608).toNat

/-- The corrected span of the interval that ends at a tooth (R68, R69). -/
def toothA (c : WheelCfg) (i : ToothIn) : Nat := u23 (16 * span c i.pos * spacing c + i.act - i.actPrev)

/-- The corrected span of the interval that follows a tooth (R68, R69). -/
def toothNext (c : WheelCfg) (i : ToothIn) : Nat := u23 (16 * span c (nextPos c i.pos) * spacing c + i.actNext - i.act)

/-- Writes the prediction of the next interval (R69). -/
def withNext (c : WheelCfg) (i : ToothIn) (p : Pred) : Pred :=
  let n := toothNext c i
  { p with nA := n, ppred := max 1 (predT p n) }

/-- The update at an accepted tooth (R69). `o2` is decided from the counts as this tooth leaves them
(R73), or is the one a record carries (R287). -/
def predTooth (c : WheelCfg) (o2 : Pred → Bool) (i : ToothIn) (p : Pred) : Pred :=
  let a := toothA c i
  let u := pace (tbSince p.tk i.stamp) a
  let slope := p.havePrev && !p.syn
  let sl := satS 40 (tdivI (((u : Int) - p.uk) * 2 ^ 21) ((a : Int) + p.ak))
  let q := { p with
    sF := if slope then satS 40 (p.sF + sar (sl - p.sF) 2) else p.sF
    th16 := theta16 c i.half i.pos i.act
    tk := i.stamp
    ak := a
    uk := u
    syn := false
    havePrev := true
    slopes := if slope then p.slopes + 1 else p.slopes
    teeth := p.teeth + 1 }
  withNext c i { q with o2 := o2 q }

/-- The update at a synthetic tooth (R71): the stamp is tk + Ppred and the span is nA. -/
def predSynth (c : WheelCfg) (i : ToothIn) (p : Pred) : Pred :=
  withNext c i { p with
    th16 := theta16 c i.half i.pos i.act
    tk := tbAdd p.tk p.ppred
    ak := p.nA
    uk := pace p.ppred p.nA
    syn := true }

/-- The start of the predictor at its first tooth: the confirming tooth, position 1 (R72), or, where a coarse edge has
confirmed the gap, the first tooth with a fine period (R57; log 16). -/
def predStart (c : WheelCfg) (per : Nat) (i : ToothIn) : Pred :=
  let a := toothA c i
  withNext c i { th16 := theta16 c i.half i.pos i.act, tk := i.stamp, ak := a, uk := pace per a, sF := 0, o2 := false, syn := false, havePrev := true, slopes := 0, teeth := 0 }

/-- Entry into NOSYNC (R74). -/
def predClear (p : Pred) : Pred := { p with havePrev := false, syn := false, o2 := false, sF := 0 }

/-- Distance travelled since the last tooth, before the clamp (R75). -/
def predX (p : Pred) (t : Tb) : Nat := tbSince p.tk t * p.nA / p.ppred

/-- The angle of a predictor state at TB t, in 1/16 tick within a period (R75). -/
def predAng (c16 : Nat) (p : Pred) (t : Tb) : Nat := (p.th16 + min (predX p t) (p.nA - 1)) % c16

/-! ### The angle source in use -/

/-- The sync state that governs firing and angle: the decoder's, the master's on a follower of the ring,
or NOSYNC after a ring loss without backup (R289, R294). -/
def effSync (s : State) : Sync :=
  if s.link.mir.lost then .nosync else if s.link.mir.ring then s.link.mir.rstate else s.wheel.st

/-- The predictor state in use (R289). -/
def effPred (s : State) : Pred := if s.link.mir.ring then s.link.mir.p else s.pred

/-- The predictor state before the one in use (R121). -/
def effPrev (s : State) : Pred := if s.link.mir.ring then s.link.mir.prev else s.predPrev

/-- The angle while the position comes from coarse edges: the position's, carried on at the last coarse period up to
the next position (R48, R57; log 16). -/
def bareAng (s : State) (m : Nat) (t : Tb) : Nat :=
  let w := s.wheel
  let sp := 16 * spacing w.cfg
  let x := tbSince (w.tPrev.getD t) t * (w.lastG * sp) / max 1 w.lastP
  (theta16 w.cfg (if w.st == .gap then 0 else w.half) w.pos (gAct s w.pos) + min x (span w.cfg (nextPos w.cfg w.pos) * sp - 1)) % m

/-- The local decoder supplies the angle and its predictor has not started (R57). -/
def bareNow (s : State) : Bool := s.wheel.bare && !s.link.mir.ring

/-- The period of the angle in 1/16 tick: one revolution in GAP of a four-stroke engine (R72). -/
def angMod (s : State) : Nat :=
  if effSync s == .gap then 16 * 368640 else cyc16 s.wheel.cfg

/-- The current angle in 1/16 tick (R75, R86). -/
def ang16 (s : State) : Nat :=
  match effSync s with
  | .nosync => 0
  | .reverse =>
    theta16 s.wheel.cfg s.wheel.half s.wheel.pos (gAct s s.wheel.pos)
  | _ => if bareNow s then bareAng s (angMod s) s.clk.tb else predAng (angMod s) (effPred s) s.clk.tb

/-- ANGLE in ticks (R75). -/
def angle (s : State) : Nat := ang16 s / 16

/-- The clamp of R75 is in force (R86). While the position comes from coarse edges there is no predictor to clamp: HELD
reads 1, of which the spec is silent (DESIGN CHOICE, log 16). -/
def heldNow (s : State) : Bool :=
  match effSync s with
  | .nosync => false
  | .reverse => true
  | _ => bareNow s || decide ((effPred s).nA ≤ predX (effPred s) s.clk.tb)

/-- The half is known (R85). -/
def halfKnown (s : State) : Bool :=
  match effSync s with
  | .nosync => false
  | .gap => s.wheel.cfg.two
  | _ => true

/-- The word of ANGLE_H (R85). -/
def angleHWord (s : State) : Word :=
  w16 (angle s / 65536 + b2n (effSync s != .nosync) 4 + b2n (halfKnown s) 5 + b2n (heldNow s) 6 +
    b2n s.link.mir.ring 7)

/-- A read of ANGLE_L captures ANGLE_H on its path (R85, R421). -/
def readAngleL (p : Path) (s : State) : Word × State :=
  (w16 (angle s),
   match p with
   | .host => { s with bus := { s.bus with angH := angleHWord s } }
   | .debug => { s with bus := { s.bus with angD := angleHWord s } })

/-- ANGLE_CAPTURE (R85). -/
def execAngleCapture (s : State) : Host.Outcome State Fault Refusal :=
  .next (hostRead .angleCapture (readAngleL .host) s)

/-- SPEED for a pace: min(65 535, KSPD / uk) (R87). -/
def speedOf (spd : Option Nat) : Word :=
  match spd with
  | some u => w16 (min 65535 (tdivI 34133333333 u).toNat)
  | none => 0

/-- SPEED (R87). -/
def speedWord (s : State) : Word :=
  if s.wheel.stallF then 0 else if s.link.mir.ring then speedOf s.link.mir.spd else speedOf s.spd

/-! ### The local predictor -/

/-- The deviations that an update at position p uses. -/
def toothIn (s : State) (stamp : Tb) (p h : Nat) : ToothIn :=
  let c := s.wheel.cfg
  ⟨stamp, p, h, gAct s p, gAct s (prevPos c p), gAct s (nextPos c p)⟩

/-- Whether the second-order term is enabled after these counts (R73); never in legacy mode (R472). -/
def o2Of (s : State) (p : Pred) : Bool :=
  isNative s && decide (2 ≤ p.slopes) &&
    (s.geom.src != 0 || decide (2 * (s.wheel.cfg.n - s.wheel.cfg.m) ≤ p.teeth))

/-- Replaces the local predictor state and keeps the one before it (R121). -/
def setPred (p : Pred) (s : State) : State := { s with predPrev := s.pred, pred := p }

/-- The predictor starts: no state precedes its first one, but in LIMP (R72, R121). -/
def beginPred (p : Pred) (s : State) : State :=
  { s with predPrev := if s.wheel.st == .limp then s.pred else p, pred := p }

/-- RES of a tooth with period P (R77). -/
def residual (per ppred : Nat) : Int :=
  satS 16 (tdivI (((per : Int) - ppred) * 2 ^ 16) ppred)

/-- Writes a residual (R78): the table, the fault of a large residual in SYNC, and the RESID record. -/
def noteResidual (p h : Nat) (res : Int) (s : State) : State :=
  let e := vget s.geom.e p {}
  let e := { e with res := res, rmax := max e.rmax res.natAbs }
  let s := { s with geom := { s.geom with e := vput s.geom.e p e } }
  let s := if s.wheel.st == .sync && decide (s.geom.learn.resth < res.natAbs)
    then raise 7 0 (i16 res) s else s
  if s.geom.learn.resrep then pushRec 6 0 h (i16 res) (w16 p) s else s

/-! ### Learning -/

/-- The partial sums are discarded (R83). DESIGN CHOICE (log 16): the revolution in progress, begun under MODE 0 or before
the discard, still counts at its end, of which R79 is silent. -/
def clearSums (l : Learn) : Learn :=
  { l with sums := Vector.replicate 256 0, counted := 0 }

/-- The shadow that a pass yields (R80). -/
def learnPass (n m : Nat) (g : Geom) : Geom :=
  let l := g.learn
  let e' := vmapi (fun (i : Fin 256) (e : GeomE) =>
    if i.val = 0 then { e with shd := 0 }
    else if i.val < n - m then
      let avg := tdivI l.sums[i] l.cycles
      { e with shd := satS 16 (e.act + sar ((avg - e.act) * l.blend) 4) }
    else e) g.e
  let l := { l with sums := Vector.replicate 256 0, counted := 0, mode := if l.mode = 1 then 0 else l.mode }
  { g with e := e', ready := true, learn := l }

/-- The deviations of a counted revolution are added to the sums (R79). -/
def learnAdd (c : WheelCfg) (t0 t1 : Tb) (l : Learn) : Learn :=
  let rev := tbSince t0 t1
  let sums := l.stamps.foldl (fun (v : Vector Int 256) (x : Nat × Tb) =>
    let e := tdivI ((tbSince t0 x.2 : Int) * 5898240) rev - 16 * (x.1 : Int) * spacing c
    vput v x.1 (vget v x.1 0 + e)) l.sums
  { l with sums := sums, counted := l.counted + 1 }

/-- Sums and passes of learning can proceed: the firmware is not halted, and the ring does not supply the angle (R27, R287). -/
def learns (s : State) : Bool := !s.dbg.halted && !s.link.mir.ring

/-- An accepted position-0 tooth ends a revolution and begins the next one (R79, R80). The sums and the shadow are the
firmware's work, which a halt stops: a revolution that ends in a halt is not counted (R27; log 16). -/
def learnRev (stamp : Tb) (s : State) : State :=
  let l := s.geom.learn
  let inSync := s.wheel.st == .sync
  let s := match l.t0 with
    | some t0 =>
      let r := tbSince t0 stamp
      let steady := match l.lastRev with
        | some q => decide (((r : Int) - q).natAbs * 1024 ≤ l.steady * q)
        | none => false
      let l' := if l.mode != 0 && l.clean && inSync && steady && learns s
        then learnAdd s.wheel.cfg t0 stamp l else l
      let g := { s.geom with learn := { l' with lastRev := some r } }
      let g := if l'.mode != 0 && decide (l.cycles ≤ l'.counted) && learns s
        then learnPass s.wheel.cfg.n s.wheel.cfg.m g else g
      { s with geom := g }
    | none => s
  { s with geom := { s.geom with learn := { s.geom.learn with t0 := some stamp, stamps := [], clean := inSync && !s.link.mir.ring } } }

/-- A tooth other than position 0 is stamped for learning, or spoils the revolution (R79). -/
def learnTooth (stamp : Tb) (p : Nat) (s : State) : State :=
  let l := s.geom.learn
  { s with geom := { s.geom with learn := { l with stamps := l.stamps ++ [(p, stamp)], clean := l.clean && s.wheel.st == .sync && !s.link.mir.ring } } }

/-- A bad or synthetic tooth, or a loss of SYNC, spoils the revolution in progress (R79). -/
def learnSpoil (s : State) : State :=
  { s with geom := { s.geom with learn := { s.geom.learn with clean := false } } }

/-- Position 0 is lost: no revolution is in progress. -/
def learnLost (s : State) : State :=
  { s with geom := { s.geom with learn := { s.geom.learn with t0 := none, lastRev := none, stamps := [], clean := false } } }

/-- A table without deviations (R82). -/
def flatten (g : Geom) (n m : Nat) : Geom :=
  { g with e := vmapi (fun _ (e : GeomE) => { e with act := 0, shd := 0 }) g.e, src := 0, ready := false, tableN := n, tableM := m, learn := clearSums g.learn }

end Sys2Proof.Machine
end

