-- ==== Sys2Proof/WellFormed.lean ====
section
/-! DEFINITION. Which commands are well formed: a row that stands for one form of an access or of a
mailbox command carries the bits of that form. -/

namespace Sys2Proof

/-- The codes that R439 assigns. -/
def assignedCodes : List Nat :=
  [0x01, 0x02, 0x08, 0x09, 0x0A, 0x0B, 0x10, 0x11, 0x12, 0x13, 0x14, 0x15, 0x18, 0x19, 0x20, 0x21,
   0x28, 0x29, 0x2A, 0x30, 0x31, 0x32, 0x38, 0x39, 0x3C, 0x3D, 0x3E]

/-- TYPE of a frame (R278). -/
def Frame.ty (f : Frame) : Nat := f.hdr.toNat / 4096

/-- Form fields of A0, from the given bit up (R441 to R459). -/
def Args.form (a : Args) (lo : Nat) : Nat := a.a0.toNat / 2 ^ lo

/-- Whether a slot carries anything for an endpoint to judge (R285). -/
def RxSlot.occupied : RxSlot → Bool
  | .empty _ => false
  | .full _ | .bad _ | .marked _ => true

/-- A form of an assigned code that has no row of its own (R446, R449, R450, R454). -/
def unassignedForm (code : Byte) (a : Args) : Bool :=
  ((code.toNat == 0x14 || code.toNat == 0x21) && a.form 14 == 3) || (code.toNat == 0x18 && decide (5 ≤ a.form 13)) ||
    (code.toNat == 0x31 && decide (2 ≤ a.a0.toNat % 4))

/-- A command is well formed when its operands are those of its row. -/
def Instr.wf : Instr → Bool
  | .camSetEdge a => a.form 15 == 0
  | .camSetHeader a => a.form 15 == 1
  | .brassLoadInstruction a => a.form 15 == 0
  | .brassLoadHeader a => a.form 15 == 1
  | .diagRunChan a => a.form 14 == 0
  | .diagRunTrip a => a.form 14 == 1
  | .diagRunTest a => a.form 14 == 2
  | .thermSetStage a => a.form 13 == 0
  | .thermSetApply a => a.form 13 == 1
  | .thermSetAmb a => a.form 13 == 2
  | .thermSetInit a => a.form 13 == 3
  | .thermSetDie a => a.form 13 == 4
  | .fltReadCount a => a.form 14 == 0
  | .fltReadClear a => a.form 14 == 1
  | .fltReadHist a => a.form 14 == 2
  | .linkRole a => a.a0.toNat % 4 != 3
  | .linkRoleQuery a => a.a0.toNat % 4 == 3
  | .linkSend a => a.form 14 == 0
  | .linkSendRecv a => a.form 14 == 1
  | .linkSendRemote a => a.form 14 == 2
  | .linkSendData a => a.form 14 == 3
  | .storeCommit a => a.a0.toNat % 4 == 0
  | .storeCommitClear a => a.a0.toNat % 4 == 1
  | .lifecycleAdvanceKey a => a.form 15 == 0
  | .lifecycleAdvanceStep a => a.form 15 == 1
  | .unassignedCommand c a => !assignedCodes.contains c.toNat || unassignedForm c a
  | .wakeFromStop c _ => c.val != 0
  | .wakeFromStandby c => [1, 3, 5, 6, 7].contains c.val
  | .stopRequest w _ => w.toNat % 4 == 1
  | .standbyRequest w _ => w.toNat % 4 == 2
  | .fmStart w => w.getLsbD 9
  | .fmAbort w => w.getLsbD 10 && !w.getLsbD 9
  | .slotGo _ w => w.getLsbD 0
  | .slotCancel _ w => w.getLsbD 1 && !w.getLsbD 0
  | .windowApply _ w => w.getLsbD 2
  | .timerRearm w => w.getLsbD 0
  | .legacyArm v => v.getLsbD 2
  | .legacyCancel v => v.getLsbD 3 && !v.getLsbD 2
  | .br _ _ _ c _ => c.toNat ≤ 12
  | .toothRecord f _ _ => f.ty == 1
  | .state1 f => f.ty == 3
  | .state2 f => f.ty == 4
  | .config f => f.ty == 5
  | .faultFrame f => f.ty == 6
  | .hostFrame f => f.ty == 7
  | .creditFrame f => f.ty == 8
  | .joinFrame f _ => f.ty == 9
  | .remoteFrame f => f.ty == 10
  | .replyFrame f => f.ty == 11
  | .reservedFrame f => f.ty == 0 || 12 ≤ f.ty
  | .linkFrameError rx => rx.occupied
  | .powerOnReset _ | .resetPin _ | .resetRequest _ | .bootB0End _ | .romIntegrityCheck _ | .storeBanksRead
  | .recordApplied | .bootDone | .ident _ | .oeSet | .oeClear | .wakeTimer _ | .wakeCaptureEdge _ _ _ _
  | .powerFailFall | .powerFailRise | .aocJudged | .aocLoss | .aocGrossCheck _ | .lrcLoss | .fcoJudged
  | .fcoLoss | .rckJudged | .rckHoldoverEnd | .fllWindow _ | .fclkStopDetect | .cleanSwitchRequest
  | .cleanSwitchComplete | .muxHangDetect _ | .heldFcoRestart | .escapeStart _ | .escapeComplete _ _
  | .driftCheck _ | .clkctlWrite _ | .clkstatRead | .gateenWrite _ | .gateClearEffect _ | .fmDone _
  | .crankToothEdge _ | .lateToothDeadline | .directionCodeEdge _ | .camEdge _ _ _ | .camWindowClose _
  | .limpCamTimeout | .stallTimeout | .wheelSet _ | .syncPolicy _ | .dirSet _ | .learnCtl _ | .cycleStart
  | .slotEvaluation _ | .slotFire _ | .pulseWidthEnd _ | .reportPop | .rptstatRead | .windowPassStart _
  | .windowStrobe _ | .delayedStrobeIssue _ | .converterEntry _ | .converterSearchTimeout | .bufferPop _ _
  | .bufferStatusRead _ | .senseFrameComplete _ _ | .senseSlotMissing _ | .lineStuckTimeout _ _
  | .tboostElapsed _ | .deadTimeEnd _ | .tpeakElapsed _ | .tholdElapsed _ | .maxOnTime _ | .decayTimeout _
  | .channelSet _ | .profileLoad _ | .pairSet _ | .senseScale _ | .brassEnd _ | .sett _ _ _ _ | .seth _ _
  | .waitt _ _ _ | .waittExpiry _ | .waiti _ _ _ _ | .waitiTimeout _ | .boost _ _ | .sig _ _ _ _
  | .brassIssueCycle _ | .sigirqRead | .tripAssert | .tripRelease | .tripDeferralEnd _ | .tripClear _
  | .diagTestWaitTimeout | .diagTestPulseEnd | .thermalTick | .dieConversion _ _ | .thermCapture _
  | .timerMatch _ | .timerOverflow _ | .timerGateStop _ | .countLoad _ | .preloadLoad _ | .timerFlagClear _
  | .faultEventApply | .collectorSelfCheck | .watchdogExpiry | .faultAck | .containmentLift _ | .historyClear
  | .selfClear | .historyPop | .fltstatRead | .openRecordCapture | .fsrcSet _ | .lockAcquired | .lockLost
  | .linkBreak _ | .slotTransmit _ | .localInjection | .recordMissingDeadline | .joinTimeout | .linkJoin
  | .storeRead _ | .storeReadComplete | .commitComplete _ | .keyWriteComplete | .unlockChallenge _
  | .unlockAnswer _ | .answerCheckComplete | .lockoutEnd | .lineReset | .detachTimeout | .debugHeaderError
  | .debugHostAccess _ _ _ _ | .halt _ | .ptest _ | .wake _ | .dreset _ | .chal | .clrerr | .detach
  | .dchalRead | .dansWrite _ | .dpinWrite _ | .interruptClear _ | .angleCapture | .tbCapture
  | .registerWrite _ _ | .mailboxCommandStart | .commandInterrupted | .emitStart _ | .emitStop | .emitStep
  | .emitCamEdge _ | .legacyReady _ | .lctlWrite _ | .lwheelWrite _ | .legacySlotFire _ | .legacyAngleCapture
  | .legacyPeriodCapture | .lprofdatAccess _ | .legacyPhaseEnd _ | .legacyPwmPeriod _ | .legacyMaxon _
  | .legacyTripAssert | .triplatClear | .lstatClear _ | .legacyTimerMatch _ | .legacyTimerOverflow _
  | .legacyCountLoad _ | .legacyCompareLoad _ | .ltimctlWrite _ | .windatRead | .cutThroughForward _
  | .loutenWrite _ | .legacyFcoStop | .lrcReturn | .vddioaLoss | .vddioaReturn _ => true

end Sys2Proof
end

