-- ==== Sys2Proof/Machine/LinkOps.lean ====
section
/-! DEFINITION. Frames of the Dergor link and the queue of local frames (R277 to R284). -/

namespace Sys2Proof.Machine

/-! ### Frames -/

/-- One bit step of CRC-8 with the polynomial x^8 + x^2 + x + 1 (R279). -/
def crc8Bit (c : BitVec 8) : BitVec 8 := if c.getLsbD 7 then (c <<< 1) ^^^ 7 else c <<< 1

/-- CRC-8 of a byte string (R279). -/
def crc8 (bs : List Byte) : Byte :=
  bs.foldl (fun c b => (List.range 8).foldl (fun x _ => crc8Bit x) (c ^^^ b)) 0

/-- The bytes at positions 1 to 7 (R277). -/
def frameBytes (hdr : BitVec 16) (ext : BitVec 8) (p : BitVec 32) : List Byte :=
  [(hdr >>> 8).setWidth 8, hdr.setWidth 8, ext, (p >>> 24).setWidth 8, (p >>> 16).setWidth 8,
    (p >>> 8).setWidth 8, p.setWidth 8]

/-- The CRC that a frame should carry. -/
def goodCrc (f : Frame) : Byte := crc8 (frameBytes f.hdr f.ext f.payload)

/-- How the CRC of a frame reads: correct, poisoned, or wrong (R279, R285). -/
inductive CrcState where
  | good
  | poisoned
  | wrong
deriving DecidableEq, Repr

/-- The state of a frame's CRC. -/
def crcState (f : Frame) : CrcState :=
  if f.crc = goodCrc f then .good else if f.crc = goodCrc f ^^^ 0xFF then .poisoned else .wrong

/-- Fields of the header and of EXT (R278). -/
def fSrc (f : Frame) : Nat := f.hdr.toNat / 128 % 32
def fDst (f : Frame) : Nat := f.hdr.toNat / 4 % 32
def fHc (f : Frame) : Nat := f.hdr.toNat % 4 + 4 * (f.ext.toNat % 8)
def fBc (f : Frame) : Bool := f.ext.getLsbD 3
def fVoid (f : Frame) : Bool := f.ext.getLsbD 4
def fSeen (f : Frame) : Bool := f.ext.getLsbD 5

/-- The bits of EXT other than HC. -/
def extFlags (f : Frame) : Nat := f.ext.toNat / 8 * 8

/-- A frame with its CRC computed; hop count 0. -/
def mkFrame (ty src dst : Nat) (bc : Bool) (payload : BitVec 32) : Frame :=
  let hdr : BitVec 16 := BitVec.ofNat 16 (ty * 4096 + src % 32 * 128 + (if bc then 0 else dst % 32 * 4))
  let ext : BitVec 8 := if bc then 8 else 0
  ⟨hdr, ext, payload, crc8 (frameBytes hdr ext payload)⟩

/-- A frame with another hop count and other flags of EXT, and the CRC of what is sent, poisoned or not. -/
def reframe (hc : Nat) (flags : Nat) (payload : BitVec 32) (poison : Bool) (f : Frame) : Frame :=
  let hdr : BitVec 16 := BitVec.ofNat 16 (f.hdr.toNat / 4 * 4 + hc % 4)
  let ext : BitVec 8 := BitVec.ofNat 8 (flags / 8 * 8 + hc / 4 % 8)
  let c := crc8 (frameBytes hdr ext payload)
  ⟨hdr, ext, payload, if poison then c ^^^ 0xFF else c⟩

/-! ### Local frames -/

/-- Ranks of local frames, the same order on master and member (R283, R284). -/
def rankTooth : Nat := 0
def rankState : Nat := 1
def rankConfig : Nat := 2
def rankFault : Nat := 3
def rankJoin : Nat := 4
def rankReply : Nat := 5
def rankCredit : Nat := 6
def rankRemote : Nat := 7
def rankHost : Nat := 8

/-- Inserts a frame behind those of its rank or of a lower one. -/
def insertOut (o : OutFrame) : List OutFrame → List OutFrame
  | [] => [o]
  | x :: xs => if x.rank ≤ o.rank then x :: insertOut o xs else o :: x :: xs

/-- Queues a local frame for injection (R283). -/
def queueOut (rank : Nat) (f : Frame) (stamp : Option Tb) (s : State) : State :=
  { s with link := { s.link with out := insertOut ⟨rank, f, stamp⟩ s.link.out } }

/-- The unit may send local frames: it is master or member (R304). -/
def onRing (s : State) : Bool := s.link.st == .master || s.link.st == .member

/-- The sync state of a code; a code without a state reads as NOSYNC (log 12). -/
def Sync.ofCode (n : Nat) : Sync :=
  if n = 1 then .gap else if n = 2 then .confirm else if n = 3 then .sync
  else if n = 4 then .limp else if n = 5 then .reverse else .nosync

/-- A FAULT frame for an event (R256, R280); a unit without a node number discards it (R299). -/
def queueFault (src cls ch sev : Nat) (safe : Bool) (det : Word) (s : State) : State :=
  if onRing s then
    let p := src + cls * 64 + ch * 256 + sev * 4096 + b2n safe 15 + det.toNat * 65536
    queueOut rankFault (mkFrame 6 s.link.node 0 true (BitVec.ofNat 32 p)) none s
  else s

end Sys2Proof.Machine
end

