-- ==== Sys2Proof/Machine/MboxOps.lean ====
section
/-! DEFINITION. The mailbox and the firmware core (R416, R417, R429 to R438): submission, the checks in
their order, and the end of a command. -/

namespace Sys2Proof.Machine

/-- What a command's own checks and effect give (R431 to R433). `done` is false while hardware that the
command started has still to end. -/
structure CmdRes where
  st : State
  status : Nat := 0
  q0 : Nat := 0
  q1 : Nat := 0
  done : Bool := true
deriving DecidableEq, Repr

/-- Status codes of R433 that several commands use. -/
def stBadArg : Nat := 0x16
def stCheck : Nat := 0x17
def stNoLink : Nat := 0x1A

/-- A refusal at check 7 (R431). -/
def badArg (s : State) : CmdRes := { st := s, status := stBadArg }

/-- A refusal at numbered check k (R431). -/
def checkFail (k : Nat) (s : State) : CmdRes := { st := s, status := stCheck, q0 := k }

/-- The number of the first check that fails, counted from 1 (R431). -/
def firstFail (cs : List Bool) : Option Nat :=
  let i := cs.findIdx fun c => !c
  if i < cs.length then some (i + 1) else none

/-- Argument check, numbered checks, then the effect (R431). -/
def checked (argsOk : Bool) (checks : List Bool) (s : State) (eff : CmdRes) : CmdRes :=
  if !argsOk then badArg s
  else match firstFail checks with
    | some k => checkFail k s
    | none => eff

/-- Argument words without bits outside a mask (R431, check 7). -/
def within (w : Word) (mask : Nat) : Bool := (w &&& ~~~(w16 mask)) == 0

/-! ### Properties of the commands (R439) -/

/-- The class of a code (R436). -/
def classOf (code : Nat) : Nat :=
  if code ∈ [0x08, 0x09, 0x0A, 0x0B] then 1
  else if code ∈ [0x10, 0x11, 0x13, 0x19] then 2
  else if code = 0x12 then 3
  else if code = 0x14 then 4
  else if code = 0x15 then 5
  else if code = 0x18 then 6
  else if code = 0x20 then 7
  else if code ∈ [0x28, 0x29] then 8
  else if code = 0x2A then 9
  else if code = 0x31 then 10
  else if code = 0x32 then 11
  else if code ∈ [0x38, 0x39] then 12
  else if code = 0x3E then 13
  else 0

/-- The commands of the boot window (R342). -/
def bootCodes : List Nat := [0x01, 0x02, 0x30]

/-- The commands of the safe state (R260). -/
def safeCodes : List Nat := [0x02, 0x21, 0x30]

/-- The commands that cannot run as remote commands (R438). -/
def localCodes : List Nat := [0x01, 0x28, 0x2A, 0x3C, 0x3D, 0x3E]

/-- The lifecycle allows the command or its form (R439). -/
def lifecycleOk (code : Nat) (a : Args) (lc : Nat) : Bool :=
  if code = 0x31 && a.a0.toNat % 4 = 1 then lc == 0
  else if code = 0x3C || code = 0x3D then lc == 1
  else if code = 0x3E && !bit a.a0 15 then lc == 0
  else true

/-- The block that the command or its form needs (R439, R446). -/
def blockOf (code : Nat) (a : Args) : Option Blk :=
  if code ∈ [0x10, 0x11, 0x12, 0x13, 0x19] then some .chan
  else if code = 0x14 then (if fld a.a0 14 2 = 1 then none else some .chan)
  else if code = 0x18 then some .therm
  else if code ∈ [0x28, 0x29, 0x2A] then some .link
  else if code ∈ [0x38, 0x39] then some .emit
  else none

/-- The event of a command that the image masks (R403, R431). -/
def denyEvent (code : Nat) (ring : Bool) (s : State) : State :=
  raise 45 0 (w16 ((if ring then 4 else 3 + b2n s.mbox.byDbg 3) + code * 256)) s

/-- Checks 1 to 6 of R431 before the command's own; a remote command of R438 gets NOTREMOTE first. -/
def guarded (c : Cmd) (op : Args → State → CmdRes) (s : State) : CmdRes :=
  let code := c.code.toNat
  let ring := c.sender != .host
  let mask := vget s.sec.img (if ring then 25 else 24) 0
  if ring && code ∈ localCodes then { st := s, status := 0x22 }
  else if !(code ∈ assignedCodes) then { st := s, status := 0x10 }
  else if classOf code != 0 && !bit mask (classOf code) then
    { st := denyEvent code ring s, status := 0x11 }
  else if s.sys.boot < 5 && !(code ∈ bootCodes) then { st := s, status := 0x12 }
  else if s.flt.safe && !(code ∈ safeCodes) then { st := s, status := 0x13 }
  else if !lifecycleOk code c.args s.sec.lc then { st := s, status := 0x14 }
  else if (match blockOf code c.args with | some b => !blkOn s b | none => false) then
    { st := s, status := 0x15 }
  else op c.args s

/-! ### Submission and end -/

/-- The firmware core can work: FCLK runs, the boot window has been reached, no halt (R27, R429). -/
def coreOn (s : State) : Bool :=
  liveN s && decide (4 ≤ s.sys.boot) && s.sys.boot != 6 && !s.dbg.halted && s.sys.pwr == .run

/-- A write of MBCMD by the host or through the debug port (R417, R429); during an entry into STANDBY it is ignored and sets
OVR, as while busy (R349, R430). -/
def submit (p : Path) (code : Byte) (s : State) : State :=
  let m := s.mbox
  if m.busy || s.sys.pwr == .entering then { s with mbox := { m with ovr := true } }
  else
    let c : Cmd := ⟨.host, code, m.args⟩
    let m := { m with cmd := code, busy := true, done := false, ovr := false, byDbg := p == Path.debug }
    if coreOn s && m.run.isNone then { s with mbox := { m with run := some c } }
    else { s with mbox := { m with waiting := some c } }

/-- A write of MBARGn (R417). -/
def writeArg (n : Nat) (w : Word) (s : State) : State :=
  let m := s.mbox
  if m.busy then { s with mbox := { m with ovr := true } }
  else
    let a := m.args
    let a := if n = 0 then { a with a0 := w } else if n = 1 then { a with a1 := w }
      else if n = 2 then { a with a2 := w } else { a with a3 := w }
    { s with mbox := { m with args := a } }

/-- The REPLY frame of a remote command (R298, R437). -/
def replyTo (node : Nat) (tag : Byte) (status q0 : Nat) (s : State) : State :=
  if onRing s then
    queueOut rankReply (mkFrame 11 s.link.node node false
      (BitVec.ofNat 32 (tag.toNat + status * 256 + q0 % 65536 * 65536))) none s
  else s

/-- The running command ends (R417, R437). -/
def endCmd (status q0 q1 : Nat) (s : State) : State :=
  match s.mbox.run with
  | none => s
  | some c =>
    let m := { s.mbox with run := none, committed := false, cut := false, ready := none }
    match c.sender with
    | .host =>
      setInt 11 { s with mbox := { m with busy := false, done := true, status := BitVec.ofNat 8 status, res0 := w16 q0, res1 := w16 q1 } }
    | .ring node tag => replyTo node tag status q0 { s with mbox := m }

/-- Runs the command that has started, through every check to its effect and, unless it waits for hardware, to
its end (R431, R432). -/
def serve (c : Cmd) (op : Args → State → CmdRes) (s : State) : State :=
  let r := guarded c op s
  if r.done then endCmd r.status r.q0 r.q1 r.st
  else { r.st with mbox := { r.st.mbox with committed := true } }

/-- The mailbox's registers answer: FCLK runs, the ROM has passed its check, and the device is not down (R323, R344, R349). -/
def mboxUp (s : State) : Bool := busUp s && s.sys.pwr != .stop && s.sys.pwr != .standby

/-- The running command has this code and these arguments, and no check of it has been made yet. -/
def mboxServes (code : Byte) (a : Args) (s : State) : Bool :=
  match s.mbox.run with
  | some c => c.code == code && c.args == a && !s.mbox.committed && !s.mbox.cut
  | none => false

/-- The arguments of a row that names none: those of the running command when it has this code, else those that the host
has written (R417, R437). -/
def rowArgs (code : Byte) (s : State) : Args :=
  match s.mbox.run with
  | some c => if c.code == code && !s.mbox.committed && !s.mbox.cut then c.args else s.mbox.args
  | none => s.mbox.args

/-- A command row as a submission of the host (R417): a mailbox that is not busy takes the command with these arguments; a
busy one ignores it and sets OVR. -/
def hostSubmit (code : Byte) (a : Args) (s : State) : State :=
  if !mboxUp s || !s.sys.vddioa then s
  else if s.mbox.busy then { s with mbox := { s.mbox with ovr := true } }
  else submit .host code { s with mbox := { s.mbox with args := a } }

/-- The running command is served, when it is this one and the core can work. -/
def mboxServe (code : Byte) (op : Args → State → CmdRes) (a : Args) (s : State) : State :=
  match s.mbox.run with
  | some c => if mboxServes code a s && coreOn s then serve c op s else s
  | none => s

/-- A command row (log 7): the command that runs is served when it is this one; else the row is a submission of the host,
behind a remote command that runs (R429), and is served at once when it starts at once. A command that the host has
submitted already and that waits is the row's own. -/
def mboxTake (code : Byte) (op : Args → State → CmdRes) (a : Args) (s : State) : State :=
  if mboxServes code a s then mboxServe code op a s
  else if s.mbox.waiting = some ⟨.host, code, a⟩ then s
  else mboxServe code op a (hostSubmit code a s)

/-- The accesses that submit a command: its arguments, and then its code (R417, R429). -/
def submitRows (code : Byte) (a : Args) : List Instr :=
  [.registerWrite 0x1A a.a0, .registerWrite 0x1C a.a1, .registerWrite 0x1E a.a2, .registerWrite 0x20 a.a3, .registerWrite 0x18 (code.setWidth 16)]

/-- A command row on the bus (R355): in STOP its submission may wake the device. -/
def mboxRow (code : Byte) (op : Args → State → CmdRes) (a : Args) (s : State) : State :=
  if rdyHeld s then holdRows (submitRows code a) s else mboxTake code op a (csFalls s)

/-- A request for a commit without its command (R435). -/
def CommitCause.orphaned : CommitCause → CommitCause
  | .host force => .orphan force
  | .clear => .orphan true
  | c => c

/-- What a command that is cut short leaves to the hardware (R435): a commit goes on and ends no command any more; of an
advance the word that is being written is the last. -/
def cutHardware (s : State) : State :=
  let run := s.store.run.map fun c => { c with cause := c.cause.orphaned }
  let adv := match s.sec.adv with
    | some (.lock _) => some (.lock 1)
    | some .sealNext => some (.lock 1)
    | a => a
  { s with store := { s.store with run := run, queue := s.store.queue.map CommitCause.orphaned }, sec := { s.sec with adv := adv } }

/-- The firmware core is reset during a command (R435). -/
def cutCore (s : State) : State :=
  if s.mbox.run.isSome then cutHardware { s with mbox := { s.mbox with cut := true, ready := none } } else s

/-- The next command starts: a submitted host command, else the oldest remote one (R429, R437). -/
def startNext (s : State) : State :=
  if coreOn s && s.mbox.run.isNone then
    match s.mbox.waiting, s.mbox.remote with
    | some c, _ => { s with mbox := { s.mbox with run := some c, waiting := none } }
    | none, c :: cs => { s with mbox := { s.mbox with run := some c, remote := cs } }
    | none, [] => s
  else s

end Sys2Proof.Machine
end

