-- ==== Sys2Proof/Machine/ChanOps.lean ====
section
/-! DEFINITION. The operations on channels that the channel, Brass, diagnostic, trip and fault families
share: levels, BOOSTEN, entry into states, containment, regulation (R140 to R165). -/

namespace Sys2Proof.Machine

/-! ### Pairs, idleness, levels -/

/-- The pair of a shaped channel is enabled (R162). -/
def paired (s : State) (n : Nat) : Bool := decide (n < 8) && vget s.chs.pairs (n / 2) false

/-- The channel whose state governs channel n: the lower one of an enabled pair. -/
def lowerOf (s : State) (n : Fin 12) : Fin 12 :=
  if paired s n.val then ⟨n.val - n.val % 2, by omega⟩ else n

/-- The channel is the upper one of an enabled pair. -/
def isPartner (s : State) (n : Fin 12) : Bool := paired s n.val && n.val % 2 == 1

/-- A state is active (R159). -/
def ChSt.active : ChSt → Bool
  | .boost | .dead | .peak | .hold | .prog => true
  | _ => false

/-- The channel is idle (R141); the partner of a pair is idle with its lower channel. -/
def idle (s : State) (n : Fin 12) : Bool :=
  match s.chan[lowerOf s n].st with
  | .off | .idle | .low => true
  | _ => false

/-- A running TEST tests this channel (R210). -/
def underTest (s : State) (n : Fin 12) : Bool :=
  match s.diag.test with
  | some t => t.ch == n.val || (paired s n.val && t.ch / 2 == n.val / 2)
  | none => false

/-- The channel is idle and not under test (R210). -/
def idleX (s : State) (n : Fin 12) : Bool := idle s n && !underTest s n

/-- The throttle step in force on a channel: of a pair the larger one (R221). -/
def stepOf (s : State) (n : Fin 12) : Nat :=
  let st (k : Nat) : Nat := if h : k < 8 then (s.therm.ch[k]).step else 0
  if paired s n.val then max (st (n.val - n.val % 2)) (st (n.val - n.val % 2 + 1)) else st n.val

/-- A code reduced by a throttle step (R221). -/
def throttled (code step : Nat) : Nat := code * (16 - step) / 16

/-- code(x) with the active scale (R150); a scale of 0 has no quotient (log 9). -/
def codeOf (s : State) (n : Fin 12) (x : Nat) : Nat :=
  let sc := s.chan[lowerOf s n].cfg.scale
  let lim := if paired s n.val then 8190 else 4095
  min lim (tdivI ((x * 1000 + sc / 2 : Nat) : Int) sc).toNat

/-- A rise of DRVn or of BOOSTEN in a group restarts its blanking (R203). -/
def groupRise (g : Nat) (s : State) : State :=
  { s with trip := { s.trip with blankEnd := vput s.trip.blankEnd g (some (tbAdd s.clk.tb s.trip.tblank)) } }

/-- Decides the level of DRVn of one channel (R152). -/
def setDrv1 (n : Fin 12) (lvl : Bool) (s : State) : State := updChan n (fun c => { c with drv := lvl }) s

/-- The pin of DRVn rises: its blanking and its on-frame index begin (R191, R200). -/
def pinRise (n : Fin 12) (s : State) : State :=
  let s := updChan n (fun c => { c with riseAt := some s.clk.tb, riseBlank := s.trip.tblank }) s
  let s := { s with diag := { s.diag with ch := vput s.diag.ch n.val { vget s.diag.ch n.val {} with onIdx := 0 } } }
  groupRise s.trip.group[n] s

/-- The pin of DRVn falls (R192, R202). -/
def pinFall (n : Fin 12) (s : State) : State := updChan n (fun c => { c with fallAt := some s.clk.tb }) s

/-- The other channel of a shaped pair. -/
def mate (n : Fin 12) : Fin 12 := if n.val % 2 = 0 then ⟨(n.val + 1) % 12, by omega⟩ else ⟨n.val - 1, by omega⟩

/-- Drives a channel, and with it the partner of an enabled pair (R162). -/
def setDrv (n : Fin 12) (lvl : Bool) (s : State) : State :=
  if paired s n.val then setDrv1 (mate n) lvl (setDrv1 n lvl s) else setDrv1 n lvl s

/-! ### BOOSTEN -/

/-- A channel requests BOOSTEN (R157, R180). -/
def requests (c : Chan) : Bool := c.st == .boost || c.breq

/-- A channel is to be forced low while BOOSTEN is high (R157). -/
def forceable (c : Chan) : Bool :=
  c.cfg.boostuse && (c.st == .peak || c.st == .hold || c.st == .prog) && !c.breq

/-- A channel waits for the dead time after a fall of BOOSTEN: in DEAD, forced, or in BOOST OFF (R157, R178). -/
def awaitsFall (c : Chan) : Bool := c.st == .dead || c.forced || c.prog.wait == .boostOff

/-- A channel counts for its group's dead time: it has BOOSTUSE or held the request (R203). -/
def boostParty (s : State) (n : Fin 12) : Bool :=
  decide (n.val < 8) && (s.chan[n].cfg.boostuse || s.chs.held[n])

/-- BOOSTEN is decided high, or its pin is still to follow a fall (R19, R157). -/
def boostHigh (s : State) : Bool := s.chs.boosten || s.pins.outs.toList.any (·.boosten)

/-- Channels that BOOSTEN forces are held low; the force ends with the fall of the pin (R157). -/
def forceLow (s : State) : State :=
  let fs := (List.finRange 12).filter fun n => forceable s.chan[n]
  let s := foldSt fs (fun n t => updChan n (fun c => { c with forced := true }) (setDrv n false t)) s
  { s with chan := vmapi (fun _ c => if forceable c then c else { c with forced := false }) s.chan }

/-- The end of BOOSTEN: the dead time, which ends at `e`, runs for the groups that take part in it, and for the channels
that wait for it or were forced (R157, R203). -/
def boostEnds (e : Tb) (s : State) : State :=
  let high := s.chs.boosten
  let gd := vmapi (fun (g : Fin 4) (d : Option Tb) =>
    if (List.finRange 12).any (fun n => s.trip.group[n] == g.val && boostParty s n) then some e else d) s.trip.deadEnd
  let ch := vmapi (fun _ (c : Chan) =>
    let c := if awaitsFall c then { c with reg := { c.reg with deadTo := some e } } else c
    { c with forced := c.forced && high }) s.chan
  { s with trip := { s.trip with deadEnd := gd }, chan := ch }

/-- BOOSTEN follows the requests (R157). `old` is the channels before the change. A boost that begins and ends within one
tick never shows at the pin: its fall is the instant at which the pin would have followed (R19, R157). -/
def boostUpdate (old : Vector Chan 12) (s : State) : State :=
  let want := s.chan.toList.any requests
  let fell := s.chs.boosten && !want
  let held := if fell then Vector.ofFn fun n : Fin 12 => requests old[n] else s.chs.held
  let s := { s with chs := { s.chs with boosten := want, held := held } }
  if boostHigh s then forceLow s
  else if fell && !s.pins.boost then boostEnds (tbAdd s.clk.tb (3 + s.trip.dead)) s
  else s

/-- The pin of BOOSTEN rises: a rise in every group that holds a channel with BOOSTUSE, and channels that wait for its
fall wait for the next one (R155, R157, R200). -/
def boostRise (s : State) : State :=
  let gs := (List.finRange 4).filter fun g => (List.finRange 12).any fun n => s.trip.group[n] == g.val && s.chan[n].cfg.boostuse
  let s := foldSt gs (fun g t => groupRise g.val t) s
  { s with chan := vmapi (fun _ c => if awaitsFall c then { c with reg := { c.reg with deadTo := none } } else c) s.chan }

/-- The pin of BOOSTEN falls: the dead time starts (R157, R203). -/
def boostFall (s : State) : State := boostEnds (tbAdd s.clk.tb s.trip.dead) s

/-- The pins take their levels of this tick, with what their edges start (R19, R142). -/
def pinEdges (s : State) : State :=
  let was := s.pins
  let d := Vector.ofFn (pinDrv s)
  let b := pinBoost s
  let s := { s with pins := { s.pins with drv := d, boost := b } }
  let s := foldSt ((List.finRange 12).filter fun n => d[n] && !was.drv[n]) pinRise s
  let s := foldSt ((List.finRange 12).filter fun n => was.drv[n] && !d[n]) pinFall s
  if b && !was.boost then boostRise s else if was.boost && !b then boostFall s else s

/-- The levels decided in the tick before move on toward the pins (R19). -/
def shiftOuts (lv : OutLevels) (s : State) : State :=
  { s with pins := { s.pins with outs := #v[lv, s.pins.outs[0], s.pins.outs[1]] } }

/-- The pins of these channels fall without the latency (R205). -/
def dropPins (p : Fin 12 → Bool) (s : State) : State :=
  { s with pins := { s.pins with outs := vmapi (fun _ (o : OutLevels) => { o with drv := vmapi (fun n x => x && !p n) o.drv }) s.pins.outs } }

/-! ### Entries into states -/

/-- A program that ends or is abandoned (R182, R183). -/
def stopProg (p : Prog) : Prog := { p with run := false, wait := .none, siga := false, sigb := false }

/-- A channel with its pulse over: no request, no program, nothing forced. -/
def quiet (c : Chan) : Chan :=
  { c with breq := false, forced := false, prog := stopProg c.prog, reg := { c.reg with deadTo := none, retarget := false }, pulse := { c.pulse with pulseEnd := none, exitAt := none, peakOver := false, maxTicks := 0 } }

/-- Puts a channel into a state with its level low and everything of its pulse dropped; BOOSTEN follows. -/
def settle (n : Fin 12) (st : ChSt) (s : State) : State :=
  let old := s.chan
  let s := updChan n (fun c => { quiet c with st := st }) s
  boostUpdate old (setDrv n false s)

/-- Entry into DECAY (R158). -/
def enterDecay (n : Fin 12) (s : State) : State :=
  let s := settle n .decay s
  updChan n (fun c => { c with pulse := { c.pulse with decAt := s.clk.tb, decRun := 0 } }) s

/-- The pending scale becomes active (R151); an enabled pair's scale is that of both lines (R171). -/
def applyScale (n : Fin 12) (s : State) : State :=
  if s.chan[n].cfg.scpend = 0 then s
  else
    let sc := s.chan[n].cfg.scpend
    let f (c : Chan) : Chan := { c with cfg := { c.cfg with scale := sc, scpend := 0 } }
    let s := updChan n f s
    if paired s n.val then updChan (mate n) f s else s

/-- A line of the channel, or of its pair, is in wire break. -/
def lineBroken (s : State) (n : Fin 12) : Bool :=
  let b (k : Nat) : Bool := (vget s.lines k {}).wbrk
  if paired s n.val then b (n.val - n.val % 2) || b (n.val - n.val % 2 + 1) else b n.val

/-- The pair sums two lines, and the upper line's latest valid frame is more than 800 ns old (R163). -/
def upperStale (s : State) (n : Fin 8) : Bool :=
  paired s n.val && s.chan[lowerOf s (sh n)].fallback.isNone &&
    match (vget s.lines (n.val - n.val % 2 + 1) {}).lastAt with
    | some t => decide (80 < tbSince t s.clk.tb)
    | none => true

/-- The current a pair or a channel decides on at a valid frame of line n (R163, R164). -/
def decisionI (s : State) (n : Fin 8) : Nat :=
  let i := (s.lines[n]).lastI
  if !paired s n.val then i
  else if s.chan[lowerOf s (sh n)].fallback.isSome || upperStale s n then 2 * i
  else i + (vget s.lines (mate (sh n)).val {}).lastI

/-- The channel's latest current after a change of the lines it decides on: of a pair the sum, or twice the healthy
line (R163, R164, R176). -/
def refreshI (m : Fin 8) (s : State) : State :=
  let n : Fin 8 := match s.chan[lowerOf s (sh m)].fallback with
    | some up => if up then ⟨m.val - m.val % 2 + 1, by omega⟩ else ⟨m.val - m.val % 2, by omega⟩
    | none => if paired s m.val then ⟨m.val - m.val % 2, by omega⟩ else m
  updChan (lowerOf s (sh m)) (fun c => { c with lastI := decisionI s n }) s

/-- A fallback ends once the lines are clear: the pair decides on both lines again (R163, R164, R176). -/
def endFallback (n : Fin 12) (s : State) : State :=
  if lineBroken s n || s.chan[n].fallback.isNone then s
  else
    let s := updChan n (fun c => { c with fallback := none }) s
    if h : n.val < 8 then refreshI ⟨n.val, h⟩ s else s

/-- Entry into IDLE: the pending scale applies, and a fallback ends once the lines are clear (R151, R164). -/
def enterIdle (n : Fin 12) (s : State) : State := endFallback n (applyScale n (settle n .idle s))

/-- Entry into LOW of a timed channel (R151, R161). -/
def enterLow (n : Fin 12) (s : State) : State := applyScale n (settle n .low s)

/-- The resting state of a channel by its mode. -/
def restState (mode : Nat) : ChSt :=
  if mode = 1 then .low else if mode = 2 || mode = 3 then .idle else .off

/-- The state that a channel enters when a containment or a trip ends: DECAY for a shaped channel, LOW for a
timed one (R159, R207), OFF for the others. -/
def release (n : Fin 12) (s : State) : State :=
  let m := s.chan[n].cfg.mode
  if m = 2 || m = 3 then enterDecay n s
  else if m = 1 then enterLow n s
  else settle n .off s

/-! ### Containment and trip -/

/-- The containment input on one channel (R159): OFF stays OFF. -/
def containInput (n : Fin 12) (s : State) : State :=
  if s.chan[n].st == .off || s.chan[n].st == .contained then setDrv1 n false s else settle n .contained s

/-- The collector's containment of a channel, with the tick in which it is applied (R249, R250). -/
def Chan.contain (tb : Tb) (c : Chan) : Chan :=
  { c with cont := true, contAt := some tb, contWas := if c.contAt == some tb then c.contWas else c.cont }

/-- Containment of a channel by the collector: both channels of an enabled pair (R249). -/
def containCh (n : Fin 12) (s : State) : State :=
  let one (k : Fin 12) (t : State) : State := containInput k (updChan k (Chan.contain t.clk.tb) t)
  if paired s n.val then one (mate n) (one n s) else one n s

/-- A channel leaves CONTAINED when neither the collector nor its own line holds it (R165, R250). -/
def leaveContained (n : Fin 12) (s : State) : State :=
  if s.chan[n].st == .contained && !s.chan[n].cont && !s.chan[n].own then release n s else s

/-- The input "Trip group latched" on one channel (R159, R206); a test pulse on a channel in OFF ends (R205). -/
def tripInput (n : Fin 12) (s : State) : State :=
  match s.chan[n].st with
  | .off | .contained | .tripped => setDrv1 n false s
  | _ => settle n .tripped s

/-- Every channel of the latched groups receives the input (R206). -/
def tripAll (s : State) : State := foldSt ((List.finRange 12).filter (groupLatched s)) tripInput s

/-- SYSCTL.OE falls, or the fast-datapath reset: active shaped channels enter DECAY, timed ones LOW, a test pulse and a
CSTB pulse end, and every pin is low in the same cycle (R143, R144, R321). -/
def outputsDown (s : State) : State :=
  let s := foldSt (List.finRange 12) (fun n t =>
    if t.chan[n].st.active then enterDecay n t else if t.chan[n].st == .high then enterLow n t else setDrv1 n false t) s
  pinEdges { s with cpc := { s.cpc with strobeAt := none }, pins := { s.pins with outs := Vector.replicate 3 {} } }

/-- Safe-state entry puts every channel in CONTAINED whatever its mode and state (R159, R259). -/
def containAll (s : State) : State :=
  foldSt (List.finRange 12) (fun n t => settle n .contained (updChan n (fun c => { c with cont := true }) t)) s

/-! ### Regulation -/

/-- A new target in force is a retarget when it changes (R153). -/
def setTarget (n : Fin 12) (v : Nat) (noslew : Bool) (s : State) : State :=
  updChan n (fun c => if c.reg.target = v then c
    else { c with reg := { c.reg with target := v, retarget := true, noslew := noslew } }) s

/-- A value moved toward another by at most a step. -/
def toward (a b step : Nat) : Nat := if a ≤ b then min b (a + step) else max b (a - step)

/-- TEFF at a valid frame (R153). -/
def followTeff (slew i : Nat) (r : Reg) : Reg :=
  if r.retarget then
    { r with teff := if slew = 0 || r.noslew then r.target else toward i r.target slew, retarget := false }
  else { r with teff := if slew = 0 || r.noslew then r.target else toward r.teff r.target slew }

/-- The decision of a valid frame (R152): the next level of DRVn. -/
def decide1 (i : Nat) (r : Reg) (lvl : Bool) : Bool :=
  if r.teff ≤ i then false else if r.h ≤ r.teff && decide (i ≤ r.teff - r.h) then true else lvl

/-- Decisions are suspended: forced, in the dead time, with a boost request held, or until a BOOST OFF completes (R157,
R180). -/
def suspended (c : Chan) : Bool := c.forced || c.reg.deadTo.isSome || c.breq || c.prog.wait == .boostOff

/-- A regulating channel takes a valid frame with current i (R152, R153). -/
def regulate (n : Fin 12) (i : Nat) (s : State) : State :=
  let c := s.chan[n]
  let r := followTeff c.cfg.slew i c.reg
  if suspended c then updChan n (fun c => { c with reg := r }) s
  else
    let lvl := decide1 i r c.drv
    setDrv n lvl (updChan n (fun c => { c with reg := r }) s)

/-- HOLD: the throttled hold level is a retarget, with the hysteresis of hold (R153, R155, R221). -/
def enterHold (n : Fin 12) (s : State) : State :=
  let old := s.chan
  let p := s.chan[n].pulse
  let s := updChan n (fun c => { c with st := .hold, reg := { c.reg with h := p.cHysh } }) s
  boostUpdate old (setTarget n (throttled p.cHold (stepOf s n)) false s)

/-- PEAK from DEAD (R155). -/
def enterPeak (n : Fin 12) (s : State) : State :=
  let old := s.chan
  boostUpdate old (updChan n (fun c => { c with st := .peak }) s)

/-- THOLD counted from the end of peak has elapsed (R155). -/
def tholdOver (s : State) (n : Fin 12) : Bool :=
  let p := s.chan[n].pulse
  p.prof.thold != 0 && decide (p.prof.thold * 100 ≤ tbSince p.holdAt s.clk.tb)

/-- Boost exit: DEAD, with TPEAK counted from here (R155). -/
def boostExit (n : Fin 12) (s : State) : State :=
  let old := s.chan
  let s := updChan n (fun c => { c with st := .dead, pulse := { c.pulse with exitAt := some s.clk.tb } }) s
  boostUpdate old (setDrv n false s)

/-- A throttle step changes a hold level or a THR target in force (R179, R222). -/
def throttleMoved (n : Fin 12) (s : State) : State :=
  let c := s.chan[n]
  if c.st == .hold then setTarget n (throttled c.pulse.cHold (stepOf s n)) false s
  else if c.st == .prog && c.prog.thr then setTarget n (throttled c.prog.full (stepOf s n)) false s
  else s

/-! ### Actions at fire (R94, R106, R159, R161) -/

/-- Flags of R106 at a fire. -/
inductive FireFlag where
  | none
  | blocked
  | busy
  | noop
deriving DecidableEq, Repr

/-- Max on-time of the protection image in TB ticks (R156, R385). -/
def imgMaxTicks (s : State) (n : Fin 12) : Nat :=
  (vget s.sec.img (2 * (lowerOf s n).val + 1) 0).toNat * 1000

/-- The protection image enables the channel; of a pair the lower channel's words govern (R385). -/
def chanEnabled (s : State) (n : Fin 12) : Bool :=
  bit (vget s.sec.img (2 * (lowerOf s n).val) 0) 0 && decide (1 ≤ imgMaxTicks s n)

/-- The lesser of a guard (0: none) in units of 10 µs and the image's limit (R156, R184). -/
def maxTicksOf (s : State) (n : Fin 12) (guard : Nat) : Nat :=
  if guard = 0 then imgMaxTicks s n else min (guard * 1000) (imgMaxTicks s n)

/-- START of a profile (R154, R155). -/
def startProfile (n : Fin 12) (param : Word) (s : State) : State :=
  let old := s.chan
  let p := vget s.chs.profs (param.toNat % 16) {}
  let pk := codeOf s n p.peak
  let tb := s.clk.tb
  let pu : Pulse := { startAt := tb, prof := p, cPeak := pk, cHold := codeOf s n p.hold, cHysp := codeOf s n p.hysp, cHysh := codeOf s n p.hysh, exitAt := if p.tboost = 0 then some tb else none, maxTicks := maxTicksOf s n p.maxon, blank := p == {} }
  let r : Reg := { target := pk, teff := pk, h := pu.cHysp }
  let s := updChan n (fun c => { c with st := if p.tboost = 0 then .peak else .boost, pulse := pu, reg := r }) s
  boostUpdate old (if p.tboost = 0 then s else setDrv n true s)

/-- START of a Brass program (R177). -/
def startBrass (n : Fin 12) (param : Word) (s : State) : State :=
  let old := s.chan
  let e := param.toNat % 16
  let d := vget s.brass.dir e {}
  let tb := s.clk.tb
  let pu : Pulse := { startAt := tb, maxTicks := maxTicksOf s n d.maxon }
  let pr : Prog := { entry := e, run := true, next := s.clk.fcyc + 1 }
  boostUpdate old (updChan n (fun c => { c with st := .prog, pulse := pu, reg := {}, prog := pr }) s)

/-- The channel gives no pin effect to any action: outputs disabled, contained, tripped, gated off (R106, R206). -/
def fireBlocked (s : State) (n : Fin 12) : Bool :=
  !s.sys.oe || s.dbg.ptest || s.chan[n].st == .contained || s.chan[n].st == .tripped || !blkOn s .chan ||
    s.chan[n].own || s.chan[n].cont || groupLatched s n

/-- ACT is valid on the channel in its present mode (R94, R140). -/
def actValid (s : State) (act : Nat) (n : Fin 12) : Bool :=
  let m := s.chan[n].cfg.mode
  if isPartner s n then false
  else if act = 1 || act = 2 then m == 2 || m == 3
  else if act = 3 || act = 4 || act = 5 then m == 1
  else false

/-- SET or PULSE on a timed channel (R94, R161): the max on-time counts from the rise. -/
def timedRise (n : Fin 12) (width : Option Nat) (s : State) : State :=
  let tb := s.clk.tb
  let pu : Pulse := { startAt := tb, maxTicks := imgMaxTicks s n, pulseEnd := width.map fun w => tbAdd tb (w * 10) }
  setDrv n true (updChan n (fun c => { c with st := .high, pulse := pu }) s)

/-- A channel action fires: its flag and the state after it (R106, R159, R161). -/
def fireAction (n : Fin 12) (act : Nat) (param : Word) (s : State) : FireFlag × State :=
  if fireBlocked s n || !actValid s act n then (.blocked, s)
  else if act = 1 then
    if idleX s n then
      (.none, if s.chan[n].cfg.mode = 3 then startBrass n param s else startProfile n param s)
    else (.busy, s)
  else if act = 2 then
    if s.chan[n].st.active then (.none, enterDecay n s) else (.noop, s)
  else if act = 4 then
    if s.chan[n].st == .high then (.none, enterLow n s) else (.noop, s)
  else if s.chan[n].st == .high || !idleX s n then (.busy, s)
  else (.none, timedRise n (if act = 5 then some param.toNat else none) s)

end Sys2Proof.Machine
end

