-- ==== Sys2Proof/Machine/DiagOps.lean ====
section
/-! DEFINITION. Verdicts of load diagnostics and the latching of trip groups (R189 to R206), shared by the
channel, trip and diagnostic families. -/

namespace Sys2Proof.Machine

/-- One channel's diagnostics replaced by a function of themselves. -/
def updDiag (n : Fin 8) (f : DiagCh → DiagCh) (s : State) : State :=
  { s with diag := { s.diag with ch := vupd s.diag.ch n f } }

/-- The class that a confirmed verdict gives (R196); codes of R194. -/
def nextClass (cls v : Nat) (on : Bool) : Nat :=
  if cls = 5 then (if !on && v = 1 then 6 else v)
  else if cls = 6 then (if !on && v = 1 then 6 else v)
  else v

/-- The source that a change to a class raises (R197). -/
def classSource : Nat → Option Nat
  | 2 => some 15
  | 3 => some 16
  | 4 => some 17
  | 6 => some 18
  | _ => none

/-- CLASS changes (R197). -/
def setClass (n : Fin 8) (c : Nat) (s : State) : State :=
  if (s.diag.ch[n]).cls = c then s
  else match classSource c with
    | some src =>
      setInt 3 (raise src n.val 0 (updDiag n (fun d => { d with cls := c, lastbad := c, dcnt := satInc d.dcnt 65535 }) s))
    | none => updDiag n (fun d => { d with cls := c }) s

/-- A verdict of a frame is counted and, when confirmed, changes CLASS (R195, R196). -/
def verdict (n : Fin 8) (on : Bool) (need v : Nat) (s : State) : State :=
  let d := s.diag.ch[n]
  let cnt := if d.cand = v then satInc d.cnt 15 else 1
  let s := updDiag n (fun d => { d with cand := v, cnt := cnt }) s
  if (if v = 4 then 1 else need) ≤ cnt && v != d.cls then
    setClass n (nextClass d.cls v on) (updDiag n (fun d => { d with cand := 0, cnt := 0 }) s)
  else s

/-- The verdict of an on-frame (R193): 0 for none. -/
def onVerdict (d : DiagCh) (nrise i dl : Nat) (prev : Option Nat) : Nat :=
  let jump := match prev with
    | some p => decide (d.didt + p < i)
    | none => false
  if d.oclim ≤ i || jump then 4
  else if dl != 0 then (if d.nocur ≤ i then 4 else 6)
  else if i < d.nocur then (if nrise ≤ d.onIdx then 5 else 0)
  else 1

/-- The verdict of an off-frame (R193). -/
def offVerdict (dl : Nat) : Nat := if dl = 0 then 3 else if dl = 1 then 2 else 1

/-- A frame of line n completing now is an on-frame (R191): the pin has been high for 400 ns and longer, up to now. -/
def isOnFrame (s : State) (n : Fin 8) : Bool :=
  let c := s.chan[sh n]
  (s.diag.ch[n]).en && (pinDrv s (sh n) || c.fallAt == some s.clk.tb) &&
    match c.riseAt with
    | some r => decide (c.riseBlank + 40 ≤ tbSince r s.clk.tb)
    | none => false

/-- A frame of line n is an off-frame (R192). -/
def isOffFrame (s : State) (n : Fin 8) (i : Nat) : Bool :=
  (s.diag.ch[n]).en && idle s (sh n) && !pinDrv s (sh n) &&
    (match s.chan[sh n].fallAt with
    | some r => decide (200 ≤ tbSince r s.clk.tb)
    | none => true) && decide (i ≤ (s.diag.ch[n]).nocur)

/-! ### DIAG_RUN TEST (R211) -/

/-- The line's place in the running test, when the test is at its channel. -/
def testIdx (s : State) (n : Fin 8) : Option (DTest × Nat) :=
  match s.diag.test with
  | some t =>
    if t.ch = n.val then some (t, 0)
    else if paired s n.val && t.ch / 2 = n.val / 2 then some (t, 1) else none
  | none => none

/-- The pulse of a test is on its pin, or has left it in this tick: a frame that completes now may be an on-frame of the
pulse (R191, R211). -/
def DTest.pulsing (t : DTest) (tb : Tb) : Bool := t.ph == .pulse || (t.ph == .decay && t.since == tb)

/-- A verdict reaches the running test (R211): off-frames in step 1, the first non-OK on-frame in step 3. -/
def testVerdict (n : Fin 8) (on : Bool) (v : Nat) (s : State) : State :=
  match testIdx s n with
  | none => s
  | some (t, k) =>
    if !on && t.ph == .wait then
      let c := if vget t.verdict k 0 = v then vget t.offs k 0 + 1 else 1
      { s with diag := { s.diag with test := some { t with offs := vput t.offs k c, verdict := vput t.verdict k v } } }
    else if on && t.pulsing s.clk.tb && v != 0 && (vget t.pv k 0 = 0 || vget t.pv k 0 = 1) then
      { s with diag := { s.diag with test := some { t with pv := vput t.pv k v } } }
    else s

/-- A valid frame with current above NOCUR, or no off-frame, during step 1 (R211). -/
def testOther (n : Fin 8) (i : Nat) (s : State) : State :=
  match testIdx s n with
  | some (t, k) =>
    if t.ph == .wait then
      let saw := vget t.sawI k false || decide ((s.diag.ch[n]).nocur < i)
      { s with diag := { s.diag with test := some { t with offs := vput t.offs k 0, sawI := vput t.sawI k saw } } }
    else s
  | none => s

/-- Classification of a valid frame (R191 to R196), before the frame's decision. -/
def classify (n : Fin 8) (i dl : Nat) (prev : Option Nat) (s : State) : State :=
  let pulseTest : Bool := match testIdx s n with
    | some (t, _) => t.pulsing s.clk.tb
    | none => false
  if isOnFrame s n then
    let s := updDiag n (fun d => { d with onIdx := d.onIdx + 1 }) s
    let d := s.diag.ch[n]
    let v := onVerdict d (if pulseTest then 1 else d.nrise) i dl prev
    if v = 0 then s else testVerdict n true v (verdict n true (if pulseTest then 1 else d.conf) v s)
  else if isOffFrame s n i then
    let v := offVerdict dl
    testVerdict n false v (verdict n false (s.diag.ch[n]).conf v s)
  else testOther n i s

/-! ### Trip groups -/

/-- Latches groups with one event for all of them; their pins fall without the latency of R19 (R201, R203, R205). -/
def latchGroups (src : Nat) (gs : List (Fin 4)) (s : State) : State :=
  if gs.isEmpty then s else
  let mask := gs.foldl (fun m g => m ||| 2 ^ g.val) 0
  let l := gs.foldl (fun v (g : Fin 4) => v.set g true) s.trip.latched
  let d := gs.foldl (fun v (g : Fin 4) => v.set g []) s.trip.defer
  let s := { s with trip := { s.trip with latched := l, defer := d, tcnt := min 65535 (s.trip.tcnt + gs.length) } }
  setInt 3 (raiseC src mask (w16 mask) true (dropPins (fun n => gs.any fun g => s.trip.group[n] == g.val) (tripAll s)))

/-- A channel is driving at an assertion (R202). -/
def driving (s : State) (n : Fin 12) : Bool :=
  let c := s.chan[n]
  pinDrv s n || c.st == .boost ||
    match c.fallAt with
    | some f => decide (tbSince f s.clk.tb ≤ 100)
    | none => false

/-- The candidate groups of an assertion (R202). -/
def candidates (s : State) : List (Fin 4) :=
  let gs := vwhere fun g : Fin 4 => (List.finRange 12).any fun n => s.trip.group[n] == g.val && driving s n
  if gs.isEmpty then List.finRange 4 else gs

end Sys2Proof.Machine
end

