-- ==== Sys2Proof/Machine/SenseOps.lean ====
section
/-! DEFINITION. Sense frames and sense lines (R145 to R149, R163 to R165, R218), as channels, diagnostics,
thermal models and Brass take them. -/

namespace Sys2Proof.Machine

/-! ### The frame -/

/-- The fields of a 20-bit frame; bit k is position k, multi-bit fields come most significant bit first
(R145, R131). -/
structure FrameBits where
  start : Bool
  i : Nat
  dl : Nat
  ot : Bool
  /-- Positions 1 to 16 as the converter's result (R131). -/
  result : Word
  parityOk : Bool
  stopOk : Bool
deriving DecidableEq, Repr

/-- Bits lo to lo + w - 1 of a frame read with position lo as the most significant bit. -/
def msbFirst (f : BitVec 20) (lo w : Nat) : Nat :=
  (List.range w).foldl (fun x k => 2 * x + (if f.getLsbD (lo + k) then 1 else 0)) 0

/-- A frame taken apart (R145). -/
def parseFrame (f : BitVec 20) : FrameBits :=
  { start := f.getLsbD 0, i := msbFirst f 1 12, dl := msbFirst f 13 2, ot := f.getLsbD 15, result := w16 (msbFirst f 1 16), parityOk := ((List.range 17).filter fun k => f.getLsbD (1 + k)).length % 2 == 0, stopOk := f.getLsbD 18 && f.getLsbD 19 }

/-- The frame has an error of R147; the drain level counts on a sense line only. -/
def frameBad (b : FrameBits) (sense : Bool) : Bool := !b.parityOk || !b.stopOk || (sense && b.dl == 3)

/-- A sample of the line; bits 0 and 1 of the samples are the two before sample 0 (R146). -/
def sampleAt (x : BitVec 82) (k : Nat) : Bool := x.getLsbD (k + 2)

/-- Bit k of a frame: the majority of samples 4k + 1, 4k + 2 and 4k + 3 (R146). -/
def majority (x : BitVec 82) (k : Nat) : Bool :=
  let a := sampleAt x (4 * k + 1)
  let b := sampleAt x (4 * k + 2)
  let c := sampleAt x (4 * k + 3)
  (a && b) || (a && c) || (b && c)

/-- The 20 bits that the receiver reads from the samples (R146). -/
def frameOf (x : BitVec 82) : BitVec 20 := BitVec.ofNat 20 (((List.range 20).filter (majority x)).foldl (fun n k => n + 2 ^ k) 0)

/-- Sample 0 is low after two high samples: the receiver takes a frame here (R146). -/
def frameBegins (x : BitVec 82) : Bool := x.getLsbD 0 && x.getLsbD 1 && !sampleAt x 0

/-- The hunt for this frame's start was on: it resumes at sample 78 of the frame before, so the completions lie 78 FCLK
cycles apart or more, to the cycle of the tick (R146). -/
def hunting (fcyc : Nat) (l : Line) : Bool :=
  match l.doneAt with
  | some d => decide (d + 77 ≤ fcyc)
  | none => true

/-! ### Lines -/

/-- One sense line replaced by a function of itself. -/
def updLine (n : Fin 8) (f : Line → Line) (s : State) : State := { s with lines := vupd s.lines n f }

/-- A frame start sets the deadline 88 cycles after it, 9 cycles after the completion at sample 79 (R148). -/
def lineStart (fcyc : Nat) (l : Line) : Line := { l with deadline := some (fcyc + 9), doneAt := some fcyc }

/-- The line's account of a valid frame (R148, R198). -/
def lineValid (tb : Tb) (b : FrameBits) (l : Line) : Line :=
  let good := satInc l.good 8
  { l with missing := 0, good := good, wbrk := l.wbrk && decide (good < 8), lastI := b.i, lastDl := b.dl, lastOt := b.ot, any := true, lastAt := some tb, prevOk := true }

/-- The line's account of a slot without a valid frame (R148). -/
def lineMissing (l : Line) : Line := { l with missing := satInc l.missing 3, good := 0, prevOk := false }

/-! ### What a slot adds to the thermal model -/

/-- The accumulators of a channel take a value (R218). -/
def heatBy (on : Bool) (x : Nat) (c : ThCh) : ThCh :=
  if on then { c with e2 := c.e2 + x * x, e2on := c.e2on + x * x } else { c with e2 := c.e2 + x * x, e1off := c.e1off + x }

/-- The level driven through a slot: the decided one as the pin carries it, without regard to the latency (R218, R401). -/
def slotLevel (s : State) (n : Fin 8) : Bool :=
  if s.dbg.ptest then testPin s n.val else s.chan[sh n].drv && outputsOn s

/-- The level driven at the deadline of a slot: the deadline that has passed, else the one that passes now (R148, R218). -/
def dueLevel (s : State) (n : Fin 8) : Bool :=
  let l := s.lines[n]
  match l.deadline with
  | some d => if d ≤ s.clk.fcyc then l.dueLvl else slotLevel s n
  | none => slotLevel s n

/-- The level is noted in the tick in which a line's deadline passes (R218). -/
def noteDue (s : State) : State :=
  { s with lines := vmapi (fun (n : Fin 8) (l : Line) => match l.deadline with
    | some d => if d ≤ s.clk.fcyc ∧ s.clk.fcyc < d + 2 then { l with dueLvl := slotLevel s n } else l
    | none => l) s.lines }

/-- A value is added to the accumulators at a level (R218), unless the block is disabled (R329). -/
def addHeat (n : Fin 8) (lvl : Bool) (x : Nat) (s : State) : State :=
  if blkOn s .therm then { s with therm := { s.therm with ch := vupd s.therm.ch n (heatBy lvl x) } } else s

/-- The value of a slot without a valid frame (R218). -/
def missingHeat (s : State) (n : Fin 8) : Nat :=
  let l := s.lines[n]
  if !l.wbrk then l.lastI
  else if s.chan[lowerOf s (sh n)].fallback.isSome then (vget s.lines (mate (sh n)).val {}).lastI
  else if tbSince l.wbrkAt s.clk.tb < s.chan[sh n].cfg.decmax * 100 then l.lastI else 0

/-! ### Channel side of a slot -/

/-- The line whose valid frames decide for the channel: its own, the lower one of a pair, or the healthy one
in fallback (R163, R164). -/
def decides (s : State) (n : Fin 8) : Bool :=
  if paired s n.val then
    match s.chan[lowerOf s (sh n)].fallback with
    | some up => up == (n.val % 2 == 1)
    | none => n.val % 2 == 0
  else true

/-- A WAITI takes a valid frame (R181). -/
def waitiFrame (n : Fin 12) (i : Nat) (s : State) : State :=
  match s.chan[n].prog.wait with
  | .current code le _ =>
    if s.chan[n].st == .prog && (if le then decide (i ≤ code) else decide (code ≤ i)) then
      updChan n (fun c => { c with prog := { c.prog with wait := .none, timedOut := false, pc := c.prog.pc + 1, next := s.clk.fcyc + 1 } }) s
    else s
  | _ => s

/-- The channel takes a valid frame of the line that decides (R152, R154, R155, R158). -/
def chanFrame (n : Fin 12) (i : Nat) (s : State) : State :=
  let c := s.chan[n]
  match c.st with
  | .boost => if c.pulse.cPeak ≤ i then boostExit n s else s
  | .peak | .hold => if c.pulse.blank then enterDecay n s else regulate n i s
  | .prog => regulate n i (waitiFrame n i s)
  | .decay =>
    if i ≤ c.cfg.decthr then
      if 1 ≤ c.pulse.decRun then enterIdle n s
      else updChan n (fun c => { c with pulse := { c.pulse with decRun := 1 } }) s
    else updChan n (fun c => { c with pulse := { c.pulse with decRun := 0 } }) s
  | _ => s

/-- A channel counts a slot without a valid frame: a regulating one is driven low at the second in a row (R149). -/
def gapSlot (m : Fin 12) (s : State) : State :=
  let s := updChan m (fun c => { c with gaps := satInc c.gaps 3 }) s
  let c := s.chan[m]
  let reg := c.st == .peak || c.st == .hold || c.st == .prog
  if reg && !c.breq && decide (2 ≤ c.gaps) then setDrv m false s else s

/-- The line that decides for a channel has a slot without a valid frame (R149). -/
def chanMissing (n : Fin 8) (s : State) : State := if decides s n then gapSlot (lowerOf s (sh n)) s else s

/-! ### Wire break -/

/-- The channel of a line holds its own containment, or falls back, at the line's wire break (R164, R165). -/
def breakEffect (n : Fin 8) (s : State) : State :=
  let m := lowerOf s (sh n)
  let c := s.chan[m]
  let other := paired s n.val && (vget s.lines (mate (sh n)).val {}).wbrk
  if paired s n.val && c.st.active && !other then
    refreshI n (updChan m (fun c => { c with fallback := some (n.val % 2 == 0), reg := { c.reg with retarget := true, noslew := false } }) s)
  else if c.cfg.mode = 2 || c.cfg.mode = 3 then
    containInput m (updChan m (fun c => { c with own := true, fallback := none }) s)
  else s

/-- A line enters wire break (R148, R199). -/
def enterBreak (n : Fin 8) (s : State) : State :=
  if (s.lines[n]).wbrk then s else
  let s := updLine n (fun l => { l with wbrk := true, wbrkAt := s.clk.tb, good := 0 }) s
  let s := updDiag n (fun d => { d with cand := 0, cnt := 0 }) s
  let s := breakEffect n s
  let c := s.chan[lowerOf s (sh n)]
  raiseC 12 n.val (w16 (b2n c.fallback.isSome 0)) (c.fallback.isSome || c.own) s

/-- A line has left wire break: the own containment lifts once no line of the channel is in wire break, and a
fallback of an idle pair ends (R164, R165). -/
def leaveBreak (n : Fin 8) (s : State) : State :=
  let m := lowerOf s (sh n)
  if lineBroken s m then s
  else leaveContained m (updChan m (fun c => { c with own := false }) s)

/-- The end of decay after a test pulse: consecutive frames at or below DECTHR (R158, R211). -/
def testDecayFrame (m : Fin 12) (i : Nat) (s : State) : State :=
  match s.diag.test with
  | some t =>
    if t.ph == .decay && t.ch / 2 == m.val / 2 && (t.ch == m.val || paired s m.val) then
      let k := if i ≤ s.chan[m].cfg.decthr then vget t.offs 0 0 + 1 else 0
      { s with diag := { s.diag with test := some { t with offs := vput t.offs 0 k } } }
    else s
  | none => s

/-- The deciding frame of a channel: it is the channel's last frame, and its state takes it; of a pair without a fresh
upper frame it counts as a slot without a valid frame (R163, R176). -/
def takeFrame (m : Fin 12) (i : Nat) (stale : Bool) (s : State) : State :=
  let s := testDecayFrame m i (chanFrame m i (updChan m (fun c => { c with lastI := i }) s))
  if stale then gapSlot m s else updChan m (fun c => { c with gaps := 0 }) s

/-- A slot without a valid frame on line n, with the level driven at its deadline (R148, R149, R218). -/
def slotMissing (n : Fin 8) (lvl : Bool) (s : State) : State :=
  let s := updLine n lineMissing s
  let s := addHeat n lvl (missingHeat s n) s
  let s := chanMissing n s
  if 3 ≤ (s.lines[n]).missing then enterBreak n s else s

/-- A valid frame on line n: every block takes the same sample (R20). -/
def slotValid (n : Fin 8) (b : FrameBits) (s : State) : State :=
  let l := s.lines[n]
  let s := if b.ot && !(l.any && l.lastOt) then raise 19 n.val 0 s else s
  let prev := if l.prevOk then some l.lastI else none
  let s := updLine n (lineValid s.clk.tb b) s
  let s := addHeat n (slotLevel s n) b.i s
  let s := if (s.lines[n]).wbrk then s else classify n b.i b.dl prev s
  let s := if l.wbrk && !(s.lines[n]).wbrk then leaveBreak n s else s
  if decides s n then takeFrame (lowerOf s (sh n)) (decisionI s n) (upperStale s n) s else s

/-- A frame completes on SNSn (R146, R147). -/
def senseFrame (n : Fin 8) (x : BitVec 82) (s : State) : State :=
  let b := parseFrame (frameOf x)
  if !frameBegins x || !hunting s.clk.fcyc s.lines[n] || b.start then s
  else
    let lvl := dueLevel s n
    let s := updLine n (lineStart s.clk.fcyc) s
    if frameBad b true then
      slotMissing n lvl (raise 11 n.val 0 (updLine n (fun l => { l with ferr := satInc l.ferr 65535 }) s))
    else slotValid n b s

end Sys2Proof.Machine
end

