-- ==== Sys2Proof/Machine/Brass.lean ====
section
/-! DEFINITION. The Brass sequencer: the eight instructions, their issue, and BRASS_LOAD (R173 to R187). -/

namespace Sys2Proof.Machine

/-! ### Instructions -/

/-- A decoded Brass instruction (R175). -/
inductive BrassOp where
  | stop
  | sett (level : Word) (thr noslew : Bool)
  | seth (hys : Word)
  | waitt (t : BitVec 24) (abs : Bool)
  | waiti (level : Word) (dir : Bool) (tmo : BitVec 12)
  | br (dest : BitVec 5) (inv : Bool) (cond : BitVec 4) (level : Word)
  | boost (on : Bool)
  | sig (value mask : BitVec 2) (irq : Bool)
deriving DecidableEq, Repr

/-- Decoding of the 32 bits of an instruction (R175). -/
def brassDecode (w : BitVec 32) : BrassOp :=
  match w.toNat / 2 ^ 29 with
  | 0 => .stop
  | 1 => .sett (w.setWidth 16) (w.getLsbD 16) (w.getLsbD 17)
  | 2 => .seth (w.setWidth 16)
  | 3 => .waitt (w.setWidth 24) (w.getLsbD 24)
  | 4 => .waiti (w.setWidth 16) (w.getLsbD 16) ((w >>> 17).setWidth 12)
  | 5 => .br (w.setWidth 5) (w.getLsbD 5) ((w >>> 6).setWidth 4) ((w >>> 10).setWidth 16)
  | 6 => .boost (w.getLsbD 0)
  | _ => .sig (w.setWidth 2) ((w >>> 2).setWidth 2) (w.getLsbD 4)

/-- The bits that the table of R175 gives an opcode; the others must be 0. -/
def brassMask (w : BitVec 32) : BitVec 32 :=
  match w.toNat / 2 ^ 29 with
  | 0 => 0xE0000000
  | 1 => 0xE003FFFF
  | 2 => 0xE000FFFF
  | 3 => 0xE1FFFFFF
  | 4 => 0xFFFFFFFF
  | 5 => 0xE3FFFFFF
  | 6 => 0xE0000001
  | _ => 0xE000001F

/-! ### Issue and completion -/

/-- The program of a channel replaced by a function of itself. -/
def updProg (n : Fin 12) (f : Prog → Prog) (s : State) : State := updChan n (fun c => { c with prog := f c.prog }) s

/-- A channel in PROG may issue: its program runs and nothing holds it (R177, R178). -/
def canIssue (s : State) (n : Fin 8) : Bool :=
  liveN s && blkOn s .chan && s.chan[sh n].st == .prog && s.chan[sh n].prog.run && s.chan[sh n].prog.wait == .none

/-- The FCLK cycle of this TB tick whose number is 8k + n (R178). -/
def issueAt (s : State) (n : Fin 8) : Nat := s.clk.fcyc + n.val % 2

/-- An instruction issues: it is counted, and the next one may issue 8 cycles later at the earliest (R174, R178). -/
def issued (n : Fin 8) (s : State) : State :=
  updProg (sh n) (fun p => { p with issued := satInc p.issued 65535, next := issueAt s n + 1 }) s

/-- The program continues at the next instruction (R178). -/
def stepPc (n : Fin 8) (s : State) : State := updProg (sh n) (fun p => { p with pc := p.pc + 1 }) s

/-- A hold ends: the next instruction issues in the first issue cycle after this one (R178). -/
def holdEnds (n : Fin 8) (s : State) : State :=
  updProg (sh n) (fun p => { p with wait := .none, pc := p.pc + 1, next := s.clk.fcyc + 1 }) s

/-! ### Meanings -/

/-- END: the program ends, and the channel enters DECAY (R183). -/
def opEnd (n : Fin 8) (s : State) : State := enterDecay (sh n) (issued n s)

/-- SETT: the target in force, throttled with THR (R179). -/
def opSett (n : Fin 8) (level : Word) (thr noslew : Bool) (s : State) : State :=
  let s := issued n s
  let code := codeOf s (sh n) level.toNat
  let s := updProg (sh n) (fun p => { p with thr := thr, full := code }) s
  let v := if thr then throttled code (stepOf s (sh n)) else code
  stepPc n (setTarget (sh n) v noslew s)

/-- SETH: the hysteresis from the next valid frame on (R179). -/
def opSeth (n : Fin 8) (hys : Word) (s : State) : State :=
  let s := issued n s
  let h := codeOf s (sh n) hys.toNat
  stepPc n (updChan (sh n) (fun c => { c with reg := { c.reg with h := h } }) s)

/-- WAITT: holds until the time has elapsed, from here or from the START's match (R178). -/
def opWaitt (n : Fin 8) (t : BitVec 24) (abs : Bool) (s : State) : State :=
  let s := issued n s
  let from0 := if abs then s.chan[sh n].pulse.startAt else s.clk.tb
  let stop := tbAdd from0 (10 * t.toNat)
  if tbGe s.clk.tb stop then stepPc n s else updProg (sh n) (fun p => { p with wait := .time stop }) s

/-- WAITI: holds until a valid frame meets the condition, or the timeout (R181). -/
def opWaiti (n : Fin 8) (level : Word) (dir : Bool) (tmo : BitVec 12) (s : State) : State :=
  let s := issued n s
  let stop := if tmo = 0 then none else some (tbAdd s.clk.tb (100 * tmo.toNat))
  updProg (sh n) (fun p => { p with wait := .current (codeOf s (sh n) level.toNat) dir stop }) s

/-- The line that decides for a shaped channel (R163, R164). -/
def lastLine (s : State) (n : Fin 8) : Line :=
  let k := (lowerOf s (sh n)).val
  if paired s n.val && s.chan[lowerOf s (sh n)].fallback == some true then vget s.lines (k + 1) {} else vget s.lines k {}

/-- The condition of a BR, before INV (R176); a reserved condition is never true. -/
def brassCond (s : State) (n : Fin 8) (cond : BitVec 4) (level : Word) : Bool :=
  let p := s.chan[sh n].prog
  let l := lastLine s n
  match cond.toNat with
  | 0 => true
  | 1 => p.timedOut
  | 2 => decide (codeOf s (sh n) level.toNat ≤ s.chan[sh n].lastI)
  | 3 => l.any && l.lastDl == 0
  | 4 => l.any && l.lastDl == 1
  | 5 => l.any && l.lastDl == 2
  | 6 => l.lastOt
  | 7 => !l.prevOk || decide (1 ≤ s.chan[lowerOf s (sh n)].gaps)
  | 8 => s.chan[sh n].fallback.isSome
  | 9 => decide (1 ≤ stepOf s (sh n))
  | 10 => s.wheel.st == .sync
  | 11 => p.siga
  | 12 => p.sigb
  | _ => false

/-- BR (R176). -/
def opBr (n : Fin 8) (dest : BitVec 5) (inv : Bool) (cond : BitVec 4) (level : Word) (s : State) : State :=
  let s := issued n s
  if brassCond s n cond level != inv then updProg (sh n) (fun p => { p with pc := dest.toNat }) s else stepPc n s

/-- BOOST with ON = 1 requests BOOSTEN and drives DRVn high; a held request is left as it is (R180). -/
def boostOn (n : Fin 8) (s : State) : State :=
  if s.chan[sh n].breq then s else
  let old := s.chan
  let s := updChan (sh n) (fun c => { c with breq := true, forced := false, reg := { c.reg with deadTo := none } }) s
  boostUpdate old (setDrv (sh n) true s)

/-- BOOST with ON = 0 drops the request and drives DRVn low; it holds for the dead time when there was a request
(R178, R180). -/
def boostOff (n : Fin 8) (s : State) : State :=
  let old := s.chan
  let s := setDrv (sh n) false s
  if s.chan[sh n].breq then
    boostUpdate old (updChan (sh n) (fun c => { c with breq := false, prog := { c.prog with wait := .boostOff } }) s)
  else stepPc n s

/-- BOOST (R180). -/
def opBoost (n : Fin 8) (on : Bool) (s : State) : State :=
  let s := issued n s
  if on then stepPc n (boostOn n s) else boostOff n s

/-- SIG (R182). -/
def opSig (n : Fin 8) (value mask : BitVec 2) (irq : Bool) (s : State) : State :=
  let s := issued n s
  let s := updProg (sh n) (fun p => { p with siga := if mask.getLsbD 0 then value.getLsbD 0 else p.siga, sigb := if mask.getLsbD 1 then value.getLsbD 1 else p.sigb }) s
  let s := if irq then setInt 8 { s with brass := { s.brass with sigirq := s.brass.sigirq ||| BitVec.ofNat 8 (2 ^ n.val) } } else s
  stepPc n s

/-- A decoded instruction issues on a channel. -/
def brassIssue (n : Fin 8) (op : BrassOp) (s : State) : State :=
  match op with
  | .stop => opEnd n s
  | .sett l t ns => opSett n l t ns s
  | .seth h => opSeth n h s
  | .waitt t a => opWaitt n t a s
  | .waiti l d t => opWaiti n l d t s
  | .br d i c l => opBr n d i c l s
  | .boost o => opBoost n o s
  | .sig v m q => opSig n v m q s

/-- The instruction at PC of the running entry; an empty entry is a single END (R173). -/
def brassFetch (s : State) (n : Fin 8) : BrassOp :=
  let p := s.chan[sh n].prog
  let d := vget s.brass.dir p.entry {}
  if d.len = 0 then .stop else brassDecode (vget s.brass.code ((d.base + p.pc % 32) % 256) 0)

/-- The issue cycle of a channel that may issue falls in this TB tick (R178). -/
def dueIssue (s : State) (n : Fin 8) : Bool :=
  canIssue s n && issueAt s n % 8 == n.val && decide (s.chan[sh n].prog.next ≤ issueAt s n)

/-- END (R183). -/
def execBrassEnd (n : Fin 8) (s : State) : Host.Outcome State Fault Refusal :=
  .next (if dueIssue s n then opEnd n s else s)

/-- SETT (R179). -/
def execSett (n : Fin 8) (level : Word) (thr noslew : Bool) (s : State) : Host.Outcome State Fault Refusal :=
  .next (if dueIssue s n then opSett n level thr noslew s else s)

/-- SETH (R179). -/
def execSeth (n : Fin 8) (hys : Word) (s : State) : Host.Outcome State Fault Refusal :=
  .next (if dueIssue s n then opSeth n hys s else s)

/-- WAITT (R178). -/
def execWaitt (n : Fin 8) (t : BitVec 24) (abs : Bool) (s : State) : Host.Outcome State Fault Refusal :=
  .next (if dueIssue s n then opWaitt n t abs s else s)

/-- WAITI (R181). -/
def execWaiti (n : Fin 8) (level : Word) (dir : Bool) (tmo : BitVec 12) (s : State) : Host.Outcome State Fault Refusal :=
  .next (if dueIssue s n then opWaiti n level dir tmo s else s)

/-- BR (R176). -/
def execBr (n : Fin 8) (dest : BitVec 5) (inv : Bool) (cond : BitVec 4) (level : Word) (s : State) : Host.Outcome State Fault Refusal :=
  .next (if dueIssue s n then opBr n dest inv cond level s else s)

/-- BOOST (R180). -/
def execBoost (n : Fin 8) (on : Bool) (s : State) : Host.Outcome State Fault Refusal :=
  .next (if dueIssue s n then opBoost n on s else s)

/-- SIG (R182). -/
def execSig (n : Fin 8) (value mask : BitVec 2) (irq : Bool) (s : State) : Host.Outcome State Fault Refusal :=
  .next (if dueIssue s n then opSig n value mask irq s else s)

/-- BRASS_ISSUE_CYCLE (R178). -/
def execBrassIssueCycle (n : Fin 8) (s : State) : Host.Outcome State Fault Refusal :=
  .next (if dueIssue s n then brassIssue n (brassFetch s n) s else s)

/-- The time of a WAITT has elapsed (R178). -/
def dueWaitt (s : State) (n : Fin 8) : Bool :=
  liveN s && blkOn s .chan && s.chan[sh n].st == .prog &&
    match s.chan[sh n].prog.wait with
    | .time stop => tbGe s.clk.tb stop
    | _ => false

/-- WAITT_EXPIRY (R178). -/
def execWaittExpiry (n : Fin 8) (s : State) : Host.Outcome State Fault Refusal :=
  .next (if dueWaitt s n then holdEnds n s else s)

/-- The timeout of a WAITI has elapsed (R181). -/
def dueWaiti (s : State) (n : Fin 8) : Bool :=
  liveN s && blkOn s .chan && s.chan[sh n].st == .prog &&
    match s.chan[sh n].prog.wait with
    | .current _ _ (some stop) => tbGe s.clk.tb stop
    | _ => false

/-- WAITI_TIMEOUT (R181). -/
def execWaitiTimeout (n : Fin 8) (s : State) : Host.Outcome State Fault Refusal :=
  .next (if dueWaiti s n then updProg (sh n) (fun p => { p with timedOut := true }) (holdEnds n s) else s)

/-! ### Loading (R186, R187, R445) -/

/-- The staged instructions of a program. -/
def stagedProg (s : State) (len : Nat) : List (BitVec 32) := s.brass.staged.toList.take len

/-- No reserved bit and no reserved condition (R186). -/
def brassClean (w : BitVec 32) : Bool :=
  (w &&& ~~~(brassMask w)) == 0 &&
    match brassDecode w with
    | .br _ _ c _ => decide (c.toNat ≤ 12)
    | _ => true

/-- A branch stays within the program (R186). -/
def brassInside (len : Nat) (w : BitVec 32) : Bool :=
  match brassDecode w with
  | .br d _ _ _ => decide (d.toNat < len)
  | _ => true

/-- The last instruction does not run on (R186). -/
def brassCloses (w : BitVec 32) : Bool :=
  match brassDecode w with
  | .stop => true
  | .br _ i c _ => !i && c == 0
  | _ => false

/-- A channel in PROG runs entry e or an entry that overlaps the range (R186). -/
def brassInUse (s : State) (e base len : Nat) : Bool :=
  s.chan.toList.any fun c =>
    let d := vget s.brass.dir c.prog.entry {}
    c.st == .prog && (c.prog.entry == e || decide (max base d.base < min (base + len) (d.base + d.len)))

/-- The store and the directory are written at once (R186, R187). -/
def brassApply (e base len : Nat) (maxon : Word) (s : State) : State :=
  let code := vmapi (fun (i : Fin 256) (w : BitVec 32) =>
    if base ≤ i.val ∧ i.val < base + len then vget s.brass.staged (i.val - base) 0 else w) s.brass.code
  { s with brass := { s.brass with code := code, dir := vput s.brass.dir e ⟨base, len, maxon.toNat⟩ } }

/-- BRASS_LOAD (R186, R445). -/
def cmdBrassLoad (a : Args) (s : State) : CmdRes :=
  if bit a.a0 15 then
    let e := fld a.a0 0 4
    let base := fld a.a1 0 8
    let len := fld a.a1 8 6
    let p := stagedProg s len
    checked (within a.a0 0x810F && within a.a1 0x3FFF && decide (len ≤ 32))
      [decide (base + len ≤ 256), p.all brassClean, p.all (brassInside len),
       len == 0 || brassCloses (vget s.brass.staged (len - 1) 0), !brassInUse s e base len] s
      { st := if bit a.a0 8 then brassApply e base len a.a2 s else s }
  else if !within a.a0 0x801F then badArg s
  else { st := { s with brass := { s.brass with staged := vput s.brass.staged (fld a.a0 0 5) (a.a2 ++ a.a1) } } }

/-- BRASS_LOAD, instruction form (R186). -/
def execBrassLoadInstruction (a : Args) (s : State) : Host.Outcome State Fault Refusal :=
  .next (mboxRow 0x12 cmdBrassLoad { a with a0 := a.a0 &&& 0x7FFF } s)

/-- BRASS_LOAD, header form (R186). -/
def execBrassLoadHeader (a : Args) (s : State) : Host.Outcome State Fault Refusal :=
  .next (mboxRow 0x12 cmdBrassLoad { a with a0 := a.a0 ||| 0x8000 } s)

/-! ### Window BRASS (R174) -/

/-- The four words of a channel; those of a partner read 0 (R174). -/
def brassChanWord (s : State) (n : Fin 12) (k : Nat) : Word :=
  let c := s.chan[n]
  if isPartner s n then 0
  else match k with
    | 0 => w16 (c.prog.pc % 32 + c.prog.entry * 32 + b2n c.prog.run 9 + b2n (c.prog.wait != .none) 10 + b2n c.breq 11 + b2n c.prog.timedOut 12 + b2n c.prog.siga 13 + b2n c.prog.sigb 14)
    | 1 => w16 (c.reg.target + b2n c.prog.thr 15)
    | 2 => w16 c.reg.h
    | _ => w16 c.prog.issued

/-- A read of SIGIRQ returns the bits and clears them (R174). -/
def readSigirq (s : State) : Word × State :=
  (s.brass.sigirq.setWidth 16, { s with brass := { s.brass with sigirq := 0 } })

/-- SIGIRQ_READ (R174). -/
def execSigirqRead (s : State) : Host.Outcome State Fault Refusal := .next (windowRead .sigirqRead 3 576 (gatedWindow .chan 3 readSigirq) s)

/-- A read of window BRASS (R174). -/
def readBrass (off : Nat) (s : State) : Word × State :=
  if off < 512 then
    let w := vget s.brass.code (off / 2) 0
    (if off % 2 = 0 then w.setWidth 16 else (w >>> 16).setWidth 16, s)
  else if off < 544 then
    let d := vget s.brass.dir ((off - 512) / 2) {}
    (if off % 2 = 0 then w16 (d.base + 256 * d.len) else w16 d.maxon, s)
  else if h : off - 544 < 32 then
    (brassChanWord s ⟨(off - 544) / 4, by omega⟩ ((off - 544) % 4), s)
  else if off = 576 then readSigirq s
  else (0, s)

end Sys2Proof.Machine
end

