-- ==== Sys2Proof/Machine/Slots.lean ====
section
/-! DEFINITION. Event slots, arming, firing, cancels, and the report FIFO (R89 to R119, R554). -/

namespace Sys2Proof.Machine

/-! ### Fields -/

/-- Fields of a slot's words (R89 to R91). -/
def SlotW.target (w : SlotW) : Nat := w.angl.toNat + 65536 * fld w.ctl1 0 4
def SlotW.chan (w : SlotW) : Nat := fld w.ctl1 4 4
def SlotW.act (w : SlotW) : Nat := fld w.ctl1 8 4
def SlotW.horizon (w : SlotW) : Nat := fld w.hor 0 8
def SlotW.lagw (w : SlotW) : Nat := fld w.hor 8 8
def SlotW.rep (w : SlotW) : Bool := bit w.ctl2 2
def SlotW.lateDrop (w : SlotW) : Bool := bit w.ctl2 3
def SlotW.noRep (w : SlotW) : Bool := bit w.ctl2 4

/-- Beginning actions; END and CLEAR are the ending ones (R54). -/
def SlotW.begins (w : SlotW) : Bool := w.act != 2 && w.act != 4

/-- One slot replaced by a function of itself. -/
def updSlot (i : Fin 64) (f : Slot → Slot) (s : State) : State :=
  { s with sched := { s.sched with slots := vupd s.sched.slots i f } }

/-- Firing is permitted for the channel of these words (R45, R56, R289). -/
def permitted (s : State) (w : SlotW) : Bool :=
  match effSync s with
  | .sync => true
  | .limp => s.wheel.pol.limpmask.getLsbD (if w.act = 6 || w.act = 7 then 12 else w.chan)
  | _ => false

/-! ### References (R99) -/

/-- Dc: forward distance of the angle to the target (R100). -/
def distC (s : State) (target : Nat) : Nat :=
  ((16 * target : Int) - ang16 s).emod (cyc16 s.wheel.cfg) |>.toNat

/-- The reference taken at the current angle (R99). -/
def takeRef (s : State) (w : SlotW) : SlotRef :=
  let c16 := cyc16 s.wheel.cfg
  let behind := (((ang16 s : Int) - 16 * w.target).emod c16).toNat
  if behind = 0 then .due
  else if behind ≤ 16384 * w.lagw then .late
  else .wait (distC s w.target)

/-- The reference of a re-pend: the target itself, so that the occurrence lies one cycle later. A target that is still
ahead of the angle, or at it, is passed once before the wait begins; `past` is Dc at an arming behind the target, from
where the angle has stepped back over the target when Dc has fallen by more than half a cycle (R97, R99; log 15). -/
def repRef (s : State) (w : SlotW) (past : Option Nat) : SlotRef :=
  let d := distC s w.target
  let half := cyc16 s.wheel.cfg / 2
  let ahead := match past with
    | some a => decide (d + half < a)
    | none => decide (d < half)
  if ahead then .repend d else .wait d

/-- A slot enters PENDING with these words, held when firing is not permitted; a held slot stays held (R56, R97). -/
def pend (s : State) (w : SlotW) (x : Slot) : Slot :=
  let held := x.st == .pending && x.hold
  { x with live := w, st := .pending, hold := held || !permitted s w, ref := takeRef s w }

/-- A slot re-pends after an occurrence (R97). -/
def repend (s : State) (past : Option Nat) (x : Slot) : Slot :=
  { x with st := .pending, hold := !permitted s x.live, ref := repRef s x.live past }

/-- The releases and holds of R55 and R97. -/
def permitSlots (s : State) : State :=
  { s with sched := { s.sched with slots := vmapi (fun _ (x : Slot) =>
    if x.st != .pending then x
    else if x.hold && permitted s x.live then { x with hold := false, ref := takeRef s x.live }
    else if !x.hold && !permitted s x.live then { x with hold := true } else x) s.sched.slots } }

/-- The references of R294. -/
def newRefs (s : State) : State :=
  { s with sched := { s.sched with slots := vmapi (fun _ (x : Slot) =>
    if x.st == .pending && !x.hold then { x with ref := takeRef s x.live } else x) s.sched.slots } }

/-! ### Cancels (R54, R97, R109, R554) -/

/-- A CANCEL record of one slot (R108, R109). -/
def cancelRec (i : Fin 64) (reason : Nat) (armed cyc0 : Bool) (w : SlotW) (s : State) : State :=
  pushRec 4 i.val (reason + b2n armed 3 + b2n cyc0 5) w.angl (w16 (fld w.ctl1 0 4)) s

/-- What a device cancel does to a slot: the slot, and whether it counts (R97, R109, R554). `pendingToo` is false at
LIMP to CONFIRM, where only armed beginning actions are cancelled (R55). -/
def cancelSlot (pendingToo : Bool) (x : Slot) : Slot × Bool :=
  match x.st with
  | .pending =>
    if !pendingToo then (x, false)
    else if x.live.rep then ({ x with hold := true }, !x.hold)
    else ({ x with st := .retired, last := 4, waiting := none, hold := false }, true)
  | .armed =>
    if !x.live.begins then (x, false)
    else if x.live.rep then
      ({ x with st := .pending, hold := true, live := x.waiting.getD x.live, waiting := none }, true)
    else ({ x with st := .retired, last := 4, waiting := none }, true)
  | _ => (x, false)

/-- The BULK record of a cancel, when any slot was cancelled (R109). -/
def bulkRec (reason n armed : Nat) (s : State) : State :=
  if n = 0 then s
  else pushRec 4 0 (reason + b2n (armed != 0) 3 + 16) (w16 n) (w16 armed) s

/-- A device cancel of slots (R54, R55, R109). -/
def deviceCancel (reason : Nat) (pendingToo : Bool) (s : State) : State :=
  let old := s.sched.slots
  let n := (old.toList.filter fun x => (cancelSlot pendingToo x).2).length
  let k := (old.toList.filter fun x => x.st == .armed && (cancelSlot pendingToo x).2).length
  bulkRec reason n k { s with sched := { s.sched with slots := vmapi (fun _ x => (cancelSlot pendingToo x).1) old } }

/-- Safe-state entry retires every pending and armed slot (R97, R109); its record follows the history records of the
instant `batch` (R112). -/
def safeCancel (batch : Nat) (s : State) : State :=
  let old := s.sched.slots
  let n := (old.toList.filter fun x => x.st == .pending || x.st == .armed).length
  let k := (old.toList.filter fun x => x.st == .armed).length
  let f (x : Slot) : Slot := if x.st == .pending || x.st == .armed
    then { x with st := .retired, last := 4, waiting := none, hold := false } else x
  { s with sched := { s.sched with slots := vmapi (fun _ x => f x) old }, flt := { s.flt with bulk := some (batch, n, k) } }

/-- The record of the safe-state entry, when the last event of its instant has been applied (R109, R112). -/
def flushBulk (s : State) : State :=
  match s.flt.bulk with
  | some (b, n, k) =>
    if s.flt.queue.any fun e => decide (e.batch ≤ b) then s
    else bulkRec 4 n k { s with flt := { s.flt with bulk := none } }
  | none => s

/-! ### Arming (R101 to R103, R115) -/

/-- The channel a slot counts for in separation: 0 to 11, 12 for CSTB, none for MARK (R102). -/
def sepKey (s : State) (w : SlotW) : Option Nat :=
  if w.act = 7 then none else if w.act = 6 then some 12 else some (lowerOf s (chOf w.chan)).val

/-- Two TB values lie within 19 ticks of each other (R102). -/
def near (a b : Tb) : Bool := decide (tbSince a b ≤ 19) || decide (tbSince b a ≤ 19)

/-- The later of two near TB values. -/
def later (a b : Tb) : Tb := if tbGe a b then a else b

/-- Separation: 20 ticks after the latest value in conflict, until none remains (R102). -/
def separate : Nat → List Tb → Tb → Tb
  | 0, _, a => a
  | fuel + 1, vs, a =>
    match vs.filter (near a) with
    | [] => a
    | v :: rest => separate fuel vs (tbAdd (rest.foldl later v) 20)

/-- TB values with which an armed value on a channel must keep its distance (R102). -/
def sepOthers (s : State) (i : Fin 64) (k : Nat) : List Tb :=
  let armed := (List.finRange 64).filterMap fun j =>
    let y := s.sched.slots[j]
    if j != i && y.st == .armed && sepKey s y.live == some k then some y.atb else none
  armed ++ (vget s.sched.lastFire k none).toList

/-- Arms slot i for TB value a in cycle cyc; `past` as in the slot (R101, R102, R115). -/
def arm (i : Fin 64) (a : Tb) (late : Bool) (past : Option Nat) (cyc : Word) (s : State) : State :=
  let x := s.sched.slots[i]
  let a' := match sepKey s x.live with
    | some k => separate 80 (sepOthers s i k) a
    | none => a
  let moved := a' != a
  let s := { s with sched := { s.sched with cntShift := if moved then satInc s.sched.cntShift 65535 else s.sched.cntShift } }
  updSlot i (fun x => { x with st := .armed, hold := false, atb := a', late := late, shift := moved, cyc := cyc, past := past }) s

/-- By how much the angle of the cycle starts has fallen since the previous tick: of the mirror angle while the mirror is
valid (R290), else of ANGLE (R114). -/
def cycFall (s : State) : Nat :=
  let m := s.link.mir
  if m.valid then m.prevAngle - m.nowAngle else s.sched.prevAngle - s.sched.nowAngle

/-- The angle has fallen by more than C / 2 since the previous tick (R114). -/
def dueCycle (s : State) : Bool := liveN s && decide (cycC s.wheel.cfg < 2 * cycFall s)

/-- Cycle starts count in CONFIRM, SYNC and LIMP (R114), on the mirror angle by the master's state (R290). -/
def cycCounts (s : State) : Bool :=
  let st := if s.link.mir.valid then s.link.mir.rstate else effSync s
  st == .confirm || st == .sync || st == .limp

/-- CYC of the present tick, with a cycle start of this tick whose record has not been written yet (R114), unless a STATE2
of this tick has counted it (R290). -/
def cycNow (s : State) : Word :=
  if dueCycle s && cycCounts s && s.link.mir.cycAt != some s.clk.tb then s.sched.cyc + 1 else s.sched.cyc

/-- CYC takes another value in this tick (R139). -/
def setCyc (c : Word) (s : State) : State :=
  if s.sched.cyc == c then s else
  { s with sched := { s.sched with cyc := c, cycAt := s.clk.tb, cycPrev := s.sched.cyc } }

/-- CYC as it stood at a stamp (R139). -/
def cycOf (s : State) (t : Tb) : Word :=
  if t == s.clk.tb then cycNow s else if tbGe t s.sched.cycAt then s.sched.cyc else s.sched.cycPrev

/-- The cycle of an occurrence at arming (R115): `passed` when the target lies behind the angle. -/
def cycleOf (s : State) (target : Nat) (passed : Bool) : Word :=
  let a := ang16 s
  if passed then (if a < 16 * target then cycNow s - 1 else cycNow s)
  else if 16 * target < a then cycNow s + 1 else cycNow s

/-- A late occurrence (R97, R100, R109). -/
def lateSlot (i : Fin 64) (s : State) : State :=
  let x := s.sched.slots[i]
  let cyc := cycleOf s x.live.target true
  let past := some (distC s x.live.target)
  if x.live.lateDrop then
    let s := { s with sched := { s.sched with cntDrop := satInc s.sched.cntDrop 65535 } }
    let s := cancelRec i 5 false (bit cyc 0) x.live s
    let y : Slot := { x with last := 5 }
    updSlot i (fun _ => if x.live.rep then repend s past y else { y with st := .retired, waiting := none }) s
  else arm i (tbAdd s.clk.tb 4) true past cyc s

/-- Slot i is late at once (R99). -/
def lateNow (x : Slot) : Bool := x.st == .pending && !x.hold && x.ref == .late

/-- Slots that are late at once take their outcome, in ascending index (R97, R99; log 15). -/
def settleLate (s : State) : State := foldSt (vwhere fun i : Fin 64 => lateNow s.sched.slots[i]) lateSlot s

/-- Held slots are released, and others held, as the sync state and the mask now permit (R55, R97, R99). -/
def applyPermission (s : State) : State := settleLate (permitSlots s)

/-- A change of angle source: every pending slot that is not held takes a new reference (R294). -/
def retakeRefs (s : State) : State := settleLate (newRefs s)

/-! ### GO and CANCEL -/

/-- ACT is reserved, or the target is not below C, which counts as reserved (R90, R96). -/
def goReserved (s : State) (w : SlotW) : Bool :=
  w.act = 0 || decide (8 ≤ w.act) || decide (cycC s.wheel.cfg ≤ w.target)

/-- ACT is valid on CH in its present mode (R94). -/
def goValid (s : State) (w : SlotW) : Bool :=
  if w.act = 6 || w.act = 7 then w.chan == 0 else actValid s w.act (chOf w.chan)

/-- The reason for which a GO is refused, 0 for none (R96); in the safe state every GO is refused with reason 7 (R98,
R260). -/
def refuseReason (s : State) (w : SlotW) : Nat :=
  let n := chOf w.chan
  let rsv := goReserved s w
  if s.flt.safe then 7
  else if !(decide (w.chan < 12) && chanEnabled s n) then 1
  else if !rsv && !bit (vget s.sec.img (2 * (lowerOf s n).val) 0) w.act then 2
  else if !rsv && !goValid s w then 3
  else if !rsv && w.act = 5 && !(decide (2 ≤ w.param.toNat) && decide (w.param.toNat * 10 ≤ imgMaxTicks s n)) then 4
  else if w.horizon = 0 then 5
  else if rsv then 6
  else 0

/-- GO of slot i (R95 to R97). -/
def slotGo (i : Fin 64) (s : State) : State :=
  let x := s.sched.slots[i]
  let w := x.staged
  let r := refuseReason s w
  if r != 0 then
    let s := raise 8 0 (w16 (i.val + 256 * r)) (updSlot i (fun x => { x with last := 6 }) s)
    pushRec 5 i.val r w.ctl1 w.param s
  else if x.st == .armed then updSlot i (fun x => { x with waiting := some w }) s
  else settleLate (updSlot i (pend s w) s)

/-- Host CANCEL of slot i (R97, R98). -/
def slotCancel (i : Fin 64) (s : State) : State :=
  let x := s.sched.slots[i]
  if s.flt.safe then s
  else match x.st with
  | .pending =>
    cancelRec i 3 false false x.live (updSlot i (fun x => { x with st := .retired, last := 3, hold := false, waiting := none }) s)
  | .armed =>
    if x.live.begins then
      cancelRec i 3 true (bit x.cyc 0) x.live (updSlot i (fun x => { x with st := .retired, last := 3, waiting := none }) s)
    else updSlot i (fun x => { x with waiting := none }) s
  | _ => s

/-- The image permits host writes to slot i (R384, R96). -/
def slotWritable (s : State) (i : Nat) : Bool := bit (vget s.sec.img (26 + i / 16) 0) (i % 16)

/-- A host write of CTL2 of a slot: CANCEL first, then GO (R91, R95). -/
def writeCtl2 (i : Fin 64) (w : Word) (s : State) : State :=
  let s := updSlot i (fun x => { x with staged := { x.staged with ctl2 := w &&& 0x1C } }) s
  let s := if bit w 1 then slotCancel i s else s
  if bit w 0 then slotGo i s else s

/-- A write of a word of window SLOT: words 0 to 3 are staged, word 4 acts, the rest are read-only (R89, R95). -/
def writeSlot (i : Fin 64) (k : Nat) (w : Word) (s : State) : State :=
  match k with
  | 0 => updSlot i (fun x => { x with staged := { x.staged with angl := w } }) s
  | 1 => updSlot i (fun x => { x with staged := { x.staged with ctl1 := w &&& 0x0FFF } }) s
  | 2 => updSlot i (fun x => { x with staged := { x.staged with hor := w } }) s
  | 3 => updSlot i (fun x => { x with staged := { x.staged with param := w } }) s
  | 4 => writeCtl2 i w s
  | _ => s

/-- A host or debug write of window SLOT under the write mask (R389, R96). -/
def hostSlotWrite (p : Path) (off : Nat) (w : Word) (s : State) : State :=
  if h : off < 512 then
    if !winOpen s 1 || decide (4 < off % 8) then s
    else if !slotWritable s (off / 8) then deny p 1 (off / 8) s
    else writeSlot ⟨off / 8, by omega⟩ (off % 8) w s
  else s

/-- SLOT_GO (R96). -/
def execSlotGo (i : Fin 64) (w : Word) (s : State) : Host.Outcome State Fault Refusal :=
  .next (windowWrite (.slotGo i w) 1 (8 * i.val + 4) (hostSlotWrite .host (8 * i.val + 4) (w ||| 1)) s)

/-- SLOT_CANCEL (R97). -/
def execSlotCancel (i : Fin 64) (w : Word) (s : State) : Host.Outcome State Fault Refusal :=
  .next (windowWrite (.slotCancel i w) 1 (8 * i.val + 4) (hostSlotWrite .host (8 * i.val + 4) ((w ||| 2) &&& 0xFFFE)) s)

/-! ### Evaluation (R100, R101, R104) -/

/-- The commit test of R101: the armed value and whether the floor was used, when the condition is met. -/
def commitTest (s : State) (w : SlotW) : Option (Tb × Bool) :=
  let p := effPred s
  let c16 := cyc16 s.wheel.cfg
  let dt := ((16 * w.target : Int) - p.th16).emod c16 |>.toNat
  let gone := ((ang16 s : Int) - p.th16).emod c16 |>.toNat
  let el := tbSince p.tk s.clk.tb
  let tt := predT p dt
  if (heldNow s && decide (p.nA ≤ dt)) || decide (dt < gone) then none
  else if tt ≤ 1000 * w.horizon + el then
    (if el + 4 ≤ tt then some (tbAdd p.tk tt, false) else some (tbAdd s.clk.tb 4, true))
  else none

/-- One evaluation of a pending slot (R99 to R101). A slot due at once whose commit condition is not met at its first
evaluation, or whose target then lies just behind, is armed at the floor t + 4 and fires with LATE: R99 calls it due at
once, and R101 gives no other value (DESIGN CHOICE, log 15). -/
def evalSlot (i : Fin 64) (s : State) : State :=
  let x := s.sched.slots[i]
  let w := x.live
  let c16 := cyc16 s.wheel.cfg
  let dc := distC s w.target
  let commit (s : State) : State :=
    match commitTest s w with
    | some (a, l) => arm i a l none (cycleOf s w.target false) s
    | none => updSlot i (fun x => { x with ref := .wait dc }) s
  let floor (s : State) : State :=
    arm i (tbAdd s.clk.tb 4) true (if 2 * dc < c16 then none else some dc) (cycleOf s w.target true) s
  match x.ref with
  | .late => lateSlot i s
  | .due =>
    match commitTest s w with
    | some (a, l) =>
      if 2 * dc < c16 then arm i a l none (cycleOf s w.target false) s else floor s
    | none => floor s
  | .repend d => if d + c16 / 2 < dc then updSlot i (fun x => { x with ref := .wait dc }) s
    else updSlot i (fun x => { x with ref := .repend dc }) s
  | .wait d => if d + c16 / 2 < dc then lateSlot i s else commit s

/-- The slot is to be evaluated: its round cycle falls in this TB tick (R98, R104), or the content that became live as it
fired is late at once (R97, R99, R107). -/
def dueEval (s : State) (i : Fin 64) : Bool :=
  let x := s.sched.slots[i]
  liveN s && !s.flt.safe && (s.clk.fcyc / 2 % 64 == i.val || lateNow x) && x.st == .pending && !x.hold &&
    s.sched.evalAt[i] != some s.clk.fcyc

/-- SLOT_EVALUATION (R101). -/
def opEval (i : Fin 64) (s : State) : State :=
  evalSlot i { s with sched := { s.sched with evalAt := s.sched.evalAt.set i (some s.clk.fcyc) } }

/-- SLOT_EVALUATION (R101). -/
def execSlotEvaluation (i : Fin 64) (s : State) : Host.Outcome State Fault Refusal :=
  .next (if dueEval s i then opEval i s else s)

/-! ### Firing (R105 to R107) -/

/-- A strobe issues: it claims a converter frame and is the last CSTB action (R102, R128, R132, R133). -/
def issueStrobe (src : Nat) (dly : Bool) (s : State) : State :=
  let st : Strobe := ⟨s.clk.tb, angle s, src, dly, bit (cycNow s) 0⟩
  { s with cpc := { s.cpc with strobes := s.cpc.strobes ++ [st], lastStrobe := some s.clk.tb, strobeAt := some s.clk.tb }, sched := { s.sched with lastFire := vput s.sched.lastFire 12 (some s.clk.tb) } }

/-- A slot STROBE has no pin effect while the outputs are disabled or its block is gated off (R106). -/
def strobeBlocked (s : State) : Bool := !s.sys.oe || s.dbg.ptest || !blkOn s .cps

/-- The effect of a slot's action and its flag (R94, R106). -/
def slotAction (w : SlotW) (s : State) : FireFlag × State :=
  if w.act = 7 then (FireFlag.none, s)
  else if w.act = 6 then if strobeBlocked s then (FireFlag.blocked, s) else (FireFlag.none, issueStrobe 8 false s)
  else fireAction (chOf w.chan) w.act w.param s

/-- The FIRE record (R108). -/
def fireRec (i : Fin 64) (x : Slot) (late : Bool) (f : FireFlag) (s : State) : State :=
  if x.live.noRep then s
  else
    let flags := b2n late 0 + b2n x.shift 1 + b2n (f == FireFlag.noop) 2 + b2n (f == FireFlag.busy) 3 + b2n (f == FireFlag.blocked) 4 + b2n (bit x.cyc 0) 5
    if x.live.act = 7 then pushRec 1 i.val flags x.live.param (tbLo s.clk.tb) s
    else pushRec 1 i.val flags (tbLo s.clk.tb) (tbHi s.clk.tb) s

/-- What becomes of a slot after it has fired (R107). -/
def afterFire (i : Fin 64) (flag : FireFlag) (s : State) : State :=
  updSlot i (fun x =>
    let x := { x with last := if flag == FireFlag.none then 1 else 2 }
    match x.waiting with
    | some w => pend s w { x with waiting := none }
    | none => if x.live.rep then repend s x.past x else { x with st := .retired }) s

/-- An armed slot fires (R105 to R107): late also when a reload has carried TB past its value. A fire without pin effect
still counts as the channel's last fired pin action (R102, R106: the slot counts as fired; DEDUCED, log 15). -/
def fireSlot (i : Fin 64) (s : State) : State :=
  let x := s.sched.slots[i]
  let late := x.late || s.clk.tb != x.atb
  let s := match sepKey s x.live with
    | some k => { s with sched := { s.sched with lastFire := vput s.sched.lastFire k (some s.clk.tb) } }
    | none => s
  let (f, s) := slotAction x.live s
  let s := { s with sched := { s.sched with cntLate := if late then satInc s.sched.cntLate 65535 else s.sched.cntLate } }
  afterFire i f (fireRec i x late f s)

/-- The armed value of slot i is reached (R105). -/
def dueFire (s : State) (i : Fin 64) : Bool :=
  let x := s.sched.slots[i]
  liveN s && !s.flt.safe && x.st == .armed && tbGe s.clk.tb x.atb

/-- SLOT_FIRE (R105). -/
def execSlotFire (i : Fin 64) (s : State) : Host.Outcome State Fault Refusal :=
  .next (if dueFire s i then fireSlot i s else s)

/-! ### Cycle starts (R114, R110) -/

/-- A cycle start: CYC counts and a CYCLE record is written in CONFIRM, SYNC and LIMP (R110, R114). -/
def opCycleStart (s : State) : State :=
  let c := cycNow s
  let counts := cycCounts s
  let m := s.link.mir
  let s := if m.valid then { s with link := { s.link with mir := { m with prevAngle := m.nowAngle } } }
    else { s with sched := { s.sched with prevAngle := s.sched.nowAngle } }
  if counts then pushRec 3 0 (effSync s).code c (tbLo s.clk.tb) (setCyc c s) else s

/-- CYCLE_START (R114). -/
def execCycleStart (s : State) : Host.Outcome State Fault Refusal :=
  .next (if dueCycle s then opCycleStart s else s)

/-! ### The report FIFO (R118, R119) -/

/-- A read of RPTSTAT returns LOST and clears it; the drops of the same tick are counted after the clear (R118). -/
def readRptstat (s : State) : Word × State :=
  let d := droppedNow s
  let lost := if d.isEmpty then s.rpt.lost else s.rpt.lostWas
  (w16 (s.rpt.fifo.length + 256 * s.rpt.wptr + 1024 * lost), { s with rpt := { s.rpt with lost := min 63 d.length, lostWas := 0 } })

/-- Word j of four words. -/
def Quad.word (q : Quad) (j : Nat) : Word :=
  if j = 0 then q.w0 else if j = 1 then q.w1 else if j = 2 then q.w2 else q.w3

/-- The pop of a record: of the records that the full FIFO has dropped in this tick, the first one takes the free
place, and LOST does not count it (R26). -/
def popRec (q : Quad) (rest : List Quad) (s : State) : State :=
  match droppedNow s with
  | [] => { s with rpt := { s.rpt with fifo := rest, held := q, wptr := 1 } }
  | d :: ds =>
    setInt 0 { s with rpt := { s.rpt with fifo := rest ++ [d], held := q, wptr := 1, dropped := ds, lost := ds.foldl (fun n _ => satInc n 63) s.rpt.lostWas } }

/-- A read of RPTDAT (R119). -/
def readRptdat (s : State) : Word × State :=
  if s.rpt.wptr = 0 then
    match s.rpt.fifo with
    | [] => (0, s)
    | q :: rest => (q.w0, settleSeq q (popRec q rest s))
  else (s.rpt.held.word s.rpt.wptr, { s with rpt := { s.rpt with wptr := (s.rpt.wptr + 1) % 4 } })

/-- REPORT_POP (R119). -/
def execReportPop (s : State) : Host.Outcome State Fault Refusal := .next (hostRead .reportPop readRptdat s)

/-- RPTSTAT_READ (R118). -/
def execRptstatRead (s : State) : Host.Outcome State Fault Refusal := .next (hostRead .rptstatRead readRptstat s)

/-! ### Window SLOT (R89, R93) -/

/-- Code of STAT.STATE (R92). -/
def SlotSt.code : SlotSt → Nat
  | .empty => 0
  | .pending => 1
  | .armed => 2
  | .retired => 3

/-- STAT of a slot (R92). -/
def slotStat (x : Slot) : Word :=
  w16 (x.st.code + b2n (x.st == .pending && x.hold) 2 + b2n x.waiting.isSome 3 + 16 * x.last + b2n x.shift 7)

/-- A read of window SLOT (R89, R93). -/
def readSlot (s : State) (off : Nat) : Word :=
  if off < 512 then
    let x := vget s.sched.slots (off / 8) {}
    match off % 8 with
    | 0 => x.staged.angl
    | 1 => x.staged.ctl1
    | 2 => x.staged.hor
    | 3 => x.staged.param
    | 4 => x.staged.ctl2
    | 5 => slotStat x
    | 6 => tbLo x.atb
    | _ => tbHi x.atb
  else
    let n (p : SlotSt) : Nat := (s.sched.slots.toList.filter fun x => x.st == p).length
    match off - 512 with
    | 0 => w16 (n .pending + 256 * n .armed)
    | 1 => w16 s.sched.cntLate
    | 2 => w16 s.sched.cntDrop
    | 3 => w16 s.sched.cntShift
    | _ => 0

end Sys2Proof.Machine
end

