-- ==== Sys2Proof/Machine/CamPhase.lean ====
section
/-! DEFINITION. Cam phase, angle windows, converter results and their buffers (R120 to R139). -/

namespace Sys2Proof.Machine

/-- The block runs: FCLK runs and its gate is open (R137). -/
def cpsLive (s : State) : Bool := liveN s && blkOn s .cps

/-! ### Buffers (R134 to R136) -/

/-- The entries that a full buffer has lost in this tick (R134). -/
def Buf.goneNow (b : Buf) (tb : Tb) : List Quad := if b.goneAt == tb then b.gone else []

/-- An entry enters a buffer of the given size; a full one loses its oldest entry, which a pop in the same tick can still
take (R134). -/
def bufPush (cap : Nat) (tb : Tb) (q : Quad) (b : Buf) : Buf :=
  if b.q.length < cap then { b with q := b.q ++ [q] }
  else
    let g := b.goneNow tb
    { b with q := b.q.drop 1 ++ [q], lost := satInc b.lost 255, gone := g ++ b.q.take 1, goneAt := tb, lostWas := if g.isEmpty then b.lost else b.lostWas }

/-- COUNT has just reached a threshold other than 0 (R136). -/
def bufReached (thr : Nat) (old new : Buf) : Bool := thr != 0 && old.q.length + 1 == thr && new.q.length == thr

/-- An entry enters the cam-phase buffer (R134, R136). -/
def pushPhase (q : Quad) (s : State) : State :=
  let b := bufPush 32 s.clk.tb q s.cpc.ph
  setIntIf (bufReached s.cpc.phthr s.cpc.ph b) 6 { s with cpc := { s.cpc with ph := b } }

/-- An entry enters the converter buffer (R134, R136). -/
def pushConv (q : Quad) (s : State) : State :=
  let b := bufPush 64 s.clk.tb q s.cpc.cv
  setIntIf (bufReached s.cpc.cvthr s.cpc.cv b) 7 { s with cpc := { s.cpc with cv := b } }

/-- A read of a pop port at word j (R135). A pop in the tick in which the full buffer has lost entries comes before their
arrivals: it takes the first lost one, which then is not lost (R134). -/
def bufRead (j : Nat) (tb : Tb) (b : Buf) : Word × Buf :=
  if j = 0 then
    match b.goneNow tb, b.q with
    | g :: gs, _ => (g.w0, { b with held := g, gone := gs, lost := min 255 (b.lostWas + gs.length) })
    | [], [] => (0, { b with held := {} })
    | [], q :: rest => (q.w0, { b with q := rest, held := q })
  else (b.held.word j, b)

/-- The pop makes room for an entry of the same tick, whose arrival then reaches the threshold (R134, R136). -/
def popReaches (j cap thr : Nat) (tb : Tb) (b : Buf) : Bool := j == 0 && thr == cap && !(b.goneNow tb).isEmpty

/-- A read of a pop port: the converter's or the cam-phase port (R135). -/
def readPop (conv : Bool) (j : Nat) (s : State) : Word × State :=
  if conv then
    let (w, b) := bufRead j s.clk.tb s.cpc.cv
    let t := setIntIf (popReaches j 64 s.cpc.cvthr s.clk.tb s.cpc.cv) 7 { s with cpc := { s.cpc with cv := b } }
    (w, if j = 0 && !s.cpc.cv.q.isEmpty then settleSeq b.held t else t)
  else
    let (w, b) := bufRead j s.clk.tb s.cpc.ph
    (w, setIntIf (popReaches j 32 s.cpc.phthr s.clk.tb s.cpc.ph) 6 { s with cpc := { s.cpc with ph := b } })

/-- A status read returns COUNT and LOST and clears LOST; losses of the same tick are counted after the clear (R136). -/
def bufStat (tb : Tb) (b : Buf) : Word × Buf :=
  let g := b.goneNow tb
  (w16 (b.q.length + 256 * if g.isEmpty then b.lost else b.lostWas), { b with lost := min 255 g.length, lostWas := 0 })

/-- A read of CVSTAT or PHSTAT (R136). -/
def readBufStat (conv : Bool) (s : State) : Word × State :=
  if conv then
    let (w, b) := bufStat s.clk.tb s.cpc.cv
    (w, { s with cpc := { s.cpc with cv := b } })
  else
    let (w, b) := bufStat s.clk.tb s.cpc.ph
    (w, { s with cpc := { s.cpc with ph := b } })

/-- BUFFER_POP (R135). -/
def execBufferPop (conv : Bool) (j : Fin 4) (s : State) : Host.Outcome State Fault Refusal :=
  .next (windowRead (.bufferPop conv j) 7 ((if conv then 256 else 128) + j.val) (gatedWindow .cps 7 (readPop conv j.val)) s)

/-- BUFFER_STATUS_READ (R136). -/
def execBufferStatusRead (conv : Bool) (s : State) : Host.Outcome State Fault Refusal :=
  .next (windowRead (.bufferStatusRead conv) 7 (if conv then 98 else 99) (gatedWindow .cps 7 (readBufStat conv)) s)

/-! ### Cam phase (R120 to R125) -/

/-- One cam-phase unit replaced by a function of itself. -/
def updCpc (c : Fin 4) (f : CpcCam → CpcCam) (s : State) : State := { s with cpc := { s.cpc with cams := vupd s.cpc.cams c f } }

/-- The average is reset: VALID and OUT clear, without an interrupt (R124). -/
def resetAvg (x : CpcCam) : CpcCam := { x with acc := 0, valid := false, out := false, cnt := 0 }

/-- Every average is reset (R124). -/
def resetAverages (s : State) : State := { s with cpc := { s.cpc with cams := vmapi (fun _ x => resetAvg x) s.cpc.cams } }

/-- The predictor state that gives the angle of an edge: the latest whose tooth stamp is not after it (R121). -/
def edgePred (p prev : Pred) (t : Tb) : Pred :=
  if tbGe t p.tk || !tbGe t prev.tk then p else prev

/-- The angle of an edge in 1/16 tick; an edge before every state kept stands at that state's tooth (R121). -/
def edgeAng (m : Nat) (p : Pred) (t : Tb) : Nat := if tbGe t p.tk then predAng m p t else p.th16 % m

/-- Cyclic distance between two angles (R35). -/
def cycDist (c a b : Nat) : Nat := min ((a + c - b % c) % c) ((b + c - a % c) % c)

/-- A value of a cycle as a signed one in [-c/2, c/2) (R122). -/
def signedMod (c : Nat) (x : Int) : Int := (x + c / 2).emod c - c / 2

/-- The programmed edge of this polarity that lies nearest; of two equally near, the lower index (R122). -/
def nearest (c a : Nat) (rise : Bool) : Nat → List CamEdge → Option (Nat × Nat) → Option (Nat × Nat)
  | _, [], best => best
  | i, e :: es, best =>
    let d := cycDist c a (16 * e.angle)
    let best := if e.pol != rise then best
      else match best with
        | some (j, d0) => if d < d0 then some (i, d) else some (j, d0)
        | none => some (i, d)
    nearest c a rise (i + 1) es best

/-- The new OUT for a compared value (R125). -/
def compareOut (x : CpcCam) (v : Int) : Bool :=
  let e := (v - sgn x.target).natAbs
  let band := fld x.band 0 15
  if band < e then true else if e ≤ band - fld x.cfg 8 8 then false else x.out

/-- A matched edge with phase ph moves the average and the comparison (R123 to R125). DESIGN CHOICE (log 30): OUT follows
a comparison at matched edges only; R125 does not say that a write of CMPEN, TARGET, BAND or HYS between edges compares. -/
def matchEdge (ph : Int) (x : CpcCam) : CpcCam :=
  let acc := if x.valid then x.acc + sar (ph * 256 - x.acc) (fld x.cfg 1 3) else ph * 256
  let x := { x with acc := satS 24 acc, valid := true, cnt := satInc x.cnt 255, lastph := ph }
  if bit x.cfg 5 then { x with out := compareOut x (if bit x.cfg 4 then ph else sar x.acc 8) } else x

/-- The matched edge of an edge, PH and UNM (R122); TOL is held in degrees. Without a programmed edge of its polarity the
edge is unmatched, and its index and PH are free values (log 9). -/
def phaseOf (c16 tol a : Nat) (rise : Bool) (es : List CamEdge) (draw : Nat) : Nat × Int × Bool :=
  match nearest c16 a rise 0 es none with
  | none => ((Config.noMatch draw).toNat % 16, ((Config.noMatch draw).extractLsb' 4 16).toInt, true)
  | some (j, _) =>
    let ref := ((es[j]?).map (·.angle)).getD 0
    let d16 := signedMod c16 (16 * (ref : Int) - a)
    (j, satS 16 (sar (d16 + 128) 8), decide (16 * 1024 * tol < d16.natAbs))

/-- A measured edge of cam c (R120 to R123). Where coarse edges give the position and no predictor state exists, the angle
is the one that ANGLE shows (log 16). -/
def measureEdge (c : Fin 4) (rise : Bool) (t : Tb) (s : State) : State :=
  let x := s.cpc.cams[c]
  let st := effSync s
  let cam := s.cams[c]
  if !(cpsLive s && bit x.cfg 0 && !s.flt.safe && (st == .confirm || st == .sync)) then s
  else
    let c16 := cyc16 s.wheel.cfg
    let a := if bareNow s then bareAng s c16 t else edgeAng c16 (edgePred (effPred s) (effPrev s) t) t
    let (j, ph, unm) := phaseOf c16 cam.tol a rise cam.edges s.free
    let y := if unm then x else matchEdge ph x
    let s := updCpc c (fun _ => y) { s with free := s.free + 1 }
    let s := setIntIf (y.out != x.out) 6 s
    let w1 := c.val + 4 * j + b2n rise 6 + b2n unm 7 + b2n y.out 8 + 32768
    pushPhase ⟨i16 ph, w16 w1, tbLo t, cycOf s t⟩ s

/-! ### Angle windows (R126 to R130) -/

/-- One window replaced by a function of itself. -/
def updWin (w : Fin 8) (f : Win → Win) (s : State) : State := { s with cpc := { s.cpc with wins := vupd s.cpc.wins w f } }

/-- The span of a window in ticks (R126). -/
def winSpan (c : Nat) (x : WinLive) : Nat :=
  let d := (x.stop + c - x.start % c) % c
  if d = 0 then c else d

/-- The distance of strobe k from a_0 (R126). -/
def strobeAt (c : Nat) (x : WinLive) (k : Nat) : Nat := k * winSpan c x / x.count

/-- The window runs (R127). -/
def winRuns (s : State) (x : Win) : Bool :=
  x.live.en && cpsLive s && s.sys.oe && !s.dbg.ptest && !s.flt.safe && (effSync s == .sync || (effSync s == .limp && x.live.limp))

/-- A pass ends or is abandoned: a copy that waited takes effect (R129, R130). A new START has not been crossed yet
(R127). -/
def endPass (x : Win) : Win :=
  let l := x.copy.getD x.live
  let y : Win := { x with active := false, dueAt := [], live := l, copy := none }
  if l.start = x.live.start then y else { y with cross := false, sinceCross := none }

/-- Passes of windows that no longer run are abandoned (R129). -/
def windowsCheck (s : State) : State :=
  { s with cpc := { s.cpc with wins := vmapi (fun _ (x : Win) => if x.active && !winRuns s x then endPass x else x) s.cpc.wins } }

/-- Strobes that have fallen due by the travel so far, as of this tick (R127). -/
def dueStrobes (c : Nat) (tb : Tb) (x : Win) : Win :=
  if x.active then
    let n := ((List.range x.live.count).filter fun k => decide (strobeAt c x.live k ≤ x.trav)).length
    { x with dueAt := x.dueAt ++ List.replicate (n - (x.k + x.dueAt.length)) tb }
  else x

/-- Net forward travel after a tick: a small backward step counts against it (R127). -/
def travel (c prev now t : Nat) : Nat :=
  let d := (now + c - prev % c) % c
  if 2 * d < c then t + d else t - (c - d)

/-- The angle stands at or past a_0, within half a cycle (R127). -/
def pastStart (c start a : Nat) : Bool := decide (2 * ((a + c - start % c) % c) < c)

/-- A window's account of one TB tick (R127). An ANGLE that has jumped, because it counts from something else now, has not
moved forward: it crosses nothing, and the travel since the last crossing is not known (log 30). -/
def winTick (c : Nat) (jump : Bool) (prev now : Nat) (tb : Tb) (x : Win) : Win :=
  let since := if jump then none else x.sinceCross.map (travel c prev now)
  let hit := !jump && pastStart c x.live.start now && !pastStart c x.live.start prev
  let fresh := match since with
    | some d => decide (c ≤ 2 * d)
    | none => true
  let x := { x with cross := hit && fresh, sinceCross := if hit && fresh then some 0 else since, trav := if x.active then travel c prev now x.trav else x.trav }
  dueStrobes c tb x

/-- Window w begins a pass in this tick (R127). -/
def duePass (s : State) (w : Fin 8) : Bool := s.cpc.wins[w].cross && winRuns s s.cpc.wins[w] && !s.cpc.wins[w].active

/-- A pass begins: strobe 0 and what the angle has passed are due (R127). -/
def opPassStart (w : Fin 8) (s : State) : State :=
  let c := cycC s.wheel.cfg
  updWin w (fun x => dueStrobes c s.clk.tb { x with cross := false, active := true, k := 0, trav := (s.sched.nowAngle + c - x.live.start % c) % c, dueAt := [] }) s

/-- WINDOW_PASS_START (R127). -/
def execWindowPassStart (w : Fin 8) (s : State) : Host.Outcome State Fault Refusal :=
  .next (if duePass s w then opPassStart w s else s)

/-- CSTB is not free for a window strobe: less than 40 ticks since its last action, or an armed STROBE fewer than
40 ticks ahead (R128). -/
def cstbBusy (s : State) : Bool :=
  (match s.cpc.lastStrobe with
    | some t => decide (tbSince t s.clk.tb < 40)
    | none => false) ||
  s.sched.slots.toList.any fun x => x.st == .armed && x.live.act == 6 && decide (tbSince s.clk.tb x.atb < 40)

/-- The head of a window's due strobes. -/
def winHead (s : State) (w : Fin 8) : Option Tb :=
  let x := s.cpc.wins[w]
  if x.active && winRuns s x && !cstbBusy s then x.dueAt.head? else none

/-- A strobe of window w is due in this tick and may issue (R128). -/
def dueStrobe (s : State) (w : Fin 8) : Bool := winHead s w == some s.clk.tb

/-- A strobe of window w that waited may issue now (R128). -/
def dueDelayed (s : State) (w : Fin 8) : Bool :=
  match winHead s w with
  | some t => t != s.clk.tb
  | none => false

/-- A window strobe issues; the last one ends the pass (R128, R129). DESIGN CHOICE (log 30): WSTAT next k keeps its value
after a pass, COUNT after a complete one, which R138 does not say. -/
def opStrobe (w : Fin 8) (dly : Bool) (s : State) : State :=
  updWin w (fun x =>
    let x := { x with k := x.k + 1, dueAt := x.dueAt.drop 1 }
    if x.live.count ≤ x.k then endPass x else x) (issueStrobe w.val dly s)

/-- WINDOW_STROBE (R128). -/
def execWindowStrobe (w : Fin 8) (s : State) : Host.Outcome State Fault Refusal :=
  .next (if dueStrobe s w then opStrobe w false s else s)

/-- DELAYED_STROBE_ISSUE (R128). -/
def execDelayedStrobeIssue (w : Fin 8) (s : State) : Host.Outcome State Fault Refusal :=
  .next (if dueDelayed s w then opStrobe w true s else s)

/-- The staged fields of a window with this WCTL word (R126, R138). -/
def winStaged (x : Win) (v : Word) : WinLive :=
  { start := x.w0.toNat + 65536 * fld x.w2 0 4, stop := x.w1.toNat + 65536 * fld x.w2 4 4, count := fld x.w2 8 8, en := bit v 0, limp := bit v 1 }

/-- A write of WCTL, with APPLY or without (R130). -/
def writeWctl (w : Fin 8) (v : Word) (s : State) : State :=
  let s := updWin w (fun x => { x with w3 := v &&& 3 }) s
  if !bit v 2 then s
  else
    let x := s.cpc.wins[w]
    let c := cycC s.wheel.cfg
    let n := winStaged x v
    if n.count = 0 || decide (c ≤ n.start) || decide (c ≤ n.stop) then updWin w (fun x => { x with bad := true }) s
    else if !n.en || !x.active then updWin w (fun x => { endPass { x with copy := some n } with bad := false }) s
    else updWin w (fun x => { x with copy := some n, bad := false }) s

/-- The image permits writes of these words of window CPC (R384). -/
def cpcWritable (s : State) (off : Nat) : Bool :=
  let m := vget s.sec.img 30 0
  if off < 32 then bit m (off / 8) else if off < 96 then bit m (4 + (off - 32) / 8) else bit m 12

/-- A write of an RW word of window CPC (R138). -/
def writeCpc (off : Nat) (v : Word) (s : State) : State :=
  if h : off < 32 then
    let c : Fin 4 := ⟨off / 8, by omega⟩
    match off % 8 with
    | 0 => updCpc c (fun x =>
        let v := v &&& 0xFF3F
        let x := if bit v 0 && !bit x.cfg 0 then resetAvg x else x
        let x := if !bit v 5 then { x with out := false } else x
        { x with cfg := v }) s
    | 1 => updCpc c (fun x => { x with target := v }) s
    | 2 => updCpc c (fun x => { x with band := v &&& 0x7FFF }) s
    | _ => s
  else if h : 32 ≤ off ∧ off < 96 then
    let w : Fin 8 := ⟨(off - 32) / 8, by omega⟩
    match off % 8 with
    | 0 => updWin w (fun x => { x with w0 := v }) s
    | 1 => updWin w (fun x => { x with w1 := v }) s
    | 2 => updWin w (fun x => { x with w2 := v }) s
    | 3 => writeWctl w v s
    | _ => s
  else if off = 96 then { s with cpc := { s.cpc with clat := fld v 0 10 } }
  else if off = 97 then { s with cpc := { s.cpc with cvthr := fld v 0 7, phthr := fld v 8 6 } }
  else s

/-- A host or debug write of window CPC under gating and the image (R330, R389). -/
def hostCpcWrite (p : Path) (off : Nat) (v : Word) (s : State) : State :=
  if !winOpen s 7 then s
  else if !blkOn s .cps then gateEvent .cps true 7 s
  else if 512 ≤ off then s
  else if !cpcWritable s off then deny p 2 7 s
  else writeCpc off v s

/-- WINDOW_APPLY (R130). -/
def execWindowApply (w : Fin 8) (v : Word) (s : State) : Host.Outcome State Fault Refusal :=
  .next (windowWrite (.windowApply w v) 7 (32 + 8 * w.val + 3) (hostCpcWrite .host (32 + 8 * w.val + 3) (v ||| 4)) s)

/-! ### Converter results (R131 to R133) -/

/-- The TB value from which a strobe claims a frame (R132). After a write of CVCFG the outstanding strobes use the new CLAT:
the spec does not say which one they use (DESIGN CHOICE, log 30). -/
def claimAt (s : State) (x : Strobe) : Tb := tbAdd x.issue s.cpc.clat

/-- A converter entry: result, SEQ, angle and tags (R133, R139), with source 10 for ERR 1 and 2 (R132). -/
def convEntry (x : Strobe) (err : Nat) (result : Word) (s : State) : State :=
  let (q, s) := takeSeq rankConv s
  let w3 := x.angle / 65536 + 16 * x.src + 256 * err + b2n x.dly 10 + b2n x.cyc0 11 + 32768
  let s := pushConv ⟨result, q, w16 x.angle, w16 w3⟩ s
  if err = 1 || err = 2 then setInt 7 (raise 10 0 (w16 err) s) else s

/-- The strobes, oldest first, whose search was over when a frame began at t (R132). -/
def expired (s : State) (t : Tb) : List Strobe := s.cpc.strobes.takeWhile fun x => tbGe t (tbAdd (claimAt s x) 51)

/-- The strobes, oldest first, whose claims a frame that began at t serves: it began within 50 ticks of the claim point
(R132). -/
def claimants (s : State) (t : Tb) : List Strobe :=
  (s.cpc.strobes.drop (expired s t).length).takeWhile fun x => tbGe t (claimAt s x)

/-- The line of CDAT after a frame (R131, R148). DESIGN CHOICE (log 30): a malformed frame on CDAT counts FERR and raises
nothing by itself, since source 11 names a sense line; R131 says of R147 only that it handles malformed frames. -/
def cdatFrame (s : State) (b : FrameBits) : Line :=
  let l := lineStart s.clk.fcyc s.cdat
  if frameBad b false then
    let l := lineMissing { l with ferr := satInc l.ferr 65535 }
    if 3 ≤ l.missing then { l with wbrk := true, wbrkAt := s.clk.tb } else l
  else lineValid s.clk.tb b l

/-- A frame on CDAT completes; it began 40 ticks before (R131 to R133). -/
def opConverterFrame (x : BitVec 82) (s : State) : State :=
  let b := parseFrame (frameOf x)
  if !frameBegins x || !hunting s.clk.fcyc s.cdat || b.start then s
  else
    let was := s.cdat.wbrk
    let es := expired s (s.clk.tb - 40)
    let cs := if was then [] else claimants s (s.clk.tb - 40)
    let l := cdatFrame s b
    let s := { s with cdat := l, cpc := { s.cpc with strobes := s.cpc.strobes.drop (es.length + cs.length) } }
    let s := if l.wbrk && !was then raise 9 0 0 s else s
    let s := foldSt es (fun y t => convEntry y 2 0 t) s
    let err := if frameBad b false then 1 else 0
    let r : Word := if err = 1 then 0 else b.result
    match cs with
    | [] => s
    | x :: rest => foldSt rest (fun y t => convEntry y 3 r t) (convEntry x err r s)

/-- CONVERTER_ENTRY (R133), with the samples of the frame. -/
def execConverterEntry (x : BitVec 82) (s : State) : Host.Outcome State Fault Refusal :=
  .next (if cpsLive s then opConverterFrame x s else s)

/-- The search of the oldest strobe is over (R132). -/
def dueSearch (s : State) : Bool :=
  cpsLive s && match s.cpc.strobes with
    | x :: _ => tbGe s.clk.tb (tbAdd (claimAt s x) 50)
    | [] => false

/-- No frame can have begun in time for the oldest strobe: CDAT is in wire break, or a frame that began within the 50 ticks
would have completed (R132, R146; log 10). -/
def searchSure (s : State) : Bool :=
  cpsLive s && match s.cpc.strobes with
    | x :: _ => s.cdat.wbrk || tbGe s.clk.tb (tbAdd (claimAt s x) 91)
    | [] => false

/-- CONVERTER_SEARCH_TIMEOUT (R132). -/
def execConverterSearchTimeout (s : State) : Host.Outcome State Fault Refusal :=
  .next (match s.cpc.strobes with
    | x :: rest => if dueSearch s then convEntry x 2 0 { s with cpc := { s.cpc with strobes := rest } } else s
    | [] => s)

/-! ### Window CPC (R138) -/

/-- A read of window CPC (R138). -/
def readCpc (off : Nat) (s : State) : Word × State :=
  if h : off < 32 then
    let x := s.cpc.cams[off / 8]
    (match off % 8 with
    | 0 => x.cfg
    | 1 => x.target
    | 2 => x.band
    | 3 => i16 (sar x.acc 8)
    | 4 => i16 x.lastph
    | 5 => w16 (b2n x.out 0 + b2n x.valid 1 + 256 * x.cnt)
    | _ => 0, s)
  else if h : 32 ≤ off ∧ off < 96 then
    let x := s.cpc.wins[(off - 32) / 8]
    (match off % 8 with
    | 0 => x.w0
    | 1 => x.w1
    | 2 => x.w2
    | 3 => x.w3
    | 4 => w16 (b2n x.active 0 + b2n x.copy.isSome 1 + b2n x.bad 2 + 256 * x.k)
    | _ => 0, s)
  else if off = 96 then (w16 s.cpc.clat, s)
  else if off = 97 then (w16 (s.cpc.cvthr + 256 * s.cpc.phthr), s)
  else if off = 98 then readBufStat true s
  else if off = 99 then readBufStat false s
  else if 128 ≤ off ∧ off < 256 then readPop false (off % 4) s
  else if 256 ≤ off ∧ off < 512 then readPop true (off % 4) s
  else (0, s)

/-- What the block drops at a fast-datapath reset: averages, passes and outstanding strobes (R137). -/
def cpsFastReset (s : State) : State :=
  let s := resetAverages s
  { s with cpc := { s.cpc with strobes := [], wins := vmapi (fun _ x => if x.active then endPass x else x) s.cpc.wins } }

/-- Safe-state entry: measuring and windows stop and the outstanding strobes are discarded (R137). -/
def cpsSafe (s : State) : State :=
  { s with cpc := { s.cpc with strobes := [], wins := vmapi (fun _ x => if x.active then endPass x else x) s.cpc.wins } }

end Sys2Proof.Machine
end

