-- ==== Sys2Proof/Machine/TestOps.lean ====
section
/-! DEFINITION. The course of DIAG_RUN TEST (R210, R211), which sense frames, timeouts and trips move on. -/

namespace Sys2Proof.Machine

/-- Ends the running command when it is the one with this code that waits for its hardware: a process whose command
was interrupted ends nothing (R435), and while the core is halted the end waits (R27). -/
def endIf (code : Byte) (status q0 q1 : Nat) (s : State) : State :=
  match s.mbox.run with
  | some c =>
    if c.code = code && s.mbox.committed && !s.mbox.cut then
      if s.dbg.halted then { s with mbox := { s.mbox with ready := some (status, q0, q1) } } else endCmd status q0 q1 s
    else s
  | none => s

/-- The core goes on after a halt: a command whose process has ended meanwhile ends (R27). -/
def endReady (s : State) : State :=
  match s.mbox.ready with
  | some (status, q0, q1) => endCmd status q0 q1 s
  | none => s

/-- The lines tested together at a channel: one, or the two of a pair. -/
def testLines (s : State) (ch : Nat) : Nat := if paired s ch then 2 else 1

/-- Results of 4 bits per channel (R211). -/
def testResults (r : Vector Nat 8) : Nat := r.toList.foldr (fun x acc => x + 16 * acc) 0

/-- The channel is skipped (R210). -/
def testSkips (s : State) (t : DTest) (n : Fin 12) : Bool :=
  !idle s n || groupLatched s n || !s.sys.oe || !chanEnabled s n ||
    (t.pulse && decide (imgMaxTicks s n < t.tpulse * 10))

/-- A channel is named by the mask; of a pair either name will do (R210). -/
def testNames (s : State) (mask : BitVec 8) (n : Nat) : Bool :=
  mask.getLsbD n || (paired s n && (mask.getLsbD (n - n % 2) || mask.getLsbD (n - n % 2 + 1)))

/-- Step 1 begins at a channel (R211). -/
def testBegin (t : DTest) (n : Fin 8) (s : State) : State :=
  let k := testLines s n.val
  let clr (j : Nat) (s : State) : State := { s with diag := { s.diag with ch := vput s.diag.ch j { vget s.diag.ch j {} with cand := 0, cnt := 0 } } }
  let s := if k = 2 then clr (n.val + 1) (clr n.val s) else clr n.val s
  let t' : DTest := { mask := t.mask, pulse := t.pulse, tpulse := t.tpulse, res := t.res, ch := n.val, since := s.clk.tb }
  { s with diag := { s.diag with test := some t' } }

/-- The results of a channel's lines are noted, in LASTRUN as well (R211). -/
def testNote (ch k : Nat) (r : Vector Nat 2) (s : State) : State :=
  match s.diag.test with
  | none => s
  | some t =>
    let res := vput t.res ch (vget r 0 0)
    let res := if k = 2 then vput res (ch + 1) (vget r 1 0) else res
    let put (j v : Nat) (c : Vector DiagCh 8) : Vector DiagCh 8 := vput c j { vget c j {} with lastrun := v }
    let d := put ch (vget r 0 0) s.diag.ch
    let d := if k = 2 then put (ch + 1) (vget r 1 0) d else d
    { s with diag := { s.diag with ch := d, test := some { t with res := res } } }

/-- The test ends: its command returns the results (R211, R446). -/
def testEnd (s : State) : State :=
  match s.diag.test with
  | some t => endIf 0x14 0 (testResults t.res % 65536) (testResults t.res / 65536) { s with diag := { s.diag with test := none } }
  | none => s

/-- A line of the channel under test is in wire break. -/
def testBroken (s : State) (ch k : Nat) : Bool := (vget s.lines (ch + k) {}).wbrk

/-- The test moves to the first channel from `n` on that is named and not skipped. A channel without a line
outside wire break is finished at once (R210, R211). -/
def testFrom : Nat → Nat → State → State
  | 0, _, s => testEnd s
  | fuel + 1, n, s =>
    match s.diag.test with
    | none => s
    | some t =>
      if h : n < 8 then
        let k := testLines s n
        if testNames s t.mask n then
          if testSkips s t ⟨n, by omega⟩ then testFrom fuel (n + k) (testNote n k #v[8, 8] s)
          else if (List.range k).all (testBroken s n) then testFrom fuel (n + k) (testNote n k #v[7, 7] s)
          else testBegin t ⟨n, h⟩ s
        else testFrom fuel (n + k) s
      else testEnd s

/-- The test waits for the firmware, which is halted, before it goes on at a channel (R27). -/
def testHold (ph : TestPh) (ch : Nat) (s : State) : State :=
  { s with diag := { s.diag with test := s.diag.test.map fun t => { t with ph := ph, ch := ch } } }

/-- The channel under test is finished with these results, and the firmware goes on to the next one (R27, R211). -/
def testFinish (ch : Nat) (r : Vector Nat 2) (s : State) : State :=
  let k := testLines s ch
  let s := testNote ch k r s
  if s.dbg.halted then testHold .next (ch + k) s else testFrom 9 (ch + k) s

/-- CONF consecutive off-frames have come on a line (R211). -/
def testHas (s : State) (t : DTest) (k : Nat) : Bool :=
  decide ((vget s.diag.ch (t.ch + k) {}).conf ≤ vget t.offs k 0)

/-- The outcome of step 1 on a line: the verdict of its frames, else WBRK, or DRVINC after frames with current
above NOCUR (R211). -/
def testFirst (s : State) (t : DTest) (k : Nat) : Nat :=
  if testHas s t k then vget t.verdict k 0 else if vget t.sawI k false then 6 else 7

/-- Step 1 is over: the pulse starts when every line gave its frames, else the channel is finished; a channel that no
longer meets the conditions of R210 gets no pulse and is SKIPPED (R143, R210, R211; log 14). -/
def testWaitOver (t : DTest) (s : State) : State :=
  let ks := List.range (testLines s t.ch)
  if t.pulse && testSkips s t (chOf t.ch) then testFinish t.ch #v[8, 8] s
  else if t.pulse && ks.all (testHas s t) then
    setDrv (chOf t.ch) true { s with diag := { s.diag with test := some { t with ph := .pulse, since := s.clk.tb, pv := #v[0, 0] } } }
  else testFinish t.ch #v[testFirst s t 0, testFirst s t 1] s

/-- The result of a line after its pulse: NOCUR is resolved by the verdict of step 1 (R196, R211). -/
def testPulseResult (t : DTest) (k : Nat) : Nat :=
  let v := vget t.pv k 0
  if v = 0 then 1 else if v = 5 then nextClass 5 (vget t.verdict k 0) false else v

/-- The test moves on as far as the state lets it: after a frame, a missing slot or a wire break (R211). -/
def testAdvance (s : State) : State :=
  match s.diag.test with
  | none => s
  | some t =>
    let ks := List.range (testLines s t.ch)
    match t.ph with
    | .wait =>
      if ks.all (fun k => testHas s t k || testBroken s t.ch k) then (if s.dbg.halted then testHold .over t.ch s else testWaitOver t s)
      else s
    | .pulse => s
    | .over => s
    | .next => s
    | .decay => if 2 ≤ vget t.offs 0 0 then testFinish t.ch #v[testPulseResult t 0, testPulseResult t 1] s else s

/-- The firmware goes on with the test after a halt (R27). -/
def testResume (s : State) : State :=
  match s.diag.test with
  | none => s
  | some t =>
    match t.ph with
    | .over => testWaitOver t s
    | .next => testFrom 9 t.ch s
    | _ => s

/-- The end of decay did not come within DECMAX of the pulse's end (R158, R211). -/
def dueTestDecay (s : State) (n : Fin 8) : Bool :=
  match s.diag.test with
  | some t => t.ch == n.val && t.ph == .decay && decide (s.chan[sh n].cfg.decmax * 100 ≤ tbSince t.since s.clk.tb)
  | none => false

/-- DECMAX elapses in the decay of a test pulse (R158, R211). -/
def testDecayOver (n : Fin 12) (s : State) : State :=
  match s.diag.test with
  | some t =>
    let s := if lineBroken s n then s else raise 14 n.val 0 s
    testFinish t.ch #v[testPulseResult t 0, testPulseResult t 1] s
  | none => s

end Sys2Proof.Machine
end

