-- ==== Sys2Proof/Machine/Channels.lean ====
section
/-! DEFINITION. The channel family: sense frames, phases of a pulse, and the channel commands (R140 to R172). -/

namespace Sys2Proof.Machine

/-- The channel block runs: FCLK runs and its gate is open (R329). -/
def chanLive (s : State) : Bool := liveN s && blkOn s .chan

/-- A frame completes on a sense line (R146). -/
def opSenseFrame (n : Fin 8) (x : BitVec 82) (s : State) : State :=
  if chanLive s then testAdvance <| senseFrame n x { s with pins := { s.pins with sns := vput s.pins.sns n.val true } } else s

/-- SENSE_FRAME_COMPLETE (R146), with the samples of the frame. -/
def execSenseFrameComplete (n : Fin 8) (x : BitVec 82) (s : State) : Host.Outcome State Fault Refusal :=
  .next (opSenseFrame n x s)

/-- CDAT meets a slot without a valid frame (R131, R148). -/
def cdatMissing (s : State) : State :=
  let l := lineMissing s.cdat
  if 3 ≤ l.missing && !l.wbrk then
    raise 9 0 0 { s with cdat := { l with wbrk := true, wbrkAt := s.clk.tb } }
  else { s with cdat := l }

/-- A deadline in force has passed (R148). -/
def deadlinePassed (s : State) (l : Line) : Bool :=
  match l.deadline with
  | some d => decide (d ≤ s.clk.fcyc + 1)
  | none => false

/-- The deadline after a missing slot (R148). -/
def nextDeadline (l : Line) : Line := { l with deadline := l.deadline.map (· + 80) }

/-- A frame deadline passes with no detected start (R148). -/
def opSlotMissing (l : Fin 9) (s : State) : State :=
  if h : l.val < 8 then
    let n : Fin 8 := ⟨l.val, h⟩
    if chanLive s && deadlinePassed s s.lines[n] then testAdvance (slotMissing n (dueLevel s n) (updLine n nextDeadline s)) else s
  else if liveN s && blkOn s .cps && deadlinePassed s s.cdat then
    cdatMissing { s with cdat := nextDeadline s.cdat }
  else s

/-- SENSE_SLOT_MISSING (R148). -/
def execSenseSlotMissing (l : Fin 9) (s : State) : Host.Outcome State Fault Refusal :=
  .next (opSlotMissing l s)

/-- A line has held one level for 240 FCLK cycles (R148). -/
def opLineStuck (l : Fin 9) (high : Bool) (s : State) : State :=
  if h : l.val < 8 then
    let n : Fin 8 := ⟨l.val, h⟩
    if chanLive s then testAdvance <| enterBreak n { s with pins := { s.pins with sns := vupd s.pins.sns n fun _ => high } } else s
  else if liveN s && blkOn s .cps && !s.cdat.wbrk then
    raise 9 0 0 { s with cdat := { s.cdat with wbrk := true, wbrkAt := s.clk.tb, good := 0 } }
  else s

/-- LINE_STUCK_TIMEOUT (R148). -/
def execLineStuckTimeout (l : Fin 9) (high : Bool) (s : State) : Host.Outcome State Fault Refusal :=
  .next (opLineStuck l high s)

/-! ### Phases of a pulse -/

/-- TBOOST has elapsed (R155). -/
def dueTboost (s : State) (n : Fin 8) : Bool :=
  let c := s.chan[sh n]
  chanLive s && c.st == .boost && decide (c.pulse.prof.tboost * 10 ≤ tbSince c.pulse.startAt s.clk.tb)

/-- TBOOST_ELAPSED (R155). -/
def execTboostElapsed (n : Fin 8) (s : State) : Host.Outcome State Fault Refusal :=
  .next (if dueTboost s n then boostExit (sh n) s else s)

/-- The dead time of the channel has ended (R157). -/
def dueDeadEnd (s : State) (n : Fin 8) : Bool := chanLive s && reached s.chan[sh n].reg.deadTo s.clk.tb

/-- TPEAK counted from the boost exit is over at this tick (R155). -/
def peakDone (s : State) (c : Chan) : Bool :=
  match c.pulse.exitAt with
  | some e => decide (c.pulse.prof.tpeak * 10 ≤ tbSince e s.clk.tb)
  | none => false

/-- The instant at which TPEAK elapses, from which THOLD counts (R155). -/
def markPeakEnd (n : Fin 12) (s : State) : State :=
  updChan n (fun c => { c with pulse := { c.pulse with peakOver := true, holdAt := match c.pulse.exitAt with | some e => tbAdd e (c.pulse.prof.tpeak * 10) | none => s.clk.tb } }) s

/-- From DEAD: PEAK, or HOLD when TPEAK has elapsed, or DECAY when THOLD has elapsed as well (R155, R159). -/
def leaveDead (n : Fin 12) (s : State) : State :=
  if s.chan[n].pulse.peakOver || peakDone s s.chan[n] then
    let s := if s.chan[n].pulse.peakOver then s else markPeakEnd n s
    if tholdOver s n then enterDecay n s else enterHold n s
  else enterPeak n s

/-- The dead time of a channel ends: DEAD is left, a BOOST instruction with ON = 0 completes, and decisions resume
at the next valid frame (R157, R178). -/
def opDeadEnd (n : Fin 12) (s : State) : State :=
  let s := updChan n (fun c => { c with reg := { c.reg with deadTo := none } }) s
  if s.chan[n].st == .dead then leaveDead n s
  else if s.chan[n].st == .prog && s.chan[n].prog.wait == .boostOff then
    updChan n (fun c => { c with prog := { c.prog with wait := .none, pc := c.prog.pc + 1, next := s.clk.fcyc + 1 } }) s
  else s

/-- DEAD_TIME_END (R157). -/
def execDeadTimeEnd (n : Fin 8) (s : State) : Host.Outcome State Fault Refusal :=
  .next (if dueDeadEnd s n then opDeadEnd (sh n) s else s)

/-- TPEAK has elapsed in PEAK, or in DEAD where it is noted (R155, R159). -/
def dueTpeak (s : State) (n : Fin 8) : Bool :=
  let c := s.chan[sh n]
  chanLive s && (c.st == .peak || c.st == .dead) && !c.pulse.peakOver && peakDone s c

/-- TPEAK elapses (R155, R159). -/
def opTpeak (n : Fin 12) (s : State) : State :=
  let s := markPeakEnd n s
  if s.chan[n].st == .peak then enterHold n s else s

/-- TPEAK_ELAPSED (R155). -/
def execTpeakElapsed (n : Fin 8) (s : State) : Host.Outcome State Fault Refusal :=
  .next (if dueTpeak s n then opTpeak (sh n) s else s)

/-- THOLD has elapsed in HOLD (R155). -/
def dueThold (s : State) (n : Fin 8) : Bool := chanLive s && s.chan[sh n].st == .hold && tholdOver s (sh n)

/-- THOLD_ELAPSED (R155). -/
def execTholdElapsed (n : Fin 8) (s : State) : Host.Outcome State Fault Refusal :=
  .next (if dueThold s n then enterDecay (sh n) s else s)

/-- The max on-time has elapsed (R156, R161). -/
def dueMaxOn (s : State) (n : Fin 12) : Bool :=
  let c := s.chan[n]
  chanLive s && (c.st.active || c.st == .high) && decide (c.pulse.maxTicks ≤ tbSince c.pulse.startAt s.clk.tb)

/-- The max on-time elapses: DECAY or LOW, and source 13 (R156, R161). -/
def opMaxOn (n : Fin 12) (s : State) : State :=
  let s := raise 13 n.val 0 s
  if s.chan[n].st == .high then enterLow n s else enterDecay n s

/-- MAX_ON_TIME (R156). -/
def execMaxOnTime (n : Fin 12) (s : State) : Host.Outcome State Fault Refusal :=
  .next (if dueMaxOn s n then opMaxOn n s else s)

/-- DECMAX has elapsed in DECAY (R158). -/
def dueDecay (s : State) (n : Fin 8) : Bool :=
  let c := s.chan[sh n]
  chanLive s && c.st == .decay && decide (c.cfg.decmax * 100 ≤ tbSince c.pulse.decAt s.clk.tb)

/-- DECMAX elapses: IDLE, and source 14 unless the line is in wire break (R158). -/
def opDecayTimeout (n : Fin 12) (s : State) : State :=
  let s := if lineBroken s n then s else raise 14 n.val 0 s
  enterIdle n s

/-- DECAY_TIMEOUT (R158). -/
def execDecayTimeout (n : Fin 8) (s : State) : Host.Outcome State Fault Refusal :=
  .next (if dueDecay s n then opDecayTimeout (sh n) s
    else if chanLive s && dueTestDecay s n then testDecayOver (sh n) s else s)

/-- The width of a PULSE has elapsed (R94, R161). -/
def duePulseEnd (s : State) (n : Fin 12) : Bool :=
  chanLive s && s.chan[n].st == .high && reached s.chan[n].pulse.pulseEnd s.clk.tb

/-- PULSE_WIDTH_END (R94). -/
def execPulseWidthEnd (ch : Fin 12) (s : State) : Host.Outcome State Fault Refusal :=
  .next (if duePulseEnd s ch then enterLow ch s else s)

/-! ### Commands -/

/-- CHANNEL_SET moves a channel to a mode (R169): a containment held meanwhile takes effect as it leaves OFF
(R159, R249), and a broken line contains a regulated channel (R165). -/
def channelMode (n : Fin 12) (f : ChCfg → ChCfg) (s : State) : State :=
  let s := updChan n (fun c => { c with cfg := f c.cfg }) s
  let m := s.chan[n].cfg.mode
  let s := if restState m == s.chan[n].st then s else settle n (restState m) s
  let brk := (m = 2 || m = 3) && lineBroken s n
  let s := updChan n (fun c => { c with own := brk }) s
  if m != 0 && (s.chan[n].cont || brk) then containInput n s else s

/-- CHANNEL_SET (R169, R442, R444). -/
def cmdChannelSet (a : Args) (s : State) : CmdRes :=
  let ch := fld a.a0 0 4
  let mode := fld a.a0 4 2
  let bu := bit a.a0 6
  if h : ch < 12 then
    let n : Fin 12 := ⟨ch, h⟩
    let shaped := mode = 2 || mode = 3
    checked (within a.a0 0xFF7F && within a.a1 0x0FFF && a.a2 != 0)
      [!(shaped && decide (8 ≤ ch)) && !emitDrives s ch, !(bu && decide (8 ≤ ch)),
       !(shaped && s.chan[n].cfg.scale = 0), !paired s ch, idleX s n] s
      { st := channelMode n (fun c => { c with mode := mode, boostuse := bu, slew := fld a.a0 8 8, decthr := a.a1.toNat, decmax := a.a2.toNat }) s }
  else badArg s

/-- CHANNEL_SET (R169). -/
def execChannelSet (a : Args) (s : State) : Host.Outcome State Fault Refusal :=
  .next (mboxRow 0x10 cmdChannelSet a s)

/-- A profile read from the staging buffer (R443). -/
def profOf (v : Vector Word 8) : Prof :=
  ⟨v[0].toNat, v[1].toNat, v[2].toNat, v[3].toNat, v[4].toNat, v[5].toNat, v[6].toNat, v[7].toNat⟩

/-- PROFILE_LOAD (R170, R442, R443): the words are staged first; a refused apply leaves them. -/
def cmdProfileLoad (a : Args) (s : State) : CmdRes :=
  if !within a.a0 0x013F then badArg s
  else
    let part := fld a.a0 4 2
    let v := vput (vput s.chs.stage (2 * part) a.a1) (2 * part + 1) a.a2
    let s := { s with chs := { s.chs with stage := v } }
    if bit a.a0 8 then
      let p := profOf v
      checked true [decide (p.hysp ≤ p.peak), decide (p.hysh ≤ p.hold)] s
        { st := { s with chs := { s.chs with profs := vput s.chs.profs (fld a.a0 0 4) p } } }
    else { st := s }

/-- PROFILE_LOAD (R443). -/
def execProfileLoad (a : Args) (s : State) : Host.Outcome State Fault Refusal :=
  .next (mboxRow 0x11 cmdProfileLoad a s)

/-- A shaped channel whose line, or a line of whose pair, is in wire break is contained, unless a fallback covers it
(R165). -/
def checkBreak (n : Fin 12) (s : State) : State :=
  let brk := lineBroken s n && s.chan[n].fallback.isNone
  let s := updChan n (fun c => { c with own := brk }) s
  if brk then containInput n s else s

/-- Joins a pair: the upper channel becomes PARTNER and moves to the trip group of the lower one (R162, R200; log 14). -/
def joinPair (p : Fin 4) (lo up : Fin 8) (s : State) : State :=
  let s := updChan (sh up) (fun c => { c with cfg := { c.cfg with mode := 4 }, fallback := none, own := false }) s
  let s := settle (sh up) .off s
  let s := updChan (sh lo) (fun c => { c with fallback := none }) s
  let s := { s with chs := { s.chs with pairs := vupd s.chs.pairs p fun _ => true }, trip := { s.trip with group := vput s.trip.group up.val (vget s.trip.group lo.val 0) } }
  refreshI lo (checkBreak (sh lo) s)

/-- Splits a pair: the upper channel is left in mode 0 (R171), and the lower one decides on its own line (R165, R176). -/
def splitPair (p : Fin 4) (lo up : Fin 8) (s : State) : State :=
  let s := { s with chs := { s.chs with pairs := vupd s.chs.pairs p fun _ => false } }
  let s := updChan (sh lo) (fun c => { c with fallback := none }) s
  let s := updChan (sh up) (fun c => { c with cfg := { c.cfg with mode := 0 }, st := .off, own := false }) s
  refreshI up (refreshI lo (checkBreak (sh lo) s))

/-- PAIR_SET (R171, R442). -/
def cmdPairSet (a : Args) (s : State) : CmdRes :=
  let p : Fin 4 := ⟨fld a.a0 0 2, Nat.mod_lt _ (by decide)⟩
  let lo : Fin 8 := ⟨2 * p.val, by omega⟩
  let up : Fin 8 := ⟨2 * p.val + 1, by omega⟩
  let offIdle (n : Fin 8) : Bool := s.chan[sh n].st == .off || s.chan[sh n].st == .idle
  if bit a.a0 2 then
    checked (within a.a0 7)
      [offIdle lo && offIdle up, s.chan[sh lo].cfg.mode == 2 || s.chan[sh lo].cfg.mode == 3,
       s.chan[sh lo].cfg.scale == s.chan[sh up].cfg.scale && s.chan[sh lo].cfg.scale != 0] s
      { st := if s.chs.pairs[p] then s else joinPair p lo up s }
  else
    checked (within a.a0 7) [!s.chs.pairs[p] || idle s (sh lo)] s
      { st := if s.chs.pairs[p] then splitPair p lo up s else s }

/-- PAIR_SET (R171). -/
def execPairSet (a : Args) (s : State) : Host.Outcome State Fault Refusal :=
  .next (mboxRow 0x13 cmdPairSet a s)

/-- A scale is held as pending, or becomes active at once on an idle channel (R151, R172). -/
def setScale (n : Fin 12) (v : Nat) (s : State) : State :=
  let s := updChan n (fun c => { c with cfg := { c.cfg with scpend := v } }) s
  if idle s n then applyScale n s else s

/-- SENSE_SCALE (R172, R442, R444). -/
def cmdSenseScale (a : Args) (s : State) : CmdRes :=
  let n : Fin 12 := ⟨fld a.a0 0 3, by have := Nat.mod_lt (a.a0.toNat / 2 ^ 0) (show 2 ^ 3 > 0 by decide); unfold fld; omega⟩
  checked (within a.a0 7 && a.a1 != 0) [!isPartner s n] s
    { st := setScale n a.a1.toNat s, q0 := if idle s n then 0 else 1 }

/-- SENSE_SCALE (R172). -/
def execSenseScale (a : Args) (s : State) : Host.Outcome State Fault Refusal :=
  .next (mboxRow 0x19 cmdSenseScale a s)

end Sys2Proof.Machine
end

