-- ==== Sys2Proof/Machine/StoreOps.lean ====
section
/-! DEFINITION. Cells of the nonvolatile array and of the shadow, CRC-32, record validity, the sections of a
record, and the shadow's updates (R360 to R369). -/

namespace Sys2Proof.Machine

/-! ### Cells in canonical form -/

/-- The byte at an address, or what an unlisted address reads as. -/
def cellGet (d : Byte) (a : Nat) : List Host.Cell → Byte
  | [] => d
  | (b, w) :: rest => if a = b then w else cellGet d a rest

/-- Writes one byte and keeps the canonical form: rising addresses, no entry equal to the default. -/
def cellPut (d : Byte) (a : Nat) (v : Byte) : List Host.Cell → List Host.Cell
  | [] => if v = d then [] else [(a, v)]
  | (b, w) :: rest =>
    if a < b then (if v = d then (b, w) :: rest else (a, v) :: (b, w) :: rest)
    else if a = b then (if v = d then rest else (a, v) :: rest)
    else (b, w) :: cellPut d a v rest

/-- Writes bytes from an address on. -/
def cellPuts (d : Byte) : Nat → List Byte → List Host.Cell → List Host.Cell
  | _, [], m => m
  | a, v :: vs, m => cellPuts d (a + 1) vs (cellPut d a v m)

/-- Every entry lies at or above an address and differs from the default, and addresses rise strictly. -/
def cellsFrom (d : Byte) : Nat → List Host.Cell → Bool
  | _, [] => true
  | lo, (a, v) :: rest => decide (lo ≤ a) && v != d && cellsFrom d (a + 1) rest

/-- What an unlisted byte of a bank and of the shadow reads as: erased, and 0 (R362, R365). -/
def bankDefault : Byte := 0xFF
def shadowDefault : Byte := 0x00

/-- The two banks and the shadow are in canonical form. -/
def storeWf (t : Store) : Bool :=
  cellsFrom bankDefault 0 t.bankA && cellsFrom bankDefault 0 t.bankB && cellsFrom shadowDefault 0 t.shadow

/-- The canonical form of the addressed memories: the two banks and the shadow. -/
def Memory.wf (s : State) : Bool := storeWf s.store

/-- Bytes lo to lo + n - 1. -/
def cellBytes (d : Byte) (lo n : Nat) (m : List Host.Cell) : List Byte := (List.range n).map fun i => cellGet d (lo + i) m

/-- Little-endian values of two and four bytes. -/
def cell16 (d : Byte) (a : Nat) (m : List Host.Cell) : Nat := (cellGet d a m).toNat + 256 * (cellGet d (a + 1) m).toNat
def cell32 (d : Byte) (a : Nat) (m : List Host.Cell) : Nat := cell16 d a m + 65536 * cell16 d (a + 2) m

/-- The two and four bytes of a value, low byte first (R362). -/
def le16 (x : Nat) : List Byte := [BitVec.ofNat 8 x, BitVec.ofNat 8 (x / 256)]
def le32 (x : Nat) : List Byte := le16 x ++ le16 (x / 65536)
def leW (w : Word) : List Byte := le16 w.toNat

/-! ### CRC-32 (R363) -/

/-- One bit step of the reflected CRC-32. -/
def crc32Bit (c : BitVec 32) : BitVec 32 := if c.getLsbD 0 then (c >>> 1) ^^^ 0xEDB88320 else c >>> 1

/-- One byte of the CRC-32. -/
def crc32Byte (c : BitVec 32) (b : Byte) : BitVec 32 :=
  (List.range 8).foldl (fun x _ => crc32Bit x) (c ^^^ b.setWidth 32)

/-- The CRC-32 of a byte string. -/
def crc32 (bs : List Byte) : BitVec 32 := bs.foldl crc32Byte 0xFFFFFFFF ^^^ 0xFFFFFFFF

/-! ### The record (R362 to R365) -/

/-- Length of the record body (R362). -/
def bodyLen : Nat := 2002
def recMagic : Nat := 0x45544131

/-- Addresses of the sections (R362). -/
def atGeom : Nat := 0x010
def atTherm : Nat := 0x212
def atSev : Nat := 0x33A
def atCnt : Nat := 0x36A
def atProt : Nat := 0x3CA
def atResume : Nat := 0x44A

/-- The CRC that a record should carry. -/
def recordCrc (d : Byte) (m : List Host.Cell) : BitVec 32 := crc32 (cellBytes d 0 12 m ++ cellBytes d 0x10 bodyLen m)

/-- A bank holds a valid record (R365). -/
def recordValid (m : List Host.Cell) : Bool :=
  cell32 bankDefault 0 m == recMagic && (cellGet bankDefault 11 m).toNat == 1 && cell16 bankDefault 8 m == bodyLen &&
    cell32 bankDefault 12 m == (recordCrc bankDefault m).toNat

/-- A bank whose bytes all read 0xFF is blank (R365). -/
def recordBlank (m : List Host.Cell) : Bool := m.isEmpty

/-- A bank by its number: false for A. -/
def bank (s : State) (b : Bool) : List Host.Cell := if b then s.store.bankB else s.store.bankA

/-- A bank replaced. -/
def setBank (b : Bool) (m : List Host.Cell) (s : State) : State :=
  if b then { s with store := { s.store with bankB := m } } else { s with store := { s.store with bankA := m } }

/-- FLAGS.RVALID of the shadow (R362). -/
def resumeValid (m : List Host.Cell) : Bool := (cellGet shadowDefault 10 m).getLsbD 0

/-- The record that a commit programs: the shadow with the new SEQ, LEN, FMT and CRC, and 30 reserved bytes of 0 (R362,
R370). -/
def commitImage (shadow : List Host.Cell) (seq : Nat) : List Host.Cell :=
  let body := cellBytes shadowDefault 0x10 bodyLen shadow
  let head := le32 recMagic ++ le32 seq ++ le16 bodyLen ++ [if resumeValid shadow then 1 else 0, 1]
  let crc := crc32 (head ++ body)
  cellPuts bankDefault 0 (head ++ le32 crc.toNat ++ body ++ List.replicate 30 0) []

/-- The place of a byte's word in the order in which a commit programs the record (R370): the bytes from 0x010 on, CRC,
FLAGS, LEN, SEQ, and MAGIC last. -/
def progPlace (a : Nat) : Nat :=
  match a / 2 with
  | 0 => 1022
  | 1 => 1023
  | 2 => 1020
  | 3 => 1021
  | 4 => 1019
  | 5 => 1018
  | 6 => 1016
  | 7 => 1017
  | k => k - 8

/-- The target of a running commit when so many words are programmed; the others are erased (R370). -/
def partBank (words : Nat) (shadow : List Host.Cell) (seq : Nat) : List Host.Cell :=
  (commitImage shadow seq).filter fun x => decide (progPlace x.1 < words)

/-- What a commit that failed or was cut short leaves in its target: bytes that the spec leaves open, with MAGIC erased
(R370, R371; log 9). -/
def openBank (k : Nat) : List Host.Cell :=
  cellPuts bankDefault 4 ((List.range 2044).map fun i => Config.arrayByte k (i + 4)) []

/-! ### Sections -/

/-- GEOM: N - 1 and M in force, then the active deviations; M reads 0 while no table is held (R362, R82). -/
def geomBytes (g : Geom) : List Byte :=
  [BitVec.ofNat 8 (g.tableN - 1), BitVec.ofNat 8 g.tableM] ++ g.e.toList.flatMap fun e => leW (i16 e.act)

/-- THERMP (R362): the parameter words, the ambients and the die settings. -/
def thermBytes (t : Therm) : List Byte :=
  t.ch.toList.flatMap (fun c => c.live.toList.flatMap leW) ++ leW (i16 t.ta) ++ leW (i16 t.tref) ++ le16 t.diethr ++ le16 t.diehys

/-- FSEV (R362): [2:0] severity, [3] RING. -/
def sevBytes (f : Flt) : List Byte :=
  (List.finRange 48).map fun i => BitVec.ofNat 8 (f.sev[i] + b2n f.ring[i] 3)

/-- PROT (R362). -/
def protBytes (c : Sec) : List Byte := c.img.toList.flatMap leW

/-! ### Updates of the shadow (R368, R369) -/

/-- The shadow takes bytes and is dirty; while a commit runs they are held (R368, R369). -/
def shadowPut (addr : Nat) (bs : List Byte) (s : State) : State :=
  if s.store.run.isSome then { s with store := { s.store with held := s.store.held ++ [⟨addr, bs⟩] } }
  else { s with store := { s.store with shadow := cellPuts shadowDefault addr bs s.store.shadow, dirty := true } }

/-- Adds to a lifetime count, saturating (R368). -/
def shadowCount (src k : Nat) (m : List Host.Cell) : List Host.Cell :=
  cellPuts shadowDefault (atCnt + 2 * src) (le16 (min 65535 (cell16 shadowDefault (atCnt + 2 * src) m + k))) m

/-- An event of a source counts in FCNT; while a commit runs the increment is held (R368, R369). -/
def countEvent (src : Nat) (s : State) : State :=
  if s.store.run.isSome then
    { s with store := { s.store with heldCnt := vput s.store.heldCnt src (satInc (vget s.store.heldCnt src 0) 255) } }
  else { s with store := { s.store with shadow := shadowCount src 1 s.store.shadow, dirty := true } }

/-- FCNT of a source with the held increments (R271, R450). -/
def lifetime (s : State) (src : Nat) : Nat :=
  min 65535 (cell16 shadowDefault (atCnt + 2 * src) s.store.shadow + vget s.store.heldCnt src 0)

/-- The held updates are applied when a commit ends (R369). -/
def applyHeld (s : State) : State :=
  let any := !s.store.held.isEmpty || s.store.heldCnt.toList.any (· != 0)
  let m := s.store.held.foldl (fun m (h : Held) => cellPuts shadowDefault h.addr h.bytes m) s.store.shadow
  let m := (List.finRange 48).foldl (fun m i => if s.store.heldCnt[i] = 0 then m else shadowCount i.val s.store.heldCnt[i] m) m
  { s with store := { s.store with shadow := m, dirty := s.store.dirty || any, held := [], heldCnt := Vector.replicate 48 0 } }

/-- The geometry table in force goes into the shadow (R368). -/
def shadowGeom (s : State) : State := shadowPut atGeom (geomBytes s.geom) s

/-- The thermal parameters go into the shadow (R368). -/
def shadowTherm (s : State) : State := shadowPut atTherm (thermBytes s.therm) s

/-- The severities go into the shadow (R368). -/
def shadowSev (s : State) : State := shadowPut atSev (sevBytes s.flt) s

/-! ### Requests for a commit (R370, R372) -/

/-- A request commits when the table of R372 says so. -/
def commitNeeded (c : CommitCause) (dirty : Bool) : Bool :=
  match c with
  | .host force => dirty || force
  | .clear => true
  | .safe => dirty
  | .standby => true
  | .pfail => dirty
  | .orphan need => dirty || need

/-- The bank with the latest valid record as the banks stand: 0 none, 1 A, 2 B (R366). -/
def chooseBank (s : State) : Nat :=
  let a := recordValid s.store.bankA
  let b := recordValid s.store.bankB
  if a && b then (if cell32 bankDefault 4 s.store.bankA < cell32 bankDefault 4 s.store.bankB then 2 else 1)
  else if a then 1 else if b then 2 else 0

/-- The SEQ of a bank that holds a valid record. -/
def seqOf (k : Nat) (s : State) : Nat := if k = 0 then 0 else cell32 bankDefault 4 (bank s (k == 2))

/-- The bank with the latest valid record and its SEQ: as B2 and the commits have left them, and before B2 as the banks stand
(R366, R370). -/
def latestBank (s : State) : Nat := if s.sys.boot < 3 then chooseBank s else s.store.latest
def latestSeq (s : State) : Nat := if s.sys.boot < 3 then seqOf (chooseBank s) s else s.store.seq

/-- The target of a commit: the bank that does not hold the latest valid record, or A (R370). -/
def commitTarget (s : State) : Bool := latestBank s == 1

/-- The sequence number of the next commit (R370). -/
def commitSeq (s : State) : Nat := if latestBank s = 0 then 1 else (latestSeq s + 1) % 4294967296

/-- A commit starts: the shadow locks and the target is erased (R369, R370). -/
def startCommit (c : CommitCause) (s : State) : State :=
  let t := commitTarget s
  let q := commitSeq s
  let s := setBank t [] s
  { s with store := { s.store with run := some ⟨t, c, false, q, 0⟩, lastTarget := t } }

/-- A reset cuts a running commit short (R370). -/
def cutCommit (s : State) : State :=
  match s.store.run with
  | some c => setBank c.target (openBank s.free) { s with free := s.free + 1 }
  | none => s

/-- A request arrives: it starts, waits for the commit in progress, or is dropped (R372). -/
def requestCommit (c : CommitCause) (s : State) : State :=
  if s.store.run.isSome then
    if c = .pfail then s else { s with store := { s.store with queue := s.store.queue ++ [c] } }
  else if commitNeeded c s.store.dirty then startCommit c s else s

end Sys2Proof.Machine
end

