-- ==== Sys2Proof/Machine/Faults.lean ====
section
/-! DEFINITION. The fault collector, containment, the safe state and the firmware watchdog (R245 to R271). -/

namespace Sys2Proof.Machine

/-- The collector replaced by a function of itself. -/
def updFlt (f : Flt → Flt) (s : State) : State := { s with flt := f s.flt }

/-! ### Scope, severity and class (R245, R247, R248) -/

/-- Scopes of the sources (R245). -/
inductive Scope where
  | device
  | channel
  | group
deriving DecidableEq, Repr

/-- The scope of a source. -/
def scopeOf (src : Nat) : Scope :=
  if (11 ≤ src && decide (src ≤ 19)) || (24 ≤ src && decide (src ≤ 27)) then .channel
  else if src = 20 || src = 21 then .group else .device

/-- The severity of a source in force. -/
def sevOf (s : State) (src : Nat) : Nat := vget s.flt.sev src 0

/-- The class of an event (R248). -/
def classAt (sev : Nat) (carried : Bool) : Nat :=
  if sev = 5 then 2 else if sev = 3 || sev = 4 || carried then 1 else 0

/-! ### The safe state (R259) -/

/-- The emitter stops at safe-state entry (R508). -/
def emitHalt (s : State) : State :=
  { s with emit := { s.emit with run := false, edges := [], crank := false, crankWait := none, camWait := Vector.replicate 3 none, cam := Vector.replicate 3 false } }

/-- Safe-state entry (R259): outputs, channels, slots, windows, emitter, the message on the ring and the commit; the
pin-drive test ends (R401). -/
def enterSafe (src : Nat) (bySelf : Bool) (det : Word) (batch : Nat) (s : State) : State :=
  if s.flt.safe then s else
  let s := { s with sys := { s.sys with oe := false }, dbg := { s.dbg with ptest := false } }
  let s := updFlt (fun f => { f with safe := true, safeSrc := w16 (src + b2n bySelf 6 + 32768) }) s
  let s := safeCancel batch (containAll (emitHalt s))
  let s := queueFault src 2 0 5 true det (cpsSafe s)
  requestCommit .safe s

/-! ### Applying an event (R246 to R256) -/

/-- Channels that an event contains (R247, R249). -/
def containSet (s : State) (e : FEvent) (sev : Nat) : List (Fin 12) :=
  match scopeOf e.src with
  | .device => []
  | .channel =>
    if sev = 3 then [chOf e.ch]
    else if sev = 4 then (List.finRange 12).filter fun n => s.trip.group[n] == s.trip.group[chOf e.ch]
    else []
  | .group =>
    if sev = 4 then (List.finRange 12).filter fun n => e.ch.testBit s.trip.group[n] else []

/-- The history records overwritten in this tick (R255). -/
def Flt.goneNow (f : Flt) (tb : Tb) : List Quad := if f.goneAt == tb then f.gone else []

/-- The history records that have entered in this tick and are still in it. -/
def Flt.histOf (f : Flt) (tb : Tb) : Nat := if f.histAt == tb then f.histNew else 0

/-- The history takes a record; a full one overwrites its oldest record, which a pop in the same tick can still take
(R255). -/
def histPush (tb : Tb) (r : Quad) (f : Flt) : Flt :=
  let f := { f with histNew := f.histOf tb + 1, histAt := tb }
  if f.hist.length < 16 then { f with hist := f.hist ++ [r] }
  else
    let g := f.goneNow tb
    { f with hist := f.hist.drop 1 ++ [r], hlost := true, gone := g ++ f.hist.take 1, goneAt := tb, hlostWas := if g.isEmpty then f.hlost else f.hlostWas }

/-- A history record (R254, R255). -/
def pushHist (w0 : Word) (s : State) : Word × State :=
  let (q, s) := takeSeq rankHist s
  (q, updFlt (histPush s.clk.tb ⟨w0, q, tbLo s.clk.tb, tbHi s.clk.tb⟩) s)

/-- An event opens a record, or merges into the open one (R251, R252). -/
def takeIn (e : FEvent) (sev cls : Nat) (q : Word) (tb : Tb) (r : Option OpenRec) : OpenRec :=
  match r with
  | none => ⟨e.src, e.ch, sev, cls, e.det, q, tbLo tb, tbHi tb, 0, 1#48 <<< e.src⟩
  | some r => { r with merges := satInc r.merges 255, map := r.map ||| (1#48 <<< e.src), cls := max r.cls cls }

/-- The record that the events of this tick would have opened by themselves (R253). -/
def Flt.freshNow (f : Flt) (tb : Tb) : Option OpenRec := if f.freshAt == tb then f.fresh else none

/-- The open record opens, or takes the event in (R251, R252). -/
def openOrMerge (e : FEvent) (sev cls : Nat) (q : Word) (s : State) : State :=
  let tb := s.clk.tb
  let first := s.flt.openRec.isNone
  updFlt (fun f => { f with openRec := some (takeIn e sev cls q tb f.openRec), fresh := some (takeIn e sev cls q tb (f.freshNow tb)), freshAt := tb, capH := if first then none else f.capH, capD := if first then none else f.capD }) s

/-- An event of severity 1 or higher is recorded and announced (R247, R251, R254, R256). -/
def recordEvent (e : FEvent) (sev : Nat) (s : State) : State :=
  let cls := classAt sev e.carried
  let merged := s.flt.openRec.isSome
  let (q, s) := pushHist (w16 (e.src + 64 * cls + 256 * e.ch + 4096 * sev + b2n merged 15)) s
  let s := openOrMerge e sev cls q s
  let s := if vget s.flt.ring e.src false then queueFault e.src cls e.ch sev false e.det s else s
  setIntIf (decide (2 ≤ sev)) 2 s

/-- The counts of a source (R247, R268, R368). -/
def countSrc (src : Nat) (s : State) : State :=
  countEvent src (updFlt (fun f => { f with cnt := vput f.cnt src (satInc (vget f.cnt src 0) 65535) }) s)

/-- The collector applies one event (R247 to R256). -/
def applyEvent (e : FEvent) (s : State) : State :=
  let sev := sevOf s e.src
  let s := countSrc e.src s
  if sev = 0 then s else
  let s := recordEvent e sev s
  let s := if s.flt.safe then s else foldSt (containSet s e sev) containCh s
  let s := if sev = 5 then enterSafe e.src false e.det e.batch s else s
  windowsCheck s

/-- FAULT_EVENT_APPLY (R246): the first event that waits. -/
def opFaultApply (s : State) : State :=
  match s.flt.queue with
  | [] => s
  | e :: rest => flushBulk (applyEvent e (updFlt (fun f => { f with queue := rest }) s))

/-- The collector applies events while FCLK runs (R246, R263). -/
def collectorOn (s : State) : Bool := liveN s

/-- FAULT_EVENT_APPLY (R246). -/
def execFaultEventApply (s : State) : Host.Outcome State Fault Refusal :=
  .next (if collectorOn s then opFaultApply s else s)

/-- COLLECTOR_SELF_CHECK (R257): the safe state without the severity logic, SELF, and the event of source 47. -/
def execCollectorSelfCheck (s : State) : Host.Outcome State Fault Refusal :=
  .next (if liveN s then raise 47 0 0 (updFlt (fun f => { f with self := true }) (enterSafe 47 true 0 s.flt.batch s)) else s)

/-- The watchdog runs (R262). -/
def watchdogOn (s : State) : Bool :=
  isNative s && !s.sys.inReset && s.sys.boot == 5 && !s.dbg.halted && (s.sys.pwr == .run || s.sys.pwr == .entering)

/-- WATCHDOG_EXPIRY (R262): source 43, and the firmware core is reset. -/
def execWatchdogExpiry (s : State) : Host.Outcome State Fault Refusal :=
  .next (if watchdogOn s then cutCore (raise 43 0 0 s) else s)

/-! ### FLTACK (R250, R253, R258, R266) -/

/-- The history record of the event that opens the record after all is not marked as merged (R254). -/
def unmerge (r : OpenRec) (q : Quad) : Quad := if q.w1 == r.seq then { q with w0 := q.w0 &&& 0x7FFF } else q

/-- ACK closes the open record; the events of the same tick come after it and open a new one (R253, R269). -/
def ackOpen (s : State) : State :=
  match s.flt.freshNow s.clk.tb with
  | none => updFlt (fun f => { f with openRec := none, capH := none, capD := none }) s
  | some r => updFlt (fun f => { f with openRec := some r, hist := f.hist.map (unmerge r), capH := none, capD := none }) s

/-- CLIM or JLIM of a channel holds its containment (R250). -/
def limitHolds (s : State) (n : Fin 12) : Bool :=
  if h : n.val < 8 then s.therm.ch[n.val].clim || s.therm.ch[n.val].jlim else false

/-- CLASS becomes NONE and the candidate count 0 (R250). -/
def forgetClass (n : Fin 12) (s : State) : State :=
  if h : n.val < 8 then updDiag ⟨n.val, h⟩ (fun d => { d with cls := 0, cand := 0, cnt := 0 }) s else s

/-- The containment of one channel is lifted (R250). -/
def liftOne (n : Fin 12) (s : State) : State :=
  leaveContained n (forgetClass n (updChan n (fun c => { c with cont := false }) s))

/-- A containment of this tick comes after the lift: it stands, and of an earlier one only CLASS is set to NONE (R250). -/
def liftBefore (n : Fin 12) (s : State) : State :=
  if !s.chan[n].contWas then s else if paired s n.val then forgetClass n (forgetClass (mate n) s) else forgetClass n s

/-- Bit n of LIFT (R250). -/
def liftCh (n : Fin 12) (s : State) : State :=
  if s.flt.safe || limitHolds s n || isPartner s n || !s.chan[n].cont then s
  else if s.chan[n].contAt == some s.clk.tb then liftBefore n s
  else if paired s n.val then liftOne n (liftOne (mate n) s)
  else liftOne n s

/-- LIFT (R250). -/
def lift (mask : BitVec 12) (s : State) : State :=
  foldSt ((List.finRange 12).filter fun n => mask.getLsbD n.val) liftCh s

/-- HCLR (R266): the history is emptied but for the records of this tick, which come after it, so that none of them has
overwritten another. -/
def clearHist (s : State) : State :=
  updFlt (fun f =>
    let k := f.histOf s.clk.tb
    { f with hist := f.hist.drop (f.hist.length - k), held := {}, hwptr := 0, gone := [], hlost := if (f.goneNow s.clk.tb).isEmpty then f.hlost else f.hlostWas }) s

/-- SELFCLR (R258). -/
def clearSelf (s : State) : State := if s.flt.safe then s else updFlt (fun f => { f with self := false }) s

/-- A write of FLTACK (R266); in the safe state only ACK and HCLR act (R260). -/
def writeFltack (w : Word) (s : State) : State :=
  let s := if bit w 15 then ackOpen s else s
  let s := lift (w.setWidth 12) s
  let s := if bit w 12 then clearHist s else s
  if bit w 13 then clearSelf s else s

/-- FLTACK takes a write (R342, R260). -/
def fltackDo (f : State → State) (s : State) : State := if regOpen s 0x4C then f s else s

/-- FAULT_ACK: a FLTACK write of ACK (R253). -/
def execFaultAck (s : State) : Host.Outcome State Fault Refusal := .next (hostRow .faultAck (fltackDo (writeFltack 0x8000)) s)

/-- CONTAINMENT_LIFT: a FLTACK write of LIFT bits (R250). -/
def execContainmentLift (mask : BitVec 12) (s : State) : Host.Outcome State Fault Refusal :=
  .next (hostRow (.containmentLift mask) (fltackDo (writeFltack (mask.setWidth 16))) s)

/-- HISTORY_CLEAR: a FLTACK write of HCLR (R266). -/
def execHistoryClear (s : State) : Host.Outcome State Fault Refusal := .next (hostRow .historyClear (fltackDo (writeFltack 0x1000)) s)

/-- SELF_CLEAR: a FLTACK write of SELFCLR (R258). -/
def execSelfClear (s : State) : Host.Outcome State Fault Refusal := .next (hostRow .selfClear (fltackDo (writeFltack 0x2000)) s)

/-! ### FLTHIST and FLTSTAT (R265, R267) -/

/-- A read of FLTHIST (R267). A pop in the tick of an overwrite comes before it: it takes the record that was overwritten
first, and nothing is overwritten for that one (R255). -/
def readFlthist (s : State) : Word × State :=
  let f := s.flt
  if f.hwptr = 0 then
    match f.goneNow s.clk.tb, f.hist with
    | g :: gs, _ => (g.w0, updFlt (fun f => { f with gone := gs, hlost := f.hlostWas || !gs.isEmpty, held := g, hwptr := 1 }) s)
    | [], [] => (0, s)
    | [], q :: rest => (q.w0, updFlt (fun f => { f with hist := rest, held := q, hwptr := 1 }) s)
  else
    (if f.hwptr = 1 then f.held.w1 else if f.hwptr = 2 then f.held.w2 else f.held.w3,
      updFlt (fun f => { f with hwptr := (f.hwptr + 1) % 4 }) s)

/-- HISTORY_POP (R267). -/
def execHistoryPop (s : State) : Host.Outcome State Fault Refusal := .next (hostRead .historyPop readFlthist s)

/-- A channel is contained by the collector (R265). -/
def anyContained (s : State) : Bool := s.chan.toList.any (·.cont)

/-- HLOST as a read of FLTSTAT returns it: an overwrite of the same tick comes after it (R265). -/
def hlostNow (s : State) : Bool := if (s.flt.goneNow s.clk.tb).isEmpty then s.flt.hlost else s.flt.hlostWas

/-- FLTSTAT as it stands (R265). -/
def fltstat (s : State) : Word :=
  let f := s.flt
  let cls := (f.openRec.map (·.cls)).getD 0
  w16 (b2n f.openRec.isSome 0 + 2 * cls + b2n f.safe 3 + b2n f.self 4 + 32 * f.hist.length + 1024 * f.hwptr + b2n (hlostNow s) 12 + b2n (anyContained s) 13)

/-- A read of FLTSTAT clears HLOST, which an overwrite of the same tick then sets (R265). -/
def readFltstat (s : State) : Word × State :=
  (fltstat s, updFlt (fun f => { f with hlost := !(f.goneNow s.clk.tb).isEmpty, hlostWas := false }) s)

/-- FLTSTAT_READ (R265). -/
def execFltstatRead (s : State) : Host.Outcome State Fault Refusal := .next (hostRead .fltstatRead readFltstat s)

/-! ### Window FSRC (R268, R269) -/

/-- Words 129 to 136 of a record. -/
def openWords (r : OpenRec) : Vector Word 8 :=
  #v[w16 (r.merges + 256 * r.cls), r.seq, r.tbl, r.tbh, r.det, r.map.setWidth 16, (r.map >>> 16).setWidth 16, (r.map >>> 32).setWidth 16]

/-- A read of OSUM captures words 129 to 136 on its path (R269, R421). -/
def readOsum (p : Path) (s : State) : Word × State :=
  match s.flt.openRec with
  | none => (0, s)
  | some r =>
    (w16 (r.src + 256 * r.ch + 4096 * r.sev),
     match p with
     | .host => updFlt (fun f => { f with capH := some (openWords r) }) s
     | .debug => updFlt (fun f => { f with capD := some (openWords r) }) s)

/-- OPEN_RECORD_CAPTURE (R269). -/
def execOpenRecordCapture (s : State) : Host.Outcome State Fault Refusal :=
  .next (windowRead .openRecordCapture 5 128 (readOsum .host) s)

/-- A captured word of the open record. -/
def capWord (v : Option (Vector Word 8)) (i : Nat) : Word :=
  match v with
  | some v => vget v i 0
  | none => 0

/-- A read of window FSRC (R268, R269). -/
def readFsrc (p : Path) (off : Nat) (s : State) : Word × State :=
  let f := s.flt
  if off < 48 then (w16 (vget f.sev off 0 + b2n (vget f.ring off false) 3), s)
  else if 64 ≤ off && decide (off < 112) then (w16 (vget f.cnt (off - 64) 0), s)
  else if off = 128 then readOsum p s
  else if 129 ≤ off && decide (off ≤ 136) then
    (if f.openRec.isSome then capWord (match p with | .host => f.capH | .debug => f.capD) (off - 129) else 0, s)
  else if off = 144 then (f.safeSrc, s)
  else (0, s)

/-! ### FSRC_SET and FLT_READ (R270, R271, R450) -/

/-- The refusals of FSRC_SET that are not range checks (R270). -/
def fsrcChecks (src sev : Nat) (ring : Bool) : List Bool :=
  [!((sev == 3 || sev == 4) && scopeOf src == .device), !(sev == 3 && scopeOf src == .group),
   !(sev == 0 && [12, 20, 21, 28, 29].contains src), !(ring && src == 38)]

/-- FSRC_SET (R270, R450). -/
def cmdFsrcSet (a : Args) (s : State) : CmdRes :=
  let src := fld a.a0 0 6
  let sev := fld a.a0 8 3
  let ring := bit a.a0 11
  checked (within a.a0 0x0F3F && decide (src ≤ 46) && decide (sev ≤ 5)) (fsrcChecks src sev ring) s
    { st := shadowSev (updFlt (fun f => { f with sev := vput f.sev src sev, ring := vput f.ring src ring }) s) }

/-- FSRC_SET (R270). -/
def execFsrcSet (a : Args) (s : State) : Host.Outcome State Fault Refusal :=
  .next (mboxRow 0x20 cmdFsrcSet a s)

/-- FLT_READ by its form (R271, R450). -/
def cmdFltRead (a : Args) (s : State) : CmdRes :=
  let src := fld a.a0 0 6
  match fld a.a0 14 2 with
  | 0 =>
    checked (within a.a0 0xC03F && decide (src ≤ 47)) [] s { st := s, q0 := vget s.flt.cnt src 0, q1 := lifetime s src }
  | 1 =>
    checked (within a.a0 0xC03F && decide (src ≤ 47)) [] s
      { st := updFlt (fun f => { f with cnt := vput f.cnt src 0 }) s, q0 := vget s.flt.cnt src 0, q1 := lifetime s src }
  | 2 =>
    let k := fld a.a0 0 4
    let q := (s.flt.hist[k]?).getD {}
    checked (within a.a0 0xC01F) [decide (k < s.flt.hist.length)] s
      { st := s, q0 := (if bit a.a0 4 then q.w2 else q.w0).toNat, q1 := (if bit a.a0 4 then q.w3 else q.w1).toNat }
  | _ => badArg s

/-- The words of a form: A0[15:14] is the form's number. -/
def fltForm (k : Nat) (a : Args) : Args := { a with a0 := (a.a0 &&& 0x3FFF) ||| w16 (k * 16384) }

/-- FLT_READ COUNT (R271). -/
def execFltReadCount (a : Args) (s : State) : Host.Outcome State Fault Refusal :=
  .next (mboxRow 0x21 cmdFltRead (fltForm 0 a) s)

/-- FLT_READ CLEAR (R271). -/
def execFltReadClear (a : Args) (s : State) : Host.Outcome State Fault Refusal :=
  .next (mboxRow 0x21 cmdFltRead (fltForm 1 a) s)

/-- FLT_READ HIST (R271). -/
def execFltReadHist (a : Args) (s : State) : Host.Outcome State Fault Refusal :=
  .next (mboxRow 0x21 cmdFltRead (fltForm 2 a) s)

end Sys2Proof.Machine
end

