-- ==== Sys2Proof/Machine/MirrorOps.lean ====
section
/-! DEFINITION. What a change of the effective sync state does, the angle source of a follower (R53 to R56, R289,
R294), and the frames that a ring master queues (R286). -/

namespace Sys2Proof.Machine

/-! ### Effects of the effective sync state -/

/-- A state without firing and without a cycle angle: NOSYNC, GAP or REVERSE. -/
def Sync.lost (x : Sync) : Bool := x == .nosync || x == .gap || x == .reverse

/-- Slots, cam-phase averages and windows follow a change of the effective state (R54, R55, R124, R129). -/
def onEffChange (old new : Sync) (s : State) : State :=
  if old == new then s else
  let s := if (old == .sync || old == .limp) && new.lost then deviceCancel 1 true s
    else if old == .limp && new == .confirm then applyPermission (deviceCancel 1 false s)
    else applyPermission s
  windowsCheck (if new.lost then resetAverages s else s)

/-- The SYNC record and interrupt condition of a change of state (R53, R108). -/
def syncRec (cause : Nat) (old new : Sync) (s : State) : State :=
  if isNative s then setInt 1 (pushRec 2 cause (new.code + 8 * old.code) s.sched.cyc (tbLo s.clk.tb) s) else s

/-! ### The angle source of a follower -/

/-- The mirror replaced by a function of itself. -/
def updMir (f : Mirror → Mirror) (s : State) : State := { s with link := { s.link with mir := f s.link.mir } }

/-- The effective state is what the follower has last reported. -/
def noteEff (s : State) : State := updMir (fun m => { m with eff := effSync s }) s

/-- A follower reports a change of its effective state, with cause 13 or 14 (R289). -/
def reportEff (cause : Nat) (s : State) : State :=
  let old := s.link.mir.eff
  let new := effSync s
  if old == new then s else noteEff (onEffChange old new (syncRec cause old new s))

/-- The ring stops supplying the angle: the local decoder in SYNC serves as backup, or nothing does (R294). -/
def ringLost (cause : Nat) (s : State) : State :=
  let back := s.link.backup && s.wheel.st == .sync
  retakeRefs (reportEff cause (updMir (fun m => { m with ring := false, bkup := back, lost := !back, whole := 0 }) s))

/-- The ring supplies the angle (R289, R294). -/
def ringTaken (cause : Nat) (s : State) : State :=
  retakeRefs (reportEff cause (updMir (fun m => { m with ring := true, bkup := false, lost := false, whole := 0 }) s))

/-- Details of source 39 (R305): a break, missing records, a position out of sequence, and the detail for a reason
that R305 does not list, which is a free value (log 9). -/
def lossBreak : Word := 0
def lossMissing : Word := 1
def lossSequence : Word := 2
def lossOther : Word := Config.otherLoss.setWidth 16

/-- The mirror becomes invalid: `why` is the detail of source 39 (R293, R294, R305). -/
def mirrorDown (why : Word) (s : State) : State :=
  let m := s.link.mir
  let s := updMir (fun m => { m with valid := false, applied := 0, missing := 0, whole := 0 }) s
  if m.ring then ringLost 14 (raise 39 0 why s) else s

/-- The master's state lets the ring supply the angle (R289). -/
def masterTracks (m : Mirror) : Bool := m.rstate == .gap || m.rstate == .confirm || m.rstate == .sync

/-- A follower that forwards: it has lock and has joined or not (R281). -/
def follows (s : State) : Bool := s.link.st == .forward || s.link.st == .joining || s.link.st == .member

/-- The mirror becomes valid once its conditions hold (R288, R291). The ring then supplies the angle at once, unless it
has been lost before, in which case R294 says when it returns (log 17). With FCLK not from RCK source 37 says so, once (R305). -/
def mirrorCheck (s : State) : State :=
  let m := s.link.mir
  if m.valid then s
  else if !(m.cfgOk && m.stateSeen && decide (2 ≤ m.applied) && follows s) then updMir (fun m => { m with conflict := false }) s
  else if s.clk.sel then
    let s := updMir (fun m => { m with valid := true, whole := 0, conflict := false }) s
    if masterTracks m && !m.bkup && !m.lost then ringTaken 14 s else s
  else if m.conflict then s
  else raise 37 0 4 (updMir (fun m => { m with conflict := true }) s)

/-- The payload of CONFIG for a wheel (R280). -/
def configPayload (c : WheelCfg) : BitVec 32 :=
  BitVec.ofNat 32 (c.n - 1 + (c.m - 1) * 256 + b2n c.two 9 + c.offset * 1024)

/-- The last CONFIG received is compared with the follower's own wheel (R288). -/
def configOk (s : State) : Bool := s.wheel.cfgd && s.link.mir.cfg == some (configPayload s.wheel.cfg)

/-- The mirror follows the comparison, which a CONFIG frame or a WHEEL_SET may change (R288). -/
def checkConfig (s : State) : State :=
  let ok := configOk s
  let s := updMir (fun m => { m with cfgOk := ok }) s
  if ok then mirrorCheck s else if s.link.mir.valid then mirrorDown lossOther s else s

/-! ### Frames of the master (R286) -/

/-- A 16-bit deviation as the number of a payload field. -/
def act16 (x : Int) : Nat := (i16 x).toNat

/-- The record of an update: a TOOTH frame and a GEOM frame. -/
def sendRecord (syn first : Bool) (stamp : Tb) (p h : Nat) (s : State) : State :=
  if s.link.st == .master then
    let t := p * 4096 + h * 2 ^ 20 + b2n syn 21 + b2n first 22 + s.wheel.st.code * 2 ^ 23 + b2n s.pred.o2 26
    let g := act16 (gAct s p) + 65536 * act16 (gAct s (nextPos s.wheel.cfg p))
    queueOut rankTooth (mkFrame 2 s.link.node 0 true (BitVec.ofNat 32 g)) none
      (queueOut rankTooth (mkFrame 1 s.link.node 0 true (BitVec.ofNat 32 t)) (some stamp) s)
  else s

/-- A STATE1 and STATE2 pair. -/
def sendState (s : State) : State :=
  if s.link.st == .master then
    let f : BitVec 40 := BitVec.ofInt 40 s.pred.sF
    let b := (f >>> 32).toNat + s.sched.cyc.toNat * 256 + s.wheel.st.code * 2 ^ 24 + b2n (halfKnown s) 27
    queueOut rankState (mkFrame 4 s.link.node 0 true (BitVec.ofNat 32 b)) none
      (queueOut rankState (mkFrame 3 s.link.node 0 true (f.setWidth 32)) none s)
  else s

/-- A CONFIG frame. -/
def sendConfig (s : State) : State :=
  if s.link.st == .master then
    queueOut rankConfig (mkFrame 5 s.link.node 0 true (configPayload s.wheel.cfg)) none s
  else s

end Sys2Proof.Machine
end

