-- ==== Sys2Proof/Machine/ClkOps.lean ====
section
/-! DEFINITION. The judgements of the clock sources, the preferred source and the supervisor's moves
(R307 to R318), which clock rows, the link and power transitions share. -/

namespace Sys2Proof.Machine

/-- The clocks replaced by a function of themselves. -/
def updClk (f : Clk → Clk) (s : State) : State := { s with clk := f s.clk }

/-- Mode, power and boot replaced by a function of themselves. -/
def updSys (f : Sys → Sys) (s : State) : State := { s with sys := f s.sys }

/-- SYSSTAT.TBCAL (R312). -/
def tbcal (s : State) : Bool := s.clk.sel || s.clk.fll.lock

/-- A clock row: a detection while FCLK is stopped is an instant of its own (R263), and the CLK condition follows
ESC, TBGAP and TBCAL (R423). -/
def clkRow (f : State → State) (s : State) : State :=
  let s := if s.clk.fclkOn then s else newInstant s
  let t := f s
  let rise := (t.clk.esc && !s.clk.esc) || (t.clk.tbgap && !s.clk.tbgap) || tbcal t != tbcal s
  setIntIf (isNative s && rise) 12 t

/-- The supervisor of the native mode works (R318, R324). -/
def supOn (s : State) : Bool := isNative s && !s.sys.inReset

/-- The link states in which RCK exists (R313). -/
def hasRck (s : State) : Bool := s.link.st != .off && s.link.st != .master

/-- RCK is eligible, and so preferred (R314). -/
def prefRck (s : State) : Bool := s.clk.rckok && s.clk.srcRck && hasRck s

/-- The source to which an escape forces the mux, true for RCK; none when no source will do (R319). -/
def escTarget (s : State) : Option Bool :=
  if prefRck s then some true else if s.clk.fcook then some false else none

/-- The supervisor enters HELD: FCLK stands still and the outputs are down; a lost FCO starts anew (R318). -/
def enterHeld (s : State) : State :=
  let s := { s with sys := { s.sys with odStop := true } }
  updClk (fun c => { c with sup := .held, fclkOn := false, fcoOn := c.fcoOn || !c.sel, fcook := c.fcook && c.sel }) s

/-- The source in use: the forced one during an escape (R319). -/
def inUse (s : State) : Bool := if s.clk.sup == .escape then s.clk.escRck else s.clk.sel

/-- The source in use is lost: source 30, whose bit 1 tells that a clean switch follows, with FCLK still running; from
RUN the supervisor goes to SWITCH when another source is judged, else to HELD (R318, R322). -/
def sourceLost (rck : Bool) (s : State) : State :=
  if !supOn s || inUse s != rck || s.sys.pwr == .stop || s.sys.pwr == .standby then s
  else
    let other := if rck then s.clk.fcook else s.clk.rckok
    let clean := other && s.clk.fclkOn && (s.clk.sup == .run || s.clk.sup == .switching)
    let s := raise 30 0 (w16 (b2n rck 0 + b2n clean 1)) s
    if s.clk.sup != .run then s
    else if other then updClk (fun c => { c with sup := .switching }) s else enterHeld s

/-- FCO loses its judgement (R308); when it feeds FCLK, FCLK has stopped with it. -/
def fcoLost (s : State) : State :=
  let s := updClk (fun c => { c with fcook := false, fclkOn := c.fclkOn && c.sel }) s
  sourceLost false s

/-- RCK loses its judgement: at a break, or because the role ends (R308, R313). -/
def rckLost (s : State) : State :=
  let had := s.clk.rckok
  let s := updClk (fun c => { c with rckok := false, fcoOn := true }) s
  if had then sourceLost true s else s

/-- AOCOK falls: the count restarts, FLLLOCK falls with it, and during an entry it is a wake (R308, R311, R351). -/
def aocFalls (s : State) : State :=
  let had := s.clk.fll.lock
  let latch := s.sys.pwr == .entering && s.clk.aocok
  let s := if latch then latchWake 1 s else s
  let s := updClk (fun c => { c with aocok := false, aocCount := 0, fll := { c.fll with lock := false, good := 0, bad := 0, hold := 0, slew := false } }) s
  if had then raise 33 0 (i16 (satS 16 s.clk.fll.err)) s else s

/-- The fields of a CLKCTL write (R335). -/
def setCtl (w : Word) (c : Clk) : Clk :=
  { c with srcRck := if fld w 0 2 < 2 then bit w 0 else c.srcRck, fcostby := bit w 2, drw := fld w 4 4, ctlNext := none }

/-- The fields of CLKCTL with a write that waits for the end of a switch (R335). -/
def ctlOf (c : Clk) : Clk := match c.ctlNext with | some w => setCtl w c | none => c

/-- FCO is disabled while FCLK is taken from RCK and FCOSTBY is 1, RCK being eligible and in lock; else it is enabled. The
FLL corrects nothing while FCO is disabled (R310, R336). -/
def fcoStandby (lock : Bool) (c : Clk) : Clk :=
  let off := c.sel && c.fcostby && c.srcRck && c.rckok && lock
  { c with fcoOn := !off, fcook := c.fcook && !off, fll := { c.fll with slew := c.fll.slew && !off } }

/-- The mux gives FCLK from a source, and a CLKCTL write that waited acts; a follower's mirror lives only on RCK (R291,
R310, R335). -/
def takeSource (rck : Bool) (s : State) : State :=
  let was := s.clk.sel
  let lock := s.link.lock
  let s := updClk (fun c => fcoStandby lock { ctlOf c with sel := rck, fclkOn := true, sup := .run }) s
  let s := { s with sys := { s.sys with odStop := false } }
  if was && !rck && s.link.mir.valid then mirrorDown lossOther s else if rck then mirrorCheck s else s

/-- TB ticks in a number of AOC cycles (R320). -/
def aocTicks (d : Nat) : Nat := (d * 390625 + 64) / 128

/-- An anchor as it was captured: the capture has an error of at most one TB tick; 0, 1 and 2 stand for -1, 0 and 1 (R320). -/
def anchorAt (err : Fin 3) (t : Tb) : Tb := t + BitVec.ofNat 48 err.val - 1

/-- The TB value at a reload: never back from the held value (R320, R352). -/
def reloadTb (held anchor : Tb) (d c : Nat) : Tb :=
  let a := tbAdd held 1
  let b := tbAdd anchor (aocTicks d + c / 2)
  if tbGe b a then b else a

end Sys2Proof.Machine
end

