-- ==== Sys2Proof/Machine/WheelOps.lean ====
section
/-! DEFINITION. The wheel decoder (R28 to R58): the sync state machine, the gap search, the judgement of crank edges,
synthetic teeth, direction, and the sync cam. -/

namespace Sys2Proof.Machine

/-- The wheel decoder replaced by a function of itself. -/
def updWheel (f : Wheel → Wheel) (s : State) : State := { s with wheel := f s.wheel }

/-! ### Which inputs reach the decoder -/

/-- The decoder takes its inputs (R59, R467, R470). -/
def wheelLive (s : State) : Bool :=
  fclkRuns s && (if isNative s then s.wheel.cfgd else s.leg.ready && s.leg.decen)

/-- The input of the decoder is the pin: the emitter does not run (R507). -/
def pinIn (s : State) : Bool := wheelLive s && !s.emit.run

/-- A transition of the emitted crank signal, in loopback: one of this tick, or the one that waits in the glitch filter
(R30, R507). -/
def loopIn (s : State) (stamp : Tb) (tooth : Bool) : Bool :=
  let lvl := tooth != s.wheel.cfg.edge
  s.emit.run && s.emit.loop &&
    (s.emit.crankWait == some (lvl, stamp) || s.emit.edges.any fun e => e.now && e.tick == stamp && (e.start != emitInv s) == lvl)

/-- The decoder knows the crank position: GAP, CONFIRM or SYNC. -/
def Sync.tracks (x : Sync) : Bool := x == .gap || x == .confirm || x == .sync

/-- The decoder's own angle at a TB value, in 1/16 tick (R75, R86). -/
def localAng16 (s : State) (t : Tb) : Nat :=
  match s.wheel.st with
  | .nosync => 0
  | .reverse => theta16 s.wheel.cfg s.wheel.half s.wheel.pos (gAct s s.wheel.pos)
  | .gap => if s.wheel.bare then bareAng s (16 * 368640) t else predAng (16 * 368640) s.pred t
  | _ => if s.wheel.bare then bareAng s (cyc16 s.wheel.cfg) t else predAng (cyc16 s.wheel.cfg) s.pred t

/-- The decoder's own angle now, in ticks. -/
def localAngle (s : State) : Nat := localAng16 s s.clk.tb / 16

/-! ### The sync state machine -/

/-- The enabled sync cam (R34). -/
def syncCam (s : State) : Option Cam := s.cams.toList.find? fun c => c.en && c.sync

/-- A window is open at an angle (R35, R42). -/
def inWindow (c : Nat) (cam : Cam) (a : Nat) (e : CamEdge) : Bool := decide (cycDist c a e.angle ≤ cam.tol * 1024)

/-- Windows that are open now count as matched (R42). -/
def openWindows (s : State) : Vector Bool 16 :=
  match syncCam s with
  | none => Vector.replicate 16 false
  | some cam => Vector.ofFn fun i : Fin 16 =>
    match cam.edges[i.val]? with
    | some e => inWindow (cycC s.wheel.cfg) cam (localAngle s) e
    | none => false

/-- The windows and the angles that the sync cam is judged by, at the angle of now (R42). -/
def openNow (s : State) : State :=
  updWheel (fun w => { w with winHit := openWindows s, prevAngle := localAngle s, nowAngle := localAngle s }) s

/-- What an entry into a state does inside the decoder (R46, R52, R63, R74). DESIGN CHOICE (log 16), the spec being silent:
CONFCNT keeps its value outside the states that count, and SYNCNT returns to 0 at the entry into NOSYNC (R65); the gap
search starts at that entry without periods, and its first period runs from the last fine edge, also one discarded as
early (R37); sync-cam edges before the entry are not among the last E + 1 of R51. -/
def enterSync (new : Sync) (s : State) : State :=
  match new with
  | .nosync =>
    learnLost { s with pred := predClear s.pred, wheel := { s.wheel with periods := [], badRun := 0, syncnt := 0, tPrev := s.wheel.tFine, limpHist := [], gapsSeen := 0, halfRes := false, camTo := false, bare := false } }
  | .gap => updWheel (fun w => { w with gapsSeen := 0, halfRes := w.cfg.two, camTo := false }) s
  | .confirm => openNow (updWheel (fun w => { w with kNow := w.pol.k, confcnt := 0 }) s)
  | .sync => updWheel (fun w => { w with dir := false }) s
  | .limp => s
  | .reverse => learnSpoil s

/-- A sync loss in legacy mode cancels armed START and SET slots (R479). -/
def legacyLoss (s : State) : State :=
  let f (x : LSlot) : LSlot := if x.armed && (x.act == 0 || x.act == 2) then { x with armed := false, cancelled := true } else x
  noteLeg 2 { s with leg := { s.leg with lost := true, slots := vmapi (fun _ x => f x) s.leg.slots } }

/-- What the rest of the device sees of a change of the decoder's state (R53 to R55, R286, R479). -/
def afterSync (old new : Sync) (eff : Sync) (s : State) : State :=
  if isNative s then
    let s := noteEff (onEffChange eff (effSync s) s)
    if onRing s then sendState s else s
  else if (old == .sync || old == .limp) && new.lost then legacyLoss s else s

/-- A change of the sync state with its cause (R46, R53). -/
def changeSync (new : Sync) (cause : Nat) (s : State) : State :=
  let old := s.wheel.st
  if old == new then s else
  let eff := effSync s
  let s := enterSync new (updWheel (fun w => { w with st := new }) s)
  let s := syncRec cause old new s
  let s := if new == .nosync then raise 5 0 (w16 (cause + 16 * old.code)) s else s
  afterSync old new eff s

/-- The table of R46 for the inputs that lose position or confidence. -/
def r46 (camloss : Bool) (code : Nat) (st : Sync) : Sync :=
  if code = 4 || code = 5 then (if st.tracks then .nosync else st)
  else if code = 7 then
    (if st == .limp || (camloss && (st == .confirm || st == .sync)) then .nosync else st)
  else if code = 8 then
    (if st == .gap || st == .limp then .nosync else if st == .confirm || st == .sync then .reverse else st)
  else if code = 9 then (if st.tracks || st == .reverse then .nosync else st)
  else if code = 11 || code = 12 then .nosync
  else st

/-- An input of R46 other than a tooth, a gap, a resolved half or a limp match. -/
def input (code : Nat) (s : State) : State := changeSync (r46 s.wheel.pol.camloss code s.wheel.st) code s

/-- Code 3: the first bad tooth (R46). -/
def inputBad (s : State) : State :=
  if s.wheel.st == .confirm then updWheel (fun w => { w with confcnt := 0 }) s else s

/-- Code 1: a tooth accepted, forward (R46). -/
def inputTooth (s : State) : State :=
  match s.wheel.st with
  | .confirm =>
    let s := updWheel (fun w => { w with confcnt := satInc w.confcnt 15 }) s
    if s.wheel.kNow ≤ s.wheel.confcnt then changeSync .sync 1 s else s
  | .reverse =>
    if s.wheel.pol.k ≤ 1 then changeSync .sync 1 (updWheel (fun w => { w with kNow := w.pol.k, confcnt := 1 }) s)
    else updWheel (fun w => { w with confcnt := 1 }) (changeSync .confirm 1 s)
  | _ => s

/-- The half is resolved: th16 becomes the true cycle angle of the last tooth (R72). -/
def resolveHalf (h : Nat) (s : State) : State :=
  let c := s.wheel.cfg
  { s with wheel := { s.wheel with half := h, halfRes := true }, pred := { s.pred with th16 := theta16 c h s.wheel.pos (gAct s s.wheel.pos) } }

/-- Code 2 in GAP: the gap test has passed where due (R46, R48, R49). -/
def inputGap (s : State) : State :=
  if s.wheel.st != .gap then s else
  let s := updWheel (fun w => { w with gapsSeen := w.gapsSeen + 1 }) s
  if s.wheel.halfRes then changeSync .confirm 2 (resolveHalf s.wheel.half s)
  else if isNative s && decide (2 ≤ s.wheel.gapsSeen) && !s.wheel.camTo then
    raise 4 0 0 (updWheel (fun w => { w with camTo := true }) s)
  else s

/-! ### Reverse indications -/

/-- A reverse indication sets DIR and raises source 6 (R52, R53). -/
def reverseInd (s : State) : State := raise 6 0 0 (updWheel (fun w => { w with dir := true }) s)

/-- Flips the half when the position passes the gap, in four-stroke operation. -/
def flipHalf (c : WheelCfg) (h : Nat) : Nat := if c.two then 0 else 1 - h

/-- The speed limit as P N below which a tooth is too fast (R32, R470). -/
def speedLimit (s : State) : Nat := if isNative s then 300000 else 750000

/-- A tooth exceeds the speed limit (R32). -/
def tooFast (s : State) (per g : Nat) : Bool := decide (per * s.wheel.cfg.n < speedLimit s * g)

/-- Source 1 and the input with code 11 (R32, R46). -/
def speedInput (s : State) : State := input 11 (raise 1 0 0 s)

/-- In REVERSE the span of a tooth depends on its code: the speed test that the edge has left open is made with the code
(R31, R32; log 16). -/
def reverseTest (g : Nat) (s : State) : State :=
  if s.wheel.st == .reverse && tooFast s s.wheel.lastP g then speedInput s else s

/-- The position goes back by the span of a reverse-coded tooth; the count of synthetic teeth returns to 0 at a tooth
counted as position 0 (R41, R52). -/
def stepBack (w : Wheel) : Wheel :=
  let p := prevPos w.cfg w.pos
  { w with pos := p, half := if w.pos = 0 then flipHalf w.cfg w.half else w.half, syncnt := if p = 0 then 0 else w.syncnt }

/-- A reverse-coded tooth (R46, R52). -/
def reverseCode (s : State) : State :=
  let s := reverseTest (span s.wheel.cfg s.wheel.pos) s
  let s := reverseInd (updWheel (fun w => { w with periods := [] }) s)
  if s.wheel.st == .reverse then updWheel stepBack s else input 8 s

/-! ### Accepted and synthetic teeth -/

/-- The half that a tooth belongs to: it changes at position 0 once the half is known (R29). -/
def halfAt (s : State) (p : Nat) : Nat :=
  if p = 0 && (s.wheel.st != .gap || s.wheel.halfRes) then flipHalf s.wheel.cfg s.wheel.half else s.wheel.half

/-- The half that the predictor assumes: 0 in GAP (R72). -/
def predHalf (s : State) : Nat := if s.wheel.st == .gap then 0 else s.wheel.half

/-- After a swap the second-order term follows the new source at once (R73). -/
def retakeO2 (s : State) : State := { s with pred := { s.pred with o2 := o2Of s s.pred } }

/-- The geometry halves swap at a position-0 tooth (R81). -/
def swapGeom (s : State) : State :=
  let w := s.wheel
  let there := if w.cfg.two then w.st.tracks else (w.st == .confirm || w.st == .sync) && w.half == 0
  if s.geom.ready && there then
    let g := s.geom
    let e := vmapi (fun _ (x : GeomE) => { x with act := x.shd, shd := x.act }) g.e
    retakeO2 (shadowGeom { s with geom := { g with e := e, ready := false, swaps := (g.swaps + 1) % 256, src := 2 } })
  else s

/-- The learning and the swap at an accepted tooth (R79, R81); legacy mode does no learning (R472). -/
def learnAt (stamp : Tb) (p : Nat) (s : State) : State :=
  if !isNative s then s
  else if p = 0 then learnRev stamp (swapGeom s) else learnTooth stamp p s

/-- The record of a tooth, and the STATE pair after tooth N - M - 1 (R286). -/
def recordTooth (syn : Bool) (stamp : Tb) (p : Nat) (s : State) : State :=
  let s := sendRecord syn false stamp p (predHalf s) s
  if p = lastPos s.wheel.cfg then sendState s else s

/-- The decoder moves to the position of an accepted tooth (R31, R41). -/
def moveTo (stamp : Tb) (per p : Nat) (s : State) : State :=
  let h := halfAt s p
  updWheel (fun w => { w with pos := p, half := h, tPrev := some stamp, lastP := per, lastG := span w.cfg p, syncnt := if p = 0 then 0 else w.syncnt }) s

/-- The predictor starts at a tooth with a measured period (R57, R72; log 16). -/
def startPred (stamp : Tb) (per p : Nat) (s : State) : State :=
  let s := updWheel (fun w => { w with bare := false }) (moveTo stamp per p s)
  let s := beginPred (predStart s.wheel.cfg per (toothIn s stamp p (predHalf s))) s
  sendRecord false true stamp p (predHalf s) { s with spd := some s.pred.uk }

/-- The update at an accepted tooth, after its transitions (R69, R77, R79, R81, R286). The predictor's P counts from the
tooth that it holds, which after REVERSE lies before the decoder's last tooth (R31, R69). A follower of the ring forms no
residual (R287). The first tooth after the entry into GAP, for which R77 forms none, is read as the confirming tooth of
R72, at which this update is not made: the next accepted tooth forms one (DESIGN CHOICE, log 16). -/
def acceptUpdate (stamp : Tb) (per p : Nat) (s : State) : State :=
  let s := moveTo stamp per p s
  let s := if isNative s && !s.link.mir.ring then noteResidual p (predHalf s) (residual (tbSince s.pred.tk stamp) s.pred.ppred) s else s
  let s := setPred (predTooth s.wheel.cfg (o2Of s) (toothIn s stamp p (predHalf s)) s.pred) s
  learnAt stamp p (recordTooth false stamp p { s with spd := some s.pred.uk })

/-- The update at a synthetic tooth (R40, R41, R71). -/
def synthUpdate (p : Nat) (s : State) : State :=
  let per := s.pred.ppred
  let stamp := tbAdd s.pred.tk per
  let s := moveTo stamp per p (updWheel (fun w => { w with syncnt := w.syncnt + 1 }) s)
  let s := setPred (predSynth s.wheel.cfg (toothIn s stamp p (predHalf s)) s.pred) s
  let s := recordTooth true stamp p s
  if p = 0 then learnLost s else s

/-- A bad tooth (R39 to R41): the run, the source, the spoiled revolution, LSTAT.BAD. -/
def badTooth (p : Nat) (s : State) : State :=
  let s := learnSpoil (raise 0 0 (w16 p) (updWheel (fun w => { w with badRun := w.badRun + 1 }) s))
  if isNative s then s else noteLeg 3 { s with leg := { s.leg with bad := true } }

/-! ### Gap search (R37, R72) -/

/-- The last three periods confirm a gap candidate (R37). -/
def gapConfirmed (m : Nat) : List Nat → Bool
  | p2 :: p1 :: p0 :: _ => decide (7 * (m + 1) * p0 ≤ 10 * p1) && decide (7 * (m + 1) * p2 ≤ 10 * p1)
  | _ => false

/-- The half in which position 1 lies near the limp angle, if any (R46). -/
def limpHalf (s : State) (stamp : Tb) : Option Nat :=
  let c := s.wheel.cfg
  let a := localAng16 s stamp / 16
  let ok (h : Nat) : Bool := decide (cycDist (cycC c) (theta c h 1) a ≤ 30720)
  if ok 0 then some 0 else if !c.two && ok 1 then some 1 else none

/-- The gap is found: the tooth is position 1 (R37, R46, R49, R72). A coarse edge is not passed to the predictor (R57).
Choices of the model where the spec is silent (log 16): the tooth that leads straight into CONFIRM is not counted as
code 1 as well; at an entry into CONFIRM from LIMP the predictor starts as R72 gives for the other entries, in the half
in which the limp angle lies near. -/
def gapFound (stamp : Tb) (per : Nat) (fine : Bool) (s : State) : State :=
  let c := s.wheel.cfg
  let near := if s.wheel.st == .limp then limpHalf s stamp else none
  let direct := near.isSome || (s.wheel.st == .nosync && c.two && !s.wheel.pol.gapverify)
  let h := near.getD 0
  let s := updWheel (fun w => { w with pos := 1, half := h, tPrev := some stamp, lastP := per, lastG := 1, badRun := 0, syncnt := 0, periods := [], limpHist := [], bare := !fine }) s
  let s := if fine then beginPred (predStart c per (toothIn s stamp 1 h)) s else s
  let s := learnLost (if fine then { s with spd := some s.pred.uk } else s)
  let s := changeSync (if direct then .confirm else .gap) 2 s
  if fine then sendRecord false true stamp 1 (predHalf s) s else s

/-- In NOSYNC the pace is formed at every fine edge, with span 1 (R87). -/
def searchPace (per : Nat) (s : State) : State :=
  if s.wheel.st == .nosync then
    let u := pace per (16 * spacing s.wheel.cfg)
    { s with spd := some u }
  else s

/-- The period from the last coarse edge to the first fine one is no period of the gap search, as the example of
14_power_states_and_start.md has it (log 16). -/
def searchPeriods (stamp : Tb) (fine : Bool) (w : Wheel) : List Nat :=
  match w.tPrev with
  | some t => if fine && w.tFine.isNone then [] else (tbSince t stamp :: w.periods).take 3
  | none => []

/-- A crank edge in NOSYNC or LIMP (R32, R37). -/
def searchEdge (stamp : Tb) (fine : Bool) (s : State) : State :=
  let s := match s.wheel.tFine, fine with
    | some t, true =>
      let per := tbSince t stamp
      let s := searchPace per s
      if tooFast s per 1 then speedInput s else s
    | _, _ => s
  let w := s.wheel
  let ps := searchPeriods stamp fine w
  let s := updWheel (fun w => { w with tPrev := some stamp, periods := ps, lastP := ps.head?.getD 0, lastG := 1, tFine := if fine then some stamp else w.tFine }) s
  if gapConfirmed w.cfg.m ps then gapFound stamp (ps.head?.getD 0) fine s else s

/-! ### Crank edges in a state that knows the position -/

/-- An edge discarded as early (R39, R41). -/
def earlyEdge (p : Nat) (s : State) : State :=
  let s := badTooth p s
  if 2 ≤ s.wheel.badRun then input 4 s else inputBad s

/-- The level of CAM0 gives a half in legacy mode (R471). -/
def legacyHalf (s : State) : Nat := if s.pins.cam[0].lvl == s.leg.wheel.getLsbD 5 then 0 else 1

/-- The cam inputs of legacy mode at a tooth counted as position 0 (R471). -/
def legacyCam (s : State) : State :=
  if isNative s || s.wheel.cfg.two then s
  else if s.wheel.st == .gap then
    (if 1 ≤ s.wheel.gapsSeen then changeSync .confirm 6 (resolveHalf (flipHalf s.wheel.cfg (legacyHalf s)) s) else s)
  else if (s.wheel.st == .confirm || s.wheel.st == .sync) && legacyHalf s != flipHalf s.wheel.cfg s.wheel.half then input 7 s
  else s

/-- The gap test of R38 at a tooth counted as position 0: code 2, or a positional inconsistency (R42, R46, R52). -/
def gapTest (per : Nat) (s : State) : State :=
  if 7 * (s.wheel.cfg.m + 1) * s.wheel.lastP ≤ 10 * per then inputGap s
  else input 5 (if s.wheel.dirPulse then s else reverseInd s)

/-- An accepted tooth: its inputs in the order of R47, then its update. -/
def acceptTooth (stamp : Tb) (per p : Nat) (s : State) : State :=
  let fast := tooFast s per (span s.wheel.cfg p)
  let s := updWheel (fun w => { w with badRun := 0 }) s
  let s := if fast then speedInput s else s
  let s := if p = 0 && s.wheel.st.tracks then gapTest per s else s
  let s := inputTooth s
  let s := if p = 0 then legacyCam s else s
  if s.wheel.st.tracks then acceptUpdate stamp per p s else s

/-- A crank edge while the predictor has not started (R57): the tooth is counted, and the first one with a fine period
starts the predictor; it is not judged against the bad-tooth window and does not count toward confirmation. A fine edge
behind a coarse one, the fifth after the wake, has no fine period: it is not tested for speed, and does not count as
code 1 in CONFIRM either (DESIGN CHOICE, log 16). -/
def bareEdge (stamp : Tb) (s : State) : State :=
  let p := nextPos s.wheel.cfg s.wheel.pos
  let last := s.wheel.tFine
  let s := updWheel (fun w => { w with tFine := some stamp }) s
  match last with
  | none => updWheel (fun w => { w with pos := p, tPrev := some stamp }) s
  | some t =>
    if tooFast s (tbSince t stamp) (span s.wheel.cfg p) then speedInput s else startPred stamp (tbSince t stamp) p s

/-- A crank edge in GAP, CONFIRM or SYNC (R32, R38, R39). -/
def trackEdge (stamp : Tb) (s : State) : State :=
  if s.wheel.bare then bareEdge stamp s else
  let per := tbSince s.pred.tk stamp
  let p := nextPos s.wheel.cfg s.wheel.pos
  let s := updWheel (fun w => { w with tFine := some stamp }) s
  if 20 * per < s.wheel.pol.badlo * s.pred.ppred then earlyEdge p s else acceptTooth stamp per p s

/-- The smaller of the two spans that a tooth at either side of a position can have. -/
def leastSpan (c : WheelCfg) (p : Nat) : Nat := min (span c p) (span c (nextPos c p))

/-- A crank edge in REVERSE: only the speed is tested until the code is known, with the least span that the tooth can
have (R32, R43, R52; log 16). -/
def reverseEdge (stamp : Tb) (s : State) : State :=
  let per := tbSince (s.wheel.tPrev.getD stamp) stamp
  let fast := s.wheel.tPrev.isSome && tooFast s per (leastSpan s.wheel.cfg s.wheel.pos)
  let s := updWheel (fun w => { w with tPrev := some stamp, tFine := some stamp, lastP := per }) s
  if fast then speedInput s else s

/-- A forward-coded tooth of REVERSE is accepted: windows that are open at its angle count as matched (R41, R42, R46). -/
def leaveReverse (stamp : Tb) (p : Nat) (s : State) : State :=
  let per := s.wheel.lastP
  let s := inputTooth (updWheel (fun w => { w with badRun := 0 }) s)
  openNow (if s.wheel.bare then startPred stamp per p s else acceptUpdate stamp per p s)

/-- The code of a tooth is forward (R46, R52): in REVERSE the tooth is accepted. -/
def forwardCode (stamp : Tb) (s : State) : State :=
  if s.wheel.st == .reverse then
    let p := nextPos s.wheel.cfg s.wheel.pos
    let s := reverseTest (span s.wheel.cfg p) s
    if s.wheel.st == .reverse then leaveReverse stamp p s else s
  else s

/-- An edge that the decoder accepts, after an invalid code, exceeds the speed limit (R32, R39). -/
def edgeFast (s : State) (stamp : Tb) (fine : Bool) : Bool :=
  let c := s.wheel.cfg
  let per := tbSince s.pred.tk stamp
  match s.wheel.st with
  | .nosync => false
  | .limp => fine && s.wheel.tFine.any fun t => tooFast s (tbSince t stamp) 1
  | .reverse => s.wheel.tPrev.any fun t => tooFast s (tbSince t stamp) (leastSpan c (prevPos c s.wheel.pos))
  | _ => !s.wheel.bare && decide (s.wheel.pol.badlo * s.pred.ppred ≤ 20 * per) && tooFast s per (span c (nextPos c s.wheel.pos))

/-- In REVERSE the tooth after an unmeasured pulse that counts as forward exceeds the speed limit (R32, R44). -/
def nextFast (s : State) (pulse stamp : Tb) : Bool :=
  let c := s.wheel.cfg
  s.wheel.st == .reverse && tooFast s (tbSince pulse stamp) (span c (nextPos c (nextPos c s.wheel.pos)))

/-- An edge that has been found too fast leaves its stamp. -/
def fastEdge (stamp : Tb) (s : State) : State := updWheel (fun w => { w with tPrev := some stamp, tFine := some stamp }) s

/-- A crank edge in any state. -/
def judgeEdge (stamp : Tb) (fine : Bool) (s : State) : State :=
  match s.wheel.st with
  | .nosync | .limp => searchEdge stamp fine s
  | .reverse => reverseEdge stamp s
  | _ => trackEdge stamp s

/-- A crank edge after an unmeasured pulse, which counts as forward, or as an invalid code and a reverse indication (R44).
Of two inputs, the speed goes before the code (R47). -/
def unmeasuredEdge (pulse : Tb × Nat) (stamp : Tb) (fine : Bool) (s : State) : State :=
  if pulse.2 < 2 * s.wheel.thresh then
    if nextFast s pulse.1 stamp then fastEdge stamp (forwardCode pulse.1 (speedInput s)) else judgeEdge stamp fine (forwardCode pulse.1 s)
  else if edgeFast s stamp fine then fastEdge stamp (reverseCode (raise 3 0 0 (speedInput s)))
  else judgeEdge stamp fine (reverseCode (raise 3 0 0 s))

/-- The period that ends at a stamp, by the previous edge; without one it counts as long (log 16). -/
def edgePeriod (s : State) (stamp : Tb) : Nat :=
  match s.wheel.tPrev with
  | some t => tbSince t stamp
  | none => 2 ^ 48

/-- A SYNC_POLICY takes effect; slots follow a new LIMPMASK at once (R56, R63, R97). -/
def takePolicy (s : State) : State :=
  match s.wheel.polNext with
  | some p => applyPermission (updWheel (fun w => { w with pol := p, polNext := none }) s)
  | none => s

/-- What every crank tooth edge does, even one discarded as early (R50, R63): a SYNC_POLICY takes effect, the stall
time restarts, and a stall ends with a new gap search. -/
def noteEdge (stamp : Tb) (s : State) : State :=
  updWheel (fun w =>
    let w := { w with stallFrom := some stamp }
    if w.stallF then { w with stallF := false, periods := [], tPrev := none } else w) (takePolicy s)

/-- A filtered crank tooth edge (R16, R31 to R41, R43, R46, R47). In PULSE mode every tooth edge opens a pulse whose code
counts, also one discarded as early, of which the spec is silent (R43; log 16). -/
def toothEdge (stamp : Tb) (fine : Bool) (s : State) : State :=
  let s := noteEdge stamp s
  let per := edgePeriod s stamp
  let s := match s.wheel.pulse with
    | some p => unmeasuredEdge p stamp fine s
    | none => judgeEdge stamp fine s
  if s.wheel.dirPulse then updWheel (fun w => { w with pulse := some (stamp, per) }) s else s

/-! ### The late deadline (R40) -/

/-- The late deadline of the next tooth has passed. DESIGN CHOICE (log 16): an edge counts as arrived once it has passed
the glitch filter, so one that still waits there at the deadline leaves the tooth late, and is then measured from the
synthetic stamp; R40 does not say. -/
def dueLate (s : State) : Bool :=
  wheelLive s && s.wheel.st.tracks && !s.wheel.bare && decide (s.wheel.pol.badhi * s.pred.ppred < 20 * tbSince s.pred.tk s.clk.tb)

/-- The cap in force: 0 while the tooth-synthesis engine serves the emitter (R507). -/
def syncap (s : State) : Nat := if s.emit.run then 0 else s.wheel.pol.syncap

/-- A late tooth: a synthetic one, or the loss of sync (R40, R41, R46). -/
def opLate (s : State) : State :=
  let p := nextPos s.wheel.cfg s.wheel.pos
  let s := badTooth p s
  if 2 ≤ s.wheel.badRun then input 4 s
  else if s.wheel.syncnt < syncap s then synthUpdate p (inputBad s)
  else input 4 s

/-! ### Stall (R50) -/

/-- Stall time in TB ticks (R63, R470). -/
def stallTicks (s : State) : Nat := if isNative s then s.wheel.pol.stall * 1000000 else 26214400

/-- The stall timeout occurs. -/
def dueStall (s : State) : Bool :=
  wheelLive s && !s.wheel.stallF &&
    (match s.wheel.stallFrom with
     | some t => decide (stallTicks s ≤ tbSince t s.clk.tb)
     | none => false)

/-! ### The sync cam -/

/-- The cam uses edges of this polarity (R33). -/
def Cam.uses (c : Cam) (rise : Bool) : Bool := c.mode == 2 || ((c.mode == 0) == rise)

/-- The angle of a cam edge in ticks (R121). -/
def camAngle (s : State) (m : Nat) (t : Tb) : Nat :=
  (if s.wheel.bare then bareAng s m t else edgeAng m (edgePred s.pred s.predPrev t) t) / 16

/-- Whether a programmed edge matches (R35). -/
def matchesAny (c : Nat) (cam : Cam) (rise : Bool) (a : Nat) : Bool :=
  cam.edges.any fun e => e.pol == rise && inWindow c cam a e

/-- A sync-cam edge in GAP resolves the half when exactly one candidate matches (R48, R49). The half is that of the last
tooth: the one that puts the tooth next to the edge. -/
def camResolve (cam : Cam) (rise : Bool) (t : Tb) (s : State) : State :=
  let c := s.wheel.cfg
  if c.two then s else
  let a := camAngle s (16 * 368640) t
  let m0 := matchesAny 737280 cam rise a
  let m1 := matchesAny 737280 cam rise (a + 368640)
  if m0 == m1 then s else
  let e := (if m0 then a else a + 368640) % 737280
  let h := if cycDist 737280 e (theta16 c 0 s.wheel.pos (gAct s s.wheel.pos) / 16) < 184320 then 0 else 1
  if s.wheel.pol.gapverify && s.wheel.gapsSeen = 0 then updWheel (fun w => { w with half := h, halfRes := true }) s
  else changeSync .confirm 6 (resolveHalf h s)

/-- Programmed edge i of the sync cam matches an edge (R35). -/
def edgeHits (c : Nat) (cam : Cam) (rise : Bool) (a : Nat) (i : Nat) : Bool :=
  match cam.edges[i]? with
  | some e => e.pol == rise && inWindow c cam a e
  | none => false

/-- A sync-cam edge in CONFIRM or SYNC is matched, or is inconsistent (R35, R42). DESIGN CHOICE (log 16), the spec being
silent: an edge stamped inside its window that leaves the glitch filter after the close comes too late for that close,
which is unmatched, and marks the window as matched for the next pass. -/
def camConsistent (cam : Cam) (rise : Bool) (t : Tb) (s : State) : State :=
  let c := cycC s.wheel.cfg
  let a := camAngle s (cyc16 s.wheel.cfg) t
  if matchesAny c cam rise a then
    updWheel (fun w => { w with winHit := vmapi (fun i x => x || edgeHits c cam rise a i.val) w.winHit }) s
  else input 7 (raise 2 0 0 s)

/-! ### Limp (R51, R76) -/

/-- Inserts an angle into an ascending list. -/
def insertAngle (a : Nat) : List Nat → List Nat
  | [] => [a]
  | x :: xs => if a ≤ x then a :: x :: xs else x :: insertAngle a xs

/-- The angles of a pattern in ascending order. -/
def sortedAngles (es : List CamEdge) : List Nat := es.foldl (fun acc e => insertAngle e.angle acc) []

/-- The intervals between neighbours of a cyclic pattern; interval r follows angle r. -/
def intervals (c : Nat) (as : List Nat) : List Nat :=
  (List.range as.length).map fun k => ((as[(k + 1) % as.length]?).getD 0 + c - (as[k]?).getD 0) % c

/-- A limp-capable pattern: two edges or more, and intervals that equal themselves at one rotation only (R51). -/
def limpCapable (c : Nat) (es : List CamEdge) : Bool :=
  let iv := intervals c (sortedAngles es)
  decide (2 ≤ es.length) && (List.range iv.length).all fun r => r == 0 || iv.rotateLeft r != iv

/-- Measured intervals match the programmed ones within 25 % of their common mean (R51). -/
def limpMatch (c : Nat) (ms ps : List Nat) : Bool :=
  let sum := ms.foldl (· + ·) 0
  (ms.zip ps).all fun x => decide (4 * ((x.1 * c : Nat) - (x.2 * sum : Nat) : Int).natAbs ≤ x.2 * sum)

/-- The measured intervals, the oldest first, of stamps with the newest first. -/
def measured (ts : List Tb) : List Nat := ((ts.zip (ts.drop 1)).map fun x => tbSince x.2 x.1).reverse

/-- The predictor at a sync-cam edge in LIMP: edge `idx`, after `per` ticks (R76). DESIGN CHOICE (log 16): a span above
524287 ticks does not fit the 23 bits that R68 gives it, of which R76 is silent: it wraps there, while `limpNext` uses
the whole span. -/
def limpPred (c : Nat) (as : List Nat) (idx per : Nat) (t : Tb) (p : Pred) : Pred :=
  let iv := intervals c as
  let n := as.length
  let a := u23 (16 * (iv[(idx + n - 1) % n]?).getD 0)
  let nA := u23 (16 * (iv[idx]?).getD 0)
  let q := { p with th16 := 16 * (as[idx]?).getD 0, tk := t, ak := a, uk := pace per a, sF := 0, o2 := false, syn := false, havePrev := true, nA := nA }
  { q with ppred := max 1 (predT q nA) }

/-- The interval that LIMP predicts to the edge after edge `idx`, in TB ticks, at the pace of the last interval (R51). -/
def limpNext (c : Nat) (as : List Nat) (idx per : Nat) : Nat :=
  let iv := intervals c as
  let n := as.length
  max 1 (16 * (iv[idx]?).getD 0 * max 1 (pace per (16 * (iv[(idx + n - 1) % n]?).getD 0 : Nat)) / 2 ^ 24)

/-- A matched sync-cam edge moves the limp predictor (R51, R76). -/
def limpAdvance (cam : Cam) (idx per : Nat) (t : Tb) (s : State) : State :=
  let c := cycC s.wheel.cfg
  let as := sortedAngles cam.edges
  let s := setPred (limpPred c as idx per t s.pred) s
  { s with spd := some s.pred.uk, wheel := { s.wheel with limpIdx := idx, limpAt := t, limpPred := limpNext c as idx per } }

/-- Limp matching is complete when the crank stalls and the last E + 1 sync-cam edges match at one rotation (R51). -/
def limpTry (cam : Cam) (s : State) : State :=
  let c := cycC s.wheel.cfg
  let n := cam.edges.length
  let ts := (s.wheel.limpHist.take (n + 1)).map (·.2)
  let ms := measured ts
  let iv := intervals c (sortedAngles cam.edges)
  let rs := (List.range n).filter fun r => limpMatch c ms (iv.rotateLeft r)
  if s.wheel.stallF && s.wheel.pol.limpen && limpCapable c cam.edges && ms.length == n then
    match rs with
    | [r] => changeSync .limp 10 (limpAdvance cam r (ms.getLast?.getD 0) (ts.head?.getD s.clk.tb) s)
    | _ => s
  else s

/-- A sync-cam edge in NOSYNC: limp matching (R51). -/
def limpSearch (cam : Cam) (rise : Bool) (t : Tb) (s : State) : State :=
  limpTry cam (updWheel (fun w => { w with limpHist := ((rise, t) :: w.limpHist).take (cam.edges.length + 1) }) s)

/-- The stall timeout, and the end of a limp matching whose edges have come before it (R46, R50, R51). -/
def opStall (s : State) : State :=
  let s := input 9 (updWheel (fun w => { w with stallF := true }) s)
  match syncCam s with
  | some cam => if s.wheel.st == .nosync then limpTry cam s else s
  | none => s

/-- A sync-cam edge in LIMP (R51). -/
def limpEdge (cam : Cam) (t : Tb) (s : State) : State :=
  let per := tbSince s.wheel.limpAt t
  let pp := s.wheel.limpPred
  if pp < 4 * ((per : Int) - pp).natAbs then input 7 (raise 2 0 0 s)
  else limpAdvance cam ((s.wheel.limpIdx + 1) % max 1 cam.edges.length) per t s

/-- The next sync-cam edge of LIMP is missing (R51). -/
def dueLimp (s : State) : Bool :=
  wheelLive s && s.wheel.st == .limp && decide (5 * s.wheel.limpPred < 4 * tbSince s.wheel.limpAt s.clk.tb)

/-- What a sync-cam edge does in each state (R47, R48, R42, R51, R57). The spec names half resolution as the one use of a
coarse cam edge: elsewhere the model lets it pass unused, and a window that only it would have matched closes unmatched
(log 16). -/
def syncCamEdge (cam : Cam) (rise : Bool) (t : Tb) (fine : Bool) (s : State) : State :=
  match s.wheel.st with
  | .gap => camResolve cam rise t s
  | .confirm | .sync => if fine then camConsistent cam rise t s else s
  | .nosync => if fine then limpSearch cam rise t s else s
  | .limp => if fine then limpEdge cam t s else s
  | .reverse => s

/-- A filtered edge of a cam (R33, R47, R120): it is measured, and then it is an input of the sync cam. -/
def camEdge (c : Fin 4) (rise : Bool) (t : Tb) (fine : Bool) (s : State) : State :=
  let cam := s.cams[c]
  if !(isNative s && cam.en && cam.uses rise) then s else
  let s := if fine then measureEdge c rise t s else s
  if cam.sync then syncCamEdge cam rise t fine s else s

/-! ### Windows of the sync cam (R42) -/

/-- The decoder's angle has passed a + TOL of programmed edge i in this TB tick, moving forward. -/
def dueClose (s : State) (i : Fin 16) : Bool :=
  let w := s.wheel
  let c := cycC w.cfg
  wheelLive s && isNative s && (w.st == .confirm || w.st == .sync) && w.winShut[i] != some s.clk.tb &&
    (match syncCam s with
     | some cam =>
       match cam.edges[i.val]? with
       | some e =>
         let t := (w.nowAngle + c - w.prevAngle % c) % c
         decide (2 * t < c) && decide ((e.angle + cam.tol * 1024 + c - w.prevAngle % c) % c < t)
       | none => false
     | none => false)

/-- The window of programmed edge i closes (R42). -/
def opClose (i : Fin 16) (s : State) : State :=
  let hit := s.wheel.winHit[i]
  let s := updWheel (fun w => { w with winHit := vupd w.winHit i fun _ => false, winShut := vupd w.winShut i fun _ => some s.clk.tb }) s
  if hit then s else input 7 (raise 2 0 0 s)

/-! ### Restarts of the decoder -/

/-- The gap search, the limp history and an open pulse are discarded; the stall time runs on. -/
def clearSearch (s : State) : State :=
  updWheel (fun w => { w with periods := [], tPrev := none, tFine := none, pulse := none, limpHist := [] }) s

/-- A fast-datapath reset, or a wake: the input with code 12 and a new gap search (R46, R321, R354); the stall time runs
on from the last edge (R50). -/
def decoderReset (s : State) : State := clearSearch (input 12 s)

end Sys2Proof.Machine
end

