-- ==== Sys2Proof/Machine/Link.lean ====
section
/-! DEFINITION. The Dergor link: states, slots, records, messages and commands (R272 to R306). The model takes the
line at the level of slots and frames (log 12). -/

namespace Sys2Proof.Machine

/-- The link replaced by a function of itself. -/
def updLink (f : Link → Link) (s : State) : State := { s with link := f s.link }

/-- The line of a link is watched: by a follower's receiver on RCK, also while FCLK is stopped, and by a master's on FCLK
(R273, R274, R308, R313). -/
def linkRx (s : State) : Bool :=
  isNative s && !s.sys.inReset && blkOn s .link && s.link.st != .off && (s.clk.fclkOn || s.link.st != .master)

/-- The link runs: FCLK runs, the block is enabled and the role is not OFF (R273). -/
def linkLive (s : State) : Bool := liveN s && blkOn s .link && s.link.st != .off

/-! ### Reception -/

/-- The unit has a number: it is master or member. -/
def numbered (s : State) : Bool := onRing s

/-- The unit takes frames: with symbol lock and without a break, as the master or a follower (R276, R295). -/
def endpoint (s : State) : Bool := linkLive s && s.link.lock && !s.link.brk && (s.link.st == .master || follows s)

/-- The frame is whole and meant for this unit, and is not its own (R278, R279, R282, R284, R285). -/
def accepts (s : State) (f : Frame) : Bool :=
  endpoint s && crcState f == .good && !fVoid f && f.ext.toNat / 64 == 0 &&
    (fBc f || (numbered s && fDst f == s.link.node)) && !(numbered s && fSrc f == s.link.node)

/-! ### Leaving the ring, and enumeration -/

/-- The unit loses its number: local frames are dropped and a waiting send ends with NOLINK; an enumeration whose JOIN frame
cannot return any more runs into its timeout (R299, R301, R453). -/
def leaveRing (s : State) : State :=
  let wait := s.link.sendWait.isSome
  let s := updLink (fun l => { l with node := 0, out := [], fwd := [], sendWait := none, open_ := false, joining := l.joining && l.st == .master, joinAt := if l.joining && l.st == .master then some (l.joinAt.getD s.clk.tb) else none }) s
  if wait then endIf 0x2A stNoLink 0 0 s else s

/-- Bits of a payload as a number. -/
def payBits (p : BitVec 32) (lo w : Nat) : Nat := p.toNat / 2 ^ lo % 2 ^ w

/-- A HOST or REMOTE frame takes a credit and is queued (R296). -/
def sendNow (dst : Nat) (o : OutFrame) (s : State) : State :=
  updLink (fun l => { l with credits := vput l.credits dst (vget l.credits dst 0 - 1), out := insertOut o l.out }) s

/-- The result word of a LINK_SEND: the tag of a REMOTE (R453). -/
def sendResult (o : OutFrame) : Nat := if o.frame.ty = 10 then payBits o.frame.payload 24 8 else 0

/-- DST names another unit of the present ring (R453): of a ring whose size no frame tells it, a member takes a free value
(log 9). -/
def dstOk (s : State) (dst : Nat) : Bool := dst != s.link.node && decide (dst < s.link.ringSize)

/-- A frame as this unit sends it with its present number. -/
def reSource (node : Nat) (o : OutFrame) : OutFrame :=
  { o with frame := mkFrame o.frame.ty node (fDst o.frame) false o.frame.payload }

/-- The commit cycle of a send that has waited: checks 4, 6 and 8 again, and then the frame is queued (R296, R431, R432). -/
def sendCommit (dst : Nat) (o : OutFrame) (s : State) : State :=
  let t := updLink (fun l => { l with sendWait := none }) s
  if s.flt.safe then endIf 0x2A 0x13 0 0 t
  else if !blkOn s .link then endIf 0x2A 0x15 0 0 t
  else if !dstOk s dst then endIf 0x2A stCheck 1 0 t
  else endIf 0x2A 0 (sendResult o) 0 (sendNow dst (reSource s.link.node o) t)

/-- A waiting send goes once there is a credit, by the firmware's hand (R27, R296). -/
def sendWaiting (s : State) : State :=
  match s.link.sendWait with
  | some (dst, o) => if 0 < vget s.link.credits dst 0 && coreOn s && !s.mbox.cut then sendCommit dst o s else s
  | none => s

/-- An enumeration restores every credit (R296). -/
def restoreCredits (s : State) : State := sendWaiting (updLink (fun l => { l with credits := Vector.replicate 32 4 }) s)

/-- The master starts an enumeration (R301). -/
def enumerate (s : State) : State :=
  queueOut rankJoin (mkFrame 9 0 0 true 1) none (updLink (fun l => { l with joining := true, joinAt := none }) s)

/-- The enumeration has come back (R286, R296, R301). -/
def enumerated (size delay : Nat) (s : State) : State :=
  let s := updLink (fun l => { l with joining := false, joinAt := none, enumerated := true, ringSize := size, loopDelay := delay }) s
  endIf 0x29 0 size delay (sendConfig (restoreCredits s))

/-! ### Lock and breaks (R276, R293, R303) -/

/-- Lock is acquired (R303). -/
def opLock (s : State) : State :=
  let l := s.link
  let again := l.st == .master && l.brk && l.enumerated
  let s := updClk (fun c => { c with holdover := false }) s
  let s := updLink (fun l => { l with lock := true, brk := false, st := if l.st == .unlocked then (if l.rejoin then .joining else .forward) else l.st, rejoin := if l.st == .unlocked then false else l.rejoin }) s
  if again then enumerate s else s

/-- LOCK_ACQUIRED (R276). -/
def execLockAcquired (s : State) : Host.Outcome State Fault Refusal :=
  .next (if linkRx s && (!s.link.lock || s.link.brk) then clkRow opLock s else s)

/-- Lock is lost: a follower's RCK holds its last frequency, and an FCO that stood by starts (R310, R313). -/
def opUnlock (s : State) : State :=
  let s := updLink (fun l => { l with lock := false }) s
  if s.link.st == .master then s else updClk (fun c => { c with holdover := true, fcoOn := true }) s

/-- LOCK_LOST (R276): a break follows when lock stays away (R293). -/
def execLockLost (s : State) : Host.Outcome State Fault Refusal :=
  .next (if linkRx s && s.link.lock then clkRow opUnlock s else s)

/-- A break occurs: local without lock, or upstream (R293). -/
def breaks (s : State) (up : Bool) : Bool :=
  linkRx s && !s.link.brk && s.link.st != .unlocked && (up || !s.link.lock)

/-- A break (R293, R303). -/
def opBreak (up : Bool) (s : State) : State :=
  let s := raise 34 0 (w16 (b2n up 0)) (updLink (fun l => { l with brk := true }) s)
  if s.link.st == .master then s
  else
    let member := s.link.st == .member
    let s := if s.link.mir.valid then mirrorDown lossBreak s else updMir (fun m => { m with applied := 0 }) s
    let s := updLink (fun l => { l with st := .unlocked, rejoin := l.rejoin || member }) s
    rckLost (leaveRing s)

/-- During an upstream break with lock the lock is lost too: RCK, judged again meanwhile, is lost (R293, R308). -/
def breaksAgain (s : State) (up : Bool) : Bool :=
  linkRx s && s.link.st == .unlocked && s.clk.rckok && !up && !s.link.lock

/-- LINK_BREAK (R293). -/
def execLinkBreak (up : Bool) (s : State) : Host.Outcome State Fault Refusal :=
  .next (if breaks s up then clkRow (opBreak up) s else if breaksAgain s up then clkRow rckLost s else s)

/-! ### Slots (R281 to R285) -/

/-- EXT flags with VOID or SEEN set. -/
def withVoid (x : Nat) (v : Bool) : Nat := if v && x / 16 % 2 = 0 then x + 16 else x
def withSeen (x : Nat) : Nat := if x / 32 % 2 = 0 then x + 32 else x

/-- The forwarder voids a frame that it has sent, or that is meant for it alone (R282). -/
def voids (s : State) (f : Frame) : Bool :=
  s.link.st == .member && (fSrc f == s.link.node || (!fBc f && fDst f == s.link.node))

/-- NEXT and FULL as a joining follower or a member passes them on; a frame that it ignores keeps them (R285, R302, R303). -/
def joinPayload (s : State) (f : Frame) : BitVec 32 :=
  if f.ty = 9 && crcState f == .good && !fVoid f && f.ext.toNat / 64 = 0 && f.payload.getLsbD 5 == false && (s.link.st == .joining || s.link.st == .member) then
    (if payBits f.payload 0 5 = 31 then 32 else BitVec.ofNat 32 (payBits f.payload 0 5 + 1))
  else f.payload

/-- A frame as a follower forwards it (R281). -/
def forwarded (s : State) (poison : Bool) (f : Frame) : Frame :=
  reframe (min 31 (fHc f + 1)) (withVoid (extFlags f) (voids s f)) (joinPayload s f) (poison || crcState f != .good) f

/-- A slot as a follower forwards it (R281, R285). -/
def forwardSlot (s : State) (rx : RxSlot) : RxSlot :=
  match rx with
  | .empty odd => .empty odd
  | .full f => .full (forwarded s false f)
  | .bad f => .marked (forwarded s true f)
  | .marked f => .marked (forwarded s true f)

/-- A TOOTH frame in a slot, which the mirror recognises (R288). -/
def toothSlot (s : State) (rx : RxSlot) : Bool :=
  match rx with
  | .full f => accepts s f && f.ty == 1
  | _ => false

/-- A slot passes: it can take a local frame if it is empty and odd (R283), and the mirror notes a TOOTH frame in it (R288). -/
def opForward (rx : RxSlot) (s : State) : State :=
  let tooth := if toothSlot s rx then some s.clk.tb else s.link.mir.tooth
  updMir (fun m => { m with tooth := tooth }) (updLink (fun l => { l with sent := forwardSlot s rx, open_ := rx == .empty true }) s)

/-- CUT_THROUGH_FORWARD (R281): by a follower with lock (R293). -/
def execCutThroughForward (rx : RxSlot) (s : State) : Host.Outcome State Fault Refusal :=
  .next (if linkLive s && follows s && s.link.lock then opForward rx s else s)

/-- A member injects its next local frame into an empty slot, which then is full (R283). -/
def inject (s : State) : State :=
  match s.link.out with
  | o :: rest => updLink (fun l => { l with out := rest, sent := .full o.frame, open_ := false }) s
  | [] => s

/-- LOCAL_INJECTION (R283): only in the empty odd slot that passes. -/
def execLocalInjection (s : State) : Host.Outcome State Fault Refusal :=
  .next (if linkLive s && s.link.st == .member && s.link.open_ then inject s else s)

/-- What the master keeps of a received slot for its forwarding buffer; without lock or during a break the slot is lost
(R276, R284, R295). -/
def masterKeeps (s : State) (rx : RxSlot) : Option Frame :=
  match rx with
  | .full f =>
    if endpoint s && crcState f == .good && fSrc f != 0 && !fVoid f && !fSeen f then
      some (reframe (min 31 (fHc f + 1)) (withSeen (extFlags f)) f.payload false f)
    else none
  | _ => none

/-- A frame as it leaves at a tick: the OFS of a TOOTH frame is formed there (R286). -/
def departing (tb : Tb) (o : OutFrame) : Frame :=
  match o.stamp with
  | some t => reframe (fHc o.frame) (extFlags o.frame) (BitVec.ofNat 32 (o.frame.payload.toNat / 4096 * 4096 + min 4095 (tbSince t tb))) false o.frame
  | none => o.frame

/-- The frame of the next slot, and what stays queued (R277, R284): an odd slot carries a forwarded frame first, and never a
TOOTH, GEOM or STATE frame of the master. -/
def nextSlot (odd : Bool) (fwd : List Frame) (out : List OutFrame) : Option OutFrame × List Frame × List OutFrame :=
  match odd, fwd with
  | true, f :: fs => (some ⟨rankHost, f, none⟩, fs, out)
  | _, _ =>
    let ok (o : OutFrame) : Bool := !odd || decide (rankConfig ≤ o.rank)
    (out.find? ok, fwd, out.eraseP ok)

/-- The master receives a slot and sends its next one (R284). -/
def opTransmit (rx : RxSlot) (s : State) : State :=
  let l := s.link
  let fwd := l.fwd ++ (masterKeeps s rx).toList
  let (o, fwd, out) := nextSlot (l.k.getLsbD 0) fwd l.out
  match o with
  | some o =>
    let f := departing s.clk.tb o
    let joins := decide (o.rank = rankJoin)
    updLink (fun l => { l with k := l.k + 1, fwd := fwd, out := out, sent := .full f, joinAt := if joins then some s.clk.tb else l.joinAt }) s
  | none => updLink (fun l => { l with k := l.k + 1, fwd := fwd, out := out, sent := .empty (l.k.getLsbD 0) }) s

/-- SLOT_TRANSMIT (R284). -/
def execSlotTransmit (rx : RxSlot) (s : State) : Host.Outcome State Fault Refusal :=
  .next (if linkLive s && s.link.st == .master then opTransmit rx s else s)

/-- A malformed slot at the first unit that meets the error raises source 35 or 36 and is counted (R285, R300). -/
def opFrameError (rx : RxSlot) (s : State) : State :=
  match rx with
  | .bad _ => raise 36 0 0 (updLink (fun l => { l with codeViol := satInc l.codeViol 65535 }) s)
  | .full f =>
    if crcState f == .wrong then raise 35 0 (w16 (fSrc f + 32 * f.ty)) (updLink (fun l => { l with crcErr := satInc l.crcErr 65535 }) s)
    else s
  | _ => s

/-- LINK_FRAME_ERROR (R285). -/
def execLinkFrameError (rx : RxSlot) (s : State) : Host.Outcome State Fault Refusal :=
  .next (if endpoint s then opFrameError rx s else s)

/-- RESERVED_FRAME (R280). -/
def execReservedFrame (f : Frame) (s : State) : Host.Outcome State Fault Refusal :=
  .next (if accepts s f && (f.ty == 0 || decide (12 ≤ f.ty)) then updLink (fun l => { l with resvd := satInc l.resvd 65535 }) s else s)

/-! ### The mirror (R287 to R294) -/

/-- The master's sync state as last received (R289, R294). -/
def masterState (x : Sync) (s : State) : State :=
  let s := updMir (fun m => { m with rstate := x, whole := if x == .sync then m.whole else 0 }) s
  let m := s.link.mir
  if m.ring then (if masterTracks m then reportEff 13 s else ringLost 13 s)
  else if m.valid && masterTracks m && !m.bkup && !m.lost then ringTaken 13 s
  else s

/-- The delay of a record on its way, in TB ticks (R287). -/
def linkDelay (s : State) (hc : Nat) : Nat := 26 + 24 * hc + s.link.cable

/-- The GEOM frame in the next even slot, when it is whole (R288). -/
def geomOf (s : State) (rx : RxSlot) : Option Frame :=
  match rx with
  | .full g => if accepts s g && g.ty == 2 then some g else none
  | _ => none

/-- The update of the mirror by a record (R287). -/
def mirrorUpdate (f g : Frame) (trx : Tb) (s : State) : State :=
  let m := s.link.mir
  let p := payBits f.payload 12 8
  let h := payBits f.payload 20 1
  let t := trx - BitVec.ofNat 48 (payBits f.payload 0 12 + linkDelay s (fHc f))
  let act : Int := (g.payload.setWidth 16).toInt
  let next : Int := ((g.payload >>> 16).setWidth 16).toInt
  let i : ToothIn := ⟨t, p, h, act, m.gLast, next⟩
  let c := s.wheel.cfg
  let o2 := f.payload.getLsbD 26
  let q := if f.payload.getLsbD 22 then { m.p with havePrev := false } else m.p
  let q := if f.payload.getLsbD 21 then { predSynth c i { q with o2 := o2 } with tk := t } else predTooth c (fun _ => o2) i q
  updMir (fun m => { m with prev := m.p, p := q, spd := if f.payload.getLsbD 21 then m.spd else some q.uk, pos := p, half := h, gLast := act, gNext := next, applied := min 2 (m.applied + 1), missing := 0, tooth := none, hc := fHc f }) s

/-- A complete record is applied (R287, R288, R291). -/
def opRecord (f g : Frame) (trx : Tb) (s : State) : State :=
  let m := s.link.mir
  let out := decide (0 < m.applied) && payBits f.payload 12 8 != nextPos s.wheel.cfg m.pos
  let s := if out then (if m.valid then mirrorDown lossSequence s else updMir (fun m => { m with applied := 0 }) s) else s
  let s := mirrorUpdate f g trx s
  mirrorCheck (masterState (Sync.ofCode (payBits f.payload 23 3)) s)

/-- TOOTH_RECORD (R287), at the end of the next even slot: an incomplete record is discarded and counts as missing (R288). -/
def execToothRecord (tooth : Frame) (nxt : RxSlot) (trx : Tb) (s : State) : Host.Outcome State Fault Refusal :=
  .next (if accepts s tooth && tooth.ty == 1 && follows s && s.wheel.cfgd then
    (match geomOf s nxt with
     | some g => opRecord tooth g trx s
     | none => updMir (fun m => { m with tooth := none }) s)
  else s)

/-- STATE1 (R287). -/
def execState1 (f : Frame) (s : State) : Host.Outcome State Fault Refusal :=
  .next (if accepts s f && f.ty == 3 && follows s then updMir (fun m => { m with state1 := some f.payload }) s else s)

/-- The mirror angle has passed the cycle start since the stamp of the last record (R290). -/
def mirrorPassed (s : State) : Bool :=
  let p := s.link.mir.p
  decide (cyc16 s.wheel.cfg ≤ p.th16 + min (predX p s.clk.tb) (p.nA - 1))

/-- sF of a STATE pair, whose two frames have both been received (R287). -/
def statePair (f : Frame) (m : Mirror) : Mirror :=
  match m.state1 with
  | some lo => { m with p := { m.p with sF := ((f.payload.setWidth 8).append lo : BitVec 40).toInt }, stateSeen := true, state1 := none }
  | none => m

/-- STATE2 gives the master's state and CYC, and with its STATE1 a pair (R287, R290). -/
def opState2 (f : Frame) (s : State) : State :=
  let s := updMir (fun m => { statePair f m with hv := f.payload.getLsbD 27, cycAt := some s.clk.tb }) s
  let cyc := w16 (payBits f.payload 8 16 + b2n (mirrorPassed s) 0)
  let s := setCyc cyc s
  mirrorCheck (masterState (Sync.ofCode (payBits f.payload 24 3)) s)

/-- STATE2 (R290). -/
def execState2 (f : Frame) (s : State) : Host.Outcome State Fault Refusal :=
  .next (if accepts s f && f.ty == 4 && follows s then opState2 f s else s)

/-- CONFIG (R288, R305). -/
def execConfig (f : Frame) (s : State) : Host.Outcome State Fault Refusal :=
  .next (if accepts s f && f.ty == 5 && follows s then
    (let s := updMir (fun m => { m with cfg := some f.payload }) s
     checkConfig (if s.wheel.cfgd && !configOk s then raise 37 0 3 s else s))
  else s)

/-- The mirror deadline of the next record has passed, and no TOOTH frame recognised before waits for its GEOM frame (R288). -/
def dueMissing (s : State) : Bool :=
  let m := s.link.mir
  linkLive s && follows s && decide (0 < m.applied) && masterTracks m && m.tooth.isNone &&
    decide (s.wheel.pol.badhi * m.p.ppred / 20 + 1 + 1300 + linkDelay s m.hc ≤ tbSince m.p.tk s.clk.tb)

/-- The half of the mirror's next position. -/
def mirrorHalf (s : State) (p : Nat) : Nat :=
  let m := s.link.mir
  if p = 0 && m.rstate != .gap then flipHalf s.wheel.cfg m.half else m.half

/-- The mirror inserts a synthetic tooth (R71, R288). GEOM[0].ACT is 0 (R67). -/
def mirrorSynth (s : State) : State :=
  let m := s.link.mir
  let c := s.wheel.cfg
  let p := nextPos c m.pos
  let h := mirrorHalf s p
  let next : Int := if nextPos c p = 0 then 0 else (Config.unsentAct (nextPos c p)).toInt
  let i : ToothIn := ⟨m.p.tk, p, h, m.gNext, m.gLast, next⟩
  updMir (fun m => { m with prev := m.p, p := predSynth c i m.p, pos := p, half := h, gLast := m.gNext, gNext := next, missing := m.missing + 1 }) s

/-- A record is missing (R288). -/
def opMissing (s : State) : State :=
  if !s.link.mir.valid then updMir (fun m => { m with applied := 0, missing := 0 }) s
  else if 1 ≤ s.link.mir.missing then mirrorDown lossMissing s
  else mirrorSynth s

/-- RECORD_MISSING_DEADLINE (R288). -/
def execRecordMissingDeadline (s : State) : Host.Outcome State Fault Refusal :=
  .next (if dueMissing s then opMissing s else s)

/-- The mirror's own angle (R289). -/
def mirrorAngle (s : State) : Nat :=
  let m := s.link.mir
  predAng (if m.rstate == .gap then 16 * 368640 else cyc16 s.wheel.cfg) m.p s.clk.tb / 16

/-- The mirror in one TB tick: the ring returns at a mirror cycle start after a whole cycle (R294). -/
def mirrorTick (s : State) : State :=
  let a := mirrorAngle s
  let s := updMir (fun m => { m with prevAngle := m.nowAngle, nowAngle := a }) s
  let m := s.link.mir
  let start := decide (cycC s.wheel.cfg + 2 * a < 2 * m.prevAngle)
  if m.valid && m.rstate == .sync && !m.ring && start then
    (if 1 ≤ m.whole then ringTaken 14 s else updMir (fun m => { m with whole := m.whole + 1 }) s)
  else s

/-! ### Other frames (R297 to R299, R302) -/

/-- FAULT (R299). -/
def execFaultFrame (f : Frame) (s : State) : Host.Outcome State Fault Refusal :=
  let p := f.payload
  .next (if accepts s f && f.ty == 6 then
    raise 38 0 (w16 (fSrc f + 32 * payBits p 0 6 + 2048 * payBits p 6 2 + 8192 * payBits p 15 1)) s else s)

/-- A message enters the receive store: 4 messages for each source (R297). -/
def storeMsg (m : RxMsg) (s : State) : State :=
  let held := (s.link.rx.filter fun x => x.src == m.src).length
  setInt 9 (if held < 4 then updLink (fun l => { l with rx := l.rx ++ [m] }) s else s)

/-- HOST (R297). -/
def execHostFrame (f : Frame) (s : State) : Host.Outcome State Fault Refusal :=
  .next (if accepts s f && f.ty == 7 && !fBc f then storeMsg ⟨fSrc f, false, f.payload⟩ s else s)

/-- REPLY (R297). -/
def execReplyFrame (f : Frame) (s : State) : Host.Outcome State Fault Refusal :=
  .next (if accepts s f && f.ty == 11 && !fBc f then storeMsg ⟨fSrc f, true, f.payload⟩ s else s)

/-- Credits return (R296, R297). -/
def opCredit (src n : Nat) (s : State) : State :=
  sendWaiting (updLink (fun l => { l with credits := vput l.credits src (min 4 (vget l.credits src 0 + n)) }) s)

/-- CREDIT (R297). -/
def execCreditFrame (f : Frame) (s : State) : Host.Outcome State Fault Refusal :=
  .next (if accepts s f && f.ty == 8 && !fBc f then opCredit (fSrc f) (payBits f.payload 0 2 + 1) s else s)

/-- A JOIN frame at a follower (R302, R303, R305). -/
def joinAtFollower (p : BitVec 32) (s : State) : State :=
  if !(s.link.st == .joining || s.link.st == .member) then s
  else if p.getLsbD 5 then raise 37 0 2 s
  else
    let n := payBits p 0 5
    let size := max (n + 1) (Config.ringEnd s.free % 33)
    restoreCredits (updLink (fun l => { l with st := .member, node := n, ringSize := size }) { s with free := s.free + 1 })

/-- A JOIN frame at the master (R301, R304, R305). -/
def joinAtMaster (p : BitVec 32) (delay : Nat) (s : State) : State :=
  if s.link.joining && s.link.joinAt.isSome then enumerated (if p.getLsbD 5 then 32 else payBits p 0 5) delay s
  else raise 37 0 1 s

/-- JOIN (R302). -/
def execJoinFrame (f : Frame) (delay : Nat) (s : State) : Host.Outcome State Fault Refusal :=
  .next (if f.ty == 9 && endpoint s && crcState f == .good && !fVoid f && f.ext.toNat / 64 == 0 then
    (if s.link.st == .master then joinAtMaster f.payload delay s else joinAtFollower f.payload s)
  else s)

/-- REMOTE (R298, R437): the command waits for the firmware. -/
def execRemoteFrame (f : Frame) (s : State) : Host.Outcome State Fault Refusal :=
  let p := f.payload
  let c : Cmd := ⟨.ring (fSrc f) (BitVec.ofNat 8 (payBits p 24 8)), BitVec.ofNat 8 (payBits p 0 8), ⟨w16 (payBits p 8 16), 0, 0, 0⟩⟩
  .next (if accepts s f && f.ty == 10 && !fBc f then { s with mbox := { s.mbox with remote := s.mbox.remote ++ [c] } } else s)

/-- The JOIN frame has not returned within 100 µs of its departure (R301, R452). -/
def dueJoin (s : State) : Bool :=
  liveN s && s.link.joining && (match s.link.joinAt with
    | some t => decide (10000 ≤ tbSince t s.clk.tb)
    | none => false)

/-- JOIN_TIMEOUT (R301). -/
def execJoinTimeout (s : State) : Host.Outcome State Fault Refusal :=
  .next (if dueJoin s then endIf 0x29 0x1B 0 0 (updLink (fun l => { l with joining := false, joinAt := none }) s) else s)

/-! ### Commands (R300, R301, R303, R451 to R453) -/

/-- LINKSTAT (R306). -/
def linkstat (s : State) : Word :=
  let l := s.link
  let code := match l.st with
    | .off => 0
    | .master => 1
    | .unlocked => 2
    | .forward => 3
    | .joining => 4
    | .member => 5
  let r := if l.st == .master then s.wheel.st.code else if l.mir.valid then l.mir.rstate.code else 0
  w16 (code + 8 * l.node + 256 * r + b2n l.mir.ring 11 + b2n l.mir.bkup 12 + b2n l.brk 13 + b2n l.sendWait.isSome 14 + b2n (!l.rx.isEmpty) 15)

/-- The link goes OFF: the mirror ends, and the decoder's own state is the effective one again (R273, R303). -/
def linkOff (s : State) : State :=
  let s := if s.link.mir.valid then mirrorDown lossOther s else s
  let s := leaveRing s
  let eff := s.link.mir.eff
  let s := updLink (fun l => { l with st := .off, rejoin := false, brk := false, lock := false, enumerated := false, ringSize := 0, loopDelay := 0, k := 0, sent := .empty false, mir := { eff := eff } }) s
  reportEff 14 s

/-- The role ends: the link is OFF and there is no RCK (R310, R313, R314). -/
def roleEnds (s : State) : State := rckLost (updClk (fun c => { c with holdover := false }) (linkOff s))

/-- A role is taken (R300, R303). -/
def takeRole (st : LState) (a : Args) (s : State) : State :=
  updLink (fun l => { l with st := st, backup := bit a.a0 2, cable := fld a.a0 8 8, k := 0 }) s

/-- LINK_ROLE (R300, R303, R451); during the pin-drive test the link stays OFF (R401, log 25). -/
def cmdLinkRole (a : Args) (s : State) : CmdRes :=
  if !within a.a0 0xFF37 then badArg s else
  match fld a.a0 0 2 with
  | 0 => { st := roleEnds s }
  | 1 => if s.link.st == .off && !s.dbg.ptest then { st := takeRole .master a s } else { st := s, status := stNoLink }
  | 2 => if s.link.st == .off && !s.dbg.ptest then { st := takeRole .unlocked a s } else { st := s, status := stNoLink }
  | _ =>
    match fld a.a0 4 2 with
    | 0 => if s.link.st == .master then { st := s, q0 := s.link.ringSize, q1 := s.link.loopDelay } else { st := s }
    | 1 => { st := s, q0 := s.link.crcErr, q1 := s.link.codeViol }
    | 2 => { st := s, q0 := s.link.resvd, q1 := (linkstat s).toNat }
    | _ => badArg s

/-- LINK_ROLE with ROLE 0 to 2 (R303). -/
def execLinkRole (a : Args) (s : State) : Host.Outcome State Fault Refusal :=
  .next (mboxRow 0x28 cmdLinkRole a s)

/-- LINK_ROLE QUERY (R300). -/
def execLinkRoleQuery (a : Args) (s : State) : Host.Outcome State Fault Refusal :=
  .next (mboxRow 0x28 cmdLinkRole { a with a0 := a.a0 ||| 3 } s)

/-- LINK_JOIN (R301, R303, R452). -/
def cmdLinkJoin (_a : Args) (s : State) : CmdRes :=
  match s.link.st with
  | .off | .unlocked => { st := s, status := stNoLink }
  | .master => { st := enumerate s, done := false }
  | .joining => { st := s }
  | _ => { st := leaveRing (updLink (fun l => { l with st := .joining }) s) }

/-- LINK_JOIN (R301): its arguments are ignored. -/
def execLinkJoin (s : State) : Host.Outcome State Fault Refusal :=
  .next (mboxRow 0x29 cmdLinkJoin (rowArgs 0x29 s) s)

/-- SEND or REMOTE: the frame takes a credit, waits for one, or is refused (R296, R453). -/
def cmdSend (rank : Nat) (f : Frame) (dst : Nat) (nowait : Bool) (s : State) : CmdRes :=
  let o : OutFrame := ⟨rank, f, none⟩
  if !onRing s then { st := s, status := stNoLink }
  else if !dstOk s dst then checkFail 1 s
  else if 0 < vget s.link.credits dst 0 then { st := sendNow dst o s, q0 := sendResult o }
  else if nowait then { st := s, status := 0x19 }
  else { st := updLink (fun l => { l with sendWait := some (dst, o) }) s, done := false }

/-- RECV (R297, R453). -/
def cmdRecv (s : State) : CmdRes :=
  match s.link.rx with
  | [] => { st := s, status := 0x20 }
  | m :: rest =>
    let s := updLink (fun l => { l with rx := rest, rxHold := m }) s
    let s := if onRing s then queueOut rankCredit (mkFrame 8 s.link.node m.src false 0) none s else s
    { st := s, q0 := m.src + b2n m.reply 8 + 512 * min 127 rest.length }

/-- LINK_SEND by its form (R453). -/
def cmdLinkSend (a : Args) (s : State) : CmdRes :=
  let dst := fld a.a0 0 5
  match fld a.a0 14 2 with
  | 0 =>
    if !within a.a0 0xC11F then badArg s
    else cmdSend rankHost (mkFrame 7 s.link.node dst false (a.a2.append a.a1)) dst (bit a.a0 8) s
  | 1 => if !within a.a0 0xC000 then badArg s else cmdRecv s
  | 2 =>
    if !within a.a0 0xC11F then badArg s
    else
      let p := fld a.a1 0 8 + 256 * a.a2.toNat + 2 ^ 24 * fld a.a1 8 8
      cmdSend rankRemote (mkFrame 10 s.link.node dst false (BitVec.ofNat 32 p)) dst (bit a.a0 8) s
  | _ =>
    if !within a.a0 0xC000 then badArg s
    else { st := s, q0 := payBits s.link.rxHold.payload 0 16, q1 := payBits s.link.rxHold.payload 16 16 }

/-- The words of a form: A0[15:14] is the form's number. -/
def linkForm (k : Nat) (a : Args) : Args := { a with a0 := (a.a0 &&& 0x3FFF) ||| w16 (k * 16384) }

/-- LINK_SEND SEND (R296). -/
def execLinkSend (a : Args) (s : State) : Host.Outcome State Fault Refusal :=
  .next (mboxRow 0x2A cmdLinkSend (linkForm 0 a) s)

/-- LINK_SEND RECV (R453). -/
def execLinkSendRecv (a : Args) (s : State) : Host.Outcome State Fault Refusal :=
  .next (mboxRow 0x2A cmdLinkSend (linkForm 1 a) s)

/-- LINK_SEND REMOTE (R296). -/
def execLinkSendRemote (a : Args) (s : State) : Host.Outcome State Fault Refusal :=
  .next (mboxRow 0x2A cmdLinkSend (linkForm 2 a) s)

/-- LINK_SEND DATA (R453). -/
def execLinkSendData (a : Args) (s : State) : Host.Outcome State Fault Refusal :=
  .next (mboxRow 0x2A cmdLinkSend (linkForm 3 a) s)

end Sys2Proof.Machine
end

