-- ==== Sys2Proof/Machine/Thermal.lean ====
section
/-! DEFINITION. Die sensors, thermal models and throttling (R214 to R228). -/

namespace Sys2Proof.Machine

/-! ### Parameters -/

/-- A parameter word of a channel as an unsigned and as a signed value (R226). -/
def ThCh.par (c : ThCh) (i : Nat) : Nat := (vget c.live i 0).toNat
def ThCh.spar (c : ThCh) (i : Nat) : Int := sgn (vget c.live i 0)

/-- EN, JEN and FLOOR of CFG (R226). -/
def ThCh.en (c : ThCh) : Bool := bit (vget c.live 0 0) 0
def ThCh.jen (c : ThCh) : Bool := bit (vget c.live 0 0) 1
def ThCh.floor (c : ThCh) : Nat := fld (vget c.live 0 0) 8 5

/-- A node as reported, in 1/16 degree (R219). -/
def nodeWord (x : Int) : Int := sar x 28

/-- The limits of a node (R219). -/
def clampT (x : Int) : Int := clampI (-64 * 4294967296) (2047 * 4294967296) x

/-- A temperature in 1/16 degree as a node. -/
def node (t : Int) : Int := t * 268435456

/-! ### The update of a tick (R219, R220, R223) -/

/-- The nodes and powers after a tick (R219); the accumulators clear. -/
def thModel (ta tref : Int) (scale : Nat) (c : ThCh) : ThCh :=
  let u (i : Nat) : Int := c.par i
  let i2 := tdivI ((c.e2 : Int) * scale * scale) 250000000
  let d16 := sar (c.tw - 20 * 4294967296) 28
  let rw := max 1 (u 1 * 1000 + tdivI (u 1 * u 2 * d16) 16000)
  let pc := tdivI (i2 * rw) 1000000
  let qwh := tdivI ((c.tw - c.th) * 100000000) (u 4 * 4294967296)
  let qha := tdivI ((c.th - node ta) * 100000000) (u 6 * 4294967296)
  let i2on := tdivI ((c.e2on : Int) * scale * scale) 250000000
  let pj := tdivI (i2on * u 10) 1000 + tdivI ((c.e1off : Int) * scale * u 11) 250000
  let qj := tdivI ((c.tj - node tref) * 100000000) (u 13 * 4294967296)
  { c with tw := clampT (c.tw + tdivI ((pc - qwh) * 4294967296) (u 3 * 10000000)), th := clampT (c.th + tdivI ((qwh - qha) * 4294967296) (u 5 * 100000000)), tj := clampT (c.tj + tdivI ((pj - qj) * 4294967296) (u 12 * 10000000)), pc := min 65535 (pc / 10000).toNat, pj := min 65535 (pj / 10000).toNat }

/-- The step that a node asks for (R220). -/
def stepFor (x start : Int) (step : Nat) : Nat :=
  if x < start then 0 else min 16 (tdivI (x - start) step + 1).toNat

/-- The step and the raw step of an enabled channel after the update (R220). -/
def thStep (c : ThCh) : ThCh :=
  let w := nodeWord c.tw
  let j := nodeWord c.tj
  let raw := max (stepFor w (c.spar 7) (c.par 8)) (if c.jen then stepFor j (c.spar 14) (c.par 15) else 0)
  let smax := 16 - c.floor
  let st := c.step
  let below := decide (w < c.spar 7 + ((st : Int) - 1) * c.par 8 - c.par 17) &&
    (!c.jen || decide (j < c.spar 14 + ((st : Int) - 1) * c.par 15 - c.par 17))
  let next := if smax < st then smax else if st < min raw smax then st + 1 else if 0 < st && below then st - 1 else st
  { c with step := next, raw := raw }

/-- FLR, CLIM and JLIM after the step (R223). -/
def thFlags (c : ThCh) : ThCh :=
  let w := nodeWord c.tw
  let j := nodeWord c.tj
  let smax := 16 - c.floor
  let lim (old : Bool) (x : Int) (i : Nat) : Bool :=
    if c.spar i ≤ x then true else if x < c.spar i - c.par 17 then false else old
  let full := c.step == smax && decide (smax ≤ c.raw)
  { c with flr := full && (decide (1 ≤ smax) || c.flr), clim := lim c.clim w 9, jlim := lim c.jlim j 16 }

/-- A channel with EN = 0 at a tick (R220). -/
def thOff (c : ThCh) : ThCh :=
  let clears (x : Int) (i : Nat) : Bool := decide (x < c.spar i - c.par 17)
  { c with step := 0, raw := 0, flr := false, clim := c.clim && !clears (nodeWord c.tw) 9, jlim := c.jlim && !clears (nodeWord c.tj) 16 }

/-- A tick of one channel: waiting parameters and node values, the model, the step and the flags (R217 to R225). -/
def thTick (ta tref : Int) (scale : Nat) (c : ThCh) : ThCh :=
  let c := { c with live := c.waiting.getD c.live, waiting := none }
  let c := match c.init with
    | some t => { c with tw := node t, th := node t, tj := node t, init := none }
    | none => c
  let c := if c.en then thFlags (thStep (thModel ta tref scale c)) else thOff c
  { c with e2 := 0, e2on := 0, e1off := 0 }

/-- The events of a channel's tick, in the order of their sources (R223). -/
def thEvents (n : Fin 8) (old new : ThCh) (s : State) : State :=
  let s := if old.step = 0 && 0 < new.step then raise 24 n.val (w16 new.step) s else s
  let s := if !old.flr && new.flr then raise 25 n.val (w16 new.step) s else s
  let s := if !old.clim && new.clim then raise 26 n.val (i16 (nodeWord new.tw)) s else s
  let s := if !old.jlim && new.jlim then raise 27 n.val (i16 (nodeWord new.tj)) s else s
  let thr := (old.step = 0) != (new.step = 0)
  setIntIf (thr || (!old.flr && new.flr) || (!old.clim && new.clim) || (!old.jlim && new.jlim)) 4 s

/-! ### Die temperature (R214 to R216) -/

/-- DIEHI follows DIEMAX (R216). -/
def dieCheck (s : State) : State :=
  let t := s.therm
  if !t.diehi && decide ((t.diethr : Int) ≤ t.diemax) then
    raise 23 0 (i16 t.diemax) { s with therm := { t with diehi := true } }
  else if t.diehi && decide (t.diemax < (t.diethr : Int) - t.diehys) then { s with therm := { t with diehi := false } }
  else s

/-- DIEMAX after a conversion (R215). -/
def dieMax (t : Therm) : Int :=
  let vs := (List.finRange 4).filter fun (k : Fin 4) => t.dieval[k]
  match vs with
  | [] => 32767
  | k :: ks => ks.foldl (fun m (j : Fin 4) => max m t.die[j]) t.die[k]

/-- A die sensor converts (R215). -/
def opDie (k : Fin 4) (r : Int) (s : State) : State :=
  let t := s.therm
  let ok := decide (-110 ≤ r) && decide (r ≤ 350)
  let s := if !ok && t.dieval[k] then raise 22 0 (w16 k.val) s else s
  let t := if ok then { t with die := vupd t.die k fun _ => r, dieval := vupd t.dieval k fun _ => true } else { t with dieval := vupd t.dieval k fun _ => false }
  let m := dieMax t
  dieCheck { s with therm := { t with diemax := m, diepeak := max t.diepeak m } }

/-- DIE_CONVERSION (R215). -/
def execDieConversion (k : Fin 4) (reading : Int) (s : State) : Host.Outcome State Fault Refusal :=
  .next (if liveN s && blkOn s .therm then opDie k reading s else s)

/-! ### The tick -/

/-- The waiting ambients and die settings take effect (R225). -/
def thSettings (t : Therm) : Therm :=
  let t := match t.amb with
    | some (a, r) => { t with ta := a, tref := r, amb := none }
    | none => t
  match t.dieSet with
  | some (thr, hys) => { t with diethr := thr, diehys := hys, dieSet := none }
  | none => t

/-- Parameters or settings take effect at this tick, so that the shadow follows (R225, R368). -/
def thPending (t : Therm) : Bool := t.amb.isSome || t.dieSet.isSome || t.ch.toList.any (·.waiting.isSome)

/-- The thermal tick (R219 to R223). -/
def opThermalTick (s : State) : State :=
  let old := s.therm
  let t := thSettings { old with tickAt := some s.clk.tb }
  let ch := vmapi (fun (n : Fin 8) c => thTick t.ta t.tref s.chan[sh n].cfg.scale c) t.ch
  let steps := stepOf s
  let s := { s with therm := { t with ch := ch } }
  let s := foldSt (List.finRange 8) (fun n s => thEvents n old.ch[n] ch[n] s) s
  let s := foldSt (List.finRange 8) (fun (n : Fin 8) s => if stepOf s (sh n) = steps (sh n) then s else throttleMoved (sh n) s) s
  let s := if old.dieSet.isSome then dieCheck s else s
  if thPending old then shadowTherm s else s

/-- A tick of the models falls on this TB value (R217). -/
def dueThermal (s : State) : Bool :=
  liveN s && blkOn s .therm && s.clk.tb.toNat % 10000 == 0 && s.therm.tickAt != some s.clk.tb

/-- THERMAL_TICK (R219). -/
def execThermalTick (s : State) : Host.Outcome State Fault Refusal :=
  .next (if dueThermal s then opThermalTick s else s)

/-- FCLK has stopped: the tick in progress is discarded (R224). -/
def thermFastReset (s : State) : State :=
  { s with therm := { s.therm with ch := vmapi (fun _ (c : ThCh) => { c with e2 := 0, e2on := 0, e1off := 0 }) s.therm.ch } }

/-! ### THERM_SET (R225, R449) -/

/-- A staged set meets the conditions of APPLY (R225). -/
def thApplyOk (v : Vector Word 18) : Bool :=
  [1, 3, 4, 5, 6, 12, 13, 8, 15].all (fun i => vget v i 0 != 0) && decide (fld (vget v 0 0) 8 5 ≤ 16) &&
    decide ((vget v 2 0).toNat ≤ 20000)

/-- A parameter word as it is held: the reserved bits of CFG are not (R14, R226). -/
def thWord (i : Nat) (w : Word) : Word := if i = 0 then w &&& 0x1F03 else w

/-- A set becomes waiting for its channel; every other staged set starts again from what its channel holds (R225). -/
def thApply (named : Bool) (c : ThCh) : ThCh :=
  if named then { c with waiting := some c.staged } else { c with staged := c.waiting.getD c.live }

/-- The range of AMB and INIT (R225). -/
def ambOk (w : Word) : Bool := decide (-640 ≤ sgn w) && decide (sgn w ≤ 3200)

/-- One thermal channel replaced by a function of itself. -/
def updTh (f : Fin 8 → ThCh → ThCh) (s : State) : State := { s with therm := { s.therm with ch := vmapi f s.therm.ch } }

/-- THERM_SET (R225, R449). -/
def cmdThermSet (a : Args) (s : State) : CmdRes :=
  let form := fld a.a0 13 3
  if form = 0 then
    checked (within a.a0 0xE0FF && decide (fld a.a0 3 5 ≤ 17)) [] s
      { st := updTh (fun n c => if n.val = fld a.a0 0 3 then { c with staged := vput c.staged (fld a.a0 3 5) (thWord (fld a.a0 3 5) a.a1) } else c) s }
  else if form = 1 then
    checked (within a.a0 0xE0FF) [(List.finRange 8).all fun (n : Fin 8) => !bit a.a0 n.val || thApplyOk s.therm.ch[n].staged] s
      { st := updTh (fun n c => thApply (bit a.a0 n.val) c) s }
  else if form = 2 then
    checked (within a.a0 0xE000 && ambOk a.a1 && ambOk a.a2) [] s
      { st := { s with therm := { s.therm with amb := some (sgn a.a1, sgn a.a2) } } }
  else if form = 3 then
    checked (within a.a0 0xE0FF && ambOk a.a1) [] s
      { st := updTh (fun n c => if bit a.a0 n.val then { c with init := some (sgn a.a1) } else c) s }
  else if form = 4 then
    checked (within a.a0 0xE000 && decide (a.a1.toNat ≤ 350) && within a.a2 0x003F) [] s
      { st := { s with therm := { s.therm with dieSet := some (a.a1.toNat, a.a2.toNat) } } }
  else badArg s

/-- The arguments with the form field of A0 set. -/
def thermForm (k : Nat) (a : Args) : Args := { a with a0 := (a.a0 &&& 0x1FFF) ||| w16 (k * 8192) }

/-- THERM_SET STAGE (R225). -/
def execThermSetStage (a : Args) (s : State) : Host.Outcome State Fault Refusal :=
  .next (mboxRow 0x18 cmdThermSet (thermForm 0 a) s)

/-- THERM_SET APPLY (R225). -/
def execThermSetApply (a : Args) (s : State) : Host.Outcome State Fault Refusal :=
  .next (mboxRow 0x18 cmdThermSet (thermForm 1 a) s)

/-- THERM_SET AMB (R225). -/
def execThermSetAmb (a : Args) (s : State) : Host.Outcome State Fault Refusal :=
  .next (mboxRow 0x18 cmdThermSet (thermForm 2 a) s)

/-- THERM_SET INIT (R225). -/
def execThermSetInit (a : Args) (s : State) : Host.Outcome State Fault Refusal :=
  .next (mboxRow 0x18 cmdThermSet (thermForm 3 a) s)

/-- THERM_SET DIE (R225). -/
def execThermSetDie (a : Args) (s : State) : Host.Outcome State Fault Refusal :=
  .next (mboxRow 0x18 cmdThermSet (thermForm 4 a) s)

/-! ### Window THERM and THRSTAT -/

/-- UNC of a channel: its line is in wire break while EN is 1 (R218). -/
def thUnc (s : State) (n : Fin 8) : Bool := s.therm.ch[n].en && s.lines[n].wbrk

/-- Words 19 to 23 of a channel as they stand (R226). -/
def thSnapshot (s : State) (n : Fin 8) : Vector Word 5 :=
  let c := s.therm.ch[n]
  #v[i16 (nodeWord c.th), i16 (nodeWord c.tj), w16 c.pc, w16 c.pj,
    w16 (c.step + 32 * c.raw + b2n (thUnc s n) 10 + b2n c.flr 11 + b2n c.clim 12 + b2n c.jlim 13)]

/-- A read of TW captures words 19 to 23 on its path (R227). -/
def readTw (p : Path) (n : Fin 8) (s : State) : Word × State :=
  let v := thSnapshot s n
  (i16 (nodeWord s.therm.ch[n].tw),
   match p with
   | .host => updTh (fun k c => if k = n then { c with capH := v } else c) s
   | .debug => updTh (fun k c => if k = n then { c with capD := v } else c) s)

/-- A read of window THERM (R226, R227). -/
def readTherm (p : Path) (off : Nat) (s : State) : Word × State :=
  let t := s.therm
  if h : off / 32 < 8 then
    let n : Fin 8 := ⟨off / 32, h⟩
    let k := off % 32
    if k < 18 then (vget t.ch[n].live k 0, s)
    else if k = 18 then readTw p n s
    else if k < 24 then (vget (match p with | .host => t.ch[n].capH | .debug => t.ch[n].capD) (k - 19) 0, s)
    else (0, s)
  else
    (match off with
     | 256 => i16 t.ta
     | 257 => i16 t.tref
     | 258 => w16 t.diethr
     | 259 => w16 t.diehys
     | 260 => i16 t.diemax
     | 261 => i16 t.die[0]
     | 262 => i16 t.die[1]
     | 263 => i16 t.die[2]
     | 264 => i16 t.die[3]
     | 265 => i16 t.diepeak
     | 266 => w16 (b2n t.dieval[0] 0 + b2n t.dieval[1] 1 + b2n t.dieval[2] 2 + b2n t.dieval[3] 3)
     | _ => 0, s)

/-- THERM_CAPTURE: a read of TW (R227). -/
def execThermCapture (n : Fin 8) (s : State) : Host.Outcome State Fault Refusal :=
  .next (windowRead (.thermCapture n) 6 (32 * n.val + 18) (gatedWindow .therm 6 (readTw .host n)) s)

/-- THRSTAT (R228). -/
def thrstat (s : State) : Word :=
  let t := s.therm
  let bits := (List.finRange 8).foldl (fun acc (n : Fin 8) => acc + b2n (t.ch[n].step != 0) n.val) 0
  w16 (bits + b2n (t.ch.toList.any (·.flr)) 8 + b2n t.diehi 9 + b2n (t.ch.toList.any fun c => c.clim || c.jlim) 10 +
    b2n ((List.finRange 8).any fun n => thUnc s n) 11)

end Sys2Proof.Machine
end

