-- ==== Sys2Proof/Machine/Timers.lean ====
section
/-! DEFINITION. The general timers (R229 to R244). -/

namespace Sys2Proof.Machine

/-! ### Gates (R233, R234) -/

/-- The last valid frame of a line has I > NOCUR (R233). -/
def lineCurrent (s : State) (n : Nat) : Bool :=
  let l := vget s.lines n {}
  l.any && decide ((vget s.diag.ch n {}).nocur < l.lastI)

/-- The value of a gate signal (R233); none for a code that never counts. -/
def gateSignal (s : State) (src : Nat) : Option Bool :=
  if src ≤ 12 then some (pinDrv s (chOf (src - 1)))
  else if src ≤ 20 then some (!idle s (chOf (src - 13)))
  else if src ≤ 28 then some s.chan[chOf (src - 21)].prog.siga
  else if src ≤ 36 then some s.chan[chOf (src - 29)].prog.sigb
  else if src ≤ 40 then some (vget s.pins.cam (src - 37) {}).lvl
  else if src = 41 then some s.pins.crank.lvl
  else if src = 42 then some s.pins.trip.lvl
  else if src = 43 then some (pinBoost s)
  else if src = 44 then some (pinCstb s)
  else if src ≤ 52 then some (lineCurrent s (src - 45))
  else none

/-- The gate of a timer stands at the chosen level (R229, R233). -/
def gateOpen (s : State) (t : Timer) : Bool := t.gsrc == 0 || gateSignal s t.gsrc == some t.glvl

/-! ### Counting (R229 to R232) -/

/-- The count is at its top. -/
def countTop : Nat := 4294967295

/-- The increment returns the count to 0: by CLRM after a match, or from the top (R230). -/
def Timer.clears (t : Timer) : Bool := t.clrm && !t.os && t.count == t.cmp
def Timer.wraps (t : Timer) : Bool := t.clears || (!t.os && t.count == countTop)

/-- The increment sets OVF (R230, R232). -/
def Timer.incOvf (t : Timer) : Bool := t.count == countTop && !t.clears

/-- The count after an increment (R230, R232). -/
def Timer.incTo (t : Timer) : Nat :=
  if t.wraps then 0 else if t.count = countTop then countTop else t.count + 1

/-- The increment sets MATCH (R231): a one-shot that stays at the top makes no increment. -/
def Timer.incMatch (t : Timer) : Bool := (t.wraps || t.count != countTop) && t.incTo == t.cmp

/-- EN clears: a waiting preload becomes active (R235). -/
def Timer.halt (t : Timer) : Timer :=
  { t with en := false, inc := false, shut := false, cmp := if t.pld then t.preload else t.cmp, pld := false }

/-- One increment with its flags, its wrap and the end of a one-shot (R230 to R232, R235). -/
def Timer.step (t : Timer) : Timer :=
  let m := t.incMatch
  let o := t.incOvf
  let u := { t with count := t.incTo, hit := t.hit || m, ovf := t.ovf || o, inc := false }
  let u := if t.wraps then { u with cmp := if t.pld then t.preload else t.cmp, pld := false } else u
  if t.os && (m || o) then u.halt else u

/-- A timer's account of one TB tick, with its gate open or not (R229, R232): an increment that sets a flag and the end of
a gated one-shot are left to their rows (log 1). -/
def Timer.tick (gate : Bool) (t : Timer) : Timer :=
  if t.en && gate then
    let t := { t with gateSeen := true, shut := false }
    if t.residue + 1 < 2 ^ t.pre then { t with residue := t.residue + 1 }
    else
      let t := { t with residue := 0 }
      if t.incMatch || t.incOvf then { t with inc := true } else t.step
  else { t with shut := t.en && t.os && t.gsrc != 0 && t.gateSeen }

/-- The timers count: FCLK runs and the block's gate is open (R244). -/
def timLive (s : State) : Bool := liveN s && blkOn s .tim

/-- One timer replaced by a function of itself. -/
def updTim (k : Fin 8) (f : Timer → Timer) (s : State) : State := { s with tim := { s.tim with t := vupd s.tim.t k f } }

/-- The interrupt condition of a timer whose flags have risen (R243). -/
def timInt (k : Fin 8) (old : Timer) (s : State) : State :=
  let t := s.tim.t[k]
  setIntIf (t.ie && ((t.hit && !old.hit) || (t.ovf && !old.ovf))) 5 s

/-- The flags that the device sets in this tick are noted, also one that was set already (R242). -/
def Timer.noteSet (m o : Bool) (tb : Tb) (t : Timer) : Timer :=
  { t with hitAt := if m then some tb else t.hitAt, ovfAt := if o then some tb else t.ovfAt }

/-- A timer changes and sets MATCH or OVF, with its interrupt condition. -/
def timDo (k : Fin 8) (m o : Bool) (f : Timer → Timer) (s : State) : State :=
  timInt k s.tim.t[k] (updTim k (fun t => (f t).noteSet m o s.clk.tb) s)

/-- The increment that waits for its row is made (R230 to R232). -/
def timStep (k : Fin 8) (s : State) : State := timDo k s.tim.t[k].incMatch s.tim.t[k].incOvf Timer.step s

/-- An increment of timer k that sets MATCH, or OVF, falls in this tick. -/
def dueMatch (s : State) (k : Fin 8) : Bool := timLive s && s.tim.t[k].inc && s.tim.t[k].incMatch
def dueOvf (s : State) (k : Fin 8) : Bool := timLive s && s.tim.t[k].inc && s.tim.t[k].incOvf

/-- TIMER_MATCH (R231). -/
def execTimerMatch (k : Fin 8) (s : State) : Host.Outcome State Fault Refusal :=
  .next (if dueMatch s k then timStep k s else s)

/-- TIMER_OVERFLOW (R230). -/
def execTimerOverflow (k : Fin 8) (s : State) : Host.Outcome State Fault Refusal :=
  .next (if dueOvf s k then timStep k s else s)

/-- The gate of a one-shot has left its level in this tick after at least one tick at it (R232). -/
def dueGateStop (s : State) (k : Fin 8) : Bool := timLive s && s.tim.t[k].en && s.tim.t[k].shut

/-- A gated one-shot ends: MATCH is set (R232). -/
def Timer.gateStop (t : Timer) : Timer := ({ t with hit := true } : Timer).halt

/-- TIMER_GATE_STOP (R232). -/
def execTimerGateStop (k : Fin 8) (s : State) : Host.Outcome State Fault Refusal :=
  .next (if dueGateStop s k then timDo k true false Timer.gateStop s else s)

/-! ### Registers (R235 to R243) -/

/-- The selected timer. -/
def timSel (s : State) : Fin 8 := ⟨s.tim.sel % 8, Nat.mod_lt _ (by decide)⟩

/-- A TIMCTL write on a timer (R229, R235, R240). -/
def Timer.control (w : Word) (t : Timer) : Timer :=
  let pre := fld w 3 4
  let arm := bit w 0 && !t.en
  let u := { t with os := bit w 1, clrm := bit w 2, pre := pre, gsrc := fld w 7 6, glvl := bit w 13, ie := bit w 14, residue := if arm || pre != t.pre then 0 else t.residue }
  if arm then { u with en := true, gateSeen := false, inc := false, shut := false }
  else if !bit w 0 && t.en then u.halt else u

/-- A TIMCTL write to the selected timer (R240, R243). The settings apply from the next TB tick: an increment of this tick
that still waits for its row is made under those before. -/
def writeTimctl (w : Word) (s : State) : State :=
  let k := timSel s
  let s := if s.tim.t[k].inc && bit w 0 then timStep k s else s
  let old := s.tim.t[k]
  setIntIf (bit w 14 && !old.ie && (old.hit || old.ovf)) 5 (updTim k (Timer.control w) s)

/-- A TIMCNT_H write (R229, R236). -/
def loadCount (hi : Word) (s : State) : State :=
  updTim (timSel s) (fun t => { t with count := hi.toNat * 65536 + t.cntStage.toNat, residue := 0, inc := false }) s

/-- A TIMCMP_H write (R235). -/
def loadPreload (hi : Word) (s : State) : State :=
  updTim (timSel s) (fun t =>
    let v := hi.toNat * 65536 + t.cmpStage.toNat
    if t.en then { t with preload := v, pld := true } else { t with preload := v, cmp := v, pld := false }) s

/-- MATCH and OVF are cleared, but for a flag that this tick has set (R242). -/
def Timer.clearFlags (hit ovf : Bool) (tb : Tb) (t : Timer) : Timer :=
  { t with hit := t.hit && (!hit || t.hitAt == some tb), ovf := t.ovf && (!ovf || t.ovfAt == some tb) }

/-- A TIMFLG write (R242). -/
def clearFlags (w : Word) (s : State) : State :=
  { s with tim := { s.tim with t := vmapi (fun (k : Fin 8) (t : Timer) => t.clearFlags (bit w k.val) (bit w (8 + k.val)) s.clk.tb) s.tim.t } }

/-- A write of a timer register (R239 to R242). -/
def writeTim (a : Nat) (w : Word) (s : State) : State :=
  if a = 0x50 then { s with tim := { s.tim with sel := fld w 0 3 } }
  else if a = 0x52 then writeTimctl w s
  else if a = 0x54 then updTim (timSel s) (fun t => { t with cntStage := w }) s
  else if a = 0x56 then loadCount w s
  else if a = 0x58 then updTim (timSel s) (fun t => { t with cmpStage := w }) s
  else if a = 0x5A then loadPreload w s
  else if a = 0x5C then clearFlags w s
  else s

/-- TIMCTL of a timer (R240). -/
def Timer.ctl (t : Timer) : Word :=
  w16 (b2n t.en 0 + b2n t.os 1 + b2n t.clrm 2 + 8 * t.pre + 128 * t.gsrc + b2n t.glvl 13 + b2n t.ie 14 + b2n t.pld 15)

/-- TIMFLG (R242). -/
def timflg (s : State) : Word :=
  w16 ((List.finRange 8).foldl (fun acc (k : Fin 8) => acc + b2n s.tim.t[k].hit k.val + b2n s.tim.t[k].ovf (8 + k.val)) 0)

/-- A read of a timer register (R237, R239 to R242). -/
def readTim (a : Nat) (s : State) : Word :=
  let t := s.tim.t[timSel s]
  if a = 0x50 then w16 s.tim.sel
  else if a = 0x52 then t.ctl
  else if a = 0x54 then w16 t.count
  else if a = 0x56 then w16 (t.count / 65536)
  else if a = 0x58 then w16 t.cmp
  else if a = 0x5A then w16 (t.cmp / 65536)
  else if a = 0x5C then timflg s
  else 0

/-- TIMER_REARM: a TIMCTL write of EN = 1 (R240). -/
def execTimerRearm (w : Word) (s : State) : Host.Outcome State Fault Refusal :=
  .next (hostRow (.timerRearm w) (gatedWrite .tim 0x52 (writeTim 0x52 (w ||| 1))) s)

/-- COUNT_LOAD (R236). -/
def execCountLoad (hi : Word) (s : State) : Host.Outcome State Fault Refusal :=
  .next (hostRow (.countLoad hi) (gatedWrite .tim 0x56 (writeTim 0x56 hi)) s)

/-- PRELOAD_LOAD (R235). -/
def execPreloadLoad (hi : Word) (s : State) : Host.Outcome State Fault Refusal :=
  .next (hostRow (.preloadLoad hi) (gatedWrite .tim 0x5A (writeTim 0x5A hi)) s)

/-- TIMER_FLAG_CLEAR (R242). -/
def execTimerFlagClear (w : Word) (s : State) : Host.Outcome State Fault Refusal :=
  .next (hostRow (.timerFlagClear w) (gatedWrite .tim 0x5C (writeTim 0x5C w)) s)

/-- The residues clear when FCLK restarts (R244). -/
def timFastReset (s : State) : State :=
  { s with tim := { s.tim with t := vmapi (fun _ (t : Timer) => { t with residue := 0, inc := false }) s.tim.t } }

end Sys2Proof.Machine
end

