-- ==== Sys2Proof/Machine/Wheel.lean ====
section
/-! DEFINITION. The rows of the wheel decoder and its configuration commands (R28 to R65, R79 to R83). -/

namespace Sys2Proof.Machine

/-! ### Edges and deadlines -/

/-- The FILTER cycles of the glitch filters; with FCLK stopped nothing waits in them (R30, R512). -/
def filterLen (s : State) : Nat := if fclkRuns s then s.wheel.cfg.filter else 0

/-- A transition of CRANK goes through its glitch filter (R30): the edges that pass. -/
def crankPin (lvl : Bool) (stamp : Tb) (s : State) : List (Bool × Tb) × State :=
  let r := filterEdge (filterLen s) s.clk.tb s.pins.crankWait lvl stamp
  (r.1, { s with pins := { s.pins with crank := s.pins.crank.put lvl stamp, crankWait := r.2 } })

/-- A transition of the emitted crank signal goes through the glitch filter (R30, R507). -/
def crankLoop (lvl : Bool) (stamp : Tb) (s : State) : List (Bool × Tb) × State :=
  let r := filterEdge s.wheel.cfg.filter s.clk.tb s.emit.crankWait lvl stamp
  (r.1, { s with emit := { s.emit with crankWait := r.2 } })

/-- The crank edges that the decoder takes: those of the emitted signal in loopback, or those of the pin while the
emitter is at rest (R507). -/
def crankIn (tooth : Bool) (stamp : Tb) (s : State) : List (Bool × Tb) × State :=
  if loopIn s stamp tooth then
    let r := crankLoop (tooth != s.wheel.cfg.edge) stamp s
    (if wheelLive s then r.1 else [], r.2)
  else
    let r := crankPin (tooth != s.wheel.cfg.edge) stamp s
    (if pinIn s then r.1 else [], r.2)

/-- A crank tooth edge counts as coarse for the first four after a wake from STOP (R57). -/
def countCoarse (s : State) : Bool × State :=
  if s.sys.coarse then
    if s.sys.coarseSeen < 4 then (false, { s with sys := { s.sys with coarseSeen := s.sys.coarseSeen + 1 } })
    else (true, { s with sys := { s.sys with coarse := false } })
  else (true, s)

/-- A crank tooth edge that the decoder takes. -/
def takeTooth (stamp : Tb) (s : State) : State :=
  let (fine, s) := countCoarse s
  toothEdge stamp fine s

/-- The wake capture works: after a wake from STOP with AOC, until the fifth crank edge (R353). -/
def captureOn (s : State) : Bool := s.sys.coarse && !s.sys.coarseOff

/-- The stamp of a captured edge: TB at the latest AOC edge not after it (R57, R353). -/
def coarseStamp (s : State) (t : Tb) : Tb := if tbGe t s.clk.aocTb then s.clk.aocTb else s.clk.aocPrev

/-- LATE_TOOTH_DEADLINE (R40). -/
def execLateToothDeadline (s : State) : Host.Outcome State Fault Refusal :=
  .next (if dueLate s then opLate s else s)

/-- The opposite edge of a tooth pulse gives its code (R43, R44). -/
def opCode (stamp : Tb) (s : State) : State :=
  match s.wheel.pulse with
  | none => s
  | some (t, _) =>
    let wide := decide (s.wheel.thresh ≤ tbSince t stamp)
    let s := updWheel (fun w => { w with pulse := none }) s
    if wide != s.wheel.sense then reverseCode s else forwardCode t s

/-- A crank edge that has passed the glitch filter: a tooth edge, or in PULSE mode the edge that closes a tooth pulse
(R30, R43). -/
def crankEdge (e : Bool × Tb) (s : State) : State :=
  if e.1 != s.wheel.cfg.edge then takeTooth e.2 s else if s.wheel.dirPulse then opCode e.2 s else s

/-- A tooth edge of CRANK while the wake capture takes it: without the glitch filter, and with a coarse stamp (R353). -/
def crankCaptured (stamp : Tb) (s : State) : State :=
  let s := { s with pins := { s.pins with crank := s.pins.crank.put (!s.wheel.cfg.edge) stamp, crankWait := none } }
  if pinIn s then takeTooth (coarseStamp s stamp) s else s

/-- A transition of CRANK or of the emitted crank signal: every edge that passes the filter is taken, in order. The first
four tooth edges of CRANK after a wake go through the wake capture (R353). -/
def crankRow (tooth : Bool) (stamp : Tb) (s : State) : State :=
  if tooth && captureOn s && decide (s.sys.coarseSeen < 4) && !loopIn s stamp tooth then crankCaptured stamp s
  else
    let r := crankIn tooth stamp s
    foldSt r.1 crankEdge r.2

/-- CRANK_TOOTH_EDGE (R69). -/
def execCrankToothEdge (stamp : Tb) (s : State) : Host.Outcome State Fault Refusal := .next (crankRow true stamp s)

/-- DIRECTION_CODE_EDGE (R43). -/
def execDirectionCodeEdge (stamp : Tb) (s : State) : Host.Outcome State Fault Refusal := .next (crankRow false stamp s)

/-- A transition of a cam pin goes through its glitch filter (R33): the edges that pass. -/
def camPin (c : Fin 4) (rise : Bool) (stamp : Tb) (s : State) : List (Bool × Tb) × State :=
  let r := filterEdge (filterLen s) s.clk.tb s.pins.camWait[c] rise stamp
  (r.1, { s with pins := { s.pins with cam := vupd s.pins.cam c (PinIn.put rise stamp), camWait := vupd s.pins.camWait c fun _ => r.2 } })

/-- The emitted cam of a number, and what waits in its filter (R507). -/
def loopCam (s : State) (c : Nat) : Option (Bool × Tb) :=
  if s.emit.run && s.emit.loop then vget s.emit.camWait c none else none

/-- A transition of an emitted cam goes through the glitch filter (R33, R507). -/
def camLoop (c : Nat) (rise : Bool) (stamp : Tb) (s : State) : List (Bool × Tb) × State :=
  let r := filterEdge s.wheel.cfg.filter s.clk.tb (vget s.emit.camWait c none) rise stamp
  (r.1, { s with emit := { s.emit with camWait := vput s.emit.camWait c r.2 } })

/-- The cam edges that the decoder takes: those of an emitted cam that leave the filter, or those of the pin while the
emitter is at rest (R507). -/
def camIn (c : Fin 4) (rise : Bool) (stamp : Tb) (s : State) : List (Bool × Tb) × State :=
  if loopCam s c.val == some (rise, stamp) then
    let r := camLoop c.val rise stamp s
    (if wheelLive s then r.1 else [], r.2)
  else
    let r := camPin c rise stamp s
    (if pinIn s then r.1 else [], r.2)

/-- A cam edge that the decoder takes: until the fifth crank edge after a wake from STOP it is coarse, and only the first
16 of the capture count (R57, R353). -/
def takeCam (c : Fin 4) (rise : Bool) (t : Tb) (s : State) : State :=
  if !s.sys.coarse then camEdge c rise t true s
  else if s.sys.coarseOff then camEdge c rise t false s
  else if !(s.cams[c].en && s.cams[c].uses rise) || decide (16 ≤ s.sys.capCams) then s
  else camEdge c rise t false { s with sys := { s.sys with capCams := s.sys.capCams + 1 } }

/-- A cam edge while the wake capture takes it: without the glitch filter, and with a coarse stamp (R353). -/
def camCaptured (c : Fin 4) (rise : Bool) (stamp : Tb) (s : State) : State :=
  let s := { s with pins := { s.pins with cam := vupd s.pins.cam c (PinIn.put rise stamp), camWait := vupd s.pins.camWait c fun _ => none } }
  if pinIn s then takeCam c rise (coarseStamp s stamp) s else s

/-- A transition of a cam pin or of an emitted cam: every edge that passes the filter is taken, in order; before the fifth
crank edge after a wake those of a pin go through the wake capture (R353). -/
def camRow (c : Fin 4) (rise : Bool) (stamp : Tb) (s : State) : State :=
  if captureOn s && loopCam s c.val != some (rise, stamp) then camCaptured c rise stamp s
  else
    let r := camIn c rise stamp s
    foldSt r.1 (fun e u => takeCam c e.1 e.2 u) r.2

/-- CAM_EDGE (R48). -/
def execCamEdge (c : Fin 4) (rise : Bool) (stamp : Tb) (s : State) : Host.Outcome State Fault Refusal :=
  .next (camRow c rise stamp s)

/-- CAM_WINDOW_CLOSE (R42). -/
def execCamWindowClose (i : Fin 16) (s : State) : Host.Outcome State Fault Refusal :=
  .next (if dueClose s i then opClose i s else s)

/-- LIMP_CAM_TIMEOUT (R51). -/
def execLimpCamTimeout (s : State) : Host.Outcome State Fault Refusal :=
  .next (if dueLimp s then input 7 (raise 2 0 0 s) else s)

/-- STALL_TIMEOUT (R50). -/
def execStallTimeout (s : State) : Host.Outcome State Fault Refusal :=
  .next (if dueStall s then opStall s else s)

/-! ### WHEEL_SET (R60, R61, R82, R441) -/

/-- The wheel that the arguments name. -/
def wheelOf (a : Args) : WheelCfg :=
  { n := fld a.a0 0 9, m := fld a.a0 9 1 + 1, two := bit a.a0 10, edge := bit a.a0 11, filter := a.a1.toNat, offset := a.a2.toNat + 65536 * a.a3.toNat }

/-- The fields lie in their ranges (R60). -/
def wheelArgsOk (a : Args) : Bool :=
  let w := wheelOf a
  within a.a0 0x0FFF && within a.a1 0x00FF && within a.a3 0x0007 && decide (8 ≤ w.n) && decide (w.n ≤ 256) && decide (w.offset < 368640)

/-- LIMPEN is 1, in force or waiting for the next crank edge (R61, R63). -/
def limpOn (s : State) : Bool := s.wheel.pol.limpen || s.wheel.polNext.any (·.limpen)

/-- A change of STROKE is possible (R61). -/
def strokeFree (s : State) : Bool :=
  !(s.cams.toList.any (·.en)) && !limpOn s && !(s.cpc.wins.toList.any (·.live.en)) &&
    !(s.sched.slots.toList.any fun x => x.st == .pending || x.st == .armed)

/-- The geometry table follows the wheel (R82). -/
def wheelTable (c : WheelCfg) (s : State) : State :=
  let g := s.geom
  if g.tableM = 0 then { s with geom := { g with tableN := c.n, tableM := c.m } }
  else if g.tableN = c.n && g.tableM = c.m then s
  else shadowGeom { s with geom := flatten g c.n c.m }

/-- The edges of a cam are discarded by a change of STROKE (R61). -/
def dropEdges (x : Cam) : Cam := { x with edges := [], staged := Vector.replicate 16 none }

/-- A wheel comes into force (R59 to R61, R82, R87). -/
def applyWheel (a : Args) (s : State) : State :=
  let c := wheelOf a
  let chg := c.two != s.wheel.cfg.two
  let s := clearSearch (input 12 s)
  let s := if chg then { s with cams := vmapi (fun _ x => dropEdges x) s.cams } else s
  let start := if s.wheel.cfgd then s.wheel.stallFrom else some s.clk.tb
  let s := { s with spd := none, wheel := { s.wheel with cfg := c, cfgd := true, stallFrom := start, args := { s.wheel.args with wheel := a } } }
  wheelTable c (updMir (fun m => { m with spd := none }) s)

/-- WHEEL_SET (R60, R441). -/
def cmdWheelSet (a : Args) (s : State) : CmdRes :=
  let c := wheelOf a
  checked (wheelArgsOk a) [368640 % c.n == 0, decide (6 + c.m ≤ c.n), c.two == s.wheel.cfg.two || strokeFree s] s
    { st := checkConfig (sendConfig (applyWheel a s)) }

/-- WHEEL_SET (R60). -/
def execWheelSet (a : Args) (s : State) : Host.Outcome State Fault Refusal :=
  .next (mboxRow 0x08 cmdWheelSet a s)

/-! ### CAM_SET (R33 to R36, R62, R441) -/

/-- A cam by its number. -/
def camNo (n : Nat) : Fin 4 := ⟨n % 4, Nat.mod_lt _ (by decide)⟩

/-- The edge form stages one edge (R62). -/
def cmdCamEdge (a : Args) (s : State) : CmdRes :=
  let ang := a.a1.toNat + 65536 * a.a2.toNat
  let c := camNo (fld a.a0 0 2)
  let e : CamEdge := ⟨bit a.a0 6, ang⟩
  checked (within a.a0 0x007F && within a.a2 0x000F) [decide (ang < cycC s.wheel.cfg)] s
    { st := { s with cams := vupd s.cams c fun x => { x with staged := vput x.staged (fld a.a0 2 4) (some e) } } }

/-- The staged edges 0 to n - 1; none when an index holds no edge. -/
def stagedEdges (x : Cam) (n : Nat) : Option (List CamEdge) := (x.staged.toList.take n).mapM id

/-- A four-stroke pattern resolves the half (R36). -/
def patternResolves (tol : Nat) (es : List CamEdge) : Bool :=
  es.any fun e => !(es.any fun f => f.pol == e.pol && decide (cycDist 737280 (e.angle + 368640) f.angle ≤ 2 * tol * 1024))

/-- The cam that the header describes, with the given edges. -/
def camOf (a : Args) (es : List CamEdge) (x : Cam) : Cam :=
  { x with en := bit a.a0 2, mode := fld a.a0 3 2, tol := a.a1.toNat, sync := bit a.a0 5, edges := es, hdr := a }

/-- The four checks of the header form (R441). -/
def camChecks (a : Args) (s : State) : List Bool :=
  let c := camNo (fld a.a0 0 2)
  let x := camOf a [] s.cams[c]
  let es := (stagedEdges s.cams[c] (fld a.a0 6 4 + 1)).getD []
  let second := (List.finRange 4).any fun (k : Fin 4) => k != c && s.cams[k].sync
  [(stagedEdges s.cams[c] (fld a.a0 6 4 + 1)).isSome && es.all fun e => decide (e.angle < cycC s.wheel.cfg) && x.uses e.pol,
   !(x.sync && second), !x.sync || s.wheel.cfg.two || patternResolves x.tol es,
   !(x.sync && limpOn s) || limpCapable (cycC s.wheel.cfg) es]

/-- A header with APPLY = 1 takes effect (R62). -/
def applyCam (a : Args) (s : State) : State :=
  let c := camNo (fld a.a0 0 2)
  let s := if s.cams[c].sync || bit a.a0 5 then input 12 s else s
  let s := updWheel (fun w => { w with limpHist := if s.cams[c].sync == bit a.a0 5 then w.limpHist else [] }) s
  { s with cams := vupd s.cams c fun x => camOf a ((stagedEdges x (fld a.a0 6 4 + 1)).getD []) x }

/-- The header form (R62, R441). -/
def cmdCamHeader (a : Args) (s : State) : CmdRes :=
  checked (within a.a0 0x87FF && fld a.a0 3 2 != 3 && within a.a1 0x007F && decide (1 ≤ a.a1.toNat) && decide (a.a1.toNat ≤ 90))
    (camChecks a s) s { st := if bit a.a0 10 then applyCam a s else s }

/-- CAM_SET (R62). -/
def cmdCamSet (a : Args) (s : State) : CmdRes := if bit a.a0 15 then cmdCamHeader a s else cmdCamEdge a s

/-- CAM_SET, edge form (R62). -/
def execCamSetEdge (a : Args) (s : State) : Host.Outcome State Fault Refusal :=
  .next (mboxRow 0x09 cmdCamSet { a with a0 := a.a0 &&& 0x7FFF } s)

/-- CAM_SET, header form (R62). -/
def execCamSetHeader (a : Args) (s : State) : Host.Outcome State Fault Refusal :=
  .next (mboxRow 0x09 cmdCamSet { a with a0 := a.a0 ||| 0x8000 } s)

/-! ### SYNC_POLICY, DIR_SET and LEARN_CTL -/

/-- The policy that the arguments name (R63, R441). -/
def policyOf (a : Args) : Policy :=
  { badlo := fld a.a0 0 5, badhi := fld a.a0 5 6, syncap := fld a.a0 11 4, k := fld a.a1 0 4, gapverify := bit a.a1 4, camloss := bit a.a1 5, stall := fld a.a1 8 8, limpen := bit a.a1 6, limpmask := a.a2.setWidth 13 }

/-- The fields lie in their ranges (R63). -/
def policyArgsOk (a : Args) : Bool :=
  let p := policyOf a
  within a.a0 0x7FFF && bit a.a1 7 == false && within a.a2 0x1FFF && decide (5 ≤ p.badlo) && decide (p.badlo ≤ 19) &&
    decide (21 ≤ p.badhi) && decide (p.badhi ≤ 60) && decide (p.syncap ≤ 8) && decide (1 ≤ p.k) && decide (1 ≤ p.stall)

/-- A policy is accepted: it waits for the next crank tooth edge; LIMPEN cleared in LIMP acts at once (R46, R63). -/
def applyPolicy (a : Args) (s : State) : State :=
  let p := policyOf a
  let s := if s.wheel.st == .limp && !p.limpen then updWheel (fun w => { w with pol := { w.pol with limpen := false } }) (input 12 s) else s
  updWheel (fun w => { w with polNext := some p, args := { w.args with policy := a } }) s

/-- SYNC_POLICY (R63, R441). -/
def cmdSyncPolicy (a : Args) (s : State) : CmdRes :=
  let capable := (syncCam s).any fun c => limpCapable (cycC s.wheel.cfg) c.edges
  checked (policyArgsOk a) [!(policyOf a).limpen || capable] s { st := applyPolicy a s }

/-- SYNC_POLICY (R63). -/
def execSyncPolicy (a : Args) (s : State) : Host.Outcome State Fault Refusal :=
  .next (mboxRow 0x0A cmdSyncPolicy a s)

/-- DIR_SET takes effect (R64). -/
def applyDir (a : Args) (s : State) : State :=
  updWheel (fun w => { w with dirPulse := bit a.a0 0, sense := bit a.a0 1, thresh := a.a1.toNat, pulse := none, args := { w.args with dir := a } }) (input 12 s)

/-- DIR_SET (R64, R441). -/
def cmdDirSet (a : Args) (s : State) : CmdRes :=
  checked (within a.a0 0x0003 && a.a1 != 0) [] s { st := applyDir a s }

/-- DIR_SET (R64). -/
def execDirSet (a : Args) (s : State) : Host.Outcome State Fault Refusal :=
  .next (mboxRow 0x0B cmdDirSet a s)

/-- LEARN_CTL takes effect (R83). -/
def applyLearn (a : Args) (s : State) : State :=
  let g := s.geom
  let l := clearSums g.learn
  let l := { l with mode := fld a.a0 0 2, cycles := fld a.a0 8 8, blend := fld a.a1 0 5, steady := fld a.a1 8 8, resth := a.a2.toNat, resrep := bit a.a0 2 }
  let flat := bit a.a0 3
  let f (e : GeomE) : GeomE := { e with shd := if flat then 0 else e.shd, rmax := if bit a.a0 4 then 0 else e.rmax }
  let ready := flat || (g.ready && fld a.a0 0 2 != 0)
  { s with geom := { g with e := vmapi (fun _ x => f x) g.e, ready := ready, learn := l }, wheel := { s.wheel with args := { s.wheel.args with learn := a } } }

/-- LEARN_CTL (R83, R455). -/
def cmdLearnCtl (a : Args) (s : State) : CmdRes :=
  let ok := within a.a0 0xFF1F && fld a.a0 0 2 != 3 && fld a.a0 8 8 != 0 && within a.a1 0xFF1F && fld a.a1 0 5 != 0 &&
    decide (fld a.a1 0 5 ≤ 16) && fld a.a1 8 8 != 0 && within a.a2 0x7FFF && a.a2 != 0
  checked ok [] s { st := applyLearn a s }

/-- LEARN_CTL (R83). -/
def execLearnCtl (a : Args) (s : State) : Host.Outcome State Fault Refusal :=
  .next (mboxRow 0x32 cmdLearnCtl a s)

/-! ### Registers -/

/-- The decoder's state permits a channel to fire (R45, R65). -/
def wheelFires (w : Wheel) : Bool :=
  w.st == .sync || (w.st == .limp && w.pol.limpmask.toNat % 4096 != 0)

/-- SYNCSTAT (R65). -/
def syncstat (s : State) : Word :=
  let w := s.wheel
  w16 (w.st.code + b2n w.dir 3 + b2n w.stallF 4 + b2n s.sys.coarse 5 + b2n (!wheelFires w) 6 + 256 * w.confcnt + 4096 * min 15 w.syncnt)

/-- Teeth that the table serves: those of the wheel, or before the first WHEEL_SET those stored with the table (R67,
R82). -/
def geomTeeth (s : State) : Nat :=
  if s.wheel.cfgd then s.wheel.cfg.n - s.wheel.cfg.m else s.geom.tableN - s.geom.tableM

/-- A word of window GEOM (R84). -/
def readGeom (s : State) (off : Nat) : Word :=
  let g := s.geom
  if off < 1024 then
    let e := if off / 4 < geomTeeth s then vget g.e (off / 4) {} else {}
    if off % 4 = 0 then i16 e.act else if off % 4 = 1 then i16 e.shd else if off % 4 = 2 then i16 e.res else w16 e.rmax
  else if off = 1024 then w16 (g.src + b2n g.ready 2 + 256 * g.swaps)
  else if off = 1025 then w16 g.learn.counted
  else if off = 1026 then w16 g.tableN
  else if off = 1027 then w16 g.tableM
  else 0

end Sys2Proof.Machine
end

