-- ==== Sys2Proof/Machine/Clocks.lean ====
section
/-! DEFINITION. The rows of the clock sources, the supervisor, gating and the frequency meter
(R307 to R336). -/

namespace Sys2Proof.Machine

/-! ### Judgements (R307, R308, R313) -/

/-- The AOC domain runs: power-on reset has ended. -/
def aocOn (s : State) : Bool := !s.sys.porHold

/-- AOC_JUDGED (R307): an FLL that held its trim goes on. -/
def execAocJudged (s : State) : Host.Outcome State Fault Refusal :=
  .next (if aocOn s && !s.clk.aocok then
    clkRow (updClk fun c => { c with aocok := true, aocCount := 16384, fll := { c.fll with hold := 0 } }) s else s)

/-- LRC_LOSS (R325): the fast domain misses LRC, also one that it has not seen since the reset. -/
def execLrcLoss (s : State) : Host.Outcome State Fault Refusal :=
  .next (if liveN s && !s.clk.lrcLost then
    clkRow (fun s => raise 31 0 (Config.lossCount.setWidth 16 ||| 0x8000) (updClk (fun c => { c with lrcok := false, lrcLost := true }) s)) s else s)

/-- LRC_RETURN (R325, R336): the fast domain sees LRC. -/
def execLrcReturn (s : State) : Host.Outcome State Fault Refusal :=
  .next (if liveN s && !s.clk.lrcok then updClk (fun c => { c with lrcok := true, lrcLost := false }) s else s)

/-- FCLK restarts without a reset: the thermal tick in progress and the residues of the timers are gone (R224, R244). -/
def fclkRestart (s : State) : State :=
  let s := updSys (fun y => { y with odStop := false }) (updClk (fun c => { c with fclkOn := true, phase := 0 }) s)
  timFastReset (thermFastReset s)

/-- FCO is judged; during an entry into STANDBY for which FCLK had to wait it then runs (R307, R349, log 32). -/
def opFcoJudged (s : State) : State :=
  let s := updClk (fun c => { c with fcook := true }) s
  if s.sys.pwr == .entering && s.clk.sup == .run && !s.clk.fclkOn then fclkRestart s else s

/-- FCO_JUDGED (R307). -/
def execFcoJudged (s : State) : Host.Outcome State Fault Refusal :=
  .next (if s.clk.fcoOn && !s.clk.fcook && !s.sys.inReset && s.sys.pwr != .stop && s.sys.pwr != .standby then
    clkRow opFcoJudged s else s)

/-- FCO_LOSS (R308). -/
def execFcoLoss (s : State) : Host.Outcome State Fault Refusal :=
  .next (if supOn s && s.clk.fcoOn && s.clk.fcook then clkRow fcoLost s else s)

/-- RCK_JUDGED (R307, R313): symbol lock in a link state with RCK, whether FCLK runs or not. -/
def execRckJudged (s : State) : Host.Outcome State Fault Refusal :=
  .next (if supOn s && hasRck s && s.link.lock && !s.clk.rckok then
    clkRow (updClk fun c => { c with rckok := true }) s else s)

/-- Holdover ends: RCK stops low, and FCLK with it while it is taken from RCK (R313). -/
def opHoldoverEnd (s : State) : State := updClk (fun c => { c with holdover := false, fclkOn := c.fclkOn && !c.sel }) s

/-- RCK_HOLDOVER_END (R313). -/
def execRckHoldoverEnd (s : State) : Host.Outcome State Fault Refusal :=
  .next (if supOn s && s.clk.holdover && !s.link.lock then clkRow opHoldoverEnd s else s)

/-! ### The frequency lock of FCO (R311) -/

/-- One correction in sixteenths of a count: at most 500 ppm of 200 MHz, which is 195 5/16 counts of a window. -/
def fllStep (err : Int) : Int := clampI (-3125) 3125 (16 * err)

/-- One window of the FLL (R311). -/
def fllWindow (err : Int) (f : Fll) : Fll :=
  if 0 < f.hold then { f with hold := f.hold - 1 }
  else
    let e := err.natAbs
    let good := if e ≤ 4 then satInc f.good 4 else 0
    let bad := if 80 < e then satInc f.bad 2 else 0
    let f := { f with err := err, good := good, bad := bad, slew := decide (4 < e) }
    if f.lock && bad = 2 then { f with lock := false, good := 0, bad := 0, hold := 16, slew := false }
    else { f with lock := f.lock || good = 4, trim := f.trim - fllStep err }

/-- The count of a window against 390 625 (R311, R322). -/
def opFll (count : Nat) (s : State) : State :=
  let old := s.clk.fll
  let new := fllWindow ((count : Int) - 390625) old
  let s := updClk (fun c => { c with fll := new }) s
  if old.lock && !new.lock then raise 33 0 (i16 (satS 16 new.err)) s else s

/-- FLL_WINDOW (R311): in both modes (R324). -/
def execFllWindow (count : Nat) (s : State) : Host.Outcome State Fault Refusal :=
  .next (if s.clk.aocok && s.clk.fcoOn && !s.sys.inReset && s.sys.pwr != .stop && s.sys.pwr != .standby then
    clkRow (opFll count) s else s)

/-! ### The stop detector and the clean switch (R314 to R318) -/

/-- The stop detector fires (R308, R317). -/
def opStopDetect (s : State) : State :=
  let s := updSys (fun y => { y with odStop := true }) s
  let fco := !s.clk.sel && s.clk.fcook
  let s := updClk (fun c => { c with fclkOn := false }) s
  if fco then fcoLost s else s

/-- FCLK_STOP_DETECT (R317). -/
def execFclkStopDetect (s : State) : Host.Outcome State Fault Refusal :=
  .next (if supOn s && (s.clk.fclkOn || s.clk.sup == .switching) && !s.sys.odStop then clkRow opStopDetect s else s)

/-- The preferred source differs from the one in use, and both run and are judged (R318). -/
def wantsSwitch (s : State) : Bool :=
  supOn s && s.clk.fclkOn && s.clk.sup == .run &&
    (if prefRck s then !s.clk.sel && s.clk.fcook else s.clk.sel && s.clk.rckok && s.clk.fcook)

/-- CLEAN_SWITCH_REQUEST (R318). -/
def execCleanSwitchRequest (s : State) : Host.Outcome State Fault Refusal :=
  .next (if wantsSwitch s then clkRow (updClk fun c => { c with sup := .switching }) s else s)

/-- The target of a switch: the preferred source, when it is judged (R315). -/
def switchTo (s : State) : Option Bool := escTarget s

/-- CLEAN_SWITCH_COMPLETE (R315, R318): the old source still runs; nothing is reset and TB counts on. -/
def execCleanSwitchComplete (s : State) : Host.Outcome State Fault Refusal :=
  .next (if supOn s && s.clk.sup == .switching && s.clk.fclkOn then
    match switchTo s with
    | some rck => clkRow (takeSource rck) s
    | none => s
  else s)

/-! ### Mux hang, HELD and escapes (R318 to R322) -/

/-- Steps 1 and 2 of an escape (R319, R322). -/
def startEscape (held : Bool) (stopLrc : Nat) (s : State) : State :=
  let new := escTarget s
  let det := b2n held 0 + b2n (new == some true) 2 + 256 * min stopLrc 255
  let s := raiseC 28 0 (w16 det) true s
  let s := if held then raiseC 29 0 (w16 (min stopLrc 65535)) true s else s
  let s := updClk (fun c => { c with fclkOn := false, fdReset := true }) s
  match new with
  | some rck => updClk (fun c => { c with sup := .escape, escRck := rck }) s
  | none => enterHeld s

/-- MUX_HANG_DETECT (R318). -/
def execMuxHangDetect (stopLrc : Nat) (s : State) : Host.Outcome State Fault Refusal :=
  .next (if supOn s && s.clk.sup == .switching then clkRow (startEscape false stopLrc) s else s)

/-- HELD_FCO_RESTART (R318): a lost FCO is disabled and enabled again until it is judged. -/
def execHeldFcoRestart (s : State) : Host.Outcome State Fault Refusal :=
  .next (if supOn s && s.clk.sup == .held && !s.clk.sel && !s.clk.fcook then
    clkRow (updClk fun c => { c with fcoOn := true }) s else s)

/-- A source is judged in HELD: one to which the mux can be forced, or one that has just become judged though R319 names no
target, from which the supervisor is back in HELD at once (R318, R319). -/
def heldJudged (s : State) : Bool := (escTarget s).isSome || (s.clk.rckok && !s.clk.fdReset)

/-- ESCAPE_START (R318, R319): a source has become judged in HELD. -/
def execEscapeStart (stopLrc : Nat) (s : State) : Host.Outcome State Fault Refusal :=
  .next (if supOn s && s.clk.sup == .held && heldJudged s then clkRow (startEscape true stopLrc) s else s)

/-- The events that wait are applied, so many at most (R263). -/
def drainFaults : Nat → State → State
  | 0, s => s
  | n + 1, s => drainFaults n (opFaultApply s)

/-- A receiver hunts again: no deadline, and its counts restart (R148, R321). -/
def lineRestart (l : Line) : Line := { l with missing := 0, good := 0, deadline := none, doneAt := none, prevOk := false }

/-- The effects of the fast-datapath reset (R321). The device cancel acts before the decoder falls to NOSYNC; its
record follows the SYNC record (R112). -/
def fastReset (s : State) : State :=
  let cut := deviceCancel 2 true { s with rpt := {} }
  let old := s.sched.slots
  let n := (old.toList.filter fun x => (cancelSlot true x).2).length
  let k := (old.toList.filter fun x => x.st == .armed && (cancelSlot true x).2).length
  let s := { s with sched := { s.sched with slots := cut.sched.slots } }
  let s := bulkRec 2 n k (decoderReset s)
  let s := timFastReset (thermFastReset (cpsFastReset (outputsDown s)))
  let s := { s with lines := vmapi (fun _ l => lineRestart l) s.lines, cdat := lineRestart s.cdat }
  let s := { s with chan := vmapi (fun _ (c : Chan) => { c with prog := { c.prog with next := 0 } }) s.chan }
  let s := { s with sched := { s.sched with evalAt := Vector.replicate 64 none } }
  let s := updClk (fun c => { c with fcyc := 0, phase := 0, fdReset := false, fm := { c.fm with busy := false, done := false } }) s
  cutCore s

/-- Steps 3 to 5 of an escape: TB reloads, the events recorded meanwhile are applied, and the reset ends
(R263, R319 to R321). -/
def endEscape (dA : Nat) (err : Fin 3) (s : State) : State :=
  let tb := if s.clk.aocok then reloadTb s.clk.tb (anchorAt err s.clk.anchor) dA 0 else tbAdd s.clk.tb 1
  let s := updClk (fun c => { c with tb := tb, anchor := if c.aocok then tb else c.anchor, esc := true, tbgap := true }) s
  let s := takeSource s.clk.escRck s
  fastReset (drainFaults s.flt.queue.length s)

/-- ESCAPE_COMPLETE (R319). -/
def execEscapeComplete (dA : Nat) (err : Fin 3) (s : State) : Host.Outcome State Fault Refusal :=
  .next (if supOn s && s.clk.sup == .escape then clkRow (endEscape dA err) s else s)

/-! ### Drift against the ring (R326) -/

/-- The deviation of AOC in ppm (R326). -/
def driftPpm (count : Nat) : Int := satS 16 (tdivI (200000000 - (count : Int)) 200)

/-- The check (R326). -/
def opDrift (count : Nat) (s : State) : State :=
  let d := driftPpm count
  if s.clk.drw * 50 < d.natAbs then raise 32 0 (i16 d) (updClk (fun c => { c with drift := true }) s)
  else updClk (fun c => { c with drift := false }) s

/-- DRIFT_CHECK (R326): also in UNLOCKED, where RCK follows the unit that sends break idle pairs. -/
def execDriftCheck (count : Nat) (s : State) : Host.Outcome State Fault Refusal :=
  .next (if supOn s && hasRck s && s.clk.rckok && s.clk.aocok && s.clk.drw != 0 && s.sys.pwr == .run then
    clkRow (opDrift count) s else s)

/-! ### CLKCTL and CLKSTAT (R335, R336) -/

/-- A write of CLKCTL (R310, R335): during a switch it waits, as the last one written. -/
def writeClkctl (w : Word) (s : State) : State :=
  let lock := s.link.lock
  if s.clk.sup == .switching then updClk (fun c => { c with ctlNext := some w }) s
  else updClk (fun c => fcoStandby lock (setCtl w c)) s

/-- CLKCTL takes a write. -/
def clkctlDo (w : Word) (s : State) : State := if regOpen s 0x0C then clkRow (writeClkctl w) s else s

/-- CLKCTL_WRITE (R335). -/
def execClkctlWrite (w : Word) (s : State) : Host.Outcome State Fault Refusal :=
  .next (hostRow (.clkctlWrite w) (clkctlDo w) s)

/-- CLKCTL as it reads: as written, also while the write waits (log 32). -/
def clkctl (s : State) : Word :=
  let c := ctlOf s.clk
  w16 (b2n c.srcRck 0 + b2n c.fcostby 2 + 16 * c.drw)

/-- CLKSTAT as it stands (R336). -/
def clkstat (s : State) : Word :=
  let c := s.clk
  w16 (b2n c.aocok 0 + b2n c.fcook 1 + b2n c.rckok 2 + b2n c.fll.lock 3 + b2n c.sel 4 + b2n (c.sup == .switching) 5 + b2n (c.sup == .held) 6 + b2n c.holdover 7 + b2n c.fll.slew 8 + b2n c.drift 9 + b2n c.esc 10 + b2n c.tbgap 11 + b2n ((c.gateEff &&& ~~~c.gateen) != 0) 12 + b2n c.lrcok 13)

/-- The supervisor's copy answers: not in reset nor in STANDBY (R323, R355, R409). -/
def supRead (s : State) : Bool := isNative s && !s.sys.inReset && s.sys.pwr != .standby

/-- A read of CLKSTAT; while FCLK is stopped nothing is cleared (R323, R336). -/
def readClkstat (s : State) : Word × State :=
  (clkstat s, if s.clk.fclkOn then updClk (fun c => { c with esc := false, tbgap := false }) s else s)

/-- CLKSTAT_READ (R336). -/
def execClkstatRead (s : State) : Host.Outcome State Fault Refusal :=
  .next (hostRow .clkstatRead (fun s => readIf (supRead s) readClkstat s) s)

/-! ### Gating (R329 to R331) -/

/-- The block of a GATEEN bit. -/
def blkOf (b : Fin 7) : Blk :=
  match b with
  | 0 => .chan
  | 1 => .therm
  | 2 => .cps
  | 3 => .tim
  | 4 => .link
  | 5 => .emit
  | 6 => .fm

/-- The block is idle (R331). -/
def blkIdle (s : State) : Blk → Bool
  | .chan => (List.finRange 12).all (idle s) && s.diag.test.isNone
  | .therm => true
  | .cps => s.cpc.wins.toList.all (!·.active) && s.cpc.strobes.isEmpty
  | .tim => s.tim.t.toList.all (!·.en)
  | .link => s.link.st == .off
  | .emit => !s.emit.run
  | .fm => !s.clk.fm.busy

/-- A clear of this bit waits and can take effect (R331). -/
def dueGate (s : State) (b : Fin 7) : Bool :=
  liveN s && !s.clk.gateen.getLsbD b.val && s.clk.gateEff.getLsbD b.val && blkIdle s (blkOf b)

/-- The clear of a bit takes effect (R331). -/
def gateOff (b : Fin 7) (s : State) : State :=
  updClk (fun c => { c with gateEff := c.gateEff &&& ~~~(1#7 <<< b.val) }) s

/-- A write of GATEEN (R331): a clear of an idle block takes effect at once. -/
def writeGateen (w : Word) (s : State) : State :=
  let s := updClk (fun c => { c with gateen := w.setWidth 7, gateEff := c.gateEff ||| w.setWidth 7 }) s
  foldSt ((List.finRange 7).filter (dueGate s)) gateOff s

/-- GATEEN_WRITE (R331). -/
def execGateenWrite (w : Word) (s : State) : Host.Outcome State Fault Refusal :=
  .next (hostRow (.gateenWrite w) (fun s => if regOpen s 0x10 then writeGateen w s else s) s)

/-- GATE_CLEAR_EFFECT (R331). -/
def execGateClearEffect (b : Fin 7) (s : State) : Host.Outcome State Fault Refusal :=
  .next (if dueGate s b then gateOff b s else s)

/-! ### Frequency meter (R332 to R334) -/

/-- A write of FMCTL (R332): START comes before ABORT (log 26). -/
def writeFmctl (w : Word) (s : State) : State :=
  updClk (fun c =>
    let m : Meter := { c.fm with refSel := fld w 0 2, meas := fld w 2 2, nexp := fld w 4 5 }
    let m := if bit w 9 then { m with busy := true, done := false } else if bit w 10 then { m with busy := false, done := false } else m
    { c with fm := m }) s

/-- FMCTL as it reads. -/
def fmctl (s : State) : Word :=
  let m := s.clk.fm
  w16 (m.refSel + 4 * m.meas + 16 * m.nexp + b2n m.ovf 13 + b2n m.busy 14 + b2n m.done 15)

/-- FM_START (R333): an FMCTL write with START. -/
def execFmStart (w : Word) (s : State) : Host.Outcome State Fault Refusal :=
  .next (hostRow (.fmStart w) (gatedWrite .fm 0x12 (writeFmctl (w ||| 0x0200))) s)

/-- FM_ABORT (R332): an FMCTL write with ABORT and without START. -/
def execFmAbort (w : Word) (s : State) : Host.Outcome State Fault Refusal :=
  .next (hostRow (.fmAbort w) (gatedWrite .fm 0x12 (writeFmctl ((w ||| 0x0400) &&& 0xFDFF))) s)

/-- The gate closes: the 32-bit count, saturating (R333, R334). -/
def opFmDone (count : Nat) (s : State) : State :=
  updClk (fun c => { c with fm := { c.fm with busy := false, done := true, res := min count 4294967295, ovf := decide (4294967295 < count) } }) s

/-- FM_DONE (R333). -/
def execFmDone (count : Nat) (s : State) : Host.Outcome State Fault Refusal :=
  .next (if liveN s && blkOn s .fm && s.clk.fm.busy then opFmDone count s else s)

end Sys2Proof.Machine
end

