-- ==== Sys2Proof/Machine/Emitter.lean ====
section
/-! DEFINITION. The wheel emitter (R497 to R508, R456). -/

namespace Sys2Proof.Machine

/-- The emitter replaced by a function of itself. -/
def updEmit (f : Emit → Emit) (s : State) : State := { s with emit := f s.emit }

/-! ### Window EMIT (R504) -/

/-- The bits of a word of the window that hold anything. -/
def emitMask (off : Nat) : Nat :=
  if off = 0 then 0x0FFF
  else if off = 1 then 0x00FF
  else if off < 6 then 0xFFFF
  else if off < 8 then 0
  else if off < 12 then 0x003F
  else if off < 16 then 0
  else if off < 144 then (if off % 2 = 0 then 0xFFFF else 0x000F)
  else if off % 4 = 2 then 0x0007 else 0xFFFF

/-- Fields of a copy of the tables. -/
abbrev EmTab := Vector Word 272
def emW (t : EmTab) (i : Nat) : Nat := (vget t i 0).toNat
def emN (t : EmTab) : Nat := emW t 0 % 512
def emM (t : EmTab) : Nat := emW t 0 / 512 % 2 + 1
def emTwo (t : EmTab) : Bool := (emW t 0).testBit 10
def emC (t : EmTab) : Nat := if emTwo t then 368640 else 737280
def emSpd (t : EmTab) (i : Nat) : Nat := emW t (144 + 4 * i)
def emLen (t : EmTab) (i : Nat) : Nat := emW t (145 + 4 * i)
def emFlt (t : EmTab) (i : Nat) : Nat := emW t (146 + 4 * i)
def emArg (t : EmTab) (i : Nat) : Nat := emW t (147 + 4 * i)
def emEdges (t : EmTab) (c : Nat) : Nat := emW t (8 + c) % 32
def emInit (t : EmTab) (c : Nat) : Bool := (emW t (8 + c)).testBit 5
def emAngle (t : EmTab) (c i : Nat) : Nat := emW t (16 + 32 * c + 2 * i) + 65536 * emW t (17 + 32 * c + 2 * i)

/-! ### The profile (R498) -/

/-- S_k of a segment that starts from `prev`. -/
def emSpeed (t : EmTab) (prev seg k : Nat) : Nat :=
  ((prev : Int) + Int.tdiv (((emSpd t seg : Int) - prev) * k) (emLen t seg)).toNat

/-- P_k of a speed. -/
def emPeriod (t : EmTab) (spd : Nat) : Nat := 12000000000 / (spd * emN t)

/-- End speed of the segment before this one, or SPD0. -/
def emPrev (t : EmTab) (seg : Nat) : Nat := if seg = 0 then emW t 4 else emSpd t (seg - 1)

/-- The shortest step of a profile: S_k is monotonic within a segment. -/
def emShortest (t : EmTab) (nseg : Nat) : Nat :=
  (List.range nseg).foldl (fun m i =>
    min m (min (emPeriod t (emSpeed t (emPrev t i) i 1)) (emPeriod t (emSpd t i)))) 12000000000

/-! ### Checks (R505) -/

/-- Speeds of R498 in range. -/
def emSpdOk (x : Nat) : Bool := decide (20 ≤ x) && decide (x ≤ 40000)

/-- Angles ascend strictly and lie below C. -/
def emAscends (c : Nat) : List Nat → Bool
  | [] => true
  | [a] => decide (a < c)
  | a :: b :: rest => decide (a < b) && emAscends c (b :: rest)

/-- The FLT code of a segment is possible. -/
def emFltOk (t : EmTab) (short i : Nat) : Bool :=
  let f := emFlt t i
  let a := emArg t i
  if f = 1 || f = 2 then decide (a < emN t - emM t)
  else if f = 4 then decide (1 ≤ a) && decide (4 * a < short)
  else decide (f ≤ 4)

/-- The six checks of the tables, in their order (R505). -/
def emChecks (t : EmTab) (dircode : Bool) (ncam nseg : Nat) : List Bool :=
  let n := emN t
  let short := emShortest t nseg
  [decide (8 ≤ n) && decide (n ≤ 256) && decide (6 + emM t ≤ n) && 368640 % n == 0,
   emSpdOk (emW t 4) && (List.range nseg).all fun i => emSpdOk (emSpd t i) && decide (1 ≤ emLen t i),
   decide (100 ≤ short),
   if dircode then decide (10 * max (emW t 2) (emW t 3) + 20 ≤ short) else decide (1 ≤ emW t 1),
   (List.range ncam).all fun c => emEdges t c % 2 == 0 && decide (emEdges t c ≤ 16) && emAscends (emC t) ((List.range (emEdges t c)).map (emAngle t c)),
   (List.range nseg).all (emFltOk t short)]

/-! ### Edges -/

/-- Edges lie in the order of their ticks; the end of a pulse and the start of one in the same tick are no edges. -/
def insertEdge (e : EmEdge) : List EmEdge → List EmEdge
  | [] => [e]
  | x :: xs =>
    if x.tick == e.tick && x.start != e.start && !x.now then xs
    else if tbGe e.tick x.tick then x :: insertEdge e xs else e :: x :: xs

/-- A pulse from a tick, of a width; a pulse of width 0 is no pulse (log 19). -/
def addPulse (tick : Tb) (width : Nat) (e : Emit) : Emit :=
  if width = 0 then e else
  { e with edges := insertEdge ⟨tbAdd tick width, false, false⟩ (insertEdge ⟨tick, true, false⟩ e.edges) }

/-- The width of a tooth pulse in a step of this length (R499). -/
def pulseWidth (e : Emit) (rev : Bool) (len : Nat) : Nat :=
  if e.dircode then 10 * (if rev then emW e.tab 3 else emW e.tab 2) else len * emW e.tab 1 / 256

/-- The segment's fault is reverse (R502). -/
def emRev (e : Emit) : Bool := emFlt e.tab e.seg == 3

/-- Position and half at the end of the step in progress (R497). -/
def emNext (e : Emit) : Nat × Nat :=
  let n := emN e.tab
  let flip := if emTwo e.tab then 0 else 1 - e.h
  if emRev e then (if e.p = 0 then (n - 1, flip) else (e.p - 1, e.h))
  else if e.p + 1 = n then (0, flip) else (e.p + 1, e.h)

/-- One shift of the LFSR (R503). -/
def lfsrNext (r : Word) : Word := if r.getLsbD 0 then (r >>> 1) ^^^ 0xB400 else r >>> 1

/-- A tick displaced by a jitter. -/
def displace (t : Tb) (j : Int) : Tb := t + BitVec.ofInt 48 j

/-- The crank pulses that belong to the step that begins now: the tooth at its end, and an extra tooth in its middle
(R499, R502). -/
def stepPulses (e : Emit) : Emit :=
  let f := emFlt e.tab e.seg
  let arg := emArg e.tab e.seg
  let p := (emNext e).1
  let last := tbAdd e.t0 e.len
  let e := if f = 2 && e.p = arg then addPulse (tbAdd e.t0 (e.len / 2)) (pulseWidth e false e.len) e else e
  if p < emN e.tab - emM e.tab && !(f == 1 && p == arg) then
    let w := pulseWidth e (f == 3) e.len
    if f = 4 then
      let r := lfsrNext e.lfsr
      addPulse (displace last (((r.toNat % (2 * arg + 1) : Nat) : Int) - (arg : Int))) w { e with lfsr := r }
    else addPulse last w e
  else e

/-- A step begins at a tick, at a speed. -/
def beginStep (t : Tb) (spd : Nat) (e : Emit) : Emit :=
  stepPulses { e with t0 := t, spd := spd, len := emPeriod e.tab spd, camMet := [] }

/-- The next step of the profile (R498). -/
def nextStep (t : Tb) (e : Emit) : Emit :=
  let seg0 : Emit := { e with seg := 0, step := 1 }
  if e.holding then beginStep t e.spd e
  else if e.step < emLen e.tab e.seg then
    beginStep t (emSpeed e.tab (emPrev e.tab e.seg) e.seg (e.step + 1)) { e with step := e.step + 1 }
  else if e.seg + 1 < e.nseg then
    beginStep t (emSpeed e.tab (emPrev e.tab (e.seg + 1)) (e.seg + 1) 1) { e with seg := e.seg + 1, step := 1 }
  else if e.cycle then
    beginStep t (emSpeed e.tab (emW e.tab 4) 0 1) { seg0 with ecyc := satInc e.ecyc 65535 }
  else beginStep t e.spd { e with holding := true, ecyc := satInc e.ecyc 65535 }

/-! ### Steps and cam edges -/

/-- The emitter runs on FCLK. -/
def emitOn (s : State) : Bool := liveN s && blkOn s .emit && s.emit.run

/-- The tick in which programmed edge i of cam c falls within the step in progress (R500). -/
def camTick (e : Emit) (c i : Nat) : Option Tb :=
  let cyc := emC e.tab
  let sp := 368640 / emN e.tab
  let a0 := (e.h * 368640 + e.p * sp) % cyc
  let a := emAngle e.tab c i
  let d := if emRev e then (a0 + cyc - a) % cyc else (a + cyc - a0) % cyc
  if e.step = 0 || d = 0 || sp < d then none else some (tbAdd e.t0 (d * e.len / sp))

/-- The first edge of cam c that is due and has not been met in this step. -/
def camDue (s : State) (c : Fin 3) : Option Nat :=
  let e := s.emit
  (List.range (emEdges e.tab c.val)).find? fun i =>
    !(e.camMet.contains (c.val, i)) && (match camTick e c.val i with | some t => tbGe s.clk.tb t | none => false)

/-- An edge of an emitted cam: the level toggles, and in loopback the decoder takes the edge (R500, R507). -/
def emitCamToggle (c : Fin 3) (i : Nat) (s : State) : State :=
  let up := !s.emit.cam[c]
  let s := updEmit (fun e => { e with cam := vupd e.cam c fun _ => up, camMet := (c.val, i) :: e.camMet }) s
  if s.emit.loop then
    let r := camLoop c.val up s.clk.tb s
    if wheelLive s then foldSt r.1 (fun e u => takeCam ⟨c.val, by omega⟩ e.1 e.2 u) r.2 else r.2
  else s

/-- The guard of a cam edge. -/
def dueCam (s : State) (c : Fin 3) : Bool := emitOn s && decide (c.val < s.emit.ncam) && (camDue s c).isSome

/-- One cam edge. -/
def opCamEdge (c : Fin 3) (s : State) : State :=
  match camDue s c with
  | some i => emitCamToggle c i s
  | none => s

/-- EMIT_CAM_EDGE (R500). -/
def execEmitCamEdge (c : Fin 3) (s : State) : Host.Outcome State Fault Refusal :=
  .next (if dueCam s c then opCamEdge c s else s)

/-- The step in progress ends in this tick, or should have ended (R508). -/
def dueStep (s : State) : Bool := emitOn s && tbGe s.clk.tb (tbAdd s.emit.t0 s.emit.len)

/-- Cam edges of a step that are still to be met. -/
def restCams (s : State) : State :=
  foldSt ((List.finRange 3).filter fun (c : Fin 3) => decide (c.val < s.emit.ncam)) (fun c t =>
    foldSt (List.range (emEdges s.emit.tab c.val)) (fun _ u => opCamEdge c u) t) s

/-- The end of a step, and the start of the next one with the cam edges that fall into its first tick (R500). -/
def opEmitStep (s : State) : State :=
  let s := restCams s
  let (p, h) := emNext s.emit
  let tb := s.clk.tb
  restCams (updEmit (fun e =>
    if e.step = 0 then beginStep tb (emSpeed e.tab (emW e.tab 4) 0 1) { e with step := 1 }
    else nextStep tb { e with p := p, h := h }) s)

/-- EMIT_STEP (R499). -/
def execEmitStep (s : State) : Host.Outcome State Fault Refusal :=
  .next (if dueStep s then opEmitStep s else s)

/-! ### One tick of the crank signal -/

/-- The end of a pulse whose start comes late comes as much later (R508). -/
def delayEnd (d : Nat) : List EmEdge → List EmEdge
  | [] => []
  | x :: xs => if x.start then x :: delayEnd d xs else insertEdge { x with tick := tbAdd x.tick d } xs

/-- The edges that fall into this tick, each with the level after it, and those that are still to come: at most `k` of them. A
start that FCLK has missed comes in this tick (R508). -/
def edgesNow (tb : Tb) : Nat → List EmEdge → Bool → List EmEdge × Bool
  | k + 1, e :: rest, lvl =>
    if tbGe tb e.tick then
      let r := edgesNow tb k (if e.start then delayEnd (tbSince e.tick tb) rest else rest) e.start
      (if e.start != lvl then { e with tick := tb, now := true } :: r.1 else r.1, r.2)
    else (e :: rest, lvl)
  | _, es, lvl => (es, lvl)

/-- The emitted crank signal in this tick: the edges of the tick before are gone; one that leaves the level as it is is
none. -/
def emitTick (tb : Tb) (m : Emit) : Emit :=
  let es := m.edges.filter fun e => !e.now
  let r := edgesNow tb es.length es m.crank
  { m with edges := r.1, crank := r.2 }

/-! ### Commands (R456, R501, R505, R507, R508) -/

/-- The decoder loses its position as the emitter starts or stops (R507). -/
def emitSwitch (s : State) : State := clearSearch (input 12 s)

/-- The emitter starts (R501). Tooth 0 has the width of a step at SPD0 (log 19). -/
def emitStart (a : Args) (s : State) : State :=
  let t := s.emit.win
  let tb := s.clk.tb
  let nseg := fld a.a0 4 5 + 1
  let seed := if emW t 5 = 0 then 0xACE1 else vget t 5 0
  let cams : Vector Bool 3 := Vector.ofFn fun (c : Fin 3) => decide (c.val < fld a.a0 2 2) && emInit t c.val
  let e : Emit := { s.emit with tab := t, run := true, loop := bit a.a0 0, dircode := bit a.a0 1, ncam := fld a.a0 2 2, nseg := nseg, cycle := bit a.a0 9, holding := false, seg := 0, step := 0, p := 0, h := 0, t0 := tb, len := 1000, spd := emW t 4, lfsr := seed, crank := false, crankWait := none, edges := [], cam := cams, camWait := Vector.replicate 3 none, camMet := [] }
  let e := addPulse (tbAdd tb 1000) (pulseWidth e (emRev e) (emPeriod t (emW t 4))) e
  { s with emit := e }

/-- EMIT_START (R456, R505): a refusal's check number also goes to EERR. -/
def cmdEmitStart (a : Args) (s : State) : CmdRes :=
  let ncam := fld a.a0 2 2
  let nseg := fld a.a0 4 5 + 1
  let free := (List.range (ncam + 1)).all fun k => s.chan[chOf (8 + k)].cfg.mode == 0
  let fail (k : Nat) : CmdRes := checkFail k (updEmit (fun e => { e with eerr := k }) s)
  if !within a.a0 0x03FF then badArg s
  else if s.emit.run then fail 1
  else if !free then fail 2
  else match firstFail (emChecks s.emit.win (bit a.a0 1) ncam nseg) with
    | some k => fail k
    | none => { st := emitSwitch (emitStart a s) }

/-- EMIT_START (R501). -/
def execEmitStart (a : Args) (s : State) : Host.Outcome State Fault Refusal :=
  .next (mboxRow 0x38 cmdEmitStart a s)

/-- EMIT_STOP (R456, R507, R508). -/
def cmdEmitStop (_a : Args) (s : State) : CmdRes :=
  { st := emitSwitch (emitHalt s), q0 := b2n s.emit.run 0 }

/-- EMIT_STOP (R508): its arguments are ignored. -/
def execEmitStop (s : State) : Host.Outcome State Fault Refusal := .next (mboxRow 0x39 cmdEmitStop (rowArgs 0x39 s) s)

/-- A word of window EMIT (R504). -/
def readEmit (s : State) (off : Nat) : Word :=
  let e := s.emit
  if off < 272 then vget e.win off 0
  else if off = 272 then w16 (b2n e.run 0 + b2n e.loop 1 + b2n e.holding 2 + 8 * e.seg + 256 * e.p)
  else if off = 273 then w16 e.spd
  else if off = 274 then w16 e.ecyc
  else if off = 275 then w16 e.eerr
  else 0

/-- A write of window EMIT (R389, R504). -/
def writeEmit (p : Path) (off : Nat) (w : Word) (s : State) : State :=
  if !bit (vget s.sec.img 31 0) 0 then deny p 2 0x0B s
  else if off < 272 then updEmit (fun e => { e with win := vput e.win off (w &&& w16 (emitMask off)) }) s
  else s

end Sys2Proof.Machine
end

