-- ==== Sys2Proof/Machine/Legacy.lean ====
section
/-! DEFINITION. The legacy face: the registers, slots, channels, trip and timers of the NX-20 (R461 to R496; log 28). -/

namespace Sys2Proof.Machine

/-- The legacy face replaced by a function of itself. -/
def updLeg (f : Leg → Leg) (s : State) : State := { s with leg := f s.leg }

/-- One legacy channel replaced by a function of itself. -/
def updLCh (n : Fin 8) (f : LChan → LChan) (s : State) : State := updLeg (fun g => { g with ch := vupd g.ch n f }) s

/-- A write to the legacy face is ignored unless the face answers (R464, R495). -/
def legDo (f : State → State) (s : State) : State := if legLive s && s.sys.vddioa then f s else s

/-- A read of a legacy register by the host (R466, R513). -/
def legRead (f : State → Word × State) (s : State) : State := if s.sys.vddioa then readIf (legLive s) f s else s

/-- A TB value that is a legacy tick (R316). -/
def legTick (s : State) : Bool := s.clk.tb.toNat % 50 == 0

/-- A number of legacy ticks after a TB value. -/
def legAfter (t : Tb) (k : Nat) : Tb := tbAdd t (50 * k)

/-! ### The end of B1 (R464) -/

/-- LEGACY_READY (R464): the wheel of WCODE 0 stands in the decoder, filtered over 200 FCLK cycles (R470). -/
def execLegacyReady (ok : Bool) (s : State) : Host.Outcome State Fault Refusal :=
  .next (if !isNative s && fclkRuns s && s.sys.boot == 1 && !s.leg.ready then
    (if ok then updWheel (fun w => { w with cfg := { n := 36, m := 1, filter := 200 } }) (updLeg (fun g => { g with ready := true }) s)
     else { s with sys := { s.sys with boot := 6 } })
  else s)

/-! ### Channels (R480 to R484) -/

/-- Byte b of the profile of a channel, as it stands now (R481, R483). -/
def lprof (s : State) (c : LChan) (b : Nat) : Nat := (vget (vget s.leg.profs c.prof (Vector.replicate 8 0)) b 0).toNat

/-- A channel in PEAK or HOLD runs PWM (R482). -/
def LChSt.pwm (x : LChSt) : Bool := x == .peak || x == .hold

/-- A channel runs a profile. -/
def LChSt.runs (x : LChSt) : Bool := x == .boost || x == .dead || x.pwm

/-- BOOSTEN has been low for one legacy tick (R482). -/
def lowOver (s : State) : Bool :=
  !s.leg.boosten && (match s.leg.boostLow with
    | some t => decide (50 ≤ tbSince t s.clk.tb)
    | none => true)

/-- BOOSTEN follows the channels in BOOST; its rise forces the channels that use it (R157, R482). -/
def lBoost (s : State) : State :=
  let want := s.leg.ch.toList.any fun c => c.st == .boost
  if want && !s.leg.boosten then
    updLeg (fun g => { g with boosten := true, ch := vmapi (fun _ (c : LChan) => { c with forced := c.st.pwm && c.boostuse }) g.ch }) s
  else if !want && s.leg.boosten then updLeg (fun g => { g with boosten := false, boostLow := some s.clk.tb }) s
  else s

/-- MAXON in TB ticks from START (R481). -/
def lMaxTicks (b : Nat) : Nat := (if b = 0 then 256 else b) * 10000

/-- The bytes that a channel reads at a START, a phase entry or a period start besides its times (R483). -/
def lReread (s : State) (c : LChan) : LChan :=
  let bu := lprof s c 6 % 2 == 1
  { c with boostuse := bu, maxEnd := some (tbAdd c.startAt (lMaxTicks (lprof s c 5))), forced := if s.leg.boosten then bu else c.forced && !lowOver s }

/-- A PWM period of PEAK or HOLD begins (R482, R483). -/
def lPeriod (s : State) (c : LChan) : LChan :=
  let c := lReread s c
  let per := max 4 (lprof s c 4)
  let hi := lprof s c (if c.st == .peak then 2 else 3) * per / 256
  let stop := if c.st == .peak then some (legAfter c.phaseAt (4 * lprof s c 1)) else none
  { c with want := decide (0 < hi), highEnd := some (legAfter s.clk.tb hi), perEnd := some (legAfter s.clk.tb per), phaseEnd := stop }

/-- HOLD is entered (R482). -/
def lHold (s : State) (c : LChan) : LChan := lPeriod s { c with st := .hold, phaseAt := s.clk.tb }

/-- PEAK is entered; a TPEAK of 0 leads to HOLD at once (R482). -/
def lPeak (s : State) (c : LChan) : LChan :=
  if lprof s c 1 = 0 then lHold s c else lPeriod s { c with st := .peak, phaseAt := s.clk.tb }

/-- START from IDLE (R480, R482, R483). -/
def lStart (n : Fin 8) (prof : Nat) (s : State) : State :=
  let c : LChan := { prof := prof, startAt := s.clk.tb, phaseAt := s.clk.tb }
  let b := lprof s c 0
  lBoost (updLCh n (fun _ => if b = 0 then lPeak s c else { lReread s c with st := .boost, forced := false, phaseEnd := some (legAfter s.clk.tb (4 * b)) }) s)

/-- A channel is IDLE, with its pin low (R480). -/
def lIdle (n : Fin 8) (s : State) : State := lBoost (updLCh n (fun _ => {}) s)

/-- A fired action on a channel: 0 START, 1 END, 2 SET, 3 CLEAR (R480). -/
def lAction (n : Fin 8) (act prof : Nat) (s : State) : State :=
  let st := s.leg.ch[n].st
  match act with
  | 0 => if st == .idle then lStart n prof s else s
  | 1 => if st.runs then lIdle n s else s
  | 2 => if st == .idle then updLCh n (fun _ => { st := .set }) s else s
  | _ => if st == .set then lIdle n s else s

/-- The decided level of DRVn; the pin follows it as in native mode, 3 ticks later (R19, R157, R478, R480, R482). -/
def legLevel (s : State) (n : Fin 8) : Bool :=
  let c := s.leg.ch[n]
  match c.st with
  | .set | .boost => true
  | .peak | .hold => c.want && !(c.forced && !lowOver s)
  | .idle | .dead => false

/-- The levels decided in this tick on the legacy face: DRV8 to DRV11 and CSTB stay low (R461). -/
def legDecided (s : State) : OutLevels :=
  { drv := Vector.ofFn fun (n : Fin 12) => if h : n.val < 8 then legLevel s ⟨n.val, h⟩ else false, boosten := s.leg.boosten, cstb := false }

/-- Every channel is IDLE (R467, R485). -/
def lAllIdle (s : State) : State := lBoost (updLeg (fun g => { g with ch := vmapi (fun _ (_ : LChan) => {}) g.ch }) s)

/-- A boost, dead or peak phase is over (R482). -/
def dueLPhase (s : State) (n : Fin 8) : Bool :=
  let c := s.leg.ch[n]
  legLive s && (match c.st with
    | .boost | .peak => reached c.phaseEnd s.clk.tb
    | .dead => lowOver s
    | _ => false)

/-- The next phase of a pulse (R482). -/
def opLPhase (n : Fin 8) (s : State) : State :=
  match s.leg.ch[n].st with
  | .boost => lBoost (updLCh n (fun c => { lReread s c with st := .dead, phaseAt := s.clk.tb, phaseEnd := none, forced := false }) s)
  | .dead => updLCh n (lPeak s) s
  | .peak => updLCh n (lHold s) s
  | _ => s

/-- LEGACY_PHASE_END (R482). -/
def execLegacyPhaseEnd (n : Fin 8) (s : State) : Host.Outcome State Fault Refusal :=
  .next (if dueLPhase s n then opLPhase n s else s)

/-- A PWM period is over, or its high time (R482). -/
def dueLPwm (s : State) (n : Fin 8) : Bool :=
  let c := s.leg.ch[n]
  legLive s && c.st.pwm && (reached c.perEnd s.clk.tb || (c.want && reached c.highEnd s.clk.tb))

/-- LEGACY_PWM_PERIOD (R482). -/
def execLegacyPwmPeriod (n : Fin 8) (s : State) : Host.Outcome State Fault Refusal :=
  .next (if dueLPwm s n then
    updLCh n (fun c => if reached c.perEnd s.clk.tb then lPeriod s c else { c with want := false }) s else s)

/-- MAXON of a running profile has elapsed (R483). -/
def dueLMaxon (s : State) (n : Fin 8) : Bool :=
  legLive s && s.leg.ch[n].st.runs && reached s.leg.ch[n].maxEnd s.clk.tb

/-- LEGACY_MAXON (R483): as at END, and LSTAT.MAXON and LDIAG.MAXCH. -/
def execLegacyMaxon (n : Fin 8) (s : State) : Host.Outcome State Fault Refusal :=
  .next (if dueLMaxon s n then lIdle n (noteLeg 6 (updLeg (fun g => { g with maxon := true, maxch := n.val }) s)) else s)

/-! ### Slots (R475 to R479) -/

/-- The selected slot. -/
def lslot (s : State) : Fin 16 := ⟨s.leg.evsel % 16, Nat.mod_lt _ (by decide)⟩

/-- One legacy slot replaced by a function of itself. -/
def updLSlot (i : Fin 16) (f : LSlot → LSlot) (s : State) : State := updLeg (fun g => { g with slots := vupd g.slots i f }) s

/-- The legacy tick of firing of a target, converted now (R477). -/
def legFire (s : State) (target : Nat) : Nat :=
  let c16 := cyc16 s.wheel.cfg
  let dc := (16 * (64 * target) + c16 - ang16 s) % c16
  let tarm := s.clk.tb.toNat + dc * (effPred s).uk / 2 ^ 24
  max ((tarm + 49) / 50) (s.clk.tb.toNat / 50 + 2)

/-- An ARM is refused: not in SYNC, or the target not below the cycle (R477). -/
def armRefused (s : State) : Bool := s.wheel.st != .sync || decide (cycC s.wheel.cfg ≤ 64 * s.leg.evang.toNat)

/-- CANCEL removes an armed slot (R477). -/
def lCancel (s : State) : State :=
  updLSlot (lslot s) (fun x => if x.armed then { x with armed := false, cancelled := true } else x) s

/-- ARM converts the staging set, or is refused (R477). -/
def lArm (act : Nat) (s : State) : State :=
  let i := lslot s
  if armRefused s then
    updLeg (fun g => { g with sloterr := true }) (updLSlot i (fun x => { x with armed := false, fired := false, refused := true, cancelled := false }) s)
  else
    let ch := s.leg.evch.toNat % 8
    let prof := s.leg.evch.toNat / 16 % 4
    updLSlot i (fun _ => { act := act, ch := ch, prof := prof, armed := true, lf := legFire s s.leg.evang.toNat }) s

/-- A write of LEVCMD: CANCEL before ARM (R476). -/
def writeLevcmd (v : Byte) (s : State) : State :=
  let s := if v.getLsbD 3 then lCancel s else s
  if v.getLsbD 2 then lArm (v.toNat % 4) s else s

/-- LEGACY_ARM (R477): an LEVCMD write with ARM. -/
def execLegacyArm (v : Byte) (s : State) : Host.Outcome State Fault Refusal := .next (legDo (writeLevcmd (v ||| 4)) s)

/-- LEGACY_CANCEL (R477): an LEVCMD write with CANCEL. -/
def execLegacyCancel (v : Byte) (s : State) : Host.Outcome State Fault Refusal := .next (legDo (writeLevcmd (v ||| 8)) s)

/-- An armed slot reaches its tick (R478). -/
def dueLFire (s : State) (i : Fin 16) : Bool :=
  let x := s.leg.slots[i]
  legLive s && x.armed && tbGe s.clk.tb (legAfter 0 x.lf)

/-- A fired slot on this channel has a pin effect (R468, R478, R486). -/
def lFires (s : State) (n : Fin 8) : Bool := s.leg.oe && s.leg.louten.getLsbD n.val && !s.leg.triplat

/-- A slot fires (R478). -/
def opLFire (i : Fin 16) (s : State) : State :=
  let x := s.leg.slots[i]
  let n : Fin 8 := ⟨x.ch % 8, Nat.mod_lt _ (by decide)⟩
  let s := updLSlot i (fun x => { x with armed := false, fired := true }) s
  if lFires s n then lAction n x.act x.prof s else s

/-- LEGACY_SLOT_FIRE (R478). -/
def execLegacySlotFire (i : Fin 16) (s : State) : Host.Outcome State Fault Refusal :=
  .next (if dueLFire s i then opLFire i s else s)

/-! ### Control, wheel and outputs (R467 to R469) -/

/-- The decoder loses its position and searches anew (R46, code 12). -/
def legRestart (s : State) : State := updWheel (fun w => { w with stallFrom := none, stallF := false }) (clearSearch (input 12 s))

/-- A write of LCTL (R467). -/
def writeLctl (v : Byte) (s : State) : State :=
  let oe := v.getLsbD 0
  let dec := v.getLsbD 1
  let s := if s.leg.oe && !oe then lAllIdle s else s
  let s := if s.leg.decen && !dec then legRestart s else s
  updLeg (fun g => { g with oe := oe, decen := dec }) s

/-- LCTL_WRITE (R467). -/
def execLctlWrite (v : Byte) (s : State) : Host.Outcome State Fault Refusal := .next (legDo (writeLctl v) s)

/-- The wheels of WCODE (R469). -/
def wcodes : List (Nat × Nat) := [(36, 1), (36, 2), (60, 2), (24, 1), (12, 1), (60, 1), (120, 2)]

/-- A write of LWHEEL: code 7 is ignored as a whole, and a change of any field loses the position (R469). -/
def writeLwheel (v : Byte) (s : State) : State :=
  let x : Byte := v &&& 0x3F
  match wcodes[v.toNat % 8]? with
  | none => s
  | some (n, m) =>
    if x == s.leg.wheel then s else
    let s := legRestart s
    let s := updLeg (fun g => { g with wheel := x }) s
    updWheel (fun w => { w with cfg := { n := n, m := m, two := x.getLsbD 4, edge := x.getLsbD 3, filter := 200 } }) s

/-- LWHEEL_WRITE (R469). -/
def execLwheelWrite (v : Byte) (s : State) : Host.Outcome State Fault Refusal := .next (legDo (writeLwheel v) s)

/-- A write of LOUTEN: a channel whose bit is 0 is low and IDLE (R468). -/
def writeLouten (v : Byte) (s : State) : State :=
  lBoost (updLeg (fun g => { g with louten := v, ch := vmapi (fun (n : Fin 8) (c : LChan) => if v.getLsbD n.val then c else {}) g.ch }) s)

/-- LOUTEN_WRITE (R468). -/
def execLoutenWrite (v : Byte) (s : State) : Host.Outcome State Fault Refusal := .next (legDo (writeLouten v) s)

/-! ### Captures (R473, R474) -/

/-- LANG in legacy units (R473). -/
def lang (s : State) : Nat := angle s / 64

/-- LPER in legacy ticks: 0 in NOSYNC (R474). -/
def lper (s : State) : Nat :=
  if s.wheel.st == .nosync then 0 else min 65535 (s.wheel.lastP / (50 * s.wheel.lastG))

/-- A read of LANGL (R473). -/
def readLangl (s : State) : Word × State :=
  (w16 (lang s % 256), updLeg (fun g => { g with langCap := BitVec.ofNat 8 (lang s / 256) }) s)

/-- LEGACY_ANGLE_CAPTURE (R473). -/
def execLegacyAngleCapture (s : State) : Host.Outcome State Fault Refusal := .next (legRead readLangl s)

/-- A read of LPERL (R474). -/
def readLperl (s : State) : Word × State :=
  (w16 (lper s % 256), updLeg (fun g => { g with perCap := BitVec.ofNat 8 (lper s / 256) }) s)

/-- LEGACY_PERIOD_CAPTURE (R474). -/
def execLegacyPeriodCapture (s : State) : Host.Outcome State Fault Refusal := .next (legRead readLperl s)

/-! ### Profile access (R481) -/

/-- BYTE advances modulo 8 (R481). -/
def stepByte (s : State) : State := updLeg (fun g => { g with profbyte := (g.profbyte + 1) % 8 }) s

/-- A byte as its profile holds it: reserved bits read 0 (R14, R481). -/
def profByte (b : Nat) (v : Byte) : Byte := if b = 6 then v &&& 1 else if b = 7 then 0 else v

/-- A read of LPROFDAT (R481). -/
def readLprofdat (s : State) : Word × State :=
  ((vget (vget s.leg.profs s.leg.profsel (Vector.replicate 8 0)) s.leg.profbyte 0).setWidth 16, stepByte s)

/-- A write of LPROFDAT (R481). -/
def writeLprofdat (v : Byte) (s : State) : State :=
  let b := s.leg.profbyte
  let p := vget s.leg.profs s.leg.profsel (Vector.replicate 8 0)
  stepByte (updLeg (fun g => { g with profs := vput g.profs g.profsel (vput p b (profByte b v)) }) s)

/-- LPROFDAT_ACCESS (R481). -/
def execLprofdatAccess (v : Option Byte) (s : State) : Host.Outcome State Fault Refusal :=
  .next (match v with
    | some x => legDo (writeLprofdat x) s
    | none => legRead readLprofdat s)

/-! ### Trip (R485, R486) -/

/-- TRIP# completes the legacy filter, or is sampled low after a clear of TRIPLAT (R485, R486). -/
def dueLTrip (s : State) : Bool := legLive s && s.leg.tripin && !s.leg.triplat && legTick s

/-- The legacy trip latches (R485). -/
def opLTrip (s : State) : State := lAllIdle (noteLeg 5 (updLeg (fun g => { g with tripin := true, triplat := true, trip := true }) s))

/-- LEGACY_TRIP_ASSERT (R485). -/
def execLegacyTripAssert (s : State) : Host.Outcome State Fault Refusal :=
  .next (if (legLive s && !s.leg.tripin) || dueLTrip s then opLTrip s else s)

/-- A write of LDIAG (R486, R493); a latch in the same tick stays (R411). -/
def writeLdiag (v : Byte) (s : State) : State :=
  if v.getLsbD 0 && !(freshLeg s).getLsbD 5 then updLeg (fun g => { g with triplat := false }) s else s

/-- TRIPLAT_CLEAR (R486). -/
def execTriplatClear (s : State) : Host.Outcome State Fault Refusal := .next (legDo (writeLdiag 1) s)

/-! ### Timers (R487 to R489) -/

/-- The selected timer. -/
def ltim (s : State) : Fin 2 := ⟨s.leg.timsel % 2, Nat.mod_lt _ (by decide)⟩

/-- One legacy timer replaced by a function of itself. -/
def updLTim (k : Fin 2) (f : LTimer → LTimer) (s : State) : State := updLeg (fun g => { g with timers := vupd g.timers k f }) s

/-- Legacy ticks per count (R487). -/
def LTimer.div (t : LTimer) : Nat := 8 ^ t.pre

/-- The count after the next increment: with CLRM it returns to 0 after the one that has matched (R487). -/
def LTimer.incTo (t : LTimer) : Nat := if t.clrm && t.count == t.cmp then 0 else (t.count + 1) % 65536

/-- The next increment sets MATCH, or OVF (R487). -/
def LTimer.incMatch (t : LTimer) : Bool := t.incTo == t.cmp
def LTimer.incOvf (t : LTimer) : Bool := t.count == 65535

/-- One increment (R487). -/
def LTimer.step (t : LTimer) : LTimer :=
  { t with count := t.incTo, hit := t.hit || t.incMatch, ovf := t.ovf || t.incOvf, inc := false }

/-- A timer's account of one legacy tick: an increment that sets a flag is left to its row (log 1). -/
def LTimer.tick (t : LTimer) : LTimer :=
  if !t.en then t
  else if t.residue + 1 < t.div then { t with residue := t.residue + 1 }
  else if t.incMatch || t.incOvf then { t with residue := 0, inc := true }
  else { t with residue := 0 }.step

/-- An increment of timer k that sets MATCH, or OVF, falls in this tick. -/
def dueLMatch (s : State) (k : Fin 2) : Bool := legLive s && s.leg.timers[k].inc && s.leg.timers[k].incMatch
def dueLOvf (s : State) (k : Fin 2) : Bool := legLive s && s.leg.timers[k].inc && s.leg.timers[k].incOvf

/-- One increment, with the tick in which it set a flag (R411, R487). -/
def LTimer.note (tb : Tb) (t : LTimer) : LTimer :=
  { t.step with hitAt := if t.incMatch then some tb else t.hitAt, ovfAt := if t.incOvf then some tb else t.ovfAt }

/-- The increment, with LSTAT.TIM when IE is 1 (R487, R491). -/
def lTimStep (k : Fin 2) (s : State) : State :=
  let s := if s.leg.timers[k].ie then noteLeg 7 (updLeg (fun g => { g with tim := true }) s) else s
  updLTim k (LTimer.note s.clk.tb) s

/-- LEGACY_TIMER_MATCH (R487). -/
def execLegacyTimerMatch (k : Fin 2) (s : State) : Host.Outcome State Fault Refusal :=
  .next (if dueLMatch s k then lTimStep k s else s)

/-- LEGACY_TIMER_OVERFLOW (R487). -/
def execLegacyTimerOverflow (k : Fin 2) (s : State) : Host.Outcome State Fault Refusal :=
  .next (if dueLOvf s k then lTimStep k s else s)

/-- A write of LTIMCTL on a timer; a flag set in the same tick stays (R411, R487). -/
def LTimer.control (tb : Tb) (v : Byte) (t : LTimer) : LTimer :=
  let en := v.getLsbD 0
  let pre := v.toNat / 4 % 4
  let zero := (en && !t.en) || pre != t.pre
  { t with en := en, clrm := v.getLsbD 1, pre := pre, ie := v.getLsbD 6, hit := t.hit && (!v.getLsbD 4 || t.hitAt == some tb), ovf := t.ovf && (!v.getLsbD 5 || t.ovfAt == some tb), residue := if zero then 0 else t.residue, inc := t.inc && en && t.en }

/-- LTIMCTL_WRITE (R487). -/
def execLtimctlWrite (v : Byte) (s : State) : Host.Outcome State Fault Refusal :=
  .next (legDo (fun s => updLTim (ltim s) (LTimer.control s.clk.tb v) s) s)

/-- A write of LTIMCNTH (R488). -/
def lLoadCount (hi : Byte) (s : State) : State :=
  updLTim (ltim s) (fun t => { t with count := 256 * hi.toNat + t.cntStage.toNat, residue := 0, inc := false }) s

/-- LEGACY_COUNT_LOAD (R488). -/
def execLegacyCountLoad (hi : Byte) (s : State) : Host.Outcome State Fault Refusal := .next (legDo (lLoadCount hi) s)

/-- A write of LTIMCMPH (R489). -/
def lLoadCompare (hi : Byte) (s : State) : State :=
  updLTim (ltim s) (fun t => { t with cmp := 256 * hi.toNat + t.cmpStage.toNat }) s

/-- LEGACY_COMPARE_LOAD (R489). -/
def execLegacyCompareLoad (hi : Byte) (s : State) : Host.Outcome State Fault Refusal := .next (legDo (lLoadCompare hi) s)

/-! ### Status byte and interrupt (R491 to R493) -/

/-- LSTAT (R491). -/
def lstat (s : State) : Byte :=
  let g := s.leg
  BitVec.ofNat 8 (b2n (s.wheel.st == .sync) 0 + b2n (halfKnown s) 1 + b2n g.lost 2 + b2n g.bad 3 + b2n g.sloterr 4 + b2n g.trip 5 + b2n g.maxon 6 + b2n g.tim 7)

/-- INT# is asserted (R492). -/
def legacyInt (s : State) : Bool := (lstat s &&& s.leg.lint &&& 0xFC) != 0

/-- A write of LSTAT; a bit set in the same tick stays (R411, R491). -/
def writeLstat (w : Byte) (s : State) : State :=
  let v := w &&& ~~~freshLeg s
  updLeg (fun g => { g with lost := g.lost && !v.getLsbD 2, bad := g.bad && !v.getLsbD 3, sloterr := g.sloterr && !v.getLsbD 4, trip := g.trip && !v.getLsbD 5, maxon := g.maxon && !v.getLsbD 6, tim := g.tim && !v.getLsbD 7 }) s

/-- LSTAT_CLEAR (R491). -/
def execLstatClear (v : Byte) (s : State) : Host.Outcome State Fault Refusal := .next (legDo (writeLstat v) s)

/-- LDIAG (R493). -/
def ldiag (s : State) : Byte := BitVec.ofNat 8 (b2n s.leg.triplat 0 + b2n s.leg.tripin 1 + 4 * s.leg.maxch)

/-! ### Clock stop (R494) -/

/-- LEGACY_FCO_STOP (R494): FCLK stays stopped, and everything stands until the next reset. -/
def execLegacyFcoStop (s : State) : Host.Outcome State Fault Refusal :=
  .next (if !isNative s && !s.sys.inReset then { s with clk := { s.clk with fclkOn := false, fcoOn := false, fcook := false } } else s)

/-! ### Register map (R466) -/

/-- The registers at 0x01 to 0x0F; each has its own rule. -/
def writeLegA (a : Nat) (v : Byte) (s : State) : State :=
  match a with
  | 0x01 => writeLctl v s
  | 0x02 => writeLstat v s
  | 0x03 => updLeg (fun g => { g with lint := v &&& 0xFC }) s
  | 0x08 => writeLwheel v s
  | 0x09 => updLeg (fun g => { g with evsel := v.toNat % 16 }) s
  | 0x0A => updLeg (fun g => { g with evang := (g.evang &&& 0xFF00) ||| v.setWidth 16 }) s
  | 0x0B => updLeg (fun g => { g with evang := (g.evang &&& 0x00FF) ||| (v.setWidth 16 <<< 8) }) s
  | 0x0C => updLeg (fun g => { g with evch := v &&& 0x37 }) s
  | 0x0D => writeLevcmd v s
  | 0x0E => updLeg (fun g => { g with profsel := v.toNat % 4, profbyte := v.toNat / 4 % 8 }) s
  | 0x0F => writeLprofdat v s
  | _ => s

/-- A legacy register takes a write (R462, R466). -/
def writeLegacy (a : Nat) (v : Byte) (s : State) : State :=
  match a with
  | 0x10 => writeLouten v s
  | 0x11 => writeLdiag v s
  | 0x12 => updLeg (fun g => { g with timsel := v.toNat % 2 }) s
  | 0x13 => updLTim (ltim s) (LTimer.control s.clk.tb v) s
  | 0x14 => updLTim (ltim s) (fun t => { t with cntStage := v }) s
  | 0x15 => lLoadCount v s
  | 0x16 => updLTim (ltim s) (fun t => { t with cmpStage := v }) s
  | 0x17 => lLoadCompare v s
  | _ => writeLegA a v s

/-- LEVCMD of a slot as it reads (R476). -/
def LSlot.levcmd (x : LSlot) : Nat := x.act + b2n x.armed 4 + b2n x.fired 5 + b2n x.refused 6 + b2n x.cancelled 7

/-- LTIMCTL of a timer as it reads (R487). -/
def LTimer.ctl (t : LTimer) : Nat := b2n t.en 0 + b2n t.clrm 1 + 4 * t.pre + b2n t.hit 4 + b2n t.ovf 5 + b2n t.ie 6

/-- What a legacy register reads as, side effects apart (R466, R495). -/
def legacyReg (s : State) (a : Nat) : Nat :=
  let g := s.leg
  let t := g.timers[ltim s]
  if !legLive s then 0 else
  match a with
  | 0x00 => 0x20
  | 0x01 => b2n g.oe 0 + b2n g.decen 1
  | 0x02 => (lstat s).toNat
  | 0x03 => g.lint.toNat
  | 0x04 => lang s % 256
  | 0x05 => g.langCap.toNat
  | 0x06 => lper s % 256
  | 0x07 => g.perCap.toNat
  | 0x08 => g.wheel.toNat
  | 0x09 => g.evsel
  | 0x0A => g.evang.toNat % 256
  | 0x0B => g.evang.toNat / 256
  | 0x0C => g.evch.toNat
  | 0x0D => g.slots[lslot s].levcmd
  | 0x0E => g.profsel + 4 * g.profbyte
  | 0x0F => (readLprofdat s).1.toNat
  | 0x10 => g.louten.toNat
  | 0x11 => (ldiag s).toNat
  | 0x12 => g.timsel
  | 0x13 => t.ctl
  | 0x14 => t.count % 256
  | 0x15 => t.count / 256
  | 0x16 => t.cmp % 256
  | 0x17 => t.cmp / 256
  | _ => 0

end Sys2Proof.Machine
end

