-- ==== Sys2Proof/Machine/Sha.lean ====
section
/-! DEFINITION. SHA-256 (FIPS 180-4) and HMAC-SHA-256 (FIPS 198-1), which R386 and R391 name; the standards are
outside the spec (log 11). -/

namespace Sys2Proof.Machine

/-- A 32-bit word of SHA-256. -/
abbrev W32 := BitVec 32

/-- Rotation to the right. -/
def ror (x : W32) (n : Nat) : W32 := (x >>> n) ||| (x <<< (32 - n))

/-- The functions of FIPS 180-4, section 4.1.2. -/
def shaCh (x y z : W32) : W32 := (x &&& y) ^^^ (~~~x &&& z)
def shaMaj (x y z : W32) : W32 := (x &&& y) ^^^ (x &&& z) ^^^ (y &&& z)
def shaS0 (x : W32) : W32 := ror x 2 ^^^ ror x 13 ^^^ ror x 22
def shaS1 (x : W32) : W32 := ror x 6 ^^^ ror x 11 ^^^ ror x 25
def shaR0 (x : W32) : W32 := ror x 7 ^^^ ror x 18 ^^^ (x >>> 3)
def shaR1 (x : W32) : W32 := ror x 17 ^^^ ror x 19 ^^^ (x >>> 10)

/-- The constants of section 4.2.2. -/
def shaK : List W32 :=
  [0x428a2f98, 0x71374491, 0xb5c0fbcf, 0xe9b5dba5, 0x3956c25b, 0x59f111f1, 0x923f82a4, 0xab1c5ed5,
   0xd807aa98, 0x12835b01, 0x243185be, 0x550c7dc3, 0x72be5d74, 0x80deb1fe, 0x9bdc06a7, 0xc19bf174] ++
  [0xe49b69c1, 0xefbe4786, 0x0fc19dc6, 0x240ca1cc, 0x2de92c6f, 0x4a7484aa, 0x5cb0a9dc, 0x76f988da,
   0x983e5152, 0xa831c66d, 0xb00327c8, 0xbf597fc7, 0xc6e00bf3, 0xd5a79147, 0x06ca6351, 0x14292967] ++
  [0x27b70a85, 0x2e1b2138, 0x4d2c6dfc, 0x53380d13, 0x650a7354, 0x766a0abb, 0x81c2c92e, 0x92722c85,
   0xa2bfe8a1, 0xa81a664b, 0xc24b8b70, 0xc76c51a3, 0xd192e819, 0xd6990624, 0xf40e3585, 0x106aa070] ++
  [0x19a4c116, 0x1e376c08, 0x2748774c, 0x34b0bcb5, 0x391c0cb3, 0x4ed8aa4a, 0x5b9cca4f, 0x682e6ff3,
   0x748f82ee, 0x78a5636f, 0x84c87814, 0x8cc70208, 0x90befffa, 0xa4506ceb, 0xbef9a3f7, 0xc67178f2]

/-- The eight working words. -/
structure ShaH where
  a : W32
  b : W32
  c : W32
  d : W32
  e : W32
  f : W32
  g : W32
  h : W32
deriving DecidableEq, Repr

/-- The initial hash value of section 5.3.3. -/
def shaInit : ShaH := ⟨0x6a09e667, 0xbb67ae85, 0x3c6ef372, 0xa54ff53a, 0x510e527f, 0x9b05688c, 0x1f83d9ab, 0x5be0cd19⟩

/-- A big-endian word of four bytes. -/
def be32 (bs : List Byte) : W32 := BitVec.ofNat 32 (bs.foldl (fun n b => 256 * n + b.toNat) 0)

/-- The bytes of a word, the high byte first. -/
def beBytes (x : W32) : List Byte := [3, 2, 1, 0].map fun k => x.extractLsb' (8 * k) 8

/-- Extends the message schedule, held with its newest word first. -/
def shaExtend : Nat → List W32 → List W32
  | 0, ws => ws
  | n + 1, ws => shaExtend n ((shaR1 (ws.getD 1 0) + ws.getD 6 0 + shaR0 (ws.getD 14 0) + ws.getD 15 0) :: ws)

/-- The 64 words of the schedule of one block. -/
def shaSched (block : List Byte) : List W32 :=
  (shaExtend 48 ((List.range 16).map fun i => be32 ((block.drop (4 * i)).take 4)).reverse).reverse

/-- One round. -/
def shaRound (s : ShaH) (k w : W32) : ShaH :=
  let t1 := s.h + shaS1 s.e + shaCh s.e s.f s.g + k + w
  let t2 := shaS0 s.a + shaMaj s.a s.b s.c
  ⟨t1 + t2, s.a, s.b, s.c, s.d + t1, s.e, s.f, s.g⟩

/-- One block. -/
def shaBlock (s : ShaH) (block : List Byte) : ShaH :=
  let r := (shaK.zip (shaSched block)).foldl (fun x kw => shaRound x kw.1 kw.2) s
  ⟨s.a + r.a, s.b + r.b, s.c + r.c, s.d + r.d, s.e + r.e, s.f + r.f, s.g + r.g, s.h + r.h⟩

/-- So many blocks. -/
def shaBlocks : Nat → List Byte → ShaH → ShaH
  | 0, _, s => s
  | n + 1, bs, s => shaBlocks n (bs.drop 64) (shaBlock s (bs.take 64))

/-- The padded message of section 5.1.1; messages here are short, so the high length bytes are 0. -/
def shaPad (m : List Byte) : List Byte :=
  let z := (119 - m.length % 64) % 64
  m ++ [0x80] ++ List.replicate z 0 ++ [0, 0, 0, 0] ++ beBytes (BitVec.ofNat 32 (8 * m.length))

/-- SHA-256. -/
def sha256 (m : List Byte) : List Byte :=
  let p := shaPad m
  let r := shaBlocks (p.length / 64) p shaInit
  beBytes r.a ++ beBytes r.b ++ beBytes r.c ++ beBytes r.d ++ beBytes r.e ++ beBytes r.f ++ beBytes r.g ++ beBytes r.h

/-- HMAC-SHA-256 with a key of at most 64 bytes. -/
def hmac (key msg : List Byte) : List Byte :=
  let k := key ++ List.replicate (64 - key.length) 0
  let inner := sha256 (k.map (· ^^^ 0x36) ++ msg)
  sha256 (k.map (· ^^^ 0x5C) ++ inner)

end Sys2Proof.Machine
end

