-- ==== Sys2Proof/Machine/Security.lean ====
section
/-! DEFINITION. The lifecycle, the protection image, the key area and the unlock (R380 to R392, R457 to R459). -/

namespace Sys2Proof.Machine

/-- The security state replaced by a function of itself. -/
def updSec (f : Sec → Sec) (s : State) : State := { s with sec := f s.sec }

/-- The debug port replaced by a function of itself. -/
def updDbg (f : Dbg → Dbg) (s : State) : State := { s with dbg := f s.dbg }

/-! ### Key area and lifecycle (R361, R380 to R383) -/

/-- An unwritten key word (R361). -/
def keyErased : Word := 0xFFFF

/-- The lifecycle that the key area gives (R382). -/
def lifecycleOf (keys : Vector Word 32) : Nat :=
  if keys[17] != keyErased then 2 else if keys[16] != keyErased then 1 else 0

/-- Key word w has been written. -/
def keyWritten (c : Sec) (w : Nat) : Bool := vget c.keys w keyErased != keyErased

/-- Key words 0 to 15 have all been written (R383, R386). -/
def keyComplete (c : Sec) : Bool := (List.range 16).all (keyWritten c)

/-- Writes a word once; a written word keeps its value (R361). -/
def writeKey (w : Nat) (v : Word) (c : Sec) : Sec :=
  if keyWritten c w then c else { c with keys := vput c.keys w v }

/-- What an advance that completes ends (R383, R390, R401). -/
def advanceEnds (s : State) : State :=
  let s := updSec (fun c => { c with adv := none, unlk := false, chal := none, ansM := none }) s
  updDbg (fun d => { d with ptest := false }) s

/-- The lifecycle is derived again (R382). -/
def deriveLc (s : State) : State := updSec (fun c => { c with lc := lifecycleOf c.keys }) s

/-- The word that seals the device has been written (R383). -/
def sealed (s : State) : State := endIf 0x3E 0 0 0 (advanceEnds (deriveLc (updSec (writeKey 17 0x5345) s)))

/-- A word write of the key area completes (R382, R383); one that is halted begins its second word when it goes on (R27). -/
def opKeyWrite (s : State) : State :=
  match s.sec.adv with
  | none => s
  | some (.key w v) => endIf 0x3E 0 0 0 (deriveLc (updSec (fun c => { writeKey w v c with adv := none }) s))
  | some (.lock target) =>
    let s := deriveLc (updSec (writeKey 16 0x4C4B) s)
    if target = 2 then updSec (fun c => { c with adv := some (if coreOn s then .seal else .sealNext) }) s
    else endIf 0x3E 0 0 0 (advanceEnds s)
  | some .seal => sealed s
  | some .sealNext => if coreOn s then sealed s else s

/-- KEY_WRITE_COMPLETE (R382). -/
def execKeyWriteComplete (s : State) : Host.Outcome State Fault Refusal :=
  .next (if liveN s then opKeyWrite s else s)

/-- LIFECYCLE_ADVANCE KEY (R383, R459). -/
def advanceKey (a : Args) (s : State) : CmdRes :=
  let w := fld a.a0 0 4
  checked (within a.a0 0x800F) [!keyWritten s.sec w, a.a1 != keyErased] s
    { st := updSec (fun c => { c with adv := some (.key w a.a1) }) s, done := false }

/-- LIFECYCLE_ADVANCE STEP (R383, R459). -/
def advanceStep (a : Args) (s : State) : CmdRes :=
  let t := fld a.a0 0 2
  let first : Advance := if keyWritten s.sec 16 then .seal else .lock t
  checked (within a.a0 0x8003 && t != 0 && t != 3)
    [a.a1 == 0x4C43, decide (s.sec.lc < t), t != 1 || keyComplete s.sec] s
    { st := updSec (fun c => { c with adv := some first }) s, done := false }

/-- LIFECYCLE_ADVANCE by its form (R459). The word that an interrupted advance was writing is written first (R435, log
24). -/
def cmdAdvance (a : Args) (s : State) : CmdRes :=
  let s := opKeyWrite s
  if bit a.a0 15 then advanceStep a s else advanceKey a s

/-- LIFECYCLE_ADVANCE, KEY form (R383). -/
def execLifecycleAdvanceKey (a : Args) (s : State) : Host.Outcome State Fault Refusal :=
  .next (mboxRow 0x3E cmdAdvance { a with a0 := a.a0 &&& 0x7FFF } s)

/-- LIFECYCLE_ADVANCE, STEP form (R383). -/
def execLifecycleAdvanceStep (a : Args) (s : State) : Host.Outcome State Fault Refusal :=
  .next (mboxRow 0x3E cmdAdvance { a with a0 := a.a0 ||| 0x8000 } s)

/-! ### Protection image (R384 to R388) -/

/-- An image from its words by index. -/
def imageOf (chp maxon : Word) (cmd rmt slot cpc emit : Word) : Vector Word 64 :=
  Vector.ofFn fun (i : Fin 64) =>
    if i.val < 24 then (if i.val % 2 = 0 then chp else maxon)
    else if i.val = 24 then cmd else if i.val = 25 then rmt else if i.val < 30 then slot
    else if i.val = 30 then cpc else if i.val = 31 then emit else 0

/-- The open and the closed defaults (R387). -/
def openImage : Vector Word 64 := imageOf 0x00FF 500 0xFFFF 0 0xFFFF 0x1FFF 0x0001
def closedImage : Vector Word 64 := imageOf 0 0 0x0001 0 0 0 0

/-- The bytes of K (R381). -/
def keyBytes (c : Sec) : List Byte := (c.keys.toList.take 16).flatMap leW

/-- KCV (R386). -/
def kcv (c : Sec) : Word :=
  if keyComplete c then
    let h := hmac (keyBytes c) ((0x4B : Byte) :: List.replicate 24 0)
    w16 ((h.getD 0 0).toNat + 256 * (h.getD 1 0).toNat)
  else 0

/-- PSTAT (R384). -/
def pstat (s : State) : Word :=
  let c := s.sec
  w16 (c.lc + b2n c.unlk 2 + 8 * c.src + b2n c.ro 6 + b2n c.chal.isSome 7 + b2n c.lockout 8)

/-- A word of window PROT (R384). -/
def readProt (s : State) (off : Nat) : Word :=
  let c := s.sec
  if off < 64 then vget c.img off 0
  else if off = 64 then pstat s
  else if off = 65 then w16 ((List.range 16).foldl (fun m w => m + b2n (keyWritten c w) w) 0)
  else if off = 66 then kcv c
  else if off = 67 then w16 c.fails
  else 0

/-- A word of the image without its reserved bits (R14, R384). -/
def imgWord (off : Nat) (w : Word) : Word :=
  if off < 24 then (if off % 2 = 0 then w &&& 0x00FF else w)
  else if off < 30 then w
  else if off = 30 then w &&& 0x1FFF
  else if off = 31 then w &&& 0x0001
  else if off = 63 then w else 0

/-- A write of window PROT (R388). -/
def writeProt (p : Path) (off : Nat) (w : Word) (s : State) : State :=
  if 64 ≤ off then s
  else if s.sys.boot == 4 && s.sec.lc == 0 && !s.flt.safe then updSec (fun c => { c with img := vput c.img off (imgWord off w), src := 3 }) s
  else deny p 5 0 s

/-! ### Unlock (R390 to R392, R457, R458) -/

/-- The conditions of a challenge but for the lockout (R390). -/
def challengeChecks (s : State) : List Bool := [!s.sec.unlk, s.sys.boot == 5, s.clk.aocok]

/-- A challenge is drawn and replaces an earlier one (R390). -/
def drawChallenge (s : State) : State :=
  let (x, s) := drawRandom s
  updSec (fun c => { c with chal := some x, ansM := none }) s

/-- Word j of a challenge. -/
def chalWord (x : BitVec 128) (j : Nat) : Word := (x >>> (16 * j)).setWidth 16

/-- UNLOCK_CHALLENGE (R457). -/
def cmdChallenge (a : Args) (s : State) : CmdRes :=
  let pair := fld a.a0 0 2
  let give (t : State) : CmdRes :=
    match t.sec.chal with
    | some x => { st := t, q0 := (chalWord x (2 * pair)).toNat, q1 := (chalWord x (2 * pair + 1)).toNat }
    | none => { st := t, status := 0x1D }
  if bit a.a0 2 then
    checked (within a.a0 7) (challengeChecks s) s
      (if s.sec.lockout then { st := s, status := 0x1E } else give (drawChallenge s))
  else checked (within a.a0 7) [] s (give s)

/-- UNLOCK_CHALLENGE (R457). -/
def execUnlockChallenge (a : Args) (s : State) : Host.Outcome State Fault Refusal :=
  .next (mboxRow 0x3C cmdChallenge a s)

/-- The bytes of a challenge or of an answer, and of the UID (R390, R391). -/
def bytesLE (n : Nat) (x : BitVec 128) : List Byte := (List.range n).map fun k => x.extractLsb' (8 * k) 8
def uidBytes : List Byte := bytesLE 8 (Config.uid.setWidth 128)

/-- The answer that a challenge expects (R391). -/
def expectedAnswer (c : Sec) (chal : BitVec 128) : List Byte := (hmac (keyBytes c) (bytesLE 16 chal ++ uidBytes)).take 16

/-- The check of an answer starts and discards the challenge (R390, R391). -/
def startCheck (answer : BitVec 128) (dbg cmd : Bool) (s : State) : State :=
  match s.sec.chal with
  | some x => updSec (fun c => { c with chal := none, ansM := none, chk := some ⟨answer, x, dbg, cmd⟩ }) s
  | none => s

/-- Four answer words as a number, the first one low. -/
def half64 (a : Args) : BitVec 64 := a.a3 ++ a.a2 ++ a.a1 ++ a.a0

/-- UNLOCK_ANSWER (R458). -/
def cmdAnswer (a : Args) (s : State) : CmdRes :=
  if s.sec.chal.isNone then { st := s, status := 0x1D }
  else match s.sec.ansM with
    | none => { st := updSec (fun c => { c with ansM := some (half64 a) }) s, q0 := 1 }
    | some lo => { st := startCheck (half64 a ++ lo) s.mbox.byDbg true s, done := false }

/-- UNLOCK_ANSWER (R458). -/
def execUnlockAnswer (a : Args) (s : State) : Host.Outcome State Fault Refusal :=
  .next (mboxRow 0x3D cmdAnswer a s)

/-- The outcome of a check (R391, R392, R403). -/
def opCheckEnd (s : State) : State :=
  match s.sec.chk with
  | none => s
  | some k =>
    let right := bytesLE 16 k.answer == expectedAnswer s.sec k.chal
    let s := updSec (fun c => { c with chk := none }) s
    let s := if right then updSec (fun c => { c with unlk := true }) s
      else
        let n := satInc s.sec.fails 255
        raise 44 0 (w16 (n + b2n k.dbg 8)) (updSec (fun c => { c with fails := n, lockout := true }) s)
    if !k.cmd then s else endIf 0x3D (if right then 0 else 0x1F) 0 0 s

/-- ANSWER_CHECK_COMPLETE (R392). -/
def execAnswerCheckComplete (s : State) : Host.Outcome State Fault Refusal :=
  .next (if liveN s then opCheckEnd s else s)

/-- LOCKOUT_END (R392). -/
def execLockoutEnd (s : State) : Host.Outcome State Fault Refusal :=
  .next (if s.sec.lockout && s.clk.aocok then updSec (fun c => { c with lockout := false }) s else s)

end Sys2Proof.Machine
end

