-- ==== Sys2Proof/Machine/Resume.lean ====
section
/-! DEFINITION. The sections of the store record as the device writes and reads them: the resume section (R364),
and what B3 applies (R366, R387). -/

namespace Sys2Proof.Machine

/-! ### Bytes -/

/-- Three bytes of a value, low byte first. -/
def le24 (x : Nat) : List Byte := le16 x ++ [BitVec.ofNat 8 (x / 65536)]

/-- The four bytes of a signed value. -/
def leS32 (x : Int) : List Byte := le32 (BitVec.ofInt 32 x).toNat

/-- MBARG0 to MBARG3. -/
def leArgs (a : Args) : List Byte := leW a.a0 ++ leW a.a1 ++ leW a.a2 ++ leW a.a3

/-- Readers of a record, from the byte at an address. -/
abbrev Reader := Nat → Byte
def rd8 (r : Reader) (a : Nat) : Nat := (r a).toNat
def rd16 (r : Reader) (a : Nat) : Nat := rd8 r a + 256 * rd8 r (a + 1)
def rd32 (r : Reader) (a : Nat) : Nat := rd16 r a + 65536 * rd16 r (a + 2)
def rdW (r : Reader) (a : Nat) : Word := w16 (rd16 r a)
def rdArgs (r : Reader) (a : Nat) : Args := ⟨rdW r a, rdW r (a + 2), rdW r (a + 4), rdW r (a + 6)⟩

/-! ### Configuration words (R167, R166, R212) -/

/-- CFG of a channel (R167). -/
def chcfgWord (s : State) (n : Fin 12) : Word :=
  let g := s.chan[n].cfg
  w16 (g.mode + b2n g.boostuse 3 + b2n (paired s n.val) 4 + 256 * g.slew)

/-- A word of a profile (R154). -/
def profWord (p : Prof) (k : Nat) : Word :=
  w16 (match k with
    | 0 => p.peak
    | 1 => p.hold
    | 2 => p.tboost
    | 3 => p.tpeak
    | 4 => p.thold
    | 5 => p.hysp
    | 6 => p.hysh
    | _ => p.maxon)

/-- DCFG0 to DCFG3 of a channel (R212). -/
def dcfgWord (d : DiagCh) (k : Nat) : Word :=
  w16 (match k with
    | 0 => d.nocur + b2n d.en 15
    | 1 => d.oclim
    | 2 => d.didt
    | _ => d.nrise + 16 * d.conf)

/-- TGRP of a group (R212). -/
def tgrpWord (s : State) (g : Nat) : Word :=
  w16 ((List.finRange 12).foldl (fun m (n : Fin 12) => m + b2n (s.trip.group[n] == g) n.val) 0)

/-! ### Writing the resume section (R364) -/

/-- The three bytes of an edge of a cam. -/
def edgeBytes (x : Cam) (i : Nat) : List Byte :=
  match x.edges[i]? with
  | some e => le24 (e.angle + b2n e.pol 20 + b2n true 23)
  | none => [0, 0, 0]

/-- Nodes, step and flags of a channel. -/
def nodeBytes (c : ThCh) : List Byte :=
  leS32 (sar c.tw 12) ++ leS32 (sar c.th 12) ++ leS32 (sar c.tj 12) ++
    [BitVec.ofNat 8 c.step, BitVec.ofNat 8 (b2n c.flr 0 + b2n c.clim 1 + b2n c.jlim 2)]

/-- A pending scale is stored as active. -/
def storedScale (g : ChCfg) : Nat := if g.scpend = 0 then g.scale else g.scpend

/-- CHCFG words 3 and 4 of a channel, which read 0 for the timed channels (R167). -/
def decayBytes (s : State) (n : Fin 12) : List Byte :=
  if n.val < 8 then le16 s.chan[n].cfg.decthr ++ le16 s.chan[n].cfg.decmax else [0, 0, 0, 0]

/-- The bytes of the resume section. -/
def resumeBytes (s : State) : List Byte :=
  let w := s.wheel.args
  leArgs w.wheel ++ leArgs w.policy ++ leArgs w.dir ++ leArgs w.learn ++
  s.cams.toList.flatMap (fun x => leArgs x.hdr) ++
  s.cams.toList.flatMap (fun x => (List.range 16).flatMap (edgeBytes x)) ++
  (List.finRange 12).flatMap (fun n => leW (chcfgWord s n) ++ decayBytes s n) ++
  (List.finRange 8).flatMap (fun n => le16 (storedScale s.chan[sh n].cfg)) ++
  le16 ((List.finRange 4).foldl (fun m (p : Fin 4) => m + b2n s.chs.pairs[p] p.val) 0) ++
  s.chs.profs.toList.flatMap (fun p => (List.range 8).flatMap fun k => leW (profWord p k)) ++
  s.diag.ch.toList.flatMap (fun d => (List.range 4).flatMap fun k => leW (dcfgWord d k)) ++
  le16 s.trip.dead ++ le16 s.trip.tblank ++ (List.range 4).flatMap (fun g => leW (tgrpWord s g)) ++
  s.therm.ch.toList.flatMap nodeBytes ++ protBytes s.sec ++ le16 s.sec.lc

/-! ### Sections that B3 applies -/

/-- The default shadow: every section at its defaults, no resume section (R366, R368, R378). -/
def defaultShadow (img : Vector Word 64) : List Host.Cell :=
  let head := le32 recMagic ++ [0, 0, 0, 0] ++ le16 bodyLen ++ [0, 1]
  let m := cellPuts shadowDefault 0 head []
  let m := cellPuts shadowDefault atTherm (thermBytes {}) m
  let m := cellPuts shadowDefault atSev (sevBytes {}) m
  cellPuts shadowDefault atProt (img.toList.flatMap leW) m

/-- The shadow that equals a record (R368). -/
def shadowOf (m : List Host.Cell) : List Host.Cell := cellPuts shadowDefault 0 (cellBytes bankDefault 0 2048 m) []

/-- GEOM of a record: a table is held when M is 1 or 2 (R82, R362). -/
def loadGeom (r : Reader) (g : Geom) : Geom :=
  let m := rd8 r (atGeom + 1)
  if m = 1 || m = 2 then
    { g with e := vmapi (fun (i : Fin 256) e => { e with act := sgn (rdW r (atGeom + 2 + 2 * i.val)) }) g.e, src := 1, tableN := rd8 r atGeom + 1, tableM := m }
  else g

/-- THERMP of a record; the nodes stand at TA and the staged sets equal the live parameters (R224, R225). -/
def loadTherm (r : Reader) (t : Therm) : Therm :=
  let ta := sgn (rdW r (atTherm + 288))
  let f (n : Fin 8) (c : ThCh) : ThCh :=
    let v : Vector Word 18 := Vector.ofFn fun (i : Fin 18) => thWord i.val (rdW r (atTherm + 36 * n.val + 2 * i.val))
    { c with live := v, staged := v, tw := node ta, th := node ta, tj := node ta }
  { t with ch := vmapi f t.ch, ta := ta, tref := sgn (rdW r (atTherm + 290)), diethr := rd16 r (atTherm + 292), diehys := rd16 r (atTherm + 294) }

/-- FSEV of a record (R264). -/
def loadSev (r : Reader) (f : Flt) : Flt :=
  { f with sev := vmapi (fun (i : Fin 48) _ => rd8 r (atSev + i.val) % 8) f.sev, ring := vmapi (fun (i : Fin 48) _ => (rd8 r (atSev + i.val)).testBit 3) f.ring }

/-- An image of 64 words at an address of a record. -/
def loadImage (r : Reader) (a : Nat) : Vector Word 64 := Vector.ofFn fun (i : Fin 64) => imgWord i.val (rdW r (a + 2 * i.val))

/-- What a record or the defaults give but for the image. -/
def applySections (r : Reader) (s : State) : State :=
  { s with geom := loadGeom r s.geom, therm := loadTherm r s.therm, flt := loadSev r s.flt }

/-! ### Applying the resume section (R356, R364) -/

/-- An edge of a cam from its three bytes. -/
def loadEdge (r : Reader) (a : Nat) : Option CamEdge :=
  let x := rd16 r a + 65536 * rd8 r (a + 2)
  if x.testBit 23 then some ⟨x.testBit 20, x % 2 ^ 20⟩ else none

/-- A cam from its header and its edges. -/
def loadCam (r : Reader) (c : Fin 4) (x : Cam) : Cam :=
  let h := rdArgs r (atResume + 32 + 8 * c.val)
  let es := (List.range 16).filterMap fun i => loadEdge r (atResume + 64 + 48 * c.val + 3 * i)
  if h.a1 = 0 then x else camOf h es x

/-- The decoder's settings. -/
def loadWheel (r : Reader) (tb : Tb) (w : Wheel) : Wheel :=
  let a : WheelArgs := ⟨rdArgs r atResume, rdArgs r (atResume + 8), rdArgs r (atResume + 16), rdArgs r (atResume + 24)⟩
  let on := decide (8 ≤ (wheelOf a.wheel).n)
  { w with cfgd := on, cfg := if on then wheelOf a.wheel else w.cfg, pol := policyOf a.policy, dirPulse := bit a.dir.a0 0, sense := bit a.dir.a0 1, thresh := a.dir.a1.toNat, stallFrom := if on then some tb else none, args := a }

/-- The learning settings. -/
def loadLearn (r : Reader) (g : Geom) : Geom :=
  let a := rdArgs r (atResume + 24)
  { g with learn := { g.learn with mode := fld a.a0 0 2, cycles := fld a.a0 8 8, blend := fld a.a1 0 5, steady := fld a.a1 8 8, resth := a.a2.toNat, resrep := bit a.a0 2 } }

/-- A channel: settings, and its state of rest. -/
def loadChan (r : Reader) (n : Fin 12) (c : Chan) : Chan :=
  let a := atResume + 256 + 6 * n.val
  let w := rdW r a
  let mode := fld w 0 3
  let cfg := { c.cfg with mode := mode, boostuse := bit w 3, slew := fld w 8 8 }
  let cfg := if n.val < 8 then { cfg with decthr := rd16 r (a + 2), decmax := rd16 r (a + 4), scale := rd16 r (atResume + 328 + 2 * n.val) }
    else { cfg with scale := 0 }
  { c with cfg := cfg, st := restState mode }

/-- A profile. -/
def loadProf (r : Reader) (k : Fin 16) (_p : Prof) : Prof :=
  profOf (Vector.ofFn fun (i : Fin 8) => rdW r (atResume + 346 + 16 * k.val + 2 * i.val))

/-- Diagnostics of a channel: settings, CLASS NONE. -/
def loadDiag (r : Reader) (n : Fin 8) (d : DiagCh) : DiagCh :=
  let a := atResume + 602 + 8 * n.val
  let w0 := rdW r a
  let w3 := rdW r (a + 6)
  { d with en := bit w0 15, nocur := fld w0 0 12, oclim := fld (rdW r (a + 2)) 0 12, didt := fld (rdW r (a + 4)) 0 12, nrise := fld w3 0 4, conf := fld w3 4 4 }

/-- Trip settings; no group latched. -/
def loadTrip (r : Reader) (t : Trip) : Trip :=
  let a := atResume + 666
  let grp (n : Fin 12) (g : Nat) : Nat := ((List.range 4).find? fun k => bit (rdW r (a + 4 + 2 * k)) n.val).getD g
  { t with dead := rd16 r a, tblank := rd16 r (a + 2), group := vmapi grp t.group }

/-- Nodes, step and flags of a channel, as saved at entry (R224). -/
def loadNodes (r : Reader) (n : Fin 8) (c : ThCh) : ThCh :=
  let a := atResume + 678 + 14 * n.val
  let t (k : Nat) : Int := (BitVec.ofNat 32 (rd32 r (a + 4 * k))).toInt * 4096
  let f := rd8 r (a + 13)
  { c with tw := t 0, th := t 1, tj := t 2, step := rd8 r (a + 12), flr := f.testBit 0, clim := f.testBit 1, jlim := f.testBit 2 }

/-- The WHEEL_SET of the resume section records its N and M with the table when none are held (R82). -/
def resumeTable (w : Wheel) (g : Geom) : Geom :=
  if g.tableM = 0 && w.cfgd then { g with tableN := w.cfg.n, tableM := w.cfg.m } else g

/-- The resume section in force (R356). -/
def applyResume (r : Reader) (s : State) : State :=
  let pairs := rdW r (atResume + 344)
  let chs : Chs := { s.chs with pairs := vmapi (fun (p : Fin 4) _ => bit pairs p.val) s.chs.pairs, profs := vmapi (loadProf r) s.chs.profs }
  let wheel := loadWheel r s.clk.tb s.wheel
  { s with wheel := wheel, cams := vmapi (loadCam r) s.cams, geom := resumeTable wheel (loadLearn r s.geom), chan := vmapi (loadChan r) s.chan, chs := chs, diag := { s.diag with ch := vmapi (loadDiag r) s.diag.ch }, trip := loadTrip r s.trip, therm := { s.therm with ch := vmapi (loadNodes r) s.therm.ch } }

/-- The resume section of a record is usable: RVALID, and the lifecycle of the key area (R365). -/
def resumeUsable (r : Reader) (keys : Vector Word 32) : Bool :=
  (rd8 r 10).testBit 0 && rd16 r (atResume + 918) == lifecycleOf keys

end Sys2Proof.Machine
end

