-- ==== Sys2Proof/Machine/TripDiag.lean ====
section
/-! DEFINITION. The trip input, TRIP_CLEAR and DIAG_RUN (R200 to R211, R446 to R448). -/

namespace Sys2Proof.Machine

/-! ### The trip input -/

/-- TRIP# is attended to in the safe state as with SYSCTL.OE = 1 (R201, R206). -/
def tripHeard (s : State) : Bool := s.sys.oe || s.flt.safe

/-- A deferral of group g: it ends with the blanking that runs, which lies no later than TBLANK, as it was at the last
rise, after the assertion (R204, R209). -/
def deferEnd (s : State) (g : Fin 4) : Tb := (s.trip.blankEnd[g]).getD s.clk.tb

/-- An assertion during a test pulse: SHS on the lines under test (R211). -/
def tripInTest (s : State) : State :=
  match s.diag.test with
  | some t =>
    if t.ph == .pulse then
      let s := { s with diag := { s.diag with test := some { t with pv := #v[4, 4] } } }
      foldSt ((List.finRange 8).filter fun n => decide (t.ch ≤ n.val) && decide (n.val < t.ch + testLines s t.ch))
        (fun n u => verdict n true 1 4 u) s
    else s
  | none => s

/-- A transition of TRIP# at the pin, for the timer gates (R234): the row comes at the third sample of the new level, one
tick after the first one (R201). -/
def tripPin (lvl : Bool) (s : State) : State :=
  { s with pins := { s.pins with trip := s.pins.trip.put lvl (s.clk.tb - 1) } }

/-- The glitch filters of the input pins in one tick, which work whatever else is enabled (R30, R234). -/
def tickInputs (s : State) : State :=
  let f (p : PinIn) : PinIn := p.pass s.wheel.cfg.filter s.clk.tb
  { s with pins := { s.pins with crank := f s.pins.crank, cam := vmapi (fun _ p => f p) s.pins.cam, trip := f s.pins.trip } }

/-- TRIP# is asserted: each candidate group takes the first matching row (R202, R203). -/
def opTripAssert (s : State) : State :=
  let s := tripPin false { s with trip := { s.trip with tripin := true } }
  if !tripHeard s then s else
  let cs := candidates s
  let lat := cs.filter fun g => s.trip.latched[g]
  let rest := cs.filter fun g => !s.trip.latched[g]
  let dead := rest.filter fun g => ahead s.trip.deadEnd[g] s.clk.tb
  let open1 := rest.filter fun g => !ahead s.trip.deadEnd[g] s.clk.tb
  let defer := open1.filter fun g => ahead s.trip.blankEnd[g] s.clk.tb
  let now := open1.filter fun g => !ahead s.trip.blankEnd[g] s.clk.tb
  let s := tripInTest s
  let s := { s with trip := { s.trip with tcnt := min 65535 (s.trip.tcnt + lat.length) } }
  let mask := defer.foldl (fun m (g : Fin 4) => m + 2 ^ g.val) 0
  let dv := defer.foldl (fun (v : Vector (List Tb) 4) (g : Fin 4) => v.set g (v[g] ++ [deferEnd s g])) s.trip.defer
  let s := { s with trip := { s.trip with defer := dv } }
  let s := if defer.isEmpty then s else raise 20 mask (w16 (mask + 16)) s
  latchGroups 20 now (latchGroups 21 dead s)

/-- TRIP_ASSERT (R203); without FCLK the pin alone takes the level. -/
def execTripAssert (s : State) : Host.Outcome State Fault Refusal :=
  .next (if liveN s && !s.trip.tripin then opTripAssert s else if isNative s then tripPin false s else s)

/-- TRIP_RELEASE (R201), and with the legacy filter LDIAG.TRIPIN (R485, R493). -/
def execTripRelease (s : State) : Host.Outcome State Fault Refusal :=
  .next (if liveN s then tripPin true { s with trip := { s.trip with tripin := false } }
    else if isNative s then tripPin true s
    else if legLive s then { s with leg := { s.leg with tripin := false } } else s)

/-- The end of a deferral of group g has been reached (R204). -/
def dueDeferral (s : State) (g : Fin 4) : Bool := liveN s && s.trip.defer[g].any fun e => tbGe s.clk.tb e

/-- A deferral ends: the group latches if TRIP# is then asserted (R203, R204). -/
def opDeferralEnd (g : Fin 4) (s : State) : State :=
  let left := s.trip.defer[g].filter fun e => !tbGe s.clk.tb e
  let s := { s with trip := { s.trip with defer := s.trip.defer.set g left } }
  if s.trip.tripin && !s.trip.latched[g] then latchGroups 20 [g] s else s

/-- TRIP_DEFERRAL_END (R204). -/
def execTripDeferralEnd (g : Fin 4) (s : State) : Host.Outcome State Fault Refusal :=
  .next (if dueDeferral s g then opDeferralEnd g s else s)

/-- SYSCTL.OE rises while TRIP# is asserted: every group latches (R201). -/
def oeTrip (s : State) : State :=
  if s.trip.tripin then latchGroups 20 (vwhere fun g => !s.trip.latched[g]) s else s

/-- TRIP_CLEAR: the latches of the groups named clear unless TRIP# is asserted (R207, R448). -/
def cmdTripClear (a : Args) (s : State) : CmdRes :=
  let left (s : State) : Nat := (List.finRange 4).foldl (fun m g => m + if s.trip.latched[g] then 2 ^ g.val else 0) 0
  if !within a.a0 0x000F then badArg s
  else if s.trip.tripin then { st := s, status := 0x18, q0 := left s }
  else
    let gs := (List.finRange 4).filter fun g => bit a.a0 g.val && s.trip.latched[g]
    let s := { s with trip := { s.trip with latched := gs.foldl (fun v (g : Fin 4) => v.set g false) s.trip.latched } }
    let ns := (List.finRange 12).filter fun n => s.chan[n].st == .tripped && gs.any fun g => g.val == s.trip.group[n]
    let s := foldSt ns release s
    { st := s, q0 := left s }

/-- TRIP_CLEAR (R207). -/
def execTripClear (a : Args) (s : State) : Host.Outcome State Fault Refusal :=
  .next (mboxRow 0x15 cmdTripClear a s)

/-! ### DIAG_RUN -/

/-- DIAG_RUN CHAN (R208). -/
def diagChan (a : Args) (s : State) : CmdRes :=
  let n : Fin 8 := ⟨fld a.a0 0 3, by have := Nat.mod_lt (a.a0.toNat / 2 ^ 0) (show 2 ^ 3 > 0 by decide); unfold fld; omega⟩
  let en := bit a.a0 3
  let nrise := fld a.a0 4 4
  let conf := fld a.a0 8 4
  checked (within a.a0 0xCFFF && within a.a1 0x0FFF && within a.a2 0x0FFF && within a.a3 0x0FFF && nrise != 0 &&
      conf != 0 && a.a1 != 0 && a.a2 != 0 && a.a3 != 0) [] s
    { st := updDiag n (fun d => { d with en := en, nocur := a.a1.toNat, oclim := a.a2.toNat, didt := a.a3.toNat, nrise := nrise, conf := conf, cand := 0, cnt := 0, cls := if en then d.cls else 0 }) s }

/-- The group that the TRIP form gives a channel (R446). -/
def groupArg (a : Args) (n : Fin 12) : Nat := if n.val < 8 then fld a.a1 (2 * n.val) 2 else fld a.a2 (2 * n.val - 16) 2

/-- DIAG_RUN TRIP (R209, R446). -/
def diagTrip (a : Args) (s : State) : CmdRes :=
  let dead := fld a.a0 0 6
  let tb := fld a.a0 6 8
  let keep := bit a.a3 0
  let gs : Vector Nat 12 := if keep then s.trip.group else Vector.ofFn (groupArg a)
  checked (decide (5 ≤ dead) && decide (dead ≤ 50) && decide (tb ≤ 200) && within a.a3 1 && (keep || within a.a2 0x00FF))
    [(List.finRange 4).all fun p => !s.chs.pairs[p] || vget gs (2 * p.val) 0 == vget gs (2 * p.val + 1) 0,
     keep || (s.trip.latched.toList.all (!·) && s.trip.defer.toList.all (·.isEmpty))] s
    { st := { s with trip := { s.trip with dead := dead, tblank := tb, group := gs } } }

/-- A test whose command was cut short gives way to a new one: its pulse ends. -/
def dropPulse (s : State) : State :=
  match s.diag.test with
  | some t => if t.ph == .pulse then setDrv (chOf t.ch) false s else s
  | none => s

/-- DIAG_RUN TEST starts; its process runs in hardware (R210, R211, R432). -/
def diagTest (a : Args) (s : State) : CmdRes :=
  let tp := fld a.a1 0 8
  if !(within a.a0 0x81FF && within a.a1 0x00FF && decide (1 ≤ tp) && decide (tp ≤ 200)) then badArg s
  else
    let t : DTest := { mask := a.a0.setWidth 8, pulse := bit a.a0 8, tpulse := tp }
    { st := { dropPulse s with diag := { (dropPulse s).diag with test := some t } }, done := false }

/-- DIAG_RUN by its form (R446); form 3 is not assigned. -/
def cmdDiagRun (a : Args) (s : State) : CmdRes :=
  match fld a.a0 14 2 with
  | 0 => diagChan a s
  | 1 => diagTrip a s
  | 2 => diagTest a s
  | _ => badArg s

/-- A test that has just been accepted turns to its first channel. -/
def testStart (before s : State) : State :=
  if s.mbox.committed && !before.mbox.committed then testFrom 9 0 s else s

/-- The words of a form: A0[15:14] is the form's number. -/
def formArgs (k : Nat) (a : Args) : Args := { a with a0 := (a.a0 &&& 0x3FFF) ||| w16 (k * 16384) }

/-- DIAG_RUN, CHAN form (R208). -/
def execDiagRunChan (a : Args) (s : State) : Host.Outcome State Fault Refusal :=
  .next (mboxRow 0x14 cmdDiagRun (formArgs 0 a) s)

/-- DIAG_RUN, TRIP form (R209). -/
def execDiagRunTrip (a : Args) (s : State) : Host.Outcome State Fault Refusal :=
  .next (mboxRow 0x14 cmdDiagRun (formArgs 1 a) s)

/-- DIAG_RUN, TEST form (R210, R211). -/
def execDiagRunTest (a : Args) (s : State) : Host.Outcome State Fault Refusal :=
  .next (testStart s (mboxRow 0x14 cmdDiagRun (formArgs 2 a) s))

/-- 20 µs have passed in step 1 (R211). -/
def dueTestWait (s : State) : Bool :=
  liveN s && match s.diag.test with
    | some t => t.ph == .wait && decide (2000 ≤ tbSince t.since s.clk.tb)
    | none => false

/-- DIAG_TEST_WAIT_TIMEOUT (R211). -/
def execDiagTestWaitTimeout (s : State) : Host.Outcome State Fault Refusal :=
  .next (match s.diag.test with
    | some t => if dueTestWait s then testFinish t.ch #v[testFirst s t 0, testFirst s t 1] s else s
    | none => s)

/-- TPULSE has passed and DRVn is still decided high, or the pin has had the time to follow (R19, R211). -/
def dueTestPulse (s : State) : Bool :=
  liveN s && match s.diag.test with
    | some t =>
      let d := tbSince t.since s.clk.tb
      t.ph == .pulse && decide (t.tpulse * 10 ≤ d) && (s.chan[chOf t.ch].drv || decide (t.tpulse * 10 + 3 ≤ d))
    | none => false

/-- The end of a test pulse: DRVn is decided low, and once the pin has fallen the end of decay is awaited (R19, R211). -/
def opTestPulse (t : DTest) (s : State) : State :=
  let s := setDrv (chOf t.ch) false s
  if t.tpulse * 10 + 3 ≤ tbSince t.since s.clk.tb then
    { s with diag := { s.diag with test := some { t with ph := .decay, since := s.clk.tb, offs := #v[0, 0] } } }
  else s

/-- DIAG_TEST_PULSE_END (R211). -/
def execDiagTestPulseEnd (s : State) : Host.Outcome State Fault Refusal :=
  .next (match s.diag.test with
    | some t => if dueTestPulse s then opTestPulse t s else s
    | none => s)

end Sys2Proof.Machine
end

