-- ==== Sys2Proof/Machine/Power.lean ====
section
/-! DEFINITION. Resets, the boot, the output enable, STOP and STANDBY, wakes and power fail
(R340 to R359, R373, R415, R513, R534). -/

namespace Sys2Proof.Machine

/-! ### Resets (R4, R8, R340) -/

/-- The fixed policy of the legacy decoder (R470). -/
def legacyPolicy : Policy := { badlo := 10, badhi := 32, syncap := 1, k := 1, gapverify := true, camloss := true, limpen := false }

/-- A key word that is being written when the device resets holds its old or its new value (R361, log 9). -/
def settleKey (s : State) : State :=
  match s.sec.adv with
  | none => s
  | some a =>
    let s := { s with free := s.free + 1 }
    if Config.keyLanded s.free then
      match a with
      | .key w v => updSec (writeKey w v) s
      | .lock _ => updSec (writeKey 16 0x4C4B) s
      | .seal => updSec (writeKey 17 0x5345) s
      | .sealNext => s
    else s

/-- The AOC domain as a reset leaves it (R309, R340, R392). -/
def resetClk (por : Bool) (c : Clk) : Clk := if por then {} else { aocok := c.aocok, aocCount := c.aocCount }

/-- What security keeps through a reset: the key area and its lifecycle, and but for a power-on reset FAILS and a
running lockout (R392). -/
def resetSec (por : Bool) (c : Sec) : Sec :=
  { keys := c.keys, lc := c.lc, fails := if por then 0 else c.fails, lockout := !por && c.lockout }

/-- Every reset (R340): cause, face from the level of MODE, banks kept, all else at its reset value. -/
def resetTo (por : Bool) (cause : Nat) (mode : Bool) (s : State) : State :=
  let s := cutCommit (settleKey s)
  let hi := mode && s.sys.vddioa
  let t : State := {}
  let sys : Sys := { t.sys with face := if hi then .native else .legacy, vddioa := s.sys.vddioa, rstCause := cause, pfail := s.sys.pfail }
  let store : Store := { t.store with bankA := s.store.bankA, bankB := s.store.bankB }
  let wheel : Wheel := if hi then t.wheel else { t.wheel with pol := legacyPolicy }
  { t with sys := sys, clk := resetClk por s.clk, wheel := wheel, flt := { t.flt with batch := s.flt.batch, self := !por && s.flt.self }, store := store, sec := resetSec por s.sec, pins := { s.pins with mode := hi }, free := s.free, pending := s.pending }

/-- A power-on reset; on a first rise it waits for VDDIOA (R534). No row tells a first rise from a later one: without VDDIOA
it is a free value (log 9). -/
def powerOn (mode : Bool) (s : State) : State :=
  let t := resetTo true 0 mode s
  if s.sys.vddioa then t
  else
    let first := Config.firstRise t.free
    updSys (fun y => { y with inReset := first, porHold := first }) { t with free := t.free + 1 }

/-- POWER_ON_RESET (R340). -/
def execPowerOnReset (mode : Bool) (s : State) : Host.Outcome State Fault Refusal := .next (powerOn mode s)

/-- RESET_PIN (R340): without VDDIOA the pin reads high (R513). -/
def execResetPin (mode : Bool) (s : State) : Host.Outcome State Fault Refusal :=
  .next (if s.sys.vddioa && !s.sys.porHold then resetTo false 1 mode s else s)

/-- VDDIOA_LOSS (R513): the device runs on, and MODE reads low. -/
def execVddioaLoss (s : State) : Host.Outcome State Fault Refusal :=
  .next { s with sys := { s.sys with vddioa := false }, pins := { s.pins with mode := false } }

/-- VDDIOA_RETURN (R534): a power-on reset that waited for VDDIOA is released. -/
def execVddioaReturn (mode : Bool) (s : State) : Host.Outcome State Fault Refusal :=
  let s := { s with sys := { s.sys with vddioa := true }, pins := { s.pins with mode := mode } }
  .next (if s.sys.porHold then resetTo true 0 mode s else s)

/-! ### SYSCTL (R142 to R144, R343, R415) -/

/-- OE rises: refused before BOOT = 5, in the safe state and during the pin-drive test (R343, R259, R401). -/
def oeOnOp (s : State) : State :=
  if s.sys.oe || s.sys.boot != 5 || s.flt.safe || s.dbg.ptest then s
  else oeTrip (updSys (fun y => { y with oe := true }) s)

/-- OE falls: the channels and the windows stop at once (R129, R137, R144). -/
def oeOffOp (s : State) : State :=
  if s.sys.oe then windowsCheck (outputsDown (updSys (fun y => { y with oe := false }) s)) else s

/-- A write of SYSCTL, with the level of MODE at the release of a reset that it requests (R415). -/
def writeSysctl (w : Word) (mode : Bool) (s : State) : State :=
  if bit w 1 then (if fld w 8 8 = 0x5A then resetTo false 2 mode s else s)
  else if bit w 0 then oeOnOp s else oeOffOp s

/-- SYSCTL takes a write. -/
def sysctlDo (w : Word) (mode : Bool) (s : State) : State := if regOpen s 0x06 then writeSysctl w mode s else s

/-- RESET_REQUEST (R415). -/
def execResetRequest (mode : Bool) (s : State) : Host.Outcome State Fault Refusal :=
  .next (hostRow (.resetRequest mode) (sysctlDo 0x5A02 mode) s)

/-- OE_SET (R143). -/
def execOeSet (s : State) : Host.Outcome State Fault Refusal := .next (hostRow .oeSet (sysctlDo 0x0001 false) s)

/-- OE_CLEAR (R144). -/
def execOeClear (s : State) : Host.Outcome State Fault Refusal := .next (hostRow .oeClear (sysctlDo 0x0000 false) s)

/-! ### The boot (R341 to R344, R366, R367, R387) -/

/-- FCO is judged and FCLK starts; at a wake from STANDBY TB resumes here (R341, R352, R356). -/
def opB0End (ref : RefEdge) (s : State) : State :=
  let tb := if !s.sys.stbyWake then 0
    else if s.clk.aocok then reloadTb s.clk.tb s.clk.anchor ref.dA ref.c else tbAdd s.clk.tb 1
  let mark := s.sys.stbyWake && s.clk.aocok && ref.c == 0
  let s := updClk (fun c => { c with tb := tb, anchor := if mark then tb else c.anchor, fclkOn := true, fcyc := 0, tbgap := c.tbgap || s.sys.stbyWake }) s
  updSys (fun y => { y with boot := 1, odStop := false }) s

/-- B0 runs and FCO is judged. -/
def dueB0 (s : State) : Bool :=
  s.sys.boot == 0 && !s.clk.fclkOn && !s.sys.inReset && s.sys.pwr == .run && s.clk.fcook

/-- BOOT_B0_END (R341). -/
def execBootB0End (ref : RefEdge) (s : State) : Host.Outcome State Fault Refusal :=
  .next (if dueB0 s then clkRow (opB0End ref) s else s)

/-- A phase of ROM boot can end: its number, FCLK, and no halt (R341, R400). -/
def inPhase (s : State) (b : Nat) : Bool := liveN s && s.sys.boot == b && !s.dbg.halted && s.sys.pwr == .run

/-- ROM_INTEGRITY_CHECK (R344): the factory trims have no effect that this model shows. -/
def execRomIntegrityCheck (ok : Bool) (s : State) : Host.Outcome State Fault Refusal :=
  .next (if inPhase s 1 then updSys (fun y => { y with boot := if ok then 2 else 6 }) s else s)

/-- A bank as a reader. -/
def bankReader (s : State) (b : Bool) : Reader := fun a => cellGet bankDefault a (bank s b)

/-- The chosen record as a reader. -/
def chosenReader (s : State) : Reader := bankReader s (s.store.chosen == 2)

/-- The wake has a usable resume section (R365). -/
def resumeOk (s : State) : Bool := s.sys.stbyWake && s.store.chosen != 0 && resumeUsable (chosenReader s) s.sec.keys

/-- What source 40 records of the banks, if anything: a bank that is not blank is invalid, no record with a bank not
blank, or a lost resume section (R367). -/
def bankEvent (s : State) : Option Word :=
  let badA := !recordValid s.store.bankA
  let badB := !recordValid s.store.bankB
  let lost := s.sys.stbyWake && !resumeOk s
  let none := s.store.chosen == 0
  if (badA && !recordBlank s.store.bankA) || (badB && !recordBlank s.store.bankB) || (none && !s.store.bothBlank) || lost then
    some (w16 (b2n badA 0 + b2n badB 1 + b2n none 2 + b2n lost 3))
  else Option.none

/-- Both banks are read and checked (R366, R367). -/
def opBanksRead (s : State) : State :=
  let c := chooseBank s
  let blank := recordBlank s.store.bankA && recordBlank s.store.bankB
  let seq := seqOf c s
  let s := { s with store := { s.store with chosen := c, latest := c, seq := seq, bothBlank := blank } }
  let s := updSys (fun y => { y with boot := 3 }) s
  let ev := bankEvent s
  { s with store := { s.store with detail := ev.getD s.store.detail, bootEv := ev } }

/-- STORE_BANKS_READ (R366). -/
def execStoreBanksRead (s : State) : Host.Outcome State Fault Refusal :=
  .next (if inPhase s 2 then opBanksRead s else s)

/-- The image in force and its SRC (R387). -/
def bootImage (s : State) : Vector Word 64 × Nat :=
  if resumeOk s then (loadImage (chosenReader s) (atResume + 790), 4)
  else if s.store.chosen != 0 then (loadImage (chosenReader s) atProt, 2)
  else if s.sec.lc = 0 then (openImage, 0) else (closedImage, 1)

/-- B3 applies the record or the defaults (R341, R366, R368, R382, R387). -/
def applyRecord (s : State) : State :=
  let s := deriveLc s
  let (img, src) := bootImage s
  let s := updSec (fun c => { c with img := img, src := src }) s
  if s.store.chosen = 0 then { s with store := { s.store with shadow := defaultShadow img, dirty := false } }
  else
    let r := chosenReader s
    applySections r { s with store := { s.store with shadow := shadowOf (bank s (s.store.chosen == 2)), dirty := false } }

/-- What B2 has recorded is applied (R367). -/
def applyBankEvent (s : State) : State :=
  let t := { s with store := { s.store with bootEv := none } }
  match s.store.bootEv with
  | some det => raise 40 0 det t
  | none => t

/-- After a wake from STANDBY INTSTAT holds the PWR bit alone (R423, R426). -/
def wakeInts (woke : Bool) (s : State) : State :=
  if woke then setInt 10 { s with bus := { s.bus with intstat := 0 } } else s

/-- The end of B3: the boot window, or after a valid resume BOOT = 5 (R341, R343, R356). -/
def opRecordApplied (s : State) : State :=
  let resume := resumeOk s
  let woke := s.sys.stbyWake
  let r := chosenReader s
  let s := wakeInts woke (applyBankEvent (applyRecord s))
  if resume then
    let s := updSec (fun c => { c with ro := true }) (applyResume r s)
    dieCheck (updSys (fun y => { y with boot := 5, stbyWake := false }) (shadowPut 10 [0] s))
  else dieCheck (updSys (fun y => { y with boot := 4, stbyWake := false, resdef := woke }) s)

/-- RECORD_APPLIED (R341). -/
def execRecordApplied (s : State) : Host.Outcome State Fault Refusal :=
  .next (if inPhase s 3 then opRecordApplied s else s)

/-- BOOT_DONE (R343, R388, R440). -/
def cmdBootDone (_a : Args) (s : State) : CmdRes :=
  let t := updSys (fun y => { y with boot := 5 }) (updSec (fun c => { c with ro := true }) s)
  checked true [s.sys.boot == 4] s { st := if s.sec.src = 3 then shadowPut atProt (protBytes s.sec) t else t }

/-- BOOT_DONE (R343): its arguments are ignored. -/
def execBootDone (s : State) : Host.Outcome State Fault Refusal := .next (mboxRow 0x01 cmdBootDone (rowArgs 0x01 s) s)

/-- DEVID and REVID (R413). -/
def devid : Word := 0x6432
def revid : Word := 0x0110

/-- Word j of the UID (R440). -/
def uidWord (j : Nat) : Word := (Config.uid >>> (16 * j)).setWidth 16

/-- IDENT (R440). -/
def cmdIdent (a : Args) (s : State) : CmdRes :=
  let (q0, q1) : Word × Word := match fld a.a0 0 2 with
    | 0 => (devid, revid)
    | 1 => (uidWord 0, uidWord 1)
    | 2 => (uidWord 2, uidWord 3)
    | _ => (w16 (s.sec.lc + b2n s.sec.unlk 2 + 8 * s.sec.src), s.sec.img[63])
  checked (within a.a0 3) [] s { st := s, q0 := q0.toNat, q1 := q1.toNat }

/-- IDENT (R440). -/
def execIdent (a : Args) (s : State) : Host.Outcome State Fault Refusal := .next (mboxRow 0x02 cmdIdent a s)

/-! ### Requests for STOP and STANDBY (R347 to R349, R358) -/

/-- A wake source that the state knows is enabled (R350); WTMR needs a length. -/
def wakeEnabled (s : State) (stby : Bool) : Bool :=
  let y := s.sys
  (y.wcrank || (!stby && y.wcam) || y.wcs || y.wlink || y.wtmr) && (!y.wtmr || y.wtim != 0)

/-- The first reason to refuse, or 0 (R347). -/
def refuseReq (s : State) (stby : Bool) : Nat :=
  if s.sched.slots.toList.any fun x => x.st == .armed then 1
  else if !((List.finRange 12).all (idle s)) || s.trip.latched.toList.any id || s.diag.test.isSome then 2
  else if s.emit.run || s.clk.fm.busy then 3
  else if s.mbox.busy || s.mbox.run.isSome || s.store.run.isSome then 4
  else if !s.clk.aocok then 5
  else if !wakeEnabled s stby then 6
  else 0

/-- The conditions of the interrupt registers assert INT# (R425). -/
def intEnabled (s : State) : Bool := (s.bus.intstat &&& s.bus.inten) != 0

/-- What an accepted request ends besides the link: the pin-drive test and a challenge (R390, R401). A supervisor in SWITCH
is in RUN again, and a CLKCTL write that waited acts (R318, R335). -/
def requestEnds (s : State) : State :=
  let s := updDbg (fun d => { d with ptest := false }) (updSec (fun c => { c with chal := none, ansM := none }) (linkOff s))
  updClk (fun c => { ctlOf c with rckok := false, holdover := false, sel := false, sup := .run }) s

/-- STOP is entered (R345, R348); a PFAIL that stands there wakes the device (R350). -/
def enterStop (s : State) : State :=
  let s := thermFastReset (requestEnds s)
  let s := updClk (fun c => { c with fclkOn := false, fcoOn := false, fcook := false, fll := { c.fll with slew := false } }) s
  let s := updSys (fun y => { y with pwr := .stop, refuse := 0, capture := [], capCams := 0, wakeLatch := none, wakeReq := if y.pfail then some 2 else none, dbgRef := none, coarse := false, coarseSeen := 0, odStop := false }) s
  { s with bus := { s.bus with intStop := intEnabled s } }

/-- The entry into STANDBY starts with the commit of the resume section (R349, R368, R372). FCO is enabled; an FCLK that was
taken from RCK goes on from FCO, as soon as FCO is judged (R310, R314, log 32). -/
def startStandby (s : State) : State :=
  let on := s.clk.fclkOn && (!s.clk.sel || s.clk.fcook)
  let s := updClk (fun c => { c with fcoOn := true, fclkOn := on }) (requestEnds s)
  let s := windowsCheck (outputsDown (updSys (fun y => { y with oe := false, pwr := .entering, refuse := 0, wakeLatch := none, latchDbg := false }) s))
  requestCommit .standby (shadowPut atResume (resumeBytes s) (shadowPut 10 [1] s))

/-- The reason to refuse a request, or 0: during an entry a commit is in progress (R347). -/
def refusal (s : State) (stby : Bool) : Nat :=
  match refuseReq s stby with
  | 0 => if s.sys.pwr == .run then 0 else 4
  | r => r

/-- A write of PWRCTL: the RW fields first, then the request (R347, R358). -/
def writePwrctl (w : Word) (s : State) : State :=
  let s := updSys (fun y => { y with wcrank := bit w 2, wcam := bit w 3, wcs := bit w 4, wlink := bit w 5, wtmr := bit w 6, wunit := bit w 7, wtim := fld w 8 7 }) s
  let req := fld w 0 2
  if req = 1 || req = 2 then
    match refusal s (req == 2) with
    | 0 => if req = 1 then enterStop s else startStandby s
    | r => updSys (fun y => { y with refuse := r }) s
  else s

/-- PWRCTL takes a write. -/
def pwrctlDo (w : Word) (s : State) : State := if regOpen s 0x08 then clkRow (writePwrctl w) s else s

/-- A request that is accepted keeps the anchor with the error of its capture (R320, R348, R349). -/
def keepAnchor (err : Fin 3) (f : State → State) (s : State) : State :=
  let t := f s
  if s.sys.pwr == .run && t.sys.pwr != .run then updClk (fun c => { c with anchor := anchorAt err c.anchor }) t else t

/-- STOP_REQUEST (R348): a PWRCTL write with REQ = 1. -/
def execStopRequest (w : Word) (err : Fin 3) (s : State) : Host.Outcome State Fault Refusal :=
  .next (hostRow (.stopRequest w err) (keepAnchor err (pwrctlDo ((w &&& 0xFFFC) ||| 1))) s)

/-- STANDBY_REQUEST (R349): a PWRCTL write with REQ = 2. -/
def execStandbyRequest (w : Word) (err : Fin 3) (s : State) : Host.Outcome State Fault Refusal :=
  .next (hostRow (.standbyRequest w err) (keepAnchor err (pwrctlDo ((w &&& 0xFFFC) ||| 2))) s)

/-- PWRCTL as it reads (R358). -/
def pwrctl (s : State) : Word :=
  let y := s.sys
  w16 (b2n y.wcrank 2 + b2n y.wcam 3 + b2n y.wcs 4 + b2n y.wlink 5 + b2n y.wtmr 6 + b2n y.wunit 7 + 256 * y.wtim)

/-- Nothing that the state holds keeps a gateable block or the firmware core at work (R331, R337). -/
def restful (s : State) : Bool :=
  (s.sys.boot == 4 || s.sys.boot == 5) && s.sec.chk.isNone && s.sec.adv.isNone && !s.mbox.busy && s.mbox.run.isNone && s.mbox.remote.isEmpty && s.store.run.isNone && !s.dbg.halted && s.flt.queue.isEmpty &&
    [Blk.chan, .therm, .cps, .tim, .link, .emit, .fm].all fun b => blkIdle s b || !blkOn s b

/-- PWRSTAT (R338, R359): whether the device is IDLE in a cycle without work is a free value (log 9). -/
def pwrstat (s : State) : Word :=
  let y := s.sys
  let st := if y.pwr == .entering then 2 else if restful s && Config.idleSeen s.clk.tb then 1 else 0
  w16 (st + 4 * y.boot + 32 * y.wakeSrc + b2n y.fromStop 8 + b2n y.fromStby 9 + 1024 * y.refuse + b2n y.resdef 13 + b2n y.pfail 14)

/-! ### Wakes (R350 to R357) -/

/-- The source of this code wakes the device (R350); the debug port wakes whatever WCS holds (R399). -/
def wakes (s : State) (code : Nat) (dbg stby : Bool) : Bool :=
  let y := s.sys
  match code with
  | 1 => !s.clk.aocok
  | 2 => !stby && y.pfail
  | 3 => y.wcrank
  | 4 => !stby && y.wcam && s.cams.toList.any (·.en)
  | 5 => y.wlink
  | 6 => (y.wcs && y.vddioa) || dbg
  | 7 => y.wtmr && y.wtim != 0 && s.clk.aocok
  | _ => false

/-- The lowest code of the sources that stand together at a wake (R350). -/
def lowestCode (code : Nat) (stby : Bool) (s : State) : Nat :=
  let k := min (s.sys.wakeReq.getD code) code
  if !s.clk.aocok then min 1 k else if !stby && s.sys.pfail then min 2 k else k

/-- A captured edge goes to the decoder with its coarse stamp (R57, R353), while no emitter runs (R507). -/
def feedEdge (e : CapEdge) (s : State) : State :=
  if !pinIn s then s else
  match e.src with
  | .crank => takeTooth e.stamp s
  | .cam c => camEdge c e.rise e.stamp false s

/-- The wake from STOP (R352, R354, R357). -/
def wakeStop (code : Nat) (dbg : Bool) (ref : RefEdge) (s : State) : State :=
  let ok := s.clk.aocok
  let tb := if ok then reloadTb s.clk.tb s.clk.anchor ref.dA ref.c else tbAdd s.clk.tb 1
  let edges := if ok then s.sys.capture else []
  let src := lowestCode code false s
  let byDbg := dbg || s.sys.dbgRef.isSome
  let edge := if ref.c = 0 then tb else tbAdd s.clk.anchor (aocTicks ref.dA)
  let s := updClk (fun c => { c with tb := tb, anchor := if ok && ref.c == 0 then tb else c.anchor, aocTb := edge, aocPrev := tbAdd c.anchor (aocTicks (ref.dA - 1)), phase := 0, fclkOn := true, fcoOn := true, fcook := true, tbgap := true }) s
  let s := updSys (fun y => { y with pwr := .run, fromStop := true, fromStby := false, wakeSrc := src, capture := [], wakeReq := none, dbgRef := none, coarse := true, coarseSeen := 0, coarseOff := !ok }) s
  let s := updDbg (fun d => { d with dwk := byDbg && src == 6 }) s
  let s := setInt 10 (decoderReset (timFastReset s))
  foldSt edges feedEdge s

/-- A wake from STANDBY, latched while the entry still runs (R351, R356). -/
def wakeStandby (code : Nat) (dbg : Bool) (s : State) : State :=
  let src := lowestCode code true s
  let s := updClk (fun c => { c with fcoOn := true }) s
  let s := updSys (fun y => { y with pwr := .run, boot := 0, stbyWake := true, wakeReq := none, fromStby := true, fromStop := false, wakeSrc := src, rstCause := 4 }) s
  updDbg (fun d => { d with dwk := dbg && src == 6 }) s

/-- A wake source in STANDBY or during its entry. -/
def standbyWake (code : Nat) (dbg : Bool) (s : State) : State :=
  if !isNative s || !wakes s code dbg true then s
  else if s.sys.pwr == .standby then wakeStandby code dbg s
  else if s.sys.pwr == .entering then latchWake code (updSys (fun y => { y with latchDbg := y.latchDbg || dbg }) s)
  else s

/-- A wake source in STOP. -/
def stopWake (code : Nat) (dbg : Bool) (ref : RefEdge) (s : State) : State :=
  if isNative s && s.sys.pwr == .stop && wakes s code dbg false then clkRow (wakeStop code dbg ref) s else s

/-- WAKE_FROM_STOP (R354). -/
def execWakeFromStop (code : Fin 8) (ref : RefEdge) (s : State) : Host.Outcome State Fault Refusal :=
  .next (stopWake code.val false ref s)

/-- WAKE_FROM_STANDBY (R356). -/
def execWakeFromStandby (code : Fin 8) (s : State) : Host.Outcome State Fault Refusal :=
  .next (standbyWake code.val false s)

/-- WAKE_TIMER (R350): code 7 in STOP or STANDBY; it counts from the end of an entry. -/
def execWakeTimer (ref : RefEdge) (s : State) : Host.Outcome State Fault Refusal :=
  .next (if s.sys.pwr == .standby then standbyWake 7 false s else stopWake 7 false ref s)

/-- The core loses its power: what the AOC domain and the store keep stays (R349, R356). -/
def coreOff (s : State) : State :=
  let t : State := {}
  let y := s.sys
  let sys : Sys := { t.sys with face := y.face, pwr := .standby, vddioa := y.vddioa, pfail := y.pfail, wcrank := y.wcrank, wcam := y.wcam, wcs := y.wcs, wlink := y.wlink, wtmr := y.wtmr, wunit := y.wunit, wtim := y.wtim, wakeSrc := y.wakeSrc, fromStop := y.fromStop, fromStby := y.fromStby }
  let clk : Clk := { t.clk with tb := s.clk.tb, fcoOn := false, aocok := s.clk.aocok, aocCount := s.clk.aocCount, anchor := s.clk.anchor }
  let store : Store := { t.store with bankA := s.store.bankA, bankB := s.store.bankB }
  let sec : Sec := { keys := s.sec.keys, lc := s.sec.lc, unlk := s.sec.unlk, fails := s.sec.fails, lockout := s.sec.lockout }
  let dbg : Dbg := { s.dbg with halt := false, halted := false, ptest := false, ans := [], p := 0 }
  { t with sys := sys, clk := clk, flt := { t.flt with batch := s.flt.batch, self := s.flt.self }, store := store, sec := sec, dbg := dbg, pins := s.pins, free := s.free, pending := s.pending }

/-- The entry into STANDBY ends: the core is off, and a latched wake follows at once (R349, R351). -/
def standbyEntered (s : State) : State :=
  let latch := s.sys.wakeLatch
  let dbg := s.sys.latchDbg && latch == some 6
  let s := coreOff s
  match latch with
  | some code => wakeStandby code dbg s
  | none => s

/-- The entry is abandoned because its commit failed (R349); a halt that was held applies (R400). -/
def standbyAbandoned (s : State) : State :=
  let s := updDbg (fun d => { d with halted := d.halt }) s
  updSys (fun y => { y with pwr := .run, refuse := 7, wakeLatch := none, latchDbg := false }) s

/-! ### Wake capture (R57, R353) -/

/-- The capture detects this edge: the decoder's tooth edge, or an edge that an enabled cam uses. -/
def captures (s : State) (src : EdgeSrc) (rise : Bool) : Bool :=
  match src with
  | .crank => s.wheel.cfgd && rise != s.wheel.cfg.edge
  | .cam c => s.cams[c].en && s.cams[c].uses rise

/-- The level of the pin after the edge. -/
def edgePin (src : EdgeSrc) (rise : Bool) (s : State) : State :=
  match src with
  | .crank => { s with pins := { s.pins with crank := s.pins.crank.put rise s.clk.tb } }
  | .cam c => { s with pins := { s.pins with cam := vupd s.pins.cam c (PinIn.put rise s.clk.tb) } }

/-- The capture has room: 4 crank edges and 16 cam edges, in STOP and after the wake together (R353). -/
def captureRoom (s : State) (src : EdgeSrc) : Bool :=
  match src with
  | .crank => decide ((s.sys.capture.filter fun e => e.src == .crank).length < 4 && s.sys.coarseSeen < 4)
  | .cam _ => decide (s.sys.capCams < 16)

/-- An edge of a cam is counted by the capture (R353). -/
def countCam (src : EdgeSrc) (y : Sys) : Sys :=
  match src with
  | .crank => y
  | .cam _ => { y with capCams := y.capCams + 1 }

/-- In STOP the edge wakes the device, when its source is enabled: of CRANK the tooth edge, and before the first WHEEL_SET
either edge; of an enabled cam an edge of its mode (R350). -/
def edgeWakes (src : EdgeSrc) (rise : Bool) (s : State) : State :=
  if !isNative s || s.sys.inReset || s.sys.pwr != .stop then s
  else match src with
    | .crank => if s.sys.wcrank && (captures s src rise || !s.wheel.cfgd) then askWake 3 s else s
    | .cam _ => if s.sys.wcam && captures s src rise then askWake 4 s else s

/-- An edge of the wake capture: held in STOP, and fed to the decoder until the fifth crank edge after the wake. -/
def opCapture (src : EdgeSrc) (rise : Bool) (dA : Nat) (err : Fin 3) (s : State) : State :=
  let e : CapEdge := ⟨src, rise, tbAdd (if s.sys.pwr == .stop then s.clk.anchor else anchorAt err s.clk.anchor) (aocTicks dA)⟩
  if !isNative s || s.sys.inReset || !captures s src rise || !captureRoom s src then s
  else if s.sys.pwr == .stop then updSys (fun y => countCam src { y with capture := y.capture ++ [e] }) s
  else if liveN s && s.sys.coarse && !s.sys.coarseOff then feedEdge e (updSys (countCam src) s)
  else s

/-- WAKE_CAPTURE_EDGE (R353). -/
def execWakeCaptureEdge (src : EdgeSrc) (rise : Bool) (dA : Nat) (err : Fin 3) (s : State) : Host.Outcome State Fault Refusal :=
  .next (opCapture src rise dA err (edgeWakes src rise (edgePin src rise s)))

/-! ### Wakes that other rows cause (R350, R355, R357) -/

/-- The reference edge of a wake whose row carries none: a free value (log 9). -/
def freeRef (s : State) : RefEdge := ⟨(Config.wakeRef s.clk.tb).1, (Config.wakeRef s.clk.tb).2⟩

/-- A wake of this code follows at once from what a row has done, in STOP or STANDBY (R350). -/
def wakeNow (code : Nat) (s : State) : State :=
  if s.sys.pwr == .standby then standbyWake code false s else stopWake code false (freeRef s) s

/-- The wake of a source that has occurred begins (R350, R355, R399). -/
def askedWake (s : State) : State :=
  match s.sys.dbgRef, s.sys.wakeReq with
  | some ref, _ => stopWake 6 true ref s
  | none, some k => wakeNow k s
  | none, none => s

/-- The loss of AOC (R308, R357): in STOP and STANDBY source 31 records it, with a free count, and it wakes the device. -/
def opAocLoss (s : State) : State :=
  let s := aocFalls s
  if s.sys.pwr == .stop || s.sys.pwr == .standby then wakeNow 1 (raise 31 0 (Config.lossCount.setWidth 16) s) else s

/-- AOC_LOSS (R308): a loss monitor of the native mode (R324), which LRC times (R325, R357). -/
def execAocLoss (s : State) : Host.Outcome State Fault Refusal :=
  .next (if supOn s && !s.clk.lrcLost && s.clk.aocok then clkRow opAocLoss s else s)

/-- The gross check of AOC against LRC (R325). -/
def opGross (count : Nat) (s : State) : State :=
  if 866 ≤ count ∧ count ≤ 1296 then s
  else
    let had := s.clk.aocok
    let s := raise 31 0 (w16 (min count 2047)) (aocFalls s)
    if had then wakeNow 1 s else s

/-- AOC_GROSS_CHECK (R325). -/
def execAocGrossCheck (count : Nat) (s : State) : Host.Outcome State Fault Refusal :=
  .next (if supOn s && !s.clk.lrcLost then clkRow (opGross count) s else s)

/-! ### Power fail (R373) -/

/-- The comparator trips: in STOP it wakes the device, which then commits (R350, R354, R373). -/
def opPfail (s : State) : State :=
  let s := updSys (fun y => { y with pfail := true }) s
  requestCommit .pfail (if s.sys.pwr == .stop then wakeNow 2 s else s)

/-- POWER_FAIL_FALL (R373): the comparator works in every native state; in STANDBY there is no shadow to commit. -/
def execPowerFailFall (s : State) : Host.Outcome State Fault Refusal :=
  .next (if isNative s && !s.sys.inReset && !s.sys.pfail then opPfail s else s)

/-- POWER_FAIL_RISE (R373). -/
def execPowerFailRise (s : State) : Host.Outcome State Fault Refusal :=
  .next (updSys (fun y => { y with pfail := false }) s)

end Sys2Proof.Machine
end

