-- ==== Sys2Proof/Machine/Store.lean ====
section
/-! DEFINITION. The rows of the nonvolatile store: reads, commits and window SHADOW (R366 to R378). -/

namespace Sys2Proof.Machine

/-- The store replaced by a function of itself. -/
def updStore (f : Store → Store) (s : State) : State := { s with store := f s.store }

/-! ### STORE_READ (R375, R377, R454) -/

/-- What the array holds of a bank: of the target of a running commit, the words that are programmed (R370, R375). -/
def arrayOf (b : Bool) (s : State) : List Host.Cell :=
  match s.store.run with
  | some c => if c.target = b then partBank c.prog s.store.shadow c.seq else bank s b
  | none => bank s b

/-- A running commit has come further: to a number of words that no read has seen larger (R375; log 9). -/
def commitMoves (s : State) : State :=
  match s.store.run with
  | some c => updStore (fun t => { t with run := some { c with prog := max c.prog (Config.commitWords s.free % 1025) } }) { s with free := s.free + 1 }
  | none => s

/-- The two words of a read. -/
def readResult (a : Args) (s : State) : Nat × Nat :=
  let m := arrayOf (bit a.a0 0) s
  (cell16 bankDefault (2 * a.a1.toNat) m, cell16 bankDefault (2 * a.a1.toNat + 2) m)

/-- A commit does not yield to the read: a power-fail commit, and another one while PFAIL is 1 (R373, R375). -/
def readWaits (s : State) : Bool :=
  match s.store.run with
  | some c => !s.store.yielded && (s.sys.pfail || c.cause == .pfail)
  | none => false

/-- A running commit suspends for a read, unless the read has to wait (R375). -/
def yieldTo (s : State) : State :=
  if s.store.run.isSome && !readWaits s then updStore (fun t => { t with yielded := true }) (commitMoves s) else s

/-- STORE_READ (R377, R454): at once, or during a commit when the commit has yielded (R375). -/
def cmdStoreRead (a : Args) (s : State) : CmdRes :=
  let r := readResult a s
  checked (within a.a0 1 && within a.a1 0x03FF && decide (a.a1.toNat ≤ 1022)) [] s
    (if s.store.run.isSome then { st := yieldTo s, done := false } else { st := s, q0 := r.1, q1 := r.2 })

/-- STORE_READ (R377). -/
def execStoreRead (a : Args) (s : State) : Host.Outcome State Fault Refusal :=
  .next (mboxRow 0x30 cmdStoreRead a s)

/-- The running command is a STORE_READ that waits (R375). -/
def waitingRead (s : State) : Option Args :=
  match s.mbox.run with
  | some c => if c.code = 0x30 && s.mbox.committed then some c.args else none
  | none => none

/-- A read that waited is served once the commit has ended or yielded; the commit then goes on (R375). -/
def opReadComplete (s : State) : State :=
  match waitingRead s with
  | some a =>
    if readWaits s then s
    else if s.store.run.isSome && !s.store.yielded then yieldTo s
    else
      let r := readResult a s
      endIf 0x30 0 r.1 r.2 (updStore (fun t => { t with yielded := false }) s)
  | none => s

/-- STORE_READ_COMPLETE (R375). -/
def execStoreReadComplete (s : State) : Host.Outcome State Fault Refusal :=
  .next (if liveN s then opReadComplete s else s)

/-! ### STORE_COMMIT (R372, R378, R454) -/

/-- The status CLEAN (R433). -/
def stClean : Nat := 1

/-- The shadow goes to its defaults; while a commit runs the update is held, and it voids the increments held before
it (R368, R369). -/
def clearShadow (s : State) : State :=
  let img := defaultShadow openImage
  if s.store.run.isSome then
    updStore (fun t => { t with held := t.held ++ [⟨0, cellBytes shadowDefault 0 2048 img⟩], heldCnt := Vector.replicate 48 0 }) s
  else updStore (fun t => { t with shadow := img, dirty := true }) s

/-- STORE_COMMIT (R378, R454). -/
def cmdCommit (a : Args) (s : State) : CmdRes :=
  let form := fld a.a0 0 2
  let cause : CommitCause := .host (bit a.a0 2)
  if !(within a.a0 7 && decide (form < 2)) then badArg s
  else if form = 1 then { st := requestCommit .clear (clearShadow s), done := false }
  else if s.store.run.isNone && !commitNeeded cause s.store.dirty then { st := s, status := stClean }
  else { st := requestCommit cause s, done := false }

/-- STORE_COMMIT, COMMIT form (R378). -/
def execStoreCommit (a : Args) (s : State) : Host.Outcome State Fault Refusal :=
  .next (mboxRow 0x31 cmdCommit { a with a0 := a.a0 &&& 0xFFFC } s)

/-- STORE_COMMIT, CLEAR form (R378). -/
def execStoreCommitClear (a : Args) (s : State) : Host.Outcome State Fault Refusal :=
  .next (mboxRow 0x31 cmdCommit { a with a0 := (a.a0 &&& 0xFFFC) ||| 1 } s)

/-! ### The end of a commit (R370 to R373) -/

/-- A host or CLEAR request ends its command. -/
def hostEnds (c : CommitCause) (status q0 q1 : Nat) (s : State) : State :=
  match c with
  | .host _ => endIf 0x31 status q0 q1 s
  | .clear => endIf 0x31 status q0 q1 s
  | _ => s

/-- Requests that waited are judged in their order until one starts (R372). -/
def judgeQueue : List CommitCause → State → State
  | [], s => updStore (fun t => { t with queue := [] }) s
  | c :: cs, s =>
    if commitNeeded c s.store.dirty then startCommit c (updStore (fun t => { t with queue := cs }) s)
    else judgeQueue cs (hostEnds c stClean 0 0 s)

/-- The commit has ended: held updates apply, and the requests that waited are judged (R369, R372). -/
def commitOver (s : State) : State :=
  let s := applyHeld (updStore (fun t => { t with run := none }) s)
  judgeQueue s.store.queue s

/-- The cause in the detail of source 41 (R371). -/
def failCause : CommitCause → Nat
  | .pfail => 2
  | .standby => 3
  | _ => 1

/-- What a commit's end means for its request (R349, R373, R378). -/
def causeEnds (c : Commit) (ok : Bool) (s : State) : State :=
  match c.cause with
  | .pfail => raise 42 0 (w16 (b2n c.target 0 + b2n ok 1)) (updStore (fun t => { t with pfc := true }) s)
  | .standby => if ok then s else standbyAbandoned s
  | .safe => s
  | .orphan _ => s
  | k => hostEnds k (if ok then 0 else 0x1C) (b2n c.target 0) (if ok then c.seq % 65536 else 0) s

/-- The record is valid in its bank (R370). -/
def commitGood (c : Commit) (s : State) : State :=
  let s := setBank c.target (commitImage s.store.shadow c.seq) s
  updStore (fun t => { t with latest := if c.target then 2 else 1, seq := c.seq, commits := satInc t.commits 65535, dirty := false }) s

/-- The repeat has failed too: the target stays invalid (R371). -/
def commitBad (c : Commit) (s : State) : State :=
  let det := w16 (b2n c.target 0 + 2 * failCause c.cause)
  let s := setBank c.target (openBank s.free) { s with free := s.free + 1 }
  raise 41 0 det (updStore (fun t => { t with failed := satInc t.failed 65535, detail := det }) s)

/-- The commit of a STANDBY entry powers the core off when it succeeds (R349). -/
def afterCommit (c : Commit) (ok : Bool) (s : State) : State :=
  if c.cause = .standby && ok then standbyEntered s else commitOver s

/-- The read-back ends (R370, R371). -/
def opCommit (ok : Bool) (s : State) : State :=
  match s.store.run with
  | none => s
  | some c =>
    if ok then afterCommit c true (causeEnds c true (commitGood c s))
    else if c.second then afterCommit c false (causeEnds c false (commitBad c s))
    else updStore (fun t => { t with run := some { c with second := true, prog := 0 } }) (setBank c.target [] s)

/-- COMMIT_COMPLETE (R370): the sequencer works in STOP too (R337); a commit that is suspended for a read does not end
(R375). -/
def execCommitComplete (ok : Bool) (s : State) : Host.Outcome State Fault Refusal :=
  .next (if s.store.yielded then s else opCommit ok s)

/-! ### Window SHADOW (R376) -/

/-- A word of window SHADOW. -/
def readShadow (s : State) (off : Nat) : Word :=
  let t := s.store
  if off < 1024 then w16 (cell16 shadowDefault (2 * off) t.shadow)
  else if off = 1024 then w16 (b2n t.dirty 0 + b2n t.run.isSome 1 + b2n t.yielded 2 + b2n t.pfc 3 + b2n t.lastTarget 4 + 32 * t.chosen + b2n t.bothBlank 7)
  else if off = 1025 then w16 t.seq
  else if off = 1026 then w16 (t.seq / 65536)
  else if off = 1027 then w16 t.commits
  else if off = 1028 then w16 t.failed
  else if off = 1029 then t.detail
  else 0

end Sys2Proof.Machine
end

