-- ==== Sys2Proof/Machine/Flags.lean ====
section
/-! DEFINITION. Status words and flag registers that gather several blocks: SYSSTAT, MBSTAT, CHSTAT, DIAGSUM, the
state words of channels and lines, and the level of INT#. -/

namespace Sys2Proof.Machine

/-- INT# is asserted (R345, R401, R425), in legacy mode by LSTAT and LINT (R492). -/
def intAsserted (s : State) : Bool :=
  if !isNative s then !s.sys.inReset && legacyInt s
  else if s.dbg.ptest then bit s.dbg.dpin 15
  else if s.sys.pwr == .stop then s.bus.intStop
  else if s.sys.inReset || s.sys.pwr == .standby then false
  else intEnabled s || s.flt.safe || s.clk.sup == .held || s.clk.sup == .escape

/-- What LINKO carries: a level, idle pairs, break idle pairs, or slots. -/
inductive LinkOut where
  | low
  | high
  | idle
  | breakIdle
  | slot (x : RxSlot)
deriving DecidableEq, Repr

/-- LINKO (R273, R281, R284, R293, R329, R345, R401): a follower that does not forward sends break idle pairs (log 12). -/
def linko (s : State) : LinkOut :=
  if s.dbg.ptest then (if testPin s 14 then .high else .low)
  else if !liveN s || s.sys.pwr == .stop || s.sys.pwr == .standby || !blkOn s .link then .low
  else if s.link.st == .off then .idle
  else if s.link.st == .master || (follows s && s.link.lock) then .slot s.link.sent
  else .breakIdle

/-- SYSSTAT (R414). -/
def sysstat (s : State) : Word :=
  w16 (1 + b2n (tbcal s) 1 + b2n (outputsOn s) 2 + b2n s.flt.safe 3 + b2n s.flt.self 4 + b2n s.dbg.halted 5 + b2n (intAsserted s) 6 + b2n s.emit.run 7 + 256 * s.sys.rstCause)

/-- MBSTAT (R416). -/
def mbstat (s : State) : Word :=
  w16 (b2n s.mbox.busy 0 + b2n s.mbox.done 1 + b2n s.mbox.ovr 2 + 256 * s.mbox.status.toNat)

/-- CHSTAT (R168); a channel under test shows as not idle (R210). -/
def chstat (s : State) : Word :=
  let act := (List.finRange 12).foldl (fun m (n : Fin 12) => m + b2n (!idleX s n) n.val) 0
  w16 (act + b2n (pinBoost s) 12 + b2n (s.chan.toList.any (·.forced)) 13 + b2n (s.chan.toList.any fun c => c.cfg.scpend != 0) 14 + b2n (s.lines.toList.any (·.wbrk)) 15)

/-- DIAGSUM (R213). -/
def diagsum (s : State) : Word :=
  let flt := (List.finRange 8).foldl (fun m (n : Fin 8) => m + b2n (decide (2 ≤ s.diag.ch[n].cls) && decide (s.diag.ch[n].cls ≤ 6)) n.val) 0
  let lat := (List.finRange 4).foldl (fun m (g : Fin 4) => m + b2n s.trip.latched[g] (8 + g.val)) 0
  w16 (flt + lat + b2n s.trip.tripin 12 + b2n s.diag.test.isSome 13 + b2n (s.lines.toList.any (·.lastOt)) 14)

/-- TSTAT (R212). -/
def tstat (s : State) : Word :=
  w16 ((List.finRange 4).foldl (fun m (g : Fin 4) => m + b2n s.trip.latched[g] g.val + b2n (!s.trip.defer[g].isEmpty) (4 + g.val)) (b2n s.trip.tripin 8))

/-- Codes of the channel states (R159, R167). -/
def ChSt.code : ChSt → Nat
  | .off => 0
  | .idle => 1
  | .boost => 2
  | .dead => 3
  | .peak => 4
  | .hold => 5
  | .prog => 6
  | .decay => 7
  | .contained => 8
  | .tripped => 9
  | .low => 10
  | .high => 11

/-- STATE of a channel (R167). -/
def chanStateWord (s : State) (n : Fin 12) : Word :=
  let c := s.chan[n]
  w16 (c.st.code + b2n (pinDrv s n) 4 + b2n c.fallback.isSome 5 + b2n (decide (n.val < 8) && (vget s.lines n.val {}).wbrk) 6 + b2n c.forced 7)

/-- LASTI of a line (R167). -/
def lineWord (l : Line) : Word := w16 (l.lastI + 4096 * l.lastDl + b2n l.lastOt 14 + b2n l.any 15)

end Sys2Proof.Machine
end

