-- ==== Sys2Proof/Machine/Operands.lean ====
section
/-! DEFINITION. Operand forms: the address of an access, and the row that a mailbox command with its form is. -/

namespace Sys2Proof.Machine

/-- The even byte address of a native access: AD0 is ignored (R404). -/
def regAddr (addr : BitVec 8) : Nat := addr.toNat / 2 * 2

/-- The row of a command of the wheel, the channels and Brass (R439, R441 to R443, R445). -/
def rowA (code : Byte) (a : Args) : Option Instr :=
  match code.toNat with
  | 0x01 => some .bootDone
  | 0x02 => some (.ident a)
  | 0x08 => some (.wheelSet a)
  | 0x09 => some (if a.form 15 == 0 then .camSetEdge a else .camSetHeader a)
  | 0x0A => some (.syncPolicy a)
  | 0x0B => some (.dirSet a)
  | 0x10 => some (.channelSet a)
  | 0x11 => some (.profileLoad a)
  | 0x12 => some (if a.form 15 == 0 then .brassLoadInstruction a else .brassLoadHeader a)
  | 0x13 => some (.pairSet a)
  | 0x15 => some (.tripClear a)
  | 0x19 => some (.senseScale a)
  | 0x20 => some (.fsrcSet a)
  | 0x29 => some .linkJoin
  | 0x30 => some (.storeRead a)
  | 0x32 => some (.learnCtl a)
  | 0x38 => some (.emitStart a)
  | 0x39 => some .emitStop
  | 0x3C => some (.unlockChallenge a)
  | 0x3D => some (.unlockAnswer a)
  | _ => none

/-- The row of a command whose forms have rows of their own, by its code and its form fields: bits from 14 and from 13 up of A0,
and its two low bits (R446, R449 to R451, R453, R454, R459). -/
def rowForm (code f14 f13 f4 : Nat) (a : Args) : Option Instr :=
  match code with
  | 0x14 => match f14 with
    | 0 => some (.diagRunChan a)
    | 1 => some (.diagRunTrip a)
    | 2 => some (.diagRunTest a)
    | _ => none
  | 0x18 => match f13 with
    | 0 => some (.thermSetStage a)
    | 1 => some (.thermSetApply a)
    | 2 => some (.thermSetAmb a)
    | 3 => some (.thermSetInit a)
    | 4 => some (.thermSetDie a)
    | _ => none
  | 0x21 => match f14 with
    | 0 => some (.fltReadCount a)
    | 1 => some (.fltReadClear a)
    | 2 => some (.fltReadHist a)
    | _ => none
  | 0x28 => if f4 = 3 then some (.linkRoleQuery a) else some (.linkRole a)
  | 0x2A => match f14 with
    | 0 => some (.linkSend a)
    | 1 => some (.linkSendRecv a)
    | 2 => some (.linkSendRemote a)
    | _ => some (.linkSendData a)
  | 0x31 => match f4 with
    | 0 => some (.storeCommit a)
    | 1 => some (.storeCommitClear a)
    | _ => none
  | 0x3E => some (if a.form 15 == 0 then .lifecycleAdvanceKey a else .lifecycleAdvanceStep a)
  | _ => none

/-- The same by the argument words. -/
def rowB (code : Byte) (a : Args) : Option Instr := rowForm code.toNat (a.form 14) (a.form 13) (a.a0.toNat % 4) a

/-- No row of its own stands for the code, or for the form of an assigned code: such a form is a field out of range
(R431, check 7). -/
def noRow (code : Byte) (a : Args) : Bool := (rowA code a).isNone && (rowB code a).isNone

/-- The row that a command is. -/
def rowOf (c : Cmd) : Instr :=
  match rowA c.code c.args with
  | some i => i
  | none => match rowB c.code c.args with
    | some i => i
    | none => .unassignedCommand c.code c.args

end Sys2Proof.Machine
end

