-- ==== Sys2Proof/Machine/HostBus.lean ====
section
/-! DEFINITION. The native registers and windows, as the host bus and the debug port reach them, and the mailbox
rows (R404 to R428, R429 to R438). -/

namespace Sys2Proof.Machine

/-! ### Window reads (R420) -/

/-- A word of window CHCFG that its channels own (R167, R212). -/
def chcfgRead (s : State) (off : Nat) : Word :=
  if off < 96 then
    let n := chOf (off / 8)
    let c := s.chan[n]
    let k := off % 8
    if k = 0 then chcfgWord s n
    else if k = 5 then chanStateWord s n
    else if 8 ≤ n.val then 0
    else if k = 1 then w16 c.cfg.scale
    else if k = 2 then w16 c.cfg.scpend
    else if k = 3 then w16 c.cfg.decthr
    else if k = 4 then w16 c.cfg.decmax
    else if k = 6 then lineWord (vget s.lines n.val {})
    else w16 c.reg.teff
  else if off < 104 then w16 (vget s.lines (off - 96) {}).ferr
  else if 128 ≤ off && decide (off < 192) then
    let d := vget s.diag.ch ((off - 128) / 8) {}
    let k := off % 8
    if k < 4 then dcfgWord d k
    else if k = 4 then w16 (d.cls + 16 * d.cand + 256 * d.cnt)
    else if k = 5 then w16 (d.lastbad + 16 * d.lastrun)
    else if k = 6 then w16 d.dcnt
    else 0
  else 0

/-- The trip words of window CHCFG (R212). -/
def tripRead (s : State) (off : Nat) : Word :=
  if off = 192 then w16 s.trip.dead
  else if off = 193 then w16 s.trip.tblank
  else if 194 ≤ off && decide (off < 198) then tgrpWord s (off - 194)
  else if off = 198 then tstat s
  else if off = 199 then w16 s.trip.tcnt
  else 0

/-- A word of window PROF (R166). -/
def profRead (s : State) (off : Nat) : Word := if off < 128 then profWord (vget s.chs.profs (off / 8) {}) (off % 8) else 0

/-- The words of window CHCFG that block CHAN owns (R329). -/
def chanOwns (off : Nat) : Bool := decide (off < 104) || (decide (128 ≤ off) && decide (off < 192))

/-- A read of a window word, with its side effects (R419, R420). -/
def readWin (p : Path) (space off : Nat) (s : State) : Word × State :=
  match space with
  | 0x01 => (readSlot s off, s)
  | 0x02 => gatedWindow .chan 2 (fun s => (profRead s off, s)) s
  | 0x03 => gatedWindow .chan 3 (readBrass off) s
  | 0x04 => (readGeom s off, s)
  | 0x05 => readFsrc p off s
  | 0x06 => gatedWindow .therm 6 (readTherm p off) s
  | 0x07 => gatedWindow .cps 7 (readCpc off) s
  | 0x08 => (readShadow s off, s)
  | 0x09 => (readProt s off, s)
  | 0x0A => if chanOwns off then gatedWindow .chan 10 (fun s => (chcfgRead s off, s)) s else (tripRead s off, s)
  | 0x0B => gatedWindow .emit 11 (fun s => (readEmit s off, s)) s
  | _ => (0, s)

/-! ### Window writes (R389, R420) -/

/-- A write of a window of a disabled block has no effect and is an event (R330). -/
def gatedWinWrite (b : Blk) (space : Nat) (f : State → State) (s : State) : State :=
  if blkOn s b then f s else gateEvent b true space s

/-- A write of a window word (R420): the boot window and the safe state decide first (R342, R260). -/
def writeWin (p : Path) (space off : Nat) (w : Word) (s : State) : State :=
  if !winOpen s space then s else
  match space with
  | 0x01 => hostSlotWrite p off w s
  | 0x02 => gatedWinWrite .chan 2 id s
  | 0x03 => gatedWinWrite .chan 3 id s
  | 0x06 => gatedWinWrite .therm 6 id s
  | 0x07 => hostCpcWrite p off w s
  | 0x09 => writeProt p off w s
  | 0x0A => if chanOwns off then gatedWinWrite .chan 10 id s else s
  | 0x0B => gatedWinWrite .emit 11 (writeEmit p off w) s
  | _ => s

/-- A read of WINDAT (R419). -/
def readWindat (p : Path) (s : State) : Word × State :=
  let r := readWin p (fld s.bus.winsel 0 8) s.bus.winadr.toNat s
  (r.1, stepWinadr p r.2)

/-- A write of WINDAT (R419). -/
def writeWindat (p : Path) (w : Word) (s : State) : State :=
  stepWinadr p (writeWin p (fld s.bus.winsel 0 8) s.bus.winadr.toNat w s)

/-! ### Register reads (R412) -/

/-- TB_0 captures TB[47:16] on its path (R427). -/
def readTb0 (p : Path) (s : State) : Word × State :=
  let hi : BitVec 32 := (s.clk.tb >>> 16).setWidth 32
  (tbLo s.clk.tb,
   match p with
   | .host => { s with bus := { s.bus with tbH := hi } }
   | .debug => { s with bus := { s.bus with tbD := hi } })

/-- The captured TB[47:16] of a path. -/
def tbCaptured (p : Path) (s : State) : BitVec 32 := match p with | .host => s.bus.tbH | .debug => s.bus.tbD

/-- Registers with a side effect of reading, or that a block owns. -/
def readActive (p : Path) (a : Nat) (s : State) : Word × State :=
  match a with
  | 0x0E => readClkstat s
  | 0x12 => gatedRead .fm a (fun s => (fmctl s, s)) s
  | 0x14 => gatedRead .fm a (fun s => (w16 s.clk.fm.res, s)) s
  | 0x16 => gatedRead .fm a (fun s => (w16 (s.clk.fm.res / 65536), s)) s
  | 0x2C => readWindat p s
  | 0x32 => readAngleL p s
  | 0x3A => readTb0 p s
  | 0x40 => readRptstat s
  | 0x42 => readRptdat s
  | 0x44 => gatedRead .chan a (fun s => (chstat s, s)) s
  | 0x48 => gatedRead .therm a (fun s => (thrstat s, s)) s
  | 0x4A => readFltstat s
  | 0x4E => readFlthist s
  | 0x5E => gatedRead .link a (fun s => (linkstat s, s)) s
  | _ => if 0x50 ≤ a && decide (a ≤ 0x5C) then gatedRead .tim a (fun s => (readTim a s, s)) s else (0, s)

/-- Registers that only show state. -/
def readPlain (p : Path) (a : Nat) (s : State) : Option Word :=
  match a with
  | 0x00 => some devid
  | 0x02 => some revid
  | 0x04 => some (sysstat s)
  | 0x06 => some (w16 (b2n s.sys.oe 0))
  | 0x08 => some (pwrctl s)
  | 0x0A => some (pwrstat s)
  | 0x0C => some (clkctl s)
  | 0x10 => some (s.clk.gateen.setWidth 16)
  | 0x18 => some (s.mbox.cmd.setWidth 16)
  | 0x1A => some s.mbox.args.a0
  | 0x1C => some s.mbox.args.a1
  | 0x1E => some s.mbox.args.a2
  | 0x20 => some s.mbox.args.a3
  | 0x22 => some (mbstat s)
  | 0x24 => some s.mbox.res0
  | 0x26 => some s.mbox.res1
  | 0x28 => some s.bus.winsel
  | 0x2A => some s.bus.winadr
  | 0x2E => some s.bus.intstat
  | 0x30 => some s.bus.inten
  | 0x34 => some (match p with | .host => s.bus.angH | .debug => s.bus.angD)
  | 0x36 => some (speedWord s)
  | 0x38 => some (syncstat s)
  | 0x3C => some ((tbCaptured p s).setWidth 16)
  | 0x3E => some ((tbCaptured p s >>> 16).setWidth 16)
  | 0x46 => some (diagsum s)
  | _ => none

/-- Registers that answer after a ROM failure (R344). -/
def romFailReads : List Nat := [0x00, 0x02, 0x0A, 0x0C, 0x0E]

/-- A register answers a read: FCLK runs, or the supervisor holds a copy (R323, R344, R355, R409). -/
def readable (a : Nat) (s : State) : Bool :=
  if !supRead s then false
  else if !s.clk.fclkOn then a == 0x0C || a == 0x0E
  else s.sys.boot != 6 || romFailReads.contains a

/-- A read of a native register at an even address (R404, R410, R412). -/
def readReg (p : Path) (a : Nat) (s : State) : Word × State :=
  if !readable a s then (0, s)
  else match readPlain p a s with
    | some w => (w, s)
    | none => readActive p a s

/-! ### Register writes -/

/-- A write of INTSTAT; a condition that occurs in the same tick stays set (R424). -/
def clearInts (w : Word) (s : State) : State := { s with bus := { s.bus with intstat := s.bus.intstat &&& ~~~(w &&& ~~~freshInts s) } }

/-- A write of a pointer of the window access: only the host's own (R418, R419, R421). -/
def writePointer (p : Path) (f : Bus → Bus) (s : State) : State := match p with | .host => { s with bus := f s.bus } | .debug => s

/-- A write of a native register at an even address (R404, R410, R412). The level of MODE that a reset needs is that of
the pin. -/
def writeReg (p : Path) (a : Nat) (w : Word) (s : State) : State :=
  if !regOpen s a then s else
  match a with
  | 0x06 => writeSysctl w s.pins.mode s
  | 0x08 => clkRow (writePwrctl w) s
  | 0x0C => clkRow (writeClkctl w) s
  | 0x10 => writeGateen w s
  | 0x12 => gatedWrite .fm a (writeFmctl w) s
  | 0x18 => submit p (w.setWidth 8) s
  | 0x1A => writeArg 0 w s
  | 0x1C => writeArg 1 w s
  | 0x1E => writeArg 2 w s
  | 0x20 => writeArg 3 w s
  | 0x28 => writePointer p (fun b => { b with winsel := w &&& 0x00FF }) s
  | 0x2A => writePointer p (fun b => { b with winadr := w }) s
  | 0x2C => writeWindat p w s
  | 0x2E => clearInts w s
  | 0x30 => { s with bus := { s.bus with inten := w &&& 0x1FFF } }
  | 0x4C => writeFltack w s
  | 0x44 => gatedWrite .chan a id s
  | 0x48 => gatedWrite .therm a id s
  | 0x5E => gatedWrite .link a id s
  | 0x14 => gatedWrite .fm a id s
  | 0x16 => gatedWrite .fm a id s
  | _ => if 0x50 ≤ a && decide (a ≤ 0x5C) then gatedWrite .tim a (writeTim a w) s else s

/-! ### Rows of the bus -/

/-- A host write: in native mode a word at the even address, in legacy mode the low byte (R404, R411, R462). -/
def opHostWrite (addr : BitVec 8) (w : Word) (s : State) : State :=
  if isNative s then hostRow (.registerWrite addr w) (writeReg .host (regAddr addr) w) s else legDo (writeLegacy addr.toNat (w.setWidth 8)) s

/-- REGISTER_WRITE (R411). -/
def execRegisterWrite (addr : BitVec 8) (w : Word) (s : State) : Host.Outcome State Fault Refusal :=
  .next (opHostWrite addr w s)

/-- INTERRUPT_CLEAR (R424). -/
def execInterruptClear (w : Word) (s : State) : Host.Outcome State Fault Refusal :=
  .next (hostRow (.interruptClear w) (writeReg .host 0x2E w) s)

/-- TB_CAPTURE (R427). -/
def execTbCapture (s : State) : Host.Outcome State Fault Refusal := .next (hostRead .tbCapture (readTb0 .host) s)

/-- WINDAT_READ (R419). -/
def execWindatRead (s : State) : Host.Outcome State Fault Refusal := .next (hostRead .windatRead (readWindat .host) s)

/-! ### Rows of the mailbox (R429, R431, R435) -/

/-- MAILBOX_COMMAND_START (R429). -/
def execMailboxCommandStart (s : State) : Host.Outcome State Fault Refusal := .next (startNext s)

/-- The command that was cut short had taken its effect: not while it only waits for a credit or for a commit to
yield (R432, R435). -/
def cutHadEffect (s : State) : Bool := s.mbox.committed && s.link.sendWait.isNone && (waitingRead s).isNone

/-- The command in progress ends as interrupted (R435). -/
def opInterrupted (s : State) : State :=
  let q := b2n (cutHadEffect s) 0
  endCmd 0x21 q 0 { s with link := { s.link with sendWait := none }, store := { s.store with yielded := false } }

/-- COMMAND_INTERRUPTED (R435). -/
def execCommandInterrupted (s : State) : Host.Outcome State Fault Refusal :=
  .next (if s.mbox.cut && s.mbox.run.isSome && coreOn s then opInterrupted s else s)

/-- UNASSIGNED_COMMAND (R431): check 1 refuses the code, or check 7 a form that no rule gives. -/
def execUnassignedCommand (code : BitVec 8) (a : Args) (s : State) : Host.Outcome State Fault Refusal :=
  .next (if noRow code a then mboxRow code (fun _ s => badArg s) a s else s)

end Sys2Proof.Machine
end

