-- ==== Sys2Proof/Machine/Debug.lean ====
section
/-! DEFINITION. The debug port: attachment, transactions, halt and the pin-drive test (R394 to R403). -/

namespace Sys2Proof.Machine

/-! ### Attachment (R394) -/

/-- The debug port works: native mode, and power-on reset has ended (R402, R461). -/
def dbgOn (s : State) : Bool := isNative s && !s.sys.inReset

/-- A line reset attaches the port, with its registers at 0; an attached port listens again (R394, R396, R397). -/
def opLineReset (s : State) : State :=
  if s.dbg.attached then updDbg (fun d => { d with ignoring := false }) s
  else { s with dbg := { attached := true } }

/-- LINE_RESET (R394). -/
def execLineReset (s : State) : Host.Outcome State Fault Refusal := .next (if dbgOn s then opLineReset s else s)

/-- The core runs on after a halt, with a command whose process has ended, a test that is between its steps, or a send whose
credit has come (R27, R400). -/
def resume (s : State) : State :=
  sendWaiting (testResume (endReady (updDbg (fun d => { d with halt := false, halted := false }) s)))

/-- Detach: the halt is released, the pin-drive test ends, DWSEL and DWADR return to 0 (R394). -/
def opDetach (s : State) : State :=
  resume (updDbg (fun d => { d with attached := false, ignoring := false, ptest := false, dwsel := 0, dwadr := 0 }) s)

/-- DETACH_TIMEOUT (R394). -/
def execDetachTimeout (s : State) : Host.Outcome State Fault Refusal :=
  .next (if dbgOn s && s.dbg.attached then opDetach s else s)

/-- The line is heard: the port is attached and waits for no line reset. -/
def heard (s : State) : Bool := dbgOn s && s.dbg.attached && !s.dbg.ignoring

/-- The ACK of a transaction (R395). -/
def ack (k : Nat) (s : State) : State := updDbg (fun d => { d with ack := k }) s

/-- DEBUG_HEADER_ERROR (R396). -/
def execDebugHeaderError (s : State) : Host.Outcome State Fault Refusal :=
  .next (if heard s then ack 7 (updDbg (fun d => { d with ignoring := true }) s) else s)

/-! ### What the lifecycle and the power state permit (R396, R402) -/

/-- The lifecycle opens the port: OPEN, or LOCKED and unlocked. -/
def dbgFull (s : State) : Bool := s.sec.lc == 0 || (s.sec.lc == 1 && s.sec.unlk)

/-- The RUN column: a boot phase from B1 on, or later; the entry into STANDBY is part of it. -/
def dbgRun (s : State) : Bool := (s.sys.pwr == .run || s.sys.pwr == .entering) && s.sys.boot != 0

/-- CHAL, DCHAL and DANS. -/
def dbgUnlock (s : State) : Bool := dbgRun s && (dbgFull s || (s.sec.lc == 1 && s.sys.boot == 5))

/-- WAKE and DRESET. -/
def dbgAnyPower (s : State) : Bool := dbgFull s && (dbgRun s || s.sys.pwr == .stop || s.sys.pwr == .standby)

/-- An access that the table does not permit: FAULT, and source 45 while FCLK runs. -/
def dbgDeny (a : Nat) (s : State) : State := ack 4 (if fclkRuns s then deny .debug 6 a s else s)

/-- A debug wake is still on its way: from STOP to RUN, or from STANDBY to BOOT = 5 (R396). -/
def dbgWaking (s : State) : Bool :=
  s.sys.dbgRef.isSome || (s.dbg.dwk && s.sys.fromStby && s.sys.pwr == .run && decide (s.sys.boot < 5))

/-- One transaction at address A: heard, not held by ERR, permitted, then done (R396). -/
def txn (a : Nat) (errOk ok : Bool) (f : State → State) (s : State) : State :=
  if !heard s then s
  else if s.dbg.err && !errOk then ack 4 s
  else if !ok then dbgDeny a s
  else f (ack 1 s)

/-- A write of DCTL. -/
def dctl (ok : Bool) (f : State → State) (s : State) : State := txn 7 true ok f s

/-! ### DCTL (R390, R394, R396, R399 to R401) -/

/-- HALT: a request during an entry is held (R400). -/
def opHalt (on : Bool) (s : State) : State :=
  if on then updDbg (fun d => { d with halt := true, halted := d.halted || s.sys.pwr != .entering }) s
  else resume s

/-- HALT (R400). -/
def execHalt (on : Bool) (s : State) : Host.Outcome State Fault Refusal :=
  .next (dctl (dbgFull s && dbgRun s) (opHalt on) s)

/-- The conditions of the pin-drive test but for the lifecycle (R401). -/
def ptestOk (s : State) : Bool :=
  s.sys.boot == 5 && !s.sys.oe && !(s.sched.slots.toList.any fun x => x.st == .armed) && !s.flt.safe

/-- PTEST: set when its conditions hold, else FAULT; the link goes OFF (R401). -/
def opPtest (on : Bool) (s : State) : State :=
  if !on then updDbg (fun d => { d with ptest := false }) s
  else if s.dbg.ptest then s
  else if ptestOk s then roleEnds (updDbg (fun d => { d with ptest := true }) s)
  else ack 4 s

/-- PTEST (R401): only in OPEN (R402). -/
def execPtest (on : Bool) (s : State) : Host.Outcome State Fault Refusal :=
  .next (dctl (s.sec.lc == 0 && dbgRun s) (opPtest on) s)

/-- WAKE: code 6 whatever WCS holds; no effect in RUN (R399). From STOP the device is on its way to RUN until the next TB
tick (R396). -/
def opWake (ref : RefEdge) (s : State) : State :=
  if s.sys.pwr == .stop then askWake 6 (updSys (fun y => { y with dbgRef := some (y.dbgRef.getD ref) }) s) else standbyWake 6 true s

/-- WAKE (R399). -/
def execWake (ref : RefEdge) (s : State) : Host.Outcome State Fault Refusal :=
  .next (dctl (dbgAnyPower s) (opWake ref) s)

/-- DRESET (R340, R399). -/
def execDreset (mode : Bool) (s : State) : Host.Outcome State Fault Refusal :=
  .next (dctl (dbgAnyPower s) (resetTo false 3 mode) s)

/-- CHAL: p and q return to 0, and a challenge is drawn when R390 allows it. -/
def opChal (s : State) : State :=
  let s := updDbg (fun d => { d with p := 0, ans := [] }) s
  if s.sec.lc == 1 && (challengeChecks s).all id && !s.sec.lockout && !s.flt.safe then drawChallenge s else s

/-- CHAL (R390). -/
def execChal (s : State) : Host.Outcome State Fault Refusal := .next (dctl (dbgUnlock s) opChal s)

/-- CLRERR (R396, R399): in every lifecycle. -/
def execClrerr (s : State) : Host.Outcome State Fault Refusal :=
  .next (dctl true (updDbg fun d => { d with err := false }) s)

/-- DETACH (R394, R399): in every lifecycle. -/
def execDetach (s : State) : Host.Outcome State Fault Refusal := .next (dctl true opDetach s)

/-! ### DCHAL, DANS and DPIN (R391, R397, R401) -/

/-- A read of DCHAL: word p, then the next; without a challenge the word is a free value (log 9). -/
def readDchal (s : State) : Word × State :=
  let p := s.dbg.p
  (match s.sec.chal with | some x => chalWord x p | none => Config.idleChal p,
   updDbg (fun d => { d with p := (p + 1) % 8 }) s)

/-- The word of a read goes to the probe. -/
def probeRead (f : State → Word × State) (s : State) : State := let r := f s; putData r.1 r.2

/-- DCHAL_READ (R397). -/
def execDchalRead (s : State) : Host.Outcome State Fault Refusal :=
  .next (txn 11 false (dbgUnlock s) (probeRead readDchal) s)

/-- Words as a number, the first one low. -/
def wordsLE (ws : List Word) : BitVec 128 := BitVec.ofNat 128 (ws.foldr (fun w n => w.toNat + 65536 * n) 0)

/-- A write of DANS: the eighth word starts the check (R391, R397). -/
def writeDans (w : Word) (s : State) : State :=
  let ws := s.dbg.ans ++ [w]
  if ws.length < 8 then updDbg (fun d => { d with ans := ws }) s
  else startCheck (wordsLE ws) true false (updDbg (fun d => { d with ans := [] }) s)

/-- DANS_WRITE (R397). -/
def execDansWrite (w : Word) (s : State) : Host.Outcome State Fault Refusal :=
  .next (txn 12 false (dbgUnlock s) (writeDans w) s)

/-- A write of DPIN. -/
def writeDpin (w : Word) (s : State) : State := updDbg (fun d => { d with dpin := w }) s

/-- DPIN_WRITE (R401). -/
def execDpinWrite (w : Word) (s : State) : Host.Outcome State Fault Refusal :=
  .next (txn 13 false (dbgFull s && dbgRun s) (writeDpin w) s)

/-! ### Reads of debug registers (R397) -/

/-- DSTAT. -/
def dstat (s : State) : Word :=
  let pw := if s.sys.inReset then 3 else match s.sys.pwr with
    | .stop => 1
    | .standby => 2
    | _ => if s.sys.boot = 0 then 3 else 0
  w16 (s.sec.lc + b2n s.sec.unlk 2 + b2n s.dbg.halted 3 + 16 * pw + b2n s.sec.chal.isSome 6 + b2n s.sec.chk.isSome 7 + b2n s.dbg.err 8 + b2n s.dbg.ptest 9 + b2n s.sec.lockout 10 + b2n s.dbg.dwk 11)

/-- DPINR: levels of input pins. -/
def dpinr (s : State) : Word :=
  let p := s.pins
  let cams := (List.finRange 4).foldl (fun m (c : Fin 4) => m + b2n p.cam[c].raw (1 + c.val)) 0
  let sns := (List.finRange 8).foldl (fun m (n : Fin 8) => m + b2n p.sns[n] (8 + n.val)) 0
  w16 (b2n p.crank.raw 0 + cams + b2n (!s.trip.tripin) 5 + b2n p.linki 6 + b2n p.mode 7 + sns)

/-- Identification is served in every state (R402). -/
def dbgIdent (a : Nat) : Bool := decide (a ≤ 6)

/-- Window access through DWDAT (R398): DWADR moves on. -/
def windowUse (f : Nat → Nat → State → Word × State) (s : State) : Word × State :=
  if busUp s then
    let r := f (fld s.dbg.dwsel 0 8) s.dbg.dwadr.toNat s
    (r.1, updDbg (fun d => { d with dwadr := d.dwadr + 1 }) r.2)
  else (0, s)

/-- A debug register that a read shows. -/
def readDbg (a : Nat) (s : State) : Word × State :=
  match a with
  | 0 => (devid, s)
  | 1 => (revid, s)
  | 6 => (dstat s, s)
  | 7 => (w16 (b2n s.dbg.halt 0 + b2n s.dbg.ptest 1), s)
  | 8 => (s.dbg.dwsel, s)
  | 9 => (s.dbg.dwadr, s)
  | 10 => windowUse (readWin .debug) s
  | 11 => readDchal s
  | 13 => (s.dbg.dpin, s)
  | 14 => (dpinr s, s)
  | _ => if 2 ≤ a && decide (a ≤ 5) then (uidWord (a - 2), s) else (0, s)

/-- DRD is permitted; DCTL is served also while FCLK is stopped (R397). -/
def drdOk (a : Nat) (s : State) : Bool :=
  if dbgIdent a then true else if a = 7 then dbgFull s else if a = 11 then dbgUnlock s else dbgFull s && dbgRun s

/-! ### Writes of debug registers (R397) -/

/-- The bits of DCTL in one DWR: CHAL and CLRERR, the two levels, and then WAKE, DETACH and DRESET (R397, log 25). -/
def writeDctl (w : Word) (s : State) : State :=
  let s := if bit w 4 then opChal s else s
  let s := if bit w 5 then updDbg (fun d => { d with err := false }) s else s
  let s := if dbgFull s && dbgRun s then opHalt (bit w 0) s else s
  let s := if s.sec.lc == 0 && dbgRun s then opPtest (bit w 1) s else s
  let s := if bit w 2 && dbgAnyPower s then opWake (freeRef s) s else s
  let s := if bit w 6 then opDetach s else s
  if bit w 3 && dbgAnyPower s then resetTo false 3 s.pins.mode s else s

/-- DWR is permitted; of DCTL each bit by its own rule. -/
def dwrOk (a : Nat) (w : Word) (s : State) : Bool :=
  if a = 7 then (!bit w 0 || (dbgFull s && dbgRun s)) && (!bit w 1 || (s.sec.lc == 0 && dbgRun s)) && (!(bit w 2 || bit w 3) || dbgAnyPower s) &&
    (!bit w 4 || dbgUnlock s)
  else if a = 12 then dbgUnlock s else dbgFull s && dbgRun s

/-- A debug register takes a write; RO registers ignore it. -/
def writeDbg (a : Nat) (w : Word) (s : State) : State :=
  match a with
  | 7 => writeDctl w s
  | 8 => updDbg (fun d => { d with dwsel := w &&& 0x00FF }) s
  | 9 => updDbg (fun d => { d with dwadr := w }) s
  | 10 => (windowUse (fun sp off s => (0, writeWin .debug sp off w s)) s).2
  | 12 => writeDans w s
  | 13 => writeDpin w s
  | _ => s

/-! ### Host accesses (R396, R398, R402) -/

/-- A write whose data parity is wrong is discarded and sets ERR (R396). -/
def withParity (parity : Bool) (f : State → State) (s : State) : State :=
  if parity then f s else updDbg (fun d => { d with err := true }) s

/-- HRD and HWR are permitted: with the port open, in RUN and STOP, and HRD in STANDBY (R402). -/
def hrdOk (s : State) : Bool := dbgFull s && (dbgRun s || s.sys.pwr == .stop || s.sys.pwr == .standby)
def hwrOk (s : State) : Bool := dbgFull s && (dbgRun s || s.sys.pwr == .stop)

/-- An access that waits for the end of a debug wake (R396). -/
def orWait (ok : Bool) (s : State) (f : State → State) : State :=
  if heard s && !s.dbg.err && ok && dbgWaking s then ack 2 s else f s

/-- One DRD, DWR, HRD or HWR (R395 to R398). -/
def opAccess (op : DbgOp) (a : Nat) (w : Word) (parity : Bool) (s : State) : State :=
  match op with
  | .drd =>
    if heard s && decide (14 < a) then ack 4 s
    else if a = 10 then orWait (dbgFull s) s (txn a false (drdOk a s) (probeRead (readDbg a)))
    else txn a (a == 6) (drdOk a s) (probeRead (readDbg a)) s
  | .dwr =>
    if heard s && decide (14 < a) then ack 4 s
    else if a = 10 then orWait (dbgFull s) s (txn a false (dwrOk a w s) (withParity parity (writeDbg a w)))
    else txn a (a == 7) (dwrOk a w s) (withParity parity (writeDbg a w)) s
  | .hrd =>
    if heard s && decide (47 < a) then ack 4 s
    else orWait (dbgFull s) s (txn a false (hrdOk s) (probeRead (readReg .debug (2 * a))))
  | .hwr =>
    if heard s && decide (47 < a) then ack 4 s
    else orWait (dbgFull s) s (txn a false (hwrOk s) (withParity parity (writeReg .debug (2 * a) w)))

/-- DEBUG_HOST_ACCESS (R398). -/
def execDebugHostAccess (op : DbgOp) (a : BitVec 6) (data : Word) (parity : Bool) (s : State) : Host.Outcome State Fault Refusal :=
  .next (opAccess op a.toNat data parity s)

end Sys2Proof.Machine
end

