-- ==== Sys2Proof/Machine/Dispatch.lean ====
section
/-! DEFINITION. The dispatch of commands: one arm for each row of the table. -/

namespace Sys2Proof.Machine

/-- The effect of a command on everything but the queue. -/
def exec (i : Instr) (s : State) : Host.Outcome State Fault Refusal :=
  match i with
  | .powerOnReset mode => Sys2Proof.Machine.execPowerOnReset mode s
  | .resetPin mode => Sys2Proof.Machine.execResetPin mode s
  | .resetRequest mode => Sys2Proof.Machine.execResetRequest mode s
  | .bootB0End ref => Sys2Proof.Machine.execBootB0End ref s
  | .romIntegrityCheck ok => Sys2Proof.Machine.execRomIntegrityCheck ok s
  | .storeBanksRead => Sys2Proof.Machine.execStoreBanksRead s
  | .recordApplied => Sys2Proof.Machine.execRecordApplied s
  | .bootDone => Sys2Proof.Machine.execBootDone s
  | .ident a => Sys2Proof.Machine.execIdent a s
  | .oeSet => Sys2Proof.Machine.execOeSet s
  | .oeClear => Sys2Proof.Machine.execOeClear s
  | .stopRequest w err => Sys2Proof.Machine.execStopRequest w err s
  | .standbyRequest w err => Sys2Proof.Machine.execStandbyRequest w err s
  | .wakeFromStop code ref => Sys2Proof.Machine.execWakeFromStop code ref s
  | .wakeFromStandby code => Sys2Proof.Machine.execWakeFromStandby code s
  | .wakeTimer ref => Sys2Proof.Machine.execWakeTimer ref s
  | .wakeCaptureEdge src rise dA err => Sys2Proof.Machine.execWakeCaptureEdge src rise dA err s
  | .powerFailFall => Sys2Proof.Machine.execPowerFailFall s
  | .powerFailRise => Sys2Proof.Machine.execPowerFailRise s
  | .aocJudged => Sys2Proof.Machine.execAocJudged s
  | .aocLoss => Sys2Proof.Machine.execAocLoss s
  | .aocGrossCheck count => Sys2Proof.Machine.execAocGrossCheck count s
  | .lrcLoss => Sys2Proof.Machine.execLrcLoss s
  | .fcoJudged => Sys2Proof.Machine.execFcoJudged s
  | .fcoLoss => Sys2Proof.Machine.execFcoLoss s
  | .rckJudged => Sys2Proof.Machine.execRckJudged s
  | .rckHoldoverEnd => Sys2Proof.Machine.execRckHoldoverEnd s
  | .fllWindow count => Sys2Proof.Machine.execFllWindow count s
  | .fclkStopDetect => Sys2Proof.Machine.execFclkStopDetect s
  | .cleanSwitchRequest => Sys2Proof.Machine.execCleanSwitchRequest s
  | .cleanSwitchComplete => Sys2Proof.Machine.execCleanSwitchComplete s
  | .muxHangDetect stopLrc => Sys2Proof.Machine.execMuxHangDetect stopLrc s
  | .heldFcoRestart => Sys2Proof.Machine.execHeldFcoRestart s
  | .escapeStart stopLrc => Sys2Proof.Machine.execEscapeStart stopLrc s
  | .escapeComplete dA err => Sys2Proof.Machine.execEscapeComplete dA err s
  | .driftCheck count => Sys2Proof.Machine.execDriftCheck count s
  | .clkctlWrite w => Sys2Proof.Machine.execClkctlWrite w s
  | .clkstatRead => Sys2Proof.Machine.execClkstatRead s
  | .gateenWrite w => Sys2Proof.Machine.execGateenWrite w s
  | .gateClearEffect b => Sys2Proof.Machine.execGateClearEffect b s
  | .fmStart w => Sys2Proof.Machine.execFmStart w s
  | .fmAbort w => Sys2Proof.Machine.execFmAbort w s
  | .fmDone count => Sys2Proof.Machine.execFmDone count s
  | .crankToothEdge stamp => Sys2Proof.Machine.execCrankToothEdge stamp s
  | .lateToothDeadline => Sys2Proof.Machine.execLateToothDeadline s
  | .directionCodeEdge stamp => Sys2Proof.Machine.execDirectionCodeEdge stamp s
  | .camEdge c rise stamp => Sys2Proof.Machine.execCamEdge c rise stamp s
  | .camWindowClose k => Sys2Proof.Machine.execCamWindowClose k s
  | .limpCamTimeout => Sys2Proof.Machine.execLimpCamTimeout s
  | .stallTimeout => Sys2Proof.Machine.execStallTimeout s
  | .wheelSet a => Sys2Proof.Machine.execWheelSet a s
  | .camSetEdge a => Sys2Proof.Machine.execCamSetEdge a s
  | .camSetHeader a => Sys2Proof.Machine.execCamSetHeader a s
  | .syncPolicy a => Sys2Proof.Machine.execSyncPolicy a s
  | .dirSet a => Sys2Proof.Machine.execDirSet a s
  | .learnCtl a => Sys2Proof.Machine.execLearnCtl a s
  | .cycleStart => Sys2Proof.Machine.execCycleStart s
  | .slotEvaluation k => Sys2Proof.Machine.execSlotEvaluation k s
  | .slotFire k => Sys2Proof.Machine.execSlotFire k s
  | .pulseWidthEnd ch => Sys2Proof.Machine.execPulseWidthEnd ch s
  | .slotGo k w => Sys2Proof.Machine.execSlotGo k w s
  | .slotCancel k w => Sys2Proof.Machine.execSlotCancel k w s
  | .reportPop => Sys2Proof.Machine.execReportPop s
  | .rptstatRead => Sys2Proof.Machine.execRptstatRead s
  | .windowPassStart w => Sys2Proof.Machine.execWindowPassStart w s
  | .windowStrobe w => Sys2Proof.Machine.execWindowStrobe w s
  | .delayedStrobeIssue w => Sys2Proof.Machine.execDelayedStrobeIssue w s
  | .windowApply w v => Sys2Proof.Machine.execWindowApply w v s
  | .converterEntry x => Sys2Proof.Machine.execConverterEntry x s
  | .converterSearchTimeout => Sys2Proof.Machine.execConverterSearchTimeout s
  | .bufferPop conv j => Sys2Proof.Machine.execBufferPop conv j s
  | .bufferStatusRead conv => Sys2Proof.Machine.execBufferStatusRead conv s
  | .senseFrameComplete n x => Sys2Proof.Machine.execSenseFrameComplete n x s
  | .senseSlotMissing l => Sys2Proof.Machine.execSenseSlotMissing l s
  | .lineStuckTimeout l high => Sys2Proof.Machine.execLineStuckTimeout l high s
  | .tboostElapsed n => Sys2Proof.Machine.execTboostElapsed n s
  | .deadTimeEnd n => Sys2Proof.Machine.execDeadTimeEnd n s
  | .tpeakElapsed n => Sys2Proof.Machine.execTpeakElapsed n s
  | .tholdElapsed n => Sys2Proof.Machine.execTholdElapsed n s
  | .maxOnTime n => Sys2Proof.Machine.execMaxOnTime n s
  | .decayTimeout n => Sys2Proof.Machine.execDecayTimeout n s
  | .channelSet a => Sys2Proof.Machine.execChannelSet a s
  | .profileLoad a => Sys2Proof.Machine.execProfileLoad a s
  | .pairSet a => Sys2Proof.Machine.execPairSet a s
  | .senseScale a => Sys2Proof.Machine.execSenseScale a s
  | .brassEnd n => Sys2Proof.Machine.execBrassEnd n s
  | .sett n level thr noslew => Sys2Proof.Machine.execSett n level thr noslew s
  | .seth n hys => Sys2Proof.Machine.execSeth n hys s
  | .waitt n t abs => Sys2Proof.Machine.execWaitt n t abs s
  | .waittExpiry n => Sys2Proof.Machine.execWaittExpiry n s
  | .waiti n level dir tmo => Sys2Proof.Machine.execWaiti n level dir tmo s
  | .waitiTimeout n => Sys2Proof.Machine.execWaitiTimeout n s
  | .br n dest inv cond level => Sys2Proof.Machine.execBr n dest inv cond level s
  | .boost n on => Sys2Proof.Machine.execBoost n on s
  | .sig n value mask irq => Sys2Proof.Machine.execSig n value mask irq s
  | .brassIssueCycle n => Sys2Proof.Machine.execBrassIssueCycle n s
  | .brassLoadInstruction a => Sys2Proof.Machine.execBrassLoadInstruction a s
  | .brassLoadHeader a => Sys2Proof.Machine.execBrassLoadHeader a s
  | .sigirqRead => Sys2Proof.Machine.execSigirqRead s
  | .tripAssert => Sys2Proof.Machine.execTripAssert s
  | .tripRelease => Sys2Proof.Machine.execTripRelease s
  | .tripDeferralEnd g => Sys2Proof.Machine.execTripDeferralEnd g s
  | .tripClear a => Sys2Proof.Machine.execTripClear a s
  | .diagRunChan a => Sys2Proof.Machine.execDiagRunChan a s
  | .diagRunTrip a => Sys2Proof.Machine.execDiagRunTrip a s
  | .diagRunTest a => Sys2Proof.Machine.execDiagRunTest a s
  | .diagTestWaitTimeout => Sys2Proof.Machine.execDiagTestWaitTimeout s
  | .diagTestPulseEnd => Sys2Proof.Machine.execDiagTestPulseEnd s
  | .thermalTick => Sys2Proof.Machine.execThermalTick s
  | .dieConversion k reading => Sys2Proof.Machine.execDieConversion k reading s
  | .thermSetStage a => Sys2Proof.Machine.execThermSetStage a s
  | .thermSetApply a => Sys2Proof.Machine.execThermSetApply a s
  | .thermSetAmb a => Sys2Proof.Machine.execThermSetAmb a s
  | .thermSetInit a => Sys2Proof.Machine.execThermSetInit a s
  | .thermSetDie a => Sys2Proof.Machine.execThermSetDie a s
  | .thermCapture n => Sys2Proof.Machine.execThermCapture n s
  | .timerMatch k => Sys2Proof.Machine.execTimerMatch k s
  | .timerOverflow k => Sys2Proof.Machine.execTimerOverflow k s
  | .timerGateStop k => Sys2Proof.Machine.execTimerGateStop k s
  | .timerRearm w => Sys2Proof.Machine.execTimerRearm w s
  | .countLoad hi => Sys2Proof.Machine.execCountLoad hi s
  | .preloadLoad hi => Sys2Proof.Machine.execPreloadLoad hi s
  | .timerFlagClear w => Sys2Proof.Machine.execTimerFlagClear w s
  | .faultEventApply => Sys2Proof.Machine.execFaultEventApply s
  | .collectorSelfCheck => Sys2Proof.Machine.execCollectorSelfCheck s
  | .watchdogExpiry => Sys2Proof.Machine.execWatchdogExpiry s
  | .faultAck => Sys2Proof.Machine.execFaultAck s
  | .containmentLift mask => Sys2Proof.Machine.execContainmentLift mask s
  | .historyClear => Sys2Proof.Machine.execHistoryClear s
  | .selfClear => Sys2Proof.Machine.execSelfClear s
  | .historyPop => Sys2Proof.Machine.execHistoryPop s
  | .fltstatRead => Sys2Proof.Machine.execFltstatRead s
  | .openRecordCapture => Sys2Proof.Machine.execOpenRecordCapture s
  | .fsrcSet a => Sys2Proof.Machine.execFsrcSet a s
  | .fltReadCount a => Sys2Proof.Machine.execFltReadCount a s
  | .fltReadClear a => Sys2Proof.Machine.execFltReadClear a s
  | .fltReadHist a => Sys2Proof.Machine.execFltReadHist a s
  | .lockAcquired => Sys2Proof.Machine.execLockAcquired s
  | .lockLost => Sys2Proof.Machine.execLockLost s
  | .linkBreak up => Sys2Proof.Machine.execLinkBreak up s
  | .slotTransmit rx => Sys2Proof.Machine.execSlotTransmit rx s
  | .localInjection => Sys2Proof.Machine.execLocalInjection s
  | .linkFrameError rx => Sys2Proof.Machine.execLinkFrameError rx s
  | .toothRecord tooth next trx => Sys2Proof.Machine.execToothRecord tooth next trx s
  | .state1 f => Sys2Proof.Machine.execState1 f s
  | .state2 f => Sys2Proof.Machine.execState2 f s
  | .config f => Sys2Proof.Machine.execConfig f s
  | .recordMissingDeadline => Sys2Proof.Machine.execRecordMissingDeadline s
  | .faultFrame f => Sys2Proof.Machine.execFaultFrame f s
  | .hostFrame f => Sys2Proof.Machine.execHostFrame f s
  | .creditFrame f => Sys2Proof.Machine.execCreditFrame f s
  | .joinFrame f delay => Sys2Proof.Machine.execJoinFrame f delay s
  | .remoteFrame f => Sys2Proof.Machine.execRemoteFrame f s
  | .replyFrame f => Sys2Proof.Machine.execReplyFrame f s
  | .joinTimeout => Sys2Proof.Machine.execJoinTimeout s
  | .linkRole a => Sys2Proof.Machine.execLinkRole a s
  | .linkRoleQuery a => Sys2Proof.Machine.execLinkRoleQuery a s
  | .linkJoin => Sys2Proof.Machine.execLinkJoin s
  | .linkSend a => Sys2Proof.Machine.execLinkSend a s
  | .linkSendRecv a => Sys2Proof.Machine.execLinkSendRecv a s
  | .linkSendRemote a => Sys2Proof.Machine.execLinkSendRemote a s
  | .linkSendData a => Sys2Proof.Machine.execLinkSendData a s
  | .storeRead a => Sys2Proof.Machine.execStoreRead a s
  | .storeReadComplete => Sys2Proof.Machine.execStoreReadComplete s
  | .storeCommit a => Sys2Proof.Machine.execStoreCommit a s
  | .storeCommitClear a => Sys2Proof.Machine.execStoreCommitClear a s
  | .commitComplete ok => Sys2Proof.Machine.execCommitComplete ok s
  | .lifecycleAdvanceKey a => Sys2Proof.Machine.execLifecycleAdvanceKey a s
  | .lifecycleAdvanceStep a => Sys2Proof.Machine.execLifecycleAdvanceStep a s
  | .keyWriteComplete => Sys2Proof.Machine.execKeyWriteComplete s
  | .unlockChallenge a => Sys2Proof.Machine.execUnlockChallenge a s
  | .unlockAnswer a => Sys2Proof.Machine.execUnlockAnswer a s
  | .answerCheckComplete => Sys2Proof.Machine.execAnswerCheckComplete s
  | .lockoutEnd => Sys2Proof.Machine.execLockoutEnd s
  | .lineReset => Sys2Proof.Machine.execLineReset s
  | .detachTimeout => Sys2Proof.Machine.execDetachTimeout s
  | .debugHeaderError => Sys2Proof.Machine.execDebugHeaderError s
  | .debugHostAccess op a data parity => Sys2Proof.Machine.execDebugHostAccess op a data parity s
  | .halt on => Sys2Proof.Machine.execHalt on s
  | .ptest on => Sys2Proof.Machine.execPtest on s
  | .wake ref => Sys2Proof.Machine.execWake ref s
  | .dreset mode => Sys2Proof.Machine.execDreset mode s
  | .chal => Sys2Proof.Machine.execChal s
  | .clrerr => Sys2Proof.Machine.execClrerr s
  | .detach => Sys2Proof.Machine.execDetach s
  | .dchalRead => Sys2Proof.Machine.execDchalRead s
  | .dansWrite w => Sys2Proof.Machine.execDansWrite w s
  | .dpinWrite w => Sys2Proof.Machine.execDpinWrite w s
  | .interruptClear w => Sys2Proof.Machine.execInterruptClear w s
  | .angleCapture => Sys2Proof.Machine.execAngleCapture s
  | .tbCapture => Sys2Proof.Machine.execTbCapture s
  | .registerWrite addr w => Sys2Proof.Machine.execRegisterWrite addr w s
  | .mailboxCommandStart => Sys2Proof.Machine.execMailboxCommandStart s
  | .commandInterrupted => Sys2Proof.Machine.execCommandInterrupted s
  | .emitStart a => Sys2Proof.Machine.execEmitStart a s
  | .emitStop => Sys2Proof.Machine.execEmitStop s
  | .emitStep => Sys2Proof.Machine.execEmitStep s
  | .emitCamEdge c => Sys2Proof.Machine.execEmitCamEdge c s
  | .legacyReady ok => Sys2Proof.Machine.execLegacyReady ok s
  | .lctlWrite v => Sys2Proof.Machine.execLctlWrite v s
  | .lwheelWrite v => Sys2Proof.Machine.execLwheelWrite v s
  | .legacyArm v => Sys2Proof.Machine.execLegacyArm v s
  | .legacyCancel v => Sys2Proof.Machine.execLegacyCancel v s
  | .legacySlotFire k => Sys2Proof.Machine.execLegacySlotFire k s
  | .legacyAngleCapture => Sys2Proof.Machine.execLegacyAngleCapture s
  | .legacyPeriodCapture => Sys2Proof.Machine.execLegacyPeriodCapture s
  | .lprofdatAccess v => Sys2Proof.Machine.execLprofdatAccess v s
  | .legacyPhaseEnd n => Sys2Proof.Machine.execLegacyPhaseEnd n s
  | .legacyPwmPeriod n => Sys2Proof.Machine.execLegacyPwmPeriod n s
  | .legacyMaxon n => Sys2Proof.Machine.execLegacyMaxon n s
  | .legacyTripAssert => Sys2Proof.Machine.execLegacyTripAssert s
  | .triplatClear => Sys2Proof.Machine.execTriplatClear s
  | .lstatClear v => Sys2Proof.Machine.execLstatClear v s
  | .legacyTimerMatch k => Sys2Proof.Machine.execLegacyTimerMatch k s
  | .legacyTimerOverflow k => Sys2Proof.Machine.execLegacyTimerOverflow k s
  | .legacyCountLoad hi => Sys2Proof.Machine.execLegacyCountLoad hi s
  | .legacyCompareLoad hi => Sys2Proof.Machine.execLegacyCompareLoad hi s
  | .ltimctlWrite v => Sys2Proof.Machine.execLtimctlWrite v s
  | .windatRead => Sys2Proof.Machine.execWindatRead s
  | .cutThroughForward rx => Sys2Proof.Machine.execCutThroughForward rx s
  | .reservedFrame f => Sys2Proof.Machine.execReservedFrame f s
  | .unassignedCommand code a => Sys2Proof.Machine.execUnassignedCommand code a s
  | .loutenWrite v => Sys2Proof.Machine.execLoutenWrite v s
  | .legacyFcoStop => Sys2Proof.Machine.execLegacyFcoStop s
  | .lrcReturn => Sys2Proof.Machine.execLrcReturn s
  | .vddioaLoss => Sys2Proof.Machine.execVddioaLoss s
  | .vddioaReturn mode => Sys2Proof.Machine.execVddioaReturn mode s

end Sys2Proof.Machine
end

