-- ==== Sys2Proof/Machine/Tick.lean ====
section
/-! DEFINITION. The TB tick of the block: what happens at a tick whatever is commanded, and the rows of the block's own
sequencers that fall due in it, in the order in which the block applies them (R21, R47, R112, R160, R178, R246; log 1,
log 3). -/

namespace Sys2Proof.Machine

/-! ### Time -/

/-- TB counts, two FCLK cycles pass, an edge of AOC captures the anchor, and events of this tick form an instant of their
own (R15, R16, R263, R320). -/
def tickClock (s : State) : State :=
  let t := s.clk.tb + 1
  let s := { s with clk := { s.clk with tb := t, fcyc := s.clk.fcyc + 2, anchor := if Config.aocEdge t then t else s.clk.anchor, aocTb := if Config.aocEdge t then t else s.clk.aocTb, aocPrev := if Config.aocEdge t then s.clk.aocTb else s.clk.aocPrev } }
  newInstant s

/-- The pins take their levels, and TRIP# and the latches reach timers and channels (R19, R206, R234). -/
def tickPins (lv : OutLevels) (s : State) : State := tripAll (tickInputs (pinEdges (shiftOuts lv s)))

/-- What ANGLE counts from: nothing, the revolution, or the cycle (R72, R75, R86). -/
def angRefNow (s : State) : Nat :=
  match effSync s with
  | .nosync => 0
  | .gap => if s.wheel.cfg.two then 2 else 1
  | _ => 2

/-- The angles that the cycle start, the windows and the sync cam compare (R42, R114, R127). -/
def tickAngles (s : State) : State :=
  { s with sched := { s.sched with prevAngle := s.sched.nowAngle, nowAngle := angle s, angRef := angRefNow s, angJump := angRefNow s != s.sched.angRef }, wheel := { s.wheel with prevAngle := s.wheel.nowAngle, nowAngle := localAngle s } }

/-- The angle windows (R127, R129): crossings are kept also while the block is disabled. -/
def tickWindows (s : State) : State :=
  let a := s.sched
  let f (x : Win) : Win := winTick (cycC s.wheel.cfg) a.angJump a.prevAngle a.nowAngle s.clk.tb x
  windowsCheck { s with cpc := { s.cpc with wins := vmapi (fun _ x => f x) s.cpc.wins } }

/-- The general timers (R229). -/
def tickTimers (s : State) : State :=
  if timLive s then
    { s with tim := { s.tim with t := vmapi (fun _ (t : Timer) => t.tick (gateOpen s t)) s.tim.t } }
  else s

/-- The emitter's crank signal (R498, R504). -/
def tickEmit (s : State) : State :=
  if emitOn s then { s with emit := emitTick s.clk.tb s.emit } else s

/-- The legacy timers at a legacy tick (R487). -/
def tickLegacy (s : State) : State :=
  if legLive s && legTick s then updLeg (fun g => { g with timers := vmapi (fun _ (t : LTimer) => t.tick) g.timers }) s else s

/-- What one tick does by itself. -/
def tickTime (s : State) : State :=
  let t := tickClock s
  if isNative s then tickEmit (tickTimers (tickWindows (mirrorTick (tickAngles (noteDue (tickPins (decided s) t))))))
  else tickLegacy (tickAngles (tickInputs (shiftOuts (legDecided s) t)))

/-! ### What falls due -/

/-- A row that is due once. -/
def one (b : Bool) (i : Instr) : List Instr := if b then [i] else []

/-- A row for every index that is due, in ascending order. -/
def each {n : Nat} (p : Fin n → Bool) (f : Fin n → Instr) : List Instr := (vwhere p).map f

/-- The events that wait for the collector, and the slots whose round cycle this is, on the state before any update of this
tick (R21, R104, R246). -/
def dueFirst (s : State) : List Instr :=
  (if collectorOn s then List.replicate s.flt.queue.length .faultEventApply else []) ++ each (dueEval s) .slotEvaluation

/-- The firmware: the command that runs, one that was cut short, one that waits, and a read that waited (R375, R429,
R432, R435). -/
def dueMbox (s : State) : List Instr :=
  if !coreOn s then []
  else match s.mbox.run with
    | some c => if s.mbox.cut then [.commandInterrupted] else if (waitingRead s).isSome then one (!readWaits s) .storeReadComplete else one (!s.mbox.committed) (rowOf c)
    | none => one (s.mbox.waiting.isSome || !s.mbox.remote.isEmpty) .mailboxCommandStart

/-- The cycle start, trips, max on-time and the end of decay, and then the slots that fire (R105, R114, R151, R156, R158,
R160). -/
def dueActions (s : State) : List Instr :=
  one (dueCycle s) .cycleStart ++ each (dueDeferral s) .tripDeferralEnd ++ each (dueMaxOn s) .maxOnTime ++
    each (fun n => dueDecay s n || (chanLive s && dueTestDecay s n)) .decayTimeout ++ each (dueFire s) .slotFire

/-- The phases of the pulses, after the actions (R155, R160, R178, R211). -/
def duePulses (s : State) : List Instr :=
  each (dueWaitt s) .waittExpiry ++ each (dueThold s) .tholdElapsed ++ each (dueTpeak s) .tpeakElapsed ++
    each (dueDeadEnd s) .deadTimeEnd ++ each (dueTboost s) .tboostElapsed ++ each (duePulseEnd s) .pulseWidthEnd ++
    one (dueTestWait s) .diagTestWaitTimeout ++ one (dueTestPulse s) .diagTestPulseEnd

/-- The windows and the converter (R127, R128, R132). The spec orders only the strobes that fall due in one tick: here a
strobe that waited comes behind those of the tick in which it may issue, by window index and not by the time at which it
fell due (DESIGN CHOICE, log 30). -/
def dueCps (s : State) : List Instr :=
  each (dueStrobe s) .windowStrobe ++ each (dueDelayed s) .delayedStrobeIssue ++
    one (dueSearch s && searchSure s) .converterSearchTimeout

/-- Edges of the emitted crank signal that reach the decoder's filter in loopback (R504, R507). -/
def dueLoop (s : State) : List Instr :=
  if emitOn s && s.emit.loop then
    (s.emit.edges.filter fun e => e.now).map fun e =>
      if (e.start != emitInv s) != s.wheel.cfg.edge then .crankToothEdge e.tick else .directionCodeEdge e.tick
  else []

/-- Transitions of CRANK that leave the glitch filter in this tick (R30, R507). -/
def dueCrank (s : State) : List Instr :=
  let w := s.wheel.cfg
  let crank (p : Option (Bool × Tb)) : List Instr := match p with
    | some x => one (filterDue w.filter s.clk.tb (some x)) (if x.1 != w.edge then .crankToothEdge x.2 else .directionCodeEdge x.2)
    | none => []
  crank s.pins.crankWait ++ crank (if s.emit.run && s.emit.loop then s.emit.crankWait else none)

/-- Transitions of the cams that leave the glitch filter in this tick (R33, R507). -/
def dueCams (s : State) : List Instr :=
  let cam (c : Fin 4) (p : Option (Bool × Tb)) : List Instr := match p with
    | some x => one (filterDue s.wheel.cfg.filter s.clk.tb (some x)) (.camEdge c x.1 x.2)
    | none => []
  ((List.finRange 4).map fun c => cam c s.pins.camWait[c]).flatten ++
    ((List.finRange 4).map fun c => cam c (loopCam s c.val)).flatten

/-- The decoder, with the crank first, then the stall, then the cams (R47), and the mirror and the link (R40, R42, R50,
R51, R288, R301). -/
def dueWheel (s : State) : List Instr :=
  dueCrank s ++ dueLoop s ++ one (dueLate s) .lateToothDeadline ++ one (dueStall s) .stallTimeout ++ dueCams s ++
    each (dueClose s) .camWindowClose ++ one (dueLimp s) .limpCamTimeout ++ one (dueMissing s) .recordMissingDeadline ++
    one (dueJoin s) .joinTimeout

/-- Timers, thermal models and clocks (R219, R230 to R232, R314, R331). -/
def dueSlow (s : State) : List Instr :=
  one (dueThermal s) .thermalTick ++ each (dueMatch s) .timerMatch ++ each (dueOvf s) .timerOverflow ++
    each (dueGateStop s) .timerGateStop ++ each (dueGate s) .gateClearEffect ++ one (wantsSwitch s) .cleanSwitchRequest

/-- Edges of an emitted cam that fall in this tick. -/
def camCount (s : State) (c : Fin 3) : Nat :=
  ((List.range (emEdges s.emit.tab c.val)).filter fun i =>
    !(s.emit.camMet.contains (c.val, i)) && reached (camTick s.emit c.val i) s.clk.tb).length

/-- The emitter (R499, R500). -/
def dueEmit (s : State) : List Instr :=
  ((vwhere (dueCam s)).map fun c => List.replicate (camCount s c) (Instr.emitCamEdge c)).flatten ++ one (dueStep s) .emitStep

/-- The legacy face, whose CRANK and CAM0 pass the glitch filter too (R470, R478, R482, R483, R486, R487). -/
def dueLegacy (s : State) : List Instr :=
  dueCrank s ++ dueCams s ++ one (dueLate s) .lateToothDeadline ++ one (dueStall s) .stallTimeout ++ one (dueLTrip s) .legacyTripAssert ++
    each (dueLMaxon s) .legacyMaxon ++ each (dueLFire s) .legacySlotFire ++ each (dueLPhase s) .legacyPhaseEnd ++
    each (dueLPwm s) .legacyPwmPeriod ++ each (dueLMatch s) .legacyTimerMatch ++ each (dueLOvf s) .legacyTimerOverflow

/-- The rows of the block's own sequencers that fall due in a part of the native tick, in their order; a timeout that yields
to an event of its cycle and the Brass issue cycles come last (R178, R181). -/
def duePhase (k : Nat) (s : State) : List Instr :=
  match k with
  | 0 => dueFirst s
  | 1 => dueMbox s
  | 2 => dueActions s
  | 3 => duePulses s
  | 4 => each (duePass s) .windowPassStart
  | 5 => dueCps s
  | 6 => dueWheel s
  | 7 => dueSlow s ++ dueEmit s
  | 8 => each (dueWaiti s) .waitiTimeout
  | _ => each (dueIssue s) .brassIssueCycle

/-- The part of the tick that follows part k: a native tick has ten, a legacy tick one (log 3). -/
def nextPhase (native : Bool) (k : Nat) : Nat := if native && decide (k < 9) then k + 1 else 0

/-- Everything that falls due now, in its order. -/
def dueNow (s : State) : List Instr := if isNative s then duePhase s.clk.phase s else dueLegacy s

/-- One part of a TB tick, on an empty queue: the first part moves time on, and each part takes up what falls due in it after
the parts before it. Without FCLK nothing moves, but for a wake whose source has occurred; the accesses that RDY held
back come next (R355, log 1, log 3). -/
def tick (s : State) : State :=
  let s := askedWake s
  if fclkRuns s && !s.bus.rdyWait.isEmpty then
    { s with pending := s.bus.rdyWait, bus := { s.bus with rdyWait := [] } }
  else if fclkRuns s then
    let s := if s.clk.phase = 0 then tickTime s else s
    { s with pending := dueNow s, clk := { s.clk with phase := nextPhase (isNative s) s.clk.phase } }
  else s

end Sys2Proof.Machine
end

