-- ==== Sys2Proof/Safety.lean ====
section
/-! DEFINITION. The terms in which claims speak: pins held low, a free mailbox, an admitted command and its answer. -/

namespace Sys2Proof.Machine

/-! ### Outputs -/

/-- Every pin of R142 reads low. -/
def pinsLow (s : State) : Prop := (∀ n, pinDrv s n = false) ∧ pinBoost s = false ∧ pinCstb s = false

/-- What a safe state must show: in the safe state, which ends the pin-drive test, the pins are low (R259, R401). -/
def Safe (s : State) : Prop := s.flt.safe = true → isNative s = true → s.dbg.ptest = false → pinsLow s

/-! ### The host bus (R355, R513) -/

/-- An access of the host takes place at once: the pins of the bus have their supply, and the device is in RUN, where the
fall of CS# wakes nothing. -/
def hostBus (s : State) : Bool := s.sys.pwr == .run && s.sys.vddioa

/-- WINSEL and WINADR stand behind the word that a row has accessed through WINDAT (R418, R419). -/
def wordDone (space off : Nat) (t : State) : Bool := t.bus.winsel == w16 space && t.bus.winadr == w16 (off + 1)

/-- The state `t` with the host's pointer as it is in `s`: a frame that sets WINSEL and WINADR aside. -/
def besidePointer (s t : State) : State := { t with bus := { t.bus with winsel := s.bus.winsel, winadr := s.bus.winadr } }

/-! ### Mailbox commands (R417, R429 to R431) -/

/-- The mailbox is free, and the firmware core runs a host command as soon as it is submitted (R417, R429). -/
def mboxFree (s : State) : Bool :=
  mboxUp s && s.sys.vddioa && coreOn s && !s.mbox.busy && s.mbox.run.isNone && s.mbox.waiting.isNone && !s.mbox.committed && !s.mbox.cut

/-- The state in which a submitted host command runs: its words stand in the mailbox and BUSY is 1 (R417, R429). -/
def started (code : Byte) (a : Args) (s : State) : State :=
  { s with mbox := { s.mbox with cmd := code, args := a, busy := true, done := false, ovr := false, byDbg := false, run := some ⟨.host, code, a⟩ } }

/-- Checks 1 to 6 of R431 pass for a host command: the code is assigned, word 24 of the protection image allows its
class, and the phase of the boot, the safe state, the lifecycle and the block's clock allow it. -/
def admitted (code : Byte) (a : Args) (s : State) : Bool :=
  assignedCodes.contains code.toNat &&
    (classOf code.toNat == 0 || bit (vget s.sec.img 24 0) (classOf code.toNat)) &&
    (decide (5 ≤ s.sys.boot) || bootCodes.contains code.toNat) && (!s.flt.safe || safeCodes.contains code.toNat) &&
    lifecycleOk code.toNat a s.sec.lc && (match blockOf code.toNat a with | some b => blkOn s b | none => true)

/-- The mailbox shows the end of a host command: BUSY 0, DONE 1, the status and the results, and MBX is set (R417, R423). -/
def answered (t : State) (status q0 q1 : Nat) : Prop :=
  t.mbox.busy = false ∧ t.mbox.done = true ∧ t.mbox.run = none ∧ t.mbox.status = BitVec.ofNat 8 status ∧
    t.mbox.res0 = w16 q0 ∧ t.mbox.res1 = w16 q1 ∧ bit t.bus.intstat 11 = true

/-! ### Input edges (R30, R33, R507) -/

/-- An edge of CRANK that passes the glitch filter at once: none waits in it, and the level has stood for FILTER cycles; the
emitter is at rest. -/
def crankPasses (stamp : Tb) (s : State) : Bool :=
  !s.emit.run && s.pins.crankWait.isNone && decide (filterLen s ≤ 2 * tbSince stamp s.clk.tb)

/-- The same of an edge of a cam. -/
def camPasses (c : Fin 4) (stamp : Tb) (s : State) : Bool :=
  !s.emit.run && s.pins.camWait[c].isNone && decide (filterLen s ≤ 2 * tbSince stamp s.clk.tb)

/-! ### Events and frames -/

/-- An event of a source waits for the collector, with its channel or mask and its detail (R245, R246). -/
def waits (t : State) (src ch : Nat) (det : Word) : Prop := ∃ e ∈ t.flt.queue, e.src = src ∧ e.ch = ch ∧ e.det = det

/-- The state `t` with the waiting events and the interrupt conditions as they are in `s`: a frame that sets these aside. -/
def quietly (s t : State) : State :=
  { t with flt := { t.flt with queue := s.flt.queue, batch := s.flt.batch }, bus := { t.bus with intstat := s.bus.intstat, fresh := s.bus.fresh, freshAt := s.bus.freshAt } }

/-! ### Resets (R340) -/

/-- What every reset leaves: the start of the boot, the face by the level of MODE, and every register and buffer at its
reset value but the banks that no commit was writing, the key area when no key word was being written, and the waiting
commands (R4, R340, R341, R370). -/
def afterReset (cause : Nat) (native : Bool) (s t : State) : Prop :=
  t.sys.boot = 0 ∧ t.sys.inReset = false ∧ t.sys.rstCause = cause ∧ t.sys.face = (if native then Face.native else Face.legacy) ∧
    t.sys.pwr = Pwr.run ∧ t.sys.oe = false ∧ t.clk.tb = 0 ∧ t.clk.fclkOn = false ∧ t.clk.gateen = 0x7F ∧ t.mbox = {} ∧
    t.bus = {} ∧ t.sched = {} ∧ t.rpt = {} ∧ t.cpc = {} ∧ t.chan = State.reset.chan ∧ t.chs = {} ∧ t.trip = {} ∧
    t.therm = {} ∧ t.tim = {} ∧ t.link = {} ∧ t.emit = {} ∧ t.leg = {} ∧ t.dbg = {} ∧ t.flt.openRec = none ∧ t.flt.hist = [] ∧
    t.flt.safe = false ∧ (∀ b, s.store.run.map (·.target) ≠ some b → bank t b = bank s b) ∧
    (s.sec.adv = none → t.sec.keys = s.sec.keys) ∧ t.pending = s.pending

/-! ### Power (R347, R350, R354) -/

/-- The state with the RW fields of a PWRCTL write taken (R347, R358). -/
def withPwrctl (w : Word) (s : State) : State :=
  { s with sys := { s.sys with wcrank := bit w 2, wcam := bit w 3, wcs := bit w 4, wlink := bit w 5, wtmr := bit w 6, wunit := bit w 7, wtim := fld w 8 7 } }

/-- What a wake from STOP with a code leaves (R350, R352, R354, R357): of the sources that stand together the lowest code is
reported; `dbg` tells a wake by the debug port, which DWK shows when its code is the reported one. -/
def woken (s t : State) (code : Nat) (ref : RefEdge) (dbg : Bool) : Prop :=
  t.sys.pwr = .run ∧ t.sys.fromStop = true ∧ t.sys.fromStby = false ∧ t.sys.wakeSrc = lowestCode code false s ∧ t.sys.capture = [] ∧ t.clk.fclkOn = true ∧
    t.clk.fcoOn = true ∧ t.clk.tbgap = true ∧ t.dbg.dwk = ((dbg || s.sys.dbgRef.isSome) && lowestCode code false s == 6) ∧ bit t.bus.intstat 10 = true ∧
    t.clk.tb = (if s.clk.aocok then reloadTb s.clk.tb s.clk.anchor ref.dA ref.c else s.clk.tb + 1) ∧
    t.store.bankA = s.store.bankA ∧ t.store.bankB = s.store.bankB ∧ t.chan = s.chan ∧ t.sec = s.sec ∧ t.pending = s.pending

end Sys2Proof.Machine
end

