-- ==== Sys2Proof/Certificates/Slice0/Obligations.lean ====
section
/-! DEFINITION. Statements about the block for the provers. -/

open Sys2Proof Sys2Proof.Machine

/-! ### The block as a whole -/

/-- A step runs the command at the front of the queue, on the state with the queue's rest. -/
def Obligations.StepRunsFront : Prop :=
  ∀ (c : Instr) (rest : List Instr) (s : State),
    step { s with pending := c :: rest } = exec c { s with pending := rest }

/-- On an empty queue a step is one part of a TB tick while FCLK runs, and nothing otherwise. The first part moves time on: TB
counts one, two FCLK cycles pass, an edge of AOC captures TB, and the rows that fall due are queued (R316, R320; the tick on an
empty queue, its parts and their order are the model's choice, log 1, log 3). Each further part of a native tick queues the rows
that fall due in it and changes nothing else. Time alone touches no slot, store, mailbox, table or bus register. Accesses of the
host that RDY held back come before the next part (R355, log 31). -/
def Obligations.IdleStepTicks : Prop :=
  (∀ s : State, s.pending = [] → s.sys.wakeReq = none → s.sys.dbgRef = none → fclkRuns s = true → s.bus.rdyWait = [] → s.clk.phase = 0 →
    ∃ t, step s = .next t ∧ t.clk = { s.clk with tb := s.clk.tb + 1, fcyc := s.clk.fcyc + 2, phase := if isNative s then 1 else 0, anchor := if Config.aocEdge (s.clk.tb + 1) then s.clk.tb + 1 else s.clk.anchor, aocTb := if Config.aocEdge (s.clk.tb + 1) then s.clk.tb + 1 else s.clk.aocTb, aocPrev := if Config.aocEdge (s.clk.tb + 1) then s.clk.aocTb else s.clk.aocPrev } ∧
      t.pending = dueNow { t with pending := [], clk := { t.clk with phase := 0 } } ∧ t.sched.slots = s.sched.slots ∧ t.rpt = s.rpt ∧
      t.store = s.store ∧ t.mbox = s.mbox ∧ t.sys = s.sys ∧ t.bus = s.bus ∧ t.brass = s.brass ∧ t.sec = s.sec ∧ t.geom = s.geom) ∧
  (∀ s : State, s.pending = [] → s.sys.wakeReq = none → s.sys.dbgRef = none → fclkRuns s = true → s.bus.rdyWait = [] → s.clk.phase ≠ 0 → isNative s = true →
    step s = .next { s with pending := duePhase s.clk.phase s, clk := { s.clk with phase := if s.clk.phase < 9 then s.clk.phase + 1 else 0 } }) ∧
  (∀ s : State, s.pending = [] → s.sys.wakeReq = none → s.sys.dbgRef = none → fclkRuns s = true → s.bus.rdyWait ≠ [] →
    step s = .next { s with pending := s.bus.rdyWait, bus := { s.bus with rdyWait := [] } }) ∧
  ∀ s : State, s.pending = [] → s.sys.wakeReq = none → s.sys.dbgRef = none → fclkRuns s = false → step s = .next s

/-- No command changes the queue of waiting commands: what is behind the front waits as it stood. -/
def Obligations.CommandsKeepQueue : Prop :=
  ∀ (c : Instr) (s t : State), exec c s = .next t → t.pending = s.pending

/-- Every step keeps the canonical form of the addressed memories: the two banks and the shadow list rising addresses and no
byte equal to what an unlisted address reads as. -/
def Obligations.StepKeepsMemoryForm : Prop :=
  ∀ s t : State, Memory.wf s = true → step s = .next t → Memory.wf t = true

/-- The canonical form holds at reset, where nothing is listed. -/
def Obligations.ResetMemoryForm : Prop :=
  Memory.wf State.reset = true ∧ State.reset.store.bankA = [] ∧ State.reset.store.bankB = [] ∧ State.reset.store.shadow = []

/-- A byte of a bank or of the shadow reads as it was written, and every other byte as before; erased bytes of a bank read
0xFF (R362, R365). -/
def Obligations.MemoryReadsWrites : Prop :=
  ∀ (d : Byte) (a b : Nat) (v : Byte) (m : List Host.Cell), cellsFrom d 0 m = true →
    cellGet d b (cellPut d a v m) = (if b = a then v else cellGet d b m) ∧ cellsFrom d 0 (cellPut d a v m) = true ∧
      cellGet bankDefault b [] = 0xFF

/-- What reset leaves in registers for which the spec gives the value: BOOT 0, OE 0, GATEEN 0x007F, CLKCTL 0x0040, CLKSTAT
0x0000, INTSTAT and INTEN 0x0000 (R329, R335, R336, R341, R415, R424). -/
def Obligations.ResetRegisters : Prop :=
  State.reset.sys.boot = 0 ∧ State.reset.sys.oe = false ∧ State.reset.clk.gateen = 0x7F ∧ clkctl State.reset = 0x0040 ∧
    clkstat State.reset = 0x0000 ∧ State.reset.bus.intstat = 0 ∧ State.reset.bus.inten = 0 ∧ mbstat State.reset = 0 ∧
    State.reset.clk.tb = 0 ∧ State.reset.pending = []

/-! ### Resets, boot and power -/

/-- Each kind of reset starts the boot with its own cause, latches MODE, and keeps the key area and the banks that no commit was
writing; a first power-on reset waits for VDDIOA, and whether the rise is the first is a free value (R4, R340, R415, R534;
log 9). -/
def Obligations.ResetsStartBoot : Prop :=
  (∀ mode s, s.sys.vddioa = true → ∃ t, exec (.powerOnReset mode) s = .next t ∧ afterReset 0 mode s t ∧ t.clk = {}) ∧
  (∀ mode s, s.sys.vddioa = false → ∃ t, exec (.powerOnReset mode) s = .next t ∧ t.sys.inReset = t.sys.porHold ∧
    (s.store.run = none → t.sys.porHold = Config.firstRise s.free) ∧ (∀ b, s.store.run.map (·.target) ≠ some b → bank t b = bank s b)) ∧
  (∀ mode s, s.sys.porHold = true → ∃ t, exec (.vddioaReturn mode) s = .next t ∧ afterReset 0 mode s t) ∧
  (∀ mode s, s.sys.porHold = false →
    exec (.vddioaReturn mode) s = .next { s with sys := { s.sys with vddioa := true }, pins := { s.pins with mode := mode } }) ∧
  (∀ mode s, s.sys.vddioa = true → s.sys.porHold = false → ∃ t, exec (.resetPin mode) s = .next t ∧ afterReset 1 mode s t ∧
    t.clk.aocok = s.clk.aocok) ∧
  (∀ mode s, regOpen s 0x06 = true → hostBus s = true → ∃ t, exec (.resetRequest mode) s = .next t ∧ afterReset 2 mode s t ∧
    t.clk.aocok = s.clk.aocok) ∧
  (∀ mode s, heard s = true → dbgAnyPower s = true → ∃ t, exec (.dreset mode) s = .next t ∧ afterReset 3 (mode && s.sys.vddioa) s t ∧
    t.clk.aocok = s.clk.aocok)

/-- The boot's phases: FCLK starts with TB at 0 at the end of B0, a bad ROM stops the boot at 6, B2 chooses the valid record with
the higher SEQ and bank A when they are equal, and B3 opens the boot window (R341, R344, R366). -/
def Obligations.BootPhases : Prop :=
  (∀ ref s, dueB0 s = true → ∃ t, exec (.bootB0End ref) s = .next t ∧ t.sys.boot = 1 ∧ t.clk.fclkOn = true ∧ t.clk.fcyc = 0 ∧
    (s.sys.stbyWake = false → t.clk.tb = 0) ∧ { t with sys := s.sys, clk := s.clk, flt := s.flt, bus := s.bus } = s) ∧
  (∀ ok s, inPhase s 1 = true → exec (.romIntegrityCheck ok) s = .next { s with sys := { s.sys with boot := if ok then 2 else 6 } }) ∧
  (∀ s, inPhase s 2 = true → ∃ t, exec .storeBanksRead s = .next t ∧ t.sys.boot = 3 ∧
    t.store.chosen = (if recordValid s.store.bankA = true then
        (if recordValid s.store.bankB = true ∧ cell32 bankDefault 4 s.store.bankA < cell32 bankDefault 4 s.store.bankB then 2 else 1)
      else if recordValid s.store.bankB = true then 2 else 0) ∧
    t.store.bankA = s.store.bankA ∧ t.store.bankB = s.store.bankB ∧ { t with sys := s.sys, store := s.store } = s) ∧
  (∀ s, inPhase s 3 = true → s.sys.stbyWake = false → ∃ t, exec .recordApplied s = .next t ∧ t.sys.boot = 4 ∧ t.store.dirty = false ∧
    t.store.bankA = s.store.bankA ∧ t.store.bankB = s.store.bankB ∧
    { t with sys := s.sys, store := s.store, sec := s.sec, geom := s.geom, therm := s.therm, flt := s.flt } = s)

/-- BOOT_DONE ends the boot window and makes the protection image read only; outside the window its check 1 refuses it. IDENT
answers the words of its page (R343, R388, R413, R440). -/
def Obligations.BootDoneAndIdent : Prop :=
  (∀ s, mboxFree s = true → admitted 0x01 s.mbox.args s = true → s.sys.boot = 4 → ∃ t, exec .bootDone s = .next t ∧ answered t 0 0 0 ∧
    t.sys = { s.sys with boot := 5 } ∧ t.sec = { s.sec with ro := true } ∧
    { t with mbox := s.mbox, bus := s.bus, sys := s.sys, sec := s.sec, store := s.store } = s) ∧
  (∀ s, mboxFree s = true → admitted 0x01 s.mbox.args s = true → s.sys.boot = 5 → ∃ t, exec .bootDone s = .next t ∧ answered t 0x17 1 0 ∧
    { t with mbox := s.mbox, bus := s.bus } = s) ∧
  (∀ a s, mboxFree s = true → admitted 0x02 a s = true → a.a0 = 0 → ∃ t, exec (.ident a) s = .next t ∧ answered t 0 0x6432 0x0110 ∧
    { t with mbox := s.mbox, bus := s.bus } = s) ∧
  (∀ a s, mboxFree s = true → admitted 0x02 a s = true → a.a0 = 1 → ∃ t, exec (.ident a) s = .next t ∧
    answered t 0 (Config.uid.extractLsb' 0 16).toNat (Config.uid.extractLsb' 16 16).toNat ∧ { t with mbox := s.mbox, bus := s.bus } = s)

/-- OE rises without moving a channel, unless TRIP# is asserted; an assertion latches all four groups; at a fall every active shaped
channel decays and every high timed channel goes low, and no pin is high; in the safe state and during the pin-drive test OE stays 0
(R142, R143, R144, R201, R260, R343, R401). -/
def Obligations.OutputEnable : Prop :=
  (∀ s, regOpen s 0x06 = true → hostBus s = true → s.sys.oe = false → s.sys.boot = 5 → s.flt.safe = false → s.dbg.ptest = false → s.trip.tripin = false →
    exec .oeSet s = .next { s with sys := { s.sys with oe := true } }) ∧
  (∀ s, regOpen s 0x06 = true → hostBus s = true → s.sys.oe = false → s.sys.boot = 5 → s.flt.safe = false → s.dbg.ptest = false → s.trip.tripin = true →
    ∃ t, exec .oeSet s = .next t ∧ t.sys = { s.sys with oe := true } ∧ (∀ g : Fin 4, t.trip.latched[g] = true) ∧
      t.store = s.store ∧ t.pending = s.pending) ∧
  (∀ s, regOpen s 0x06 = true → hostBus s = true → s.sys.oe = true ∨ s.flt.safe = true ∨ s.dbg.ptest = true → exec .oeSet s = .next s) ∧
  (∀ s, regOpen s 0x06 = true → hostBus s = true → s.sys.oe = true → s.dbg.ptest = false → ∃ t, exec .oeClear s = .next t ∧ t.sys = { s.sys with oe := false } ∧
    pinsLow t ∧ (∀ n : Fin 12, t.chan[n].st.active = false ∧ t.chan[n].st ≠ .high) ∧ t.sched = s.sched ∧ t.store = s.store ∧ t.pending = s.pending)

/-- With the output disable in force every pin of R142 reads low: at OE 0, while FCLK is stopped, in the fast-datapath reset, in
the safe state and with CHAN disabled. The pin-drive test alone drives the pins then, and even there they are low while FCLK is
stopped, and DRV0 to DRV11 and BOOSTEN while TRIP# is asserted (R142, R144, R259, R321, R329, R401). -/
def Obligations.OutputDisable : Prop :=
  (∀ s : State, isNative s = true → s.dbg.ptest = false →
    s.sys.oe = false ∨ s.clk.fclkOn = false ∨ s.clk.fdReset = true ∨ s.flt.safe = true ∨ blkOn s .chan = false → pinsLow s) ∧
  (∀ s : State, s.dbg.ptest = true → s.clk.fclkOn = false → pinsLow s) ∧
  (∀ s : State, s.dbg.ptest = true → s.trip.tripin = true → (∀ n : Fin 12, pinDrv s n = false) ∧ pinBoost s = false)

/-- An accepted request for STOP stops FCLK and FCO, holds TB and the anchor with the error of its capture, sets REFUSE to 0, the link role to OFF and the pins
low, and ends a pin-drive test; a refused one leaves REFUSE at the first failing reason and takes the RW fields (R347, R348,
R401). An accepted request for STANDBY enters ENTERING with OE cleared and the link OFF, and the commit of the shadow, with its
resume section marked valid, runs; a refused one leaves REFUSE at the first failing reason (R347, R349, R368). That the error of the
capture is an operand is the model's choice (DESIGN CHOICE, log 10; R320), and FCO runs on during the entry (R310; log 32). -/
def Obligations.LowPowerRequests : Prop :=
  (∀ w (err : Fin 3) s, regOpen s 0x08 = true → hostBus s = true → refuseReq (withPwrctl w s) false = 0 → ∃ t, exec (.stopRequest w err) s = .next t ∧ t.sys.pwr = .stop ∧ t.sys.refuse = 0 ∧
      t.clk.fclkOn = false ∧ t.clk.fcoOn = false ∧ t.clk.tb = s.clk.tb ∧ t.clk.anchor = anchorAt err s.clk.anchor ∧ t.link.st = .off ∧ t.dbg.ptest = false ∧ pinsLow t ∧
      t.sys.capture = [] ∧ t.store = s.store ∧ t.chan = s.chan ∧ t.geom = s.geom ∧ t.tim = s.tim ∧ t.brass = s.brass ∧ t.pending = s.pending) ∧
  (∀ w (err : Fin 3) s, regOpen s 0x08 = true → hostBus s = true → refuseReq (withPwrctl w s) false ≠ 0 → exec (.stopRequest w err) s =
      .next { s with sys := { (withPwrctl w s).sys with refuse := refuseReq (withPwrctl w s) false } }) ∧
  (∀ w (err : Fin 3) s, regOpen s 0x08 = true → hostBus s = true → refuseReq (withPwrctl w s) true = 0 → ∃ t, exec (.standbyRequest w err) s = .next t ∧ t.sys.pwr = .entering ∧ t.sys.refuse = 0 ∧
      t.sys.oe = false ∧ t.link.st = .off ∧ pinsLow t ∧ t.clk.tb = s.clk.tb ∧ t.clk.anchor = anchorAt err s.clk.anchor ∧ t.clk.fcoOn = true ∧ (Memory.wf s = true → cellGet shadowDefault 10 t.store.shadow = 1) ∧
      t.store.run.map (·.cause) = some .standby ∧ t.store.run.map (·.second) = some false ∧ t.geom = s.geom ∧ t.tim = s.tim ∧ t.pending = s.pending) ∧
  (∀ w (err : Fin 3) s, regOpen s 0x08 = true → hostBus s = true → refuseReq (withPwrctl w s) true ≠ 0 → exec (.standbyRequest w err) s =
      .next { s with sys := { (withPwrctl w s).sys with refuse := refuseReq (withPwrctl w s) true } })

/-- A wake source that PWRCTL enables wakes the device from STOP: FCLK and FCO run, TB resumes at its reload, or at its held value
plus 1 when AOCOK is 0, and FROMSTOP and WAKESRC tell it; the power interrupt condition is set (R350, R352, R354). The wake
timer is code 7 and the debug port code 6 (R399, R402). A wake that a row asked for begins with the next step on an empty
queue, and the lowest code of the sources that stand then is reported, a standing AOC loss and PFAIL among them (log 23). A wake
source powers the core up from STANDBY, into B0, with FROMSTBY and WAKESRC; during the entry it is latched, the lowest code
winning; a source that is not enabled does nothing (R350, R351, R356). In STOP the wake capture holds an edge that the decoder
uses with its coarse stamp, up to 4 crank edges and 16 cam edges, and ignores further ones; the pin takes their level, and the
edge asks for a wake when PWRCTL enables its source (R353, R350). -/
def Obligations.Wakes : Prop :=
  (∀ (code : Fin 8) ref s, isNative s = true → s.sys.pwr = .stop → wakes s code.val false false = true →
    ∃ t, exec (.wakeFromStop code ref) s = .next t ∧ woken s t code.val ref false) ∧
  (∀ ref s, isNative s = true → s.sys.pwr = .stop → wakes s 7 false false = true →
    ∃ t, exec (.wakeTimer ref) s = .next t ∧ woken s t 7 ref false) ∧
  (∀ ref s, heard s = true → dbgFull s = true → s.sys.pwr = .stop → s.sys.dbgRef = none → exec (.wake ref) s =
    .next { s with sys := { s.sys with wakeReq := some (min (s.sys.wakeReq.getD 6) 6), dbgRef := some ref }, dbg := { s.dbg with ack := 1 } }) ∧
  (∀ ref s, s.pending = [] → isNative s = true → s.sys.pwr = .stop → s.sys.dbgRef = some ref → ∃ u, woken s u 6 ref true ∧ step s = step u) ∧
  (∀ (code : Fin 8) s, s.pending = [] → isNative s = true → s.sys.pwr = .stop → s.sys.dbgRef = none → s.sys.wakeReq = some code.val →
    wakes s code.val false false = true → ∃ u, woken s u code.val (freeRef s) false ∧ step s = step u) ∧
  (∀ (code : Fin 8) s, isNative s = true → wakes s code.val false true = true → s.sys.pwr = .standby → ∃ t, exec (.wakeFromStandby code) s = .next t ∧
      t.sys.pwr = .run ∧ t.sys.boot = 0 ∧ t.sys.fromStby = true ∧ t.sys.fromStop = false ∧ t.sys.wakeSrc = lowestCode code.val true s ∧
      t.clk = { s.clk with fcoOn := true } ∧ { t with sys := s.sys, clk := s.clk, dbg := s.dbg } = s) ∧
  (∀ (code : Fin 8) s, isNative s = true → wakes s code.val false true = true → s.sys.pwr = .entering → exec (.wakeFromStandby code) s =
      .next { s with sys := { s.sys with wakeLatch := some (match s.sys.wakeLatch with | some k => min k code.val | none => code.val) } }) ∧
  (∀ (code : Fin 8) s, isNative s = true → wakes s code.val false true = false → exec (.wakeFromStandby code) s = .next s) ∧
  (∀ rise dA (err : Fin 3) s, isNative s = true → s.sys.inReset = false → s.sys.pwr = .stop → captures s .crank rise = true → s.sys.coarseSeen < 4 →
    (s.sys.capture.filter fun e => e.src == .crank).length < 4 → exec (.wakeCaptureEdge .crank rise dA err) s =
      .next { edgePin .crank rise s with sys := { s.sys with wakeReq := if s.sys.wcrank then some (min (s.sys.wakeReq.getD 3) 3) else s.sys.wakeReq, capture := s.sys.capture ++ [⟨.crank, rise, s.clk.anchor + BitVec.ofNat 48 ((dA * 390625 + 64) / 128)⟩] } }) ∧
  (∀ (c : Fin 4) rise dA (err : Fin 3) s, isNative s = true → s.sys.inReset = false → s.sys.pwr = .stop → captures s (.cam c) rise = true → s.sys.capCams < 16 →
    exec (.wakeCaptureEdge (.cam c) rise dA err) s = .next { edgePin (.cam c) rise s with sys := { s.sys with wakeReq := if s.sys.wcam then some (min (s.sys.wakeReq.getD 4) 4) else s.sys.wakeReq, capCams := s.sys.capCams + 1, capture := s.sys.capture ++ [⟨.cam c, rise, s.clk.anchor + BitVec.ofNat 48 ((dA * 390625 + 64) / 128)⟩] } }) ∧
  (∀ rise dA (err : Fin 3) s, 4 ≤ (s.sys.capture.filter fun e => e.src == .crank).length →
    exec (.wakeCaptureEdge .crank rise dA err) s = .next (edgeWakes .crank rise (edgePin .crank rise s))) ∧
  (∀ (c : Fin 4) rise dA (err : Fin 3) s, 16 ≤ s.sys.capCams → exec (.wakeCaptureEdge (.cam c) rise dA err) s = .next (edgeWakes (.cam c) rise (edgePin (.cam c) rise s))) ∧
  (∀ (src : EdgeSrc) rise s, { edgePin src rise s with pins := s.pins } = s ∧
    { edgeWakes src rise s with sys := { (edgeWakes src rise s).sys with wakeReq := s.sys.wakeReq } } = s)

/-- A fall of VDDIOB sets PFAIL and starts a commit when the shadow is dirty; in STOP it wakes the device, with code 2 unless AOC
is lost too; a rise clears PFAIL, and a loss of VDDIOA changes nothing but the levels that its pins read (R350, R354, R372,
R373, R513). -/
def Obligations.SupplyEvents : Prop :=
  (∀ s, isNative s = true → s.sys.inReset = false → s.sys.pfail = false → s.sys.pwr ≠ .stop → s.store.run = none → s.store.dirty = true →
    ∃ t, exec .powerFailFall s = .next t ∧ t.sys = { s.sys with pfail := true } ∧ t.store.run.map (·.cause) = some .pfail ∧
      t.store.run.map (·.target) = some (commitTarget s) ∧ { t with sys := s.sys, store := s.store, free := s.free } = s) ∧
  (∀ s, isNative s = true → s.sys.inReset = false → s.sys.pfail = false → s.sys.pwr ≠ .stop → (s.store.run.isSome = true ∨ s.store.dirty = false) →
    exec .powerFailFall s = .next { s with sys := { s.sys with pfail := true } }) ∧
  (∀ s, isNative s = true → s.sys.inReset = false → s.sys.pfail = false → s.sys.pwr = .stop → ∃ t, exec .powerFailFall s = .next t ∧
    t.sys.pfail = true ∧ t.sys.pwr = .run ∧ t.sys.fromStop = true ∧ t.sys.wakeSrc = min (if s.clk.aocok then 2 else 1) (s.sys.wakeReq.getD 2) ∧ t.clk.fclkOn = true ∧ t.pending = s.pending) ∧
  (∀ s, exec .powerFailRise s = .next { s with sys := { s.sys with pfail := false } }) ∧
  (∀ s, exec .vddioaLoss s = .next { s with sys := { s.sys with vddioa := false }, pins := { s.pins with mode := false } })

/-! ### Clocks -/

/-- AOC, FCO and RCK become judged, and only their own bits of CLKSTAT change (R307). A loss of AOC clears AOCOK and FLLLOCK and
raises source 33 when the FLL was locked, while LRC runs (R357); a loss of FCO in use raises source 30 and leaves the supervisor in SWITCH when RCK
is judged and in HELD otherwise; the end of holdover stops RCK (R308, R311, R313, R318, R322). In STOP the loss of AOC wakes the
device with code 1 (R350, R357). -/
def Obligations.ClockSources : Prop :=
  (∀ s, s.sys.porHold = false → s.clk.aocok = false → ∃ t, exec .aocJudged s = .next t ∧
    t.clk = { s.clk with aocok := true, aocCount := 16384, fll := { s.clk.fll with hold := 0 } } ∧ { quietly s t with clk := s.clk } = s) ∧
  (∀ s, s.clk.fcoOn = true → s.clk.fcook = false → s.sys.inReset = false → s.sys.pwr = .run → ∃ t, exec .fcoJudged s = .next t ∧
    t.clk = { s.clk with fcook := true } ∧ { quietly s t with clk := s.clk } = s) ∧
  (∀ s, supOn s = true → hasRck s = true → s.link.lock = true → s.clk.rckok = false → ∃ t, exec .rckJudged s = .next t ∧
    t.clk = { s.clk with rckok := true } ∧ { quietly s t with clk := s.clk } = s) ∧
  (∀ s, supOn s = true → s.clk.lrcLost = false → s.clk.aocok = true → s.sys.pwr = .run → ∃ t, exec .aocLoss s = .next t ∧ t.clk.aocok = false ∧ t.clk.fll.lock = false ∧
    t.clk.aocCount = 0 ∧ t.clk.fcook = s.clk.fcook ∧ t.clk.fclkOn = s.clk.fclkOn ∧ t.clk.tb = s.clk.tb ∧
    (s.clk.fll.lock = true → waits t 33 0 (i16 (satS 16 s.clk.fll.err))) ∧ { quietly s t with clk := s.clk } = s) ∧
  (∀ s, supOn s = true → s.clk.fcoOn = true → s.clk.fcook = true → s.clk.sel = false → s.sys.pwr = .run → s.clk.sup = .run →
    ∃ t, exec .fcoLoss s = .next t ∧ t.clk.fcook = false ∧ t.clk.fclkOn = false ∧ waits t 30 0 0 ∧
      t.clk.sup = (if s.clk.rckok then .switching else .held) ∧ (s.clk.rckok = false → t.sys.odStop = true) ∧ t.clk.tb = s.clk.tb ∧
      { quietly s t with clk := s.clk, sys := s.sys } = s) ∧
  (∀ s, supOn s = true → s.clk.lrcLost = false → s.clk.aocok = true → s.sys.pwr = .stop → ∃ t, exec .aocLoss s = .next t ∧ t.clk.aocok = false ∧ t.sys.pwr = .run ∧
    t.sys.fromStop = true ∧ t.sys.wakeSrc = min 1 (s.sys.wakeReq.getD 1) ∧ t.clk.fclkOn = true ∧ t.clk.tb = s.clk.tb + 1 ∧ t.pending = s.pending) ∧
  (∀ s, supOn s = true → s.clk.holdover = true → s.link.lock = false → ∃ t, exec .rckHoldoverEnd s = .next t ∧
    t.clk = { s.clk with holdover := false, fclkOn := s.clk.fclkOn && !s.clk.sel } ∧ { quietly s t with clk := s.clk } = s)

/-- A count of AOC over 1 024 LRC cycles outside 866 to 1 296 raises source 31 with the count, saturating at 2 047, and clears
AOCOK, while LRC runs to count it; inside it changes nothing. The fast domain's loss of LRC raises source 31 with bit 15 set and clears LRCOK, which the
return of LRC sets (R322, R325). The drift check sets DRIFT and raises source 32 when the deviation in ppm exceeds DRW × 50,
and clears DRIFT within it (R326). -/
def Obligations.RateChecks : Prop :=
  (∀ count s, supOn s = true → s.clk.fclkOn = true → 866 ≤ count → count ≤ 1296 → exec (.aocGrossCheck count) s = .next s) ∧
  (∀ count s, supOn s = true → s.clk.lrcLost = false → s.sys.pwr = .run → (count < 866 ∨ 1296 < count) → ∃ t, exec (.aocGrossCheck count) s = .next t ∧ t.clk.aocok = false ∧
    waits t 31 0 (BitVec.ofNat 16 (min count 2047)) ∧ { quietly s t with clk := s.clk } = s) ∧
  (∀ s, liveN s = true → s.clk.lrcLost = false → ∃ t, exec .lrcLoss s = .next t ∧ t.clk = { s.clk with lrcok := false, lrcLost := true } ∧
    (∃ e ∈ t.flt.queue, e.src = 31 ∧ e.ch = 0 ∧ bit e.det 15 = true) ∧ { quietly s t with clk := s.clk } = s) ∧
  (∀ s, liveN s = true → s.clk.lrcok = false → exec .lrcReturn s = .next { s with clk := { s.clk with lrcok := true, lrcLost := false } }) ∧
  (∀ (count : Nat) (s : State), supOn s = true → hasRck s = true → s.clk.rckok = true → s.clk.aocok = true → s.clk.drw ≠ 0 → s.sys.pwr = .run →
    ∃ t, exec (.driftCheck count) s = .next t ∧ { quietly s t with clk := s.clk } = s ∧
      (s.clk.drw * 50 < (satS 16 (Int.tdiv (200000000 - (count : Int)) 200)).natAbs →
        t.clk = { s.clk with drift := true } ∧ waits t 32 0 (i16 (satS 16 (Int.tdiv (200000000 - (count : Int)) 200)))) ∧
      ((satS 16 (Int.tdiv (200000000 - (count : Int)) 200)).natAbs ≤ s.clk.drw * 50 → t.clk = { s.clk with drift := false }))

/-- One window of the FLL: while the trim is held only the hold counts down; otherwise the trim moves toward zero error by at
most 500 ppm, held in sixteenths of a count, four good windows lock, and a second bad window unlocks with source 33 and a hold of 16 windows (R311). -/
def Obligations.FllWindows : Prop :=
  (∀ (count : Nat) s, s.clk.aocok = true → s.clk.fcoOn = true → s.sys.inReset = false → s.sys.pwr = .run →
    0 < s.clk.fll.hold → ∃ t, exec (.fllWindow count) s = .next t ∧ t.clk.fll = { s.clk.fll with hold := s.clk.fll.hold - 1 } ∧
    { t.clk with fll := s.clk.fll } = s.clk ∧ { quietly s t with clk := s.clk } = s) ∧
  (∀ (count : Nat) s, s.clk.aocok = true → s.clk.fcoOn = true → s.sys.inReset = false → s.sys.pwr = .run →
    s.clk.fll.hold = 0 → ((count : Int) - 390625).natAbs ≤ 4 → ∃ t, exec (.fllWindow count) s = .next t ∧
    t.clk.fll.trim = s.clk.fll.trim - 16 * ((count : Int) - 390625) ∧ t.clk.fll.slew = false ∧ (3 ≤ s.clk.fll.good → t.clk.fll.lock = true) ∧
    (s.clk.fll.lock = false → s.clk.fll.good < 3 → t.clk.fll.lock = false) ∧ { t.clk with fll := s.clk.fll } = s.clk ∧ { quietly s t with clk := s.clk } = s) ∧
  (∀ (count : Nat) s, s.clk.aocok = true → s.clk.fcoOn = true → s.sys.inReset = false → s.sys.pwr = .run →
    s.clk.fll.hold = 0 → 80 < ((count : Int) - 390625).natAbs → s.clk.fll.lock = true → s.clk.fll.bad = 1 →
    ∃ t, exec (.fllWindow count) s = .next t ∧ t.clk.fll.lock = false ∧ t.clk.fll.hold = 16 ∧ t.clk.fll.trim = s.clk.fll.trim ∧
    (isNative s = true → waits t 33 0 (i16 (satS 16 ((count : Int) - 390625)))) ∧ { t.clk with fll := s.clk.fll } = s.clk ∧ { quietly s t with clk := s.clk } = s) ∧
  (∀ (count : Nat) s, s.clk.aocok = true → s.clk.fcoOn = true → s.sys.inReset = false → s.sys.pwr = .run →
    s.clk.fll.hold = 0 → 80 < ((count : Int) - 390625).natAbs → s.clk.fll.lock = true → s.clk.fll.bad = 0 →
    ∃ t, exec (.fllWindow count) s = .next t ∧ t.clk.fll.lock = true ∧ t.clk.fll.bad = 1 ∧ t.clk.fll.slew = true ∧
    t.clk.fll.trim = s.clk.fll.trim - min 3125 (max (-3125) (16 * ((count : Int) - 390625))) ∧ { t.clk with fll := s.clk.fll } = s.clk ∧ { quietly s t with clk := s.clk } = s)

/-- The stop detector asserts the output disable at once and FCLK stands still; a switch is requested when the preferred source is
not the one in use and both run, and its end, with FCLK still running, takes FCLK from the preferred source without a reset or a
reload of TB (R315, R317, R318). A switch whose old source has stopped does not end so. -/
def Obligations.SwitchesAndStops : Prop :=
  (∀ s, supOn s = true → s.clk.fclkOn = true → s.sys.odStop = false → ∃ t, exec .fclkStopDetect s = .next t ∧ t.sys.odStop = true ∧
    t.clk.fclkOn = false ∧ t.clk.tb = s.clk.tb ∧ pinsLow t ∧ { quietly s t with clk := s.clk, sys := s.sys } = s) ∧
  (∀ s, wantsSwitch s = true → exec .cleanSwitchRequest s = .next { s with clk := { s.clk with sup := .switching } }) ∧
  (∀ s, supOn s = true → s.clk.sup = .switching → s.clk.fclkOn = true → prefRck s = true → ∃ t, exec .cleanSwitchComplete s = .next t ∧ t.clk.sel = true ∧
    t.clk.sup = .run ∧ t.clk.fclkOn = true ∧ t.clk.tb = s.clk.tb ∧ t.chan = s.chan ∧ t.wheel = s.wheel ∧ t.store = s.store ∧ t.pending = s.pending) ∧
  (∀ s, supOn s = true → s.clk.sup = .switching → s.clk.fclkOn = true → prefRck s = false → s.clk.fcook = true → ∃ t, exec .cleanSwitchComplete s = .next t ∧
    t.clk.sel = false ∧ t.clk.sup = .run ∧ t.clk.fclkOn = true ∧ t.clk.tb = s.clk.tb ∧ t.chan = s.chan ∧ t.store = s.store ∧ t.pending = s.pending) ∧
  (∀ s, s.clk.sup = .switching → s.clk.fclkOn = false → exec .cleanSwitchComplete s = .next s)

/-- A mux hang, and in HELD a source that is judged, start an escape to the preferred judged source: FCLK stands still under the
fast-datapath reset, source 28 waits with the cause and the new source in its detail, and from HELD source 29 too (R318, R319,
R322). A mux hang without a judged source leads to HELD; there a lost FCO is enabled anew (R318). An escape ends with FCLK
running from its source and the fast-datapath reset released: the reports and the buffers keep what they hold,
the decoder is in NOSYNC, no channel, window, measurement or receiver is at work, and TB is its reload from the anchor with the error of its capture, or its
held value plus 1 when AOCOK is 0; ESC and TBGAP are set (R319, R320, R321). -/
def Obligations.Escapes : Prop :=
  (∀ n rck s, supOn s = true → s.clk.sup = .switching → escTarget s = some rck → ∃ t, exec (.muxHangDetect n) s = .next t ∧
    t.clk.sup = .escape ∧ t.clk.escRck = rck ∧ t.clk.fclkOn = false ∧ t.clk.fdReset = true ∧ t.clk.tb = s.clk.tb ∧
    waits t 28 0 (BitVec.ofNat 16 ((if rck then 4 else 0) + 256 * min n 255)) ∧ { quietly s t with clk := s.clk } = s) ∧
  (∀ n s, supOn s = true → s.clk.sup = .switching → escTarget s = none → ∃ t, exec (.muxHangDetect n) s = .next t ∧
    t.clk.sup = .held ∧ t.clk.fclkOn = false ∧ t.clk.tb = s.clk.tb ∧ t.sys.odStop = true ∧ pinsLow t ∧
    waits t 28 0 (BitVec.ofNat 16 (256 * min n 255)) ∧ { quietly s t with clk := s.clk, sys := s.sys } = s) ∧
  (∀ n rck s, supOn s = true → s.clk.sup = .held → escTarget s = some rck → ∃ t, exec (.escapeStart n) s = .next t ∧
    t.clk.sup = .escape ∧ t.clk.escRck = rck ∧ t.clk.fclkOn = false ∧ t.clk.fdReset = true ∧ t.clk.tb = s.clk.tb ∧
    waits t 28 0 (BitVec.ofNat 16 (1 + (if rck then 4 else 0) + 256 * min n 255)) ∧ waits t 29 0 (BitVec.ofNat 16 (min n 65535)) ∧
    { quietly s t with clk := s.clk } = s) ∧
  (∀ s, supOn s = true → s.clk.sup = .held → s.clk.sel = false → s.clk.fcook = false → ∃ t, exec .heldFcoRestart s = .next t ∧
    t.clk = { s.clk with fcoOn := true } ∧ { quietly s t with clk := s.clk } = s) ∧
  (∀ (dA : Nat) (err : Fin 3) (s : State), supOn s = true → s.clk.sup = .escape → ∃ t, exec (.escapeComplete dA err) s = .next t ∧
    t.clk.sup = .run ∧ t.clk.fclkOn = true ∧ t.clk.fdReset = false ∧ t.clk.sel = s.clk.escRck ∧ t.sys.odStop = false ∧ t.clk.esc = true ∧
    t.clk.tbgap = true ∧ t.clk.tb = (if s.clk.aocok then reloadTb s.clk.tb (anchorAt err s.clk.anchor) dA 0 else s.clk.tb + 1) ∧ t.wheel.st = .nosync ∧
    t.rpt.fifo.take s.rpt.fifo.length = s.rpt.fifo ∧ t.cpc.ph = s.cpc.ph ∧ t.cpc.cv = s.cpc.cv ∧ (∀ n : Fin 12, t.chan[n].st.active = false ∧ t.chan[n].st ≠ .high) ∧
    (∀ w : Fin 8, t.cpc.wins[w].active = false) ∧ t.clk.fm.busy = false ∧ (∀ n : Fin 8, t.lines[n].deadline = none) ∧
    t.clk.fcyc = 0 ∧ t.brass = s.brass ∧ (s.mbox.run = none ∨ s.sec.adv = none → t.sec = s.sec) ∧ t.pending = s.pending)

/-- CLKCTL takes its fields, and during a switch the write waits until the switch ends; CLKSTAT reads as it stands, and a read while FCLK runs clears ESC and TBGAP after it and through the
supervisor's copy clears nothing (R323, R335, R336). A write of GATEEN sets its bits at once, a clear of a busy block waits,
and it takes effect when the block is idle (R329, R331). -/
def Obligations.ClockRegisters : Prop :=
  (∀ w s, regOpen s 0x0C = true → hostBus s = true → s.clk.sup = .switching → exec (.clkctlWrite w) s = .next { s with clk := { s.clk with ctlNext := some w } }) ∧
  (∀ w s, regOpen s 0x0C = true → hostBus s = true → s.clk.sup ≠ .switching → ∃ t, exec (.clkctlWrite w) s = .next t ∧ t.clk.fcostby = bit w 2 ∧ t.clk.drw = fld w 4 4 ∧
    (fld w 0 2 < 2 → t.clk.srcRck = bit w 0) ∧ (2 ≤ fld w 0 2 → t.clk.srcRck = s.clk.srcRck) ∧
    (s.clk.sel = false → t.clk.fcoOn = true ∧ t.clk.fcook = s.clk.fcook) ∧ t.clk.tb = s.clk.tb ∧ { quietly s t with clk := s.clk } = s) ∧
  (∀ s, supRead s = true → hostBus s = true → s.clk.fclkOn = true → exec .clkstatRead s =
    .next { s with clk := { s.clk with esc := false, tbgap := false }, bus := { s.bus with data := clkstat s } }) ∧
  (∀ s, supRead s = true → hostBus s = true → s.clk.fclkOn = false → exec .clkstatRead s = .next { s with bus := { s.bus with data := clkstat s } }) ∧
  (∀ w s, regOpen s 0x10 = true → hostBus s = true → ∃ t, exec (.gateenWrite w) s = .next t ∧ t.clk.gateen = w.setWidth 7 ∧ { t with clk := s.clk } = s ∧
    (∀ b : Fin 7, bit w b.val = true → t.clk.gateEff.getLsbD b.val = true) ∧
    (∀ b : Fin 7, bit w b.val = false → blkIdle s (blkOf b) = true → liveN s = true → t.clk.gateEff.getLsbD b.val = false) ∧
    (∀ b : Fin 7, bit w b.val = false → blkIdle s (blkOf b) = false → t.clk.gateEff.getLsbD b.val = s.clk.gateEff.getLsbD b.val)) ∧
  (∀ (b : Fin 7) s, dueGate s b = true → ∃ t, exec (.gateClearEffect b) s = .next t ∧ t.clk.gateEff.getLsbD b.val = false ∧
    (∀ c : Fin 7, c ≠ b → t.clk.gateEff.getLsbD c.val = s.clk.gateEff.getLsbD c.val) ∧ { t with clk := { t.clk with gateEff := s.clk.gateEff } } = s)

/-- The frequency meter: START begins a measurement with its source, gate and exponent, ABORT ends it without a result, and the gate's end
leaves the count, saturating at 32 bits with OVF; without the meter's clock a write raises source 46 and changes no field (R330,
R332, R333, R334). -/
def Obligations.FrequencyMeter : Prop :=
  (∀ w s, regOpen s 0x12 = true → hostBus s = true → blkOn s .fm = true → exec (.fmStart w) s = .next { s with clk := { s.clk with fm :=
    { s.clk.fm with refSel := fld w 0 2, meas := fld w 2 2, nexp := fld w 4 5, busy := true, done := false } } }) ∧
  (∀ w s, regOpen s 0x12 = true → hostBus s = true → blkOn s .fm = true → exec (.fmAbort w) s = .next { s with clk := { s.clk with fm :=
    { s.clk.fm with refSel := fld w 0 2, meas := fld w 2 2, nexp := fld w 4 5, busy := false, done := false } } }) ∧
  (∀ n s, liveN s = true → blkOn s .fm = true → s.clk.fm.busy = true → exec (.fmDone n) s = .next { s with clk := { s.clk with fm :=
    { s.clk.fm with busy := false, done := true, res := min n 4294967295, ovf := decide (4294967295 < n) } } }) ∧
  (∀ w s, regOpen s 0x12 = true → hostBus s = true → blkOn s .fm = false → ∃ t, exec (.fmStart w) s = .next t ∧ waits t 46 0 0x1206 ∧ quietly s t = s)

/-! ### Wheel and cams -/

/-- Edges of CRANK. A transition whose level has not yet stood for FILTER cycles only waits in the glitch filter, and one back to
the old level before that ends a short pulse without an edge (R30); while the emitter runs, an edge of the pin moves only the pin
(R507). The first tooth edge that the decoder takes in NOSYNC starts the gap search and restarts the stall time; after a wake from
STOP it is coarse, and while the wake capture works its stamp is TB at the latest AOC edge (R37, R50, R57, R353). A long period
between two short ones is the gap: the tooth is position 1, NOSYNC becomes GAP, or CONFIRM in two-stroke operation without GAPVERIFY,
and LIMP becomes CONFIRM in the half in which position 1 lies near the limp angle (R37, R46, R51, R72). In CONFIRM the K-th tooth
enters SYNC (R46). In SYNC an edge that is neither early nor over the speed limit is the next tooth: position, stamp, th16 and pace
become those of that tooth, the bad-tooth run returns to 0, and the state is kept (R31, R69); the tooth counted as position 0 also
takes the next half and clears the count of synthetic teeth, and when its period is no gap the position is lost with source 6
(R29, R38, R41, R52). One over the limit raises source 1 and loses the position (R32); an early one is discarded with source 0,
whose detail is the position expected, and counts as a bad tooth (R39, R41, R245). -/
def Obligations.CrankEdges : Prop :=
  (∀ stamp s, s.emit.run = false → captureOn s = false → s.pins.crankWait = none → 2 * tbSince stamp s.clk.tb < filterLen s →
    exec (.crankToothEdge stamp) s = .next { s with pins := { s.pins with crank := s.pins.crank.put (!s.wheel.cfg.edge) stamp, crankWait := some (!s.wheel.cfg.edge, stamp) } }) ∧
  (∀ stamp was s, s.emit.run = false → captureOn s = false → s.pins.crankWait = some (s.wheel.cfg.edge, was) → 2 * tbSince was stamp < filterLen s →
    exec (.crankToothEdge stamp) s = .next { s with pins := { s.pins with crank := s.pins.crank.put (!s.wheel.cfg.edge) stamp, crankWait := none } }) ∧
  (∀ stamp s, s.emit.run = true → s.emit.loop = false → captureOn s = false → s.pins.crankWait = none → filterLen s ≤ 2 * tbSince stamp s.clk.tb →
    exec (.crankToothEdge stamp) s = .next { s with pins := { s.pins with crank := s.pins.crank.put (!s.wheel.cfg.edge) stamp } }) ∧
  (∀ stamp s, wheelLive s = true → crankPasses stamp s = true → s.sys.coarse = false → s.wheel.polNext = none → s.wheel.pulse = none →
    s.wheel.dirPulse = false → s.wheel.st = .nosync → s.wheel.tPrev = none → s.wheel.tFine = none → ∃ t, exec (.crankToothEdge stamp) s = .next t ∧
    t.wheel.tPrev = some stamp ∧ t.wheel.tFine = some stamp ∧ t.wheel.periods = [] ∧ t.wheel.st = .nosync ∧ t.wheel.stallFrom = some stamp ∧
    t.wheel.stallF = false ∧ t.pins.crank = s.pins.crank.put (!s.wheel.cfg.edge) stamp ∧ { t with wheel := s.wheel, pins := { t.pins with crank := s.pins.crank } } = s) ∧
  (∀ stamp s, wheelLive s = true → s.emit.run = false → s.sys.coarse = true → s.sys.coarseOff = false → s.sys.coarseSeen = 0 → s.wheel.polNext = none →
    s.wheel.pulse = none → s.wheel.dirPulse = false → s.wheel.st = .nosync → s.wheel.tPrev = none → ∃ t, exec (.crankToothEdge stamp) s = .next t ∧
    t.sys.coarseSeen = 1 ∧ t.sys.coarse = true ∧ t.wheel.tPrev = some (coarseStamp s stamp) ∧
    t.wheel.tFine = s.wheel.tFine ∧ t.wheel.st = .nosync ∧ t.pred = s.pred ∧ { t with sys := s.sys, wheel := s.wheel, pins := s.pins } = s) ∧
  (∀ stamp s, wheelLive s = true → crankPasses stamp s = true → s.sys.coarse = true → s.sys.coarseOff = true → s.sys.coarseSeen = 0 → s.wheel.polNext = none →
    s.wheel.pulse = none → s.wheel.dirPulse = false → s.wheel.st = .nosync → s.wheel.tPrev = none → ∃ t, exec (.crankToothEdge stamp) s = .next t ∧
    t.sys.coarseSeen = 1 ∧ t.sys.coarse = true ∧ t.wheel.tPrev = some stamp ∧
    t.wheel.tFine = s.wheel.tFine ∧ t.wheel.st = .nosync ∧ t.pred = s.pred ∧ { t with sys := s.sys, wheel := s.wheel, pins := s.pins } = s) ∧
  (∀ stamp (t0 : Tb) (p1 p0 : Nat) (r : List Nat) s, wheelLive s = true → isNative s = true → crankPasses stamp s = true → s.sys.coarse = false → s.wheel.polNext = none →
    s.wheel.pulse = none → s.wheel.dirPulse = false → s.wheel.st = .nosync → s.wheel.stallF = false → s.wheel.tPrev = some t0 → s.wheel.tFine = some t0 → s.wheel.periods = p1 :: p0 :: r →
    300000 ≤ tbSince t0 stamp * s.wheel.cfg.n → 7 * (s.wheel.cfg.m + 1) * p0 ≤ 10 * p1 → 7 * (s.wheel.cfg.m + 1) * tbSince t0 stamp ≤ 10 * p1 →
    ∃ t, exec (.crankToothEdge stamp) s = .next t ∧ t.wheel.st = (if s.wheel.cfg.two && !s.wheel.pol.gapverify then .confirm else .gap) ∧ t.wheel.pos = 1 ∧
    t.wheel.half = 0 ∧ t.pred.tk = stamp ∧ t.pred.th16 = theta16 s.wheel.cfg 0 1 (gAct s 1) ∧ t.spd = some t.pred.uk ∧ bit t.bus.intstat 1 = true ∧
    t.chan = s.chan ∧ t.store = s.store ∧ t.mbox = s.mbox ∧ t.pending = s.pending) ∧
  (∀ stamp (t0 : Tb) (p1 p0 hf : Nat) (r : List Nat) s, wheelLive s = true → isNative s = true → crankPasses stamp s = true → s.sys.coarse = false → s.wheel.polNext = none →
    s.wheel.pulse = none → s.wheel.dirPulse = false → s.wheel.st = .limp → s.wheel.stallF = false → s.wheel.tPrev = some t0 → s.wheel.tFine = some t0 → s.wheel.periods = p1 :: p0 :: r →
    300000 ≤ tbSince t0 stamp * s.wheel.cfg.n → 7 * (s.wheel.cfg.m + 1) * p0 ≤ 10 * p1 → 7 * (s.wheel.cfg.m + 1) * tbSince t0 stamp ≤ 10 * p1 →
    limpHalf s stamp = some hf → ∃ t, exec (.crankToothEdge stamp) s = .next t ∧ t.wheel.st = .confirm ∧ t.wheel.confcnt = 0 ∧ t.wheel.pos = 1 ∧
    t.wheel.half = hf ∧ t.pred.tk = stamp ∧ bit t.bus.intstat 1 = true ∧ t.chan = s.chan ∧ t.store = s.store ∧ t.mbox = s.mbox ∧ t.pending = s.pending) ∧
  (∀ stamp s, wheelLive s = true → isNative s = true → crankPasses stamp s = true → s.sys.coarse = false → s.wheel.pulse = none → s.wheel.dirPulse = false →
    s.wheel.st = .confirm → s.wheel.bare = false → s.wheel.polNext = none → s.wheel.pos < lastPos s.wheel.cfg → s.wheel.confcnt < 15 →
    s.wheel.pol.badlo * s.pred.ppred ≤ 20 * tbSince s.pred.tk stamp → 300000 ≤ tbSince s.pred.tk stamp * s.wheel.cfg.n →
    ∃ t, exec (.crankToothEdge stamp) s = .next t ∧ t.wheel.st = (if s.wheel.kNow ≤ s.wheel.confcnt + 1 then .sync else .confirm) ∧
    t.wheel.confcnt = s.wheel.confcnt + 1 ∧ t.wheel.pos = s.wheel.pos + 1 ∧ t.wheel.half = s.wheel.half ∧ t.wheel.badRun = 0 ∧ t.pred.tk = stamp ∧
    t.chan = s.chan ∧ t.store = s.store ∧ t.mbox = s.mbox ∧ t.pending = s.pending) ∧
  (∀ stamp s, wheelLive s = true → isNative s = true → crankPasses stamp s = true → s.sys.coarse = false → s.wheel.pulse = none → s.wheel.dirPulse = false →
    s.wheel.st = .sync → s.wheel.bare = false → s.wheel.polNext = none → s.wheel.pos = lastPos s.wheel.cfg → s.geom.ready = false →
    s.wheel.pol.badlo * s.pred.ppred ≤ 20 * tbSince s.pred.tk stamp → 300000 * (s.wheel.cfg.m + 1) ≤ tbSince s.pred.tk stamp * s.wheel.cfg.n →
    7 * (s.wheel.cfg.m + 1) * s.wheel.lastP ≤ 10 * tbSince s.pred.tk stamp → ∃ t, exec (.crankToothEdge stamp) s = .next t ∧ t.wheel.st = .sync ∧
    t.wheel.pos = 0 ∧ t.wheel.half = (if s.wheel.cfg.two then 0 else 1 - s.wheel.half) ∧ t.wheel.syncnt = 0 ∧ t.wheel.badRun = 0 ∧ t.pred.tk = stamp ∧
    t.pred.th16 = theta16 s.wheel.cfg t.wheel.half 0 (gAct s 0) ∧ t.chan = s.chan ∧ t.store = s.store ∧ t.mbox = s.mbox ∧ t.pending = s.pending) ∧
  (∀ stamp s, wheelLive s = true → isNative s = true → crankPasses stamp s = true → s.sys.coarse = false → s.wheel.pulse = none → s.wheel.dirPulse = false →
    s.wheel.st = .sync → s.wheel.bare = false → s.wheel.polNext = none → s.wheel.pos = lastPos s.wheel.cfg →
    s.wheel.pol.badlo * s.pred.ppred ≤ 20 * tbSince s.pred.tk stamp → 300000 * (s.wheel.cfg.m + 1) ≤ tbSince s.pred.tk stamp * s.wheel.cfg.n →
    10 * tbSince s.pred.tk stamp < 7 * (s.wheel.cfg.m + 1) * s.wheel.lastP → ∃ t, exec (.crankToothEdge stamp) s = .next t ∧ t.wheel.st = .nosync ∧
    t.wheel.dir = true ∧ waits t 6 0 0 ∧ waits t 5 0 0x35 ∧ t.wheel.cfg = s.wheel.cfg ∧ t.chan = s.chan ∧ t.store = s.store ∧ t.mbox = s.mbox ∧ t.pending = s.pending) ∧
  (∀ stamp s, wheelLive s = true → isNative s = true → crankPasses stamp s = true → s.sys.coarse = false → s.wheel.pulse = none → s.wheel.dirPulse = false →
    s.wheel.st = .sync → s.wheel.bare = false → s.wheel.stallF = false → s.wheel.polNext = none → s.wheel.pos < lastPos s.wheel.cfg →
    s.wheel.pol.badlo * s.pred.ppred ≤ 20 * tbSince s.pred.tk stamp →
    300000 ≤ tbSince s.pred.tk stamp * s.wheel.cfg.n → ∃ t, exec (.crankToothEdge stamp) s = .next t ∧ t.wheel.st = .sync ∧
    t.wheel.pos = s.wheel.pos + 1 ∧ t.wheel.half = s.wheel.half ∧ t.wheel.badRun = 0 ∧ t.predPrev = s.pred ∧ t.pred.tk = stamp ∧
    t.pred.th16 = theta16 s.wheel.cfg s.wheel.half (s.wheel.pos + 1) (gAct s (s.wheel.pos + 1)) ∧
    t.pred.uk = pace (tbSince s.pred.tk stamp) (u23 (16 * spacing s.wheel.cfg + gAct s (s.wheel.pos + 1) - gAct s s.wheel.pos)) ∧
    t.spd = some t.pred.uk ∧ t.chan = s.chan ∧ t.sched.slots = s.sched.slots ∧ t.store = s.store ∧ t.mbox = s.mbox ∧ t.pending = s.pending) ∧
  (∀ stamp s, wheelLive s = true → isNative s = true → crankPasses stamp s = true → s.sys.coarse = false → s.wheel.pulse = none → s.wheel.dirPulse = false →
    s.wheel.st = .sync → s.wheel.bare = false → s.wheel.polNext = none → s.wheel.pos < lastPos s.wheel.cfg → s.wheel.pol.badlo * s.pred.ppred ≤ 20 * tbSince s.pred.tk stamp →
    tbSince s.pred.tk stamp * s.wheel.cfg.n < 300000 → ∃ t, exec (.crankToothEdge stamp) s = .next t ∧ t.wheel.st = .nosync ∧ waits t 1 0 0 ∧
    waits t 5 0 0x3B ∧ bit t.bus.intstat 1 = true ∧ t.wheel.stallFrom = some stamp ∧ t.wheel.cfg = s.wheel.cfg ∧ t.chan = s.chan ∧ t.store = s.store ∧
    t.mbox = s.mbox ∧ t.pending = s.pending) ∧
  (∀ stamp s, wheelLive s = true → isNative s = true → crankPasses stamp s = true → s.sys.coarse = false → s.wheel.pulse = none → s.wheel.dirPulse = false →
    s.wheel.st = .sync → s.wheel.bare = false → s.wheel.polNext = none → s.wheel.badRun = 0 → 20 * tbSince s.pred.tk stamp < s.wheel.pol.badlo * s.pred.ppred →
    ∃ t, exec (.crankToothEdge stamp) s = .next t ∧ t.wheel.st = .sync ∧ t.wheel.pos = s.wheel.pos ∧ t.wheel.badRun = 1 ∧
    waits t 0 0 (w16 (nextPos s.wheel.cfg s.wheel.pos)) ∧ { quietly s t with wheel := s.wheel, pins := s.pins, geom := s.geom } = s)

/-- The late deadline. The first missing tooth in SYNC is replaced by a synthetic one at its predicted instant, with source 0; a
second bad tooth loses the position with sources 0 and 5; before the deadline the row changes nothing (R40, R41, R46, R71). -/
def Obligations.LateTeeth : Prop :=
  (∀ s, dueLate s = false → exec .lateToothDeadline s = .next s) ∧
  (∀ s, dueLate s = true → isNative s = true → s.wheel.st = .sync → s.wheel.badRun = 0 → s.wheel.syncnt < s.wheel.pol.syncap → s.emit.run = false →
    s.wheel.pos < lastPos s.wheel.cfg → ∃ t, exec .lateToothDeadline s = .next t ∧ t.wheel.st = .sync ∧ t.wheel.pos = s.wheel.pos + 1 ∧
    t.wheel.half = s.wheel.half ∧ t.wheel.syncnt = s.wheel.syncnt + 1 ∧ t.wheel.badRun = 1 ∧ t.pred.syn = true ∧
    t.pred.tk = s.pred.tk + BitVec.ofNat 48 s.pred.ppred ∧ t.pred.uk = pace s.pred.ppred s.pred.nA ∧ t.predPrev = s.pred ∧
    waits t 0 0 (w16 (s.wheel.pos + 1)) ∧ t.chan = s.chan ∧ t.sched = s.sched ∧ t.store = s.store ∧ t.mbox = s.mbox ∧ t.pending = s.pending) ∧
  (∀ s, dueLate s = true → isNative s = true → s.wheel.st = .sync → 1 ≤ s.wheel.badRun → ∃ t, exec .lateToothDeadline s = .next t ∧
    t.wheel.st = .nosync ∧ waits t 0 0 (w16 (nextPos s.wheel.cfg s.wheel.pos)) ∧ waits t 5 0 0x34 ∧ t.wheel.cfg = s.wheel.cfg ∧ t.chan = s.chan ∧
    t.store = s.store ∧ t.mbox = s.mbox ∧ t.pending = s.pending)

/-- The width of a direction-coded pulse: a forward code in SYNC ends the measurement and nothing else, a reverse code sets DIR,
raises source 6 and enters REVERSE; an edge while no pulse is open, or without direction coding, moves only the pin (R43, R44, R46,
R52). The stall timeout sets STALL, and takes SYNC to NOSYNC with source 5 (R46, R50); in LIMP a missing sync-cam edge raises source 2
and enters NOSYNC (R46, R51). A row whose time has not come changes nothing. -/
def Obligations.DirectionAndTimeouts : Prop :=
  (∀ stamp s, crankPasses stamp s = true → wheelLive s = false ∨ s.wheel.dirPulse = false ∨ s.wheel.pulse = none →
    exec (.directionCodeEdge stamp) s = .next { s with pins := { s.pins with crank := s.pins.crank.put s.wheel.cfg.edge stamp } }) ∧
  (∀ stamp open_ per s, wheelLive s = true → crankPasses stamp s = true → s.wheel.dirPulse = true → s.wheel.pulse = some (open_, per) → s.wheel.st = .sync →
    decide (s.wheel.thresh ≤ tbSince open_ stamp) = s.wheel.sense → exec (.directionCodeEdge stamp) s =
    .next { s with pins := { s.pins with crank := s.pins.crank.put s.wheel.cfg.edge stamp }, wheel := { s.wheel with pulse := none } }) ∧
  (∀ stamp open_ per s, wheelLive s = true → isNative s = true → crankPasses stamp s = true → s.wheel.dirPulse = true → s.wheel.pulse = some (open_, per) →
    s.wheel.st = .sync → decide (s.wheel.thresh ≤ tbSince open_ stamp) = !s.wheel.sense → ∃ t, exec (.directionCodeEdge stamp) s = .next t ∧
    t.wheel.st = .reverse ∧ t.wheel.dir = true ∧ t.wheel.pulse = none ∧ t.wheel.pos = s.wheel.pos ∧ t.wheel.half = s.wheel.half ∧ waits t 6 0 0 ∧
    bit t.bus.intstat 1 = true ∧ t.pred = s.pred ∧ t.chan = s.chan ∧ t.store = s.store ∧ t.mbox = s.mbox ∧ t.pending = s.pending) ∧
  (∀ s, dueStall s = true → s.wheel.st = .nosync → s.wheel.pol.limpen = false → exec .stallTimeout s = .next { s with wheel := { s.wheel with stallF := true } }) ∧
  (∀ s, dueStall s = true → isNative s = true → s.wheel.st = .sync → ∃ t, exec .stallTimeout s = .next t ∧ t.wheel.st = .nosync ∧
    t.wheel.stallF = true ∧ waits t 5 0 0x39 ∧ bit t.bus.intstat 1 = true ∧ t.wheel.cfg = s.wheel.cfg ∧ t.chan = s.chan ∧ t.store = s.store ∧
    t.pending = s.pending) ∧
  (∀ s, dueStall s = false → exec .stallTimeout s = .next s) ∧
  (∀ s, dueLimp s = true → isNative s = true → ∃ t, exec .limpCamTimeout s = .next t ∧ t.wheel.st = .nosync ∧ waits t 2 0 0 ∧ waits t 5 0 0x47 ∧
    t.wheel.cfg = s.wheel.cfg ∧ t.chan = s.chan ∧ t.store = s.store ∧ t.pending = s.pending) ∧
  (∀ s, dueLimp s = false → exec .limpCamTimeout s = .next s)

/-- Edges of the cams: a transition that has not yet stood for FILTER cycles waits in the glitch filter, and an edge of a cam that is
not enabled moves only its pin (R33). An edge of the sync cam in GAP that exactly one candidate half explains enters CONFIRM (R35,
R48); the half that it gets, that of the last tooth as against the edge's own half, is the model's choice (DEDUCED, log 16). One in SYNC that matches no programmed edge raises source 2 and with CAMLOSS 0 keeps the state
(R42, R46). The close of a window of the sync cam forgets its match; without one it raises source 2, which with CAMLOSS 1 loses the
position (R42, R46); a window that does not close changes nothing. -/
def Obligations.CamEdges : Prop :=
  (∀ c rise stamp s, s.emit.run = false → captureOn s = false → s.pins.camWait[c] = none → 2 * tbSince stamp s.clk.tb < filterLen s →
    exec (.camEdge c rise stamp) s = .next { s with pins := { s.pins with cam := vupd s.pins.cam c (PinIn.put rise stamp), camWait := vupd s.pins.camWait c fun _ => some (rise, stamp) } }) ∧
  (∀ c rise stamp s, camPasses c stamp s = true → s.cams[c].en = false → exec (.camEdge c rise stamp) s =
    .next { s with pins := { s.pins with cam := vupd s.pins.cam c (PinIn.put rise stamp) } }) ∧
  (∀ c rise stamp s, wheelLive s = true → isNative s = true → camPasses c stamp s = true → s.sys.coarse = false → s.cams[c].en = true → s.cams[c].sync = true →
    s.cams[c].uses rise = true → bit s.cpc.cams[c].cfg 0 = false → s.wheel.st = .gap → s.wheel.cfg.two = false → s.wheel.pol.gapverify = false →
    matchesAny 737280 s.cams[c] rise (camAngle s (16 * 368640) stamp) = true →
    matchesAny 737280 s.cams[c] rise (camAngle s (16 * 368640) stamp + 368640) = false → ∃ t, exec (.camEdge c rise stamp) s = .next t ∧
    t.wheel.st = .confirm ∧ t.wheel.pos = s.wheel.pos ∧ t.wheel.confcnt = 0 ∧
    t.wheel.half = (if cycDist 737280 (camAngle s (16 * 368640) stamp % 737280) (theta16 s.wheel.cfg 0 s.wheel.pos (gAct s s.wheel.pos) / 16) < 184320 then 0 else 1) ∧
    t.pred.th16 = theta16 s.wheel.cfg t.wheel.half s.wheel.pos (gAct s s.wheel.pos) ∧ t.chan = s.chan ∧ t.store = s.store ∧ t.mbox = s.mbox ∧
    t.pending = s.pending) ∧
  (∀ c rise stamp s, wheelLive s = true → isNative s = true → camPasses c stamp s = true → s.sys.coarse = false → s.cams[c].en = true → s.cams[c].sync = true →
    s.cams[c].uses rise = true → bit s.cpc.cams[c].cfg 0 = false → s.wheel.st = .sync → s.wheel.pol.camloss = false →
    matchesAny (cycC s.wheel.cfg) s.cams[c] rise (camAngle s (cyc16 s.wheel.cfg) stamp) = false → ∃ t, exec (.camEdge c rise stamp) s = .next t ∧
    t.wheel = s.wheel ∧ waits t 2 0 0 ∧ { quietly s t with pins := s.pins } = s) ∧
  (∀ i s, dueClose s i = true → s.wheel.winHit[i] = true → ∃ t, exec (.camWindowClose i) s = .next t ∧ t.wheel.winHit[i] = false ∧
    t.wheel.winShut[i] = some s.clk.tb ∧ { t with wheel := { t.wheel with winHit := s.wheel.winHit, winShut := s.wheel.winShut } } = s) ∧
  (∀ i s, dueClose s i = true → s.wheel.winHit[i] = false → s.wheel.pol.camloss = false → ∃ t, exec (.camWindowClose i) s = .next t ∧
    t.wheel.st = s.wheel.st ∧ waits t 2 0 0 ∧ { quietly s t with wheel := { t.wheel with winHit := s.wheel.winHit, winShut := s.wheel.winShut } } = s) ∧
  (∀ i s, dueClose s i = true → s.wheel.winHit[i] = false → s.wheel.pol.camloss = true → ∃ t, exec (.camWindowClose i) s = .next t ∧
    t.wheel.st = .nosync ∧ waits t 2 0 0 ∧ t.chan = s.chan ∧ t.store = s.store ∧ t.pending = s.pending) ∧
  (∀ i s, dueClose s i = false → exec (.camWindowClose i) s = .next s)

/-- WHEEL_SET puts the wheel of its arguments into force in NOSYNC, and is refused with the number of its first check that fails,
or with BADARG; CAM_SET stages one edge, and its header with APPLY 1 puts the staged pattern into force (R60 to R62, R441). -/
def Obligations.WheelCommands : Prop :=
  (∀ a s, mboxFree s = true → admitted 0x08 a s = true → wheelArgsOk a = true → 368640 % (wheelOf a).n = 0 → 6 + (wheelOf a).m ≤ (wheelOf a).n →
    (wheelOf a).two = s.wheel.cfg.two ∨ strokeFree s = true → ∃ t, exec (.wheelSet a) s = .next t ∧ answered t 0 0 0 ∧ t.wheel.cfg = wheelOf a ∧
    t.wheel.cfgd = true ∧ t.wheel.st = .nosync ∧ t.wheel.periods = [] ∧ t.wheel.tPrev = none ∧ t.chan = s.chan ∧ t.tim = s.tim ∧ t.pending = s.pending) ∧
  (∀ a s, mboxFree s = true → admitted 0x08 a s = true → wheelArgsOk a = true → 368640 % (wheelOf a).n ≠ 0 → ∃ t, exec (.wheelSet a) s = .next t ∧
    answered t 0x17 1 0 ∧ { t with mbox := s.mbox, bus := s.bus } = s) ∧
  (∀ a s, mboxFree s = true → admitted 0x08 a s = true → wheelArgsOk a = true → 368640 % (wheelOf a).n = 0 → 6 + (wheelOf a).m ≤ (wheelOf a).n →
    (wheelOf a).two ≠ s.wheel.cfg.two → strokeFree s = false → ∃ t, exec (.wheelSet a) s = .next t ∧ answered t 0x17 3 0 ∧
    { t with mbox := s.mbox, bus := s.bus } = s) ∧
  (∀ a s, mboxFree s = true → admitted 0x08 a s = true → wheelArgsOk a = false → ∃ t, exec (.wheelSet a) s = .next t ∧ answered t 0x16 0 0 ∧
    { t with mbox := s.mbox, bus := s.bus } = s) ∧
  (∀ a s, mboxFree s = true → admitted 0x09 a s = true → bit a.a0 15 = false → within a.a0 0x7F = true → within a.a2 0xF = true →
    a.a1.toNat + 65536 * a.a2.toNat < cycC s.wheel.cfg → ∃ t, exec (.camSetEdge a) s = .next t ∧ answered t 0 0 0 ∧
    t.cams = vupd s.cams (camNo (fld a.a0 0 2)) (fun x => { x with staged := vput x.staged (fld a.a0 2 4) (some ⟨bit a.a0 6, a.a1.toNat + 65536 * a.a2.toNat⟩) }) ∧
    { t with mbox := s.mbox, bus := s.bus, cams := s.cams } = s) ∧
  (∀ a s, mboxFree s = true → admitted 0x09 a s = true → bit a.a0 15 = true → bit a.a0 10 = false → within a.a0 0x87FF = true → fld a.a0 3 2 ≠ 3 →
    1 ≤ a.a1.toNat → a.a1.toNat ≤ 90 → (camChecks a s).all id = true → ∃ t, exec (.camSetHeader a) s = .next t ∧ answered t 0 0 0 ∧
    { t with mbox := s.mbox, bus := s.bus } = s) ∧
  (∀ a s, mboxFree s = true → admitted 0x09 a s = true → bit a.a0 15 = true → bit a.a0 10 = true → within a.a0 0x87FF = true → fld a.a0 3 2 ≠ 3 →
    1 ≤ a.a1.toNat → a.a1.toNat ≤ 90 → (camChecks a s).all id = true → ∃ t, exec (.camSetHeader a) s = .next t ∧ answered t 0 0 0 ∧
    t.cams = vupd s.cams (camNo (fld a.a0 0 2)) (fun x => camOf a ((stagedEdges x (fld a.a0 6 4 + 1)).getD []) x) ∧
    (bit a.a0 5 = true → t.wheel.st = .nosync) ∧ t.chan = s.chan ∧ t.store = s.store ∧ t.pending = s.pending)

/-- SYNC_POLICY waits for the next crank tooth edge, and DIR_SET acts in NOSYNC; that it discards an open pulse is the model's choice
(DESIGN CHOICE, log 33). LEARN_CTL takes its fields,
clears the sums, flattens the shadow and the largest residuals as asked (R63, R64, R83). -/
def Obligations.DecoderCommands : Prop :=
  (∀ a s, mboxFree s = true → admitted 0x0A a s = true → policyArgsOk a = true → (policyOf a).limpen = false → s.wheel.st ≠ .limp →
    ∃ t, exec (.syncPolicy a) s = .next t ∧ answered t 0 0 0 ∧ t.wheel = { s.wheel with polNext := some (policyOf a), args := { s.wheel.args with policy := a } } ∧
    { t with mbox := s.mbox, bus := s.bus, wheel := s.wheel } = s) ∧
  (∀ a s, mboxFree s = true → admitted 0x0A a s = true → policyArgsOk a = true → (policyOf a).limpen = true → syncCam s = none →
    ∃ t, exec (.syncPolicy a) s = .next t ∧ answered t 0x17 1 0 ∧ { t with mbox := s.mbox, bus := s.bus } = s) ∧
  (∀ a s, mboxFree s = true → admitted 0x0B a s = true → within a.a0 3 = true → a.a1 ≠ 0 → ∃ t, exec (.dirSet a) s = .next t ∧ answered t 0 0 0 ∧
    t.wheel.st = .nosync ∧ t.wheel.dirPulse = bit a.a0 0 ∧ t.wheel.sense = bit a.a0 1 ∧ t.wheel.thresh = a.a1.toNat ∧ t.wheel.pulse = none ∧
    t.wheel.cfg = s.wheel.cfg ∧ t.chan = s.chan ∧ t.store = s.store ∧ t.pending = s.pending) ∧
  (∀ a s, mboxFree s = true → admitted 0x32 a s = true → within a.a0 0xFF1F = true → fld a.a0 0 2 < 3 → fld a.a0 8 8 ≠ 0 → within a.a1 0xFF1F = true →
    fld a.a1 0 5 ≠ 0 → fld a.a1 0 5 ≤ 16 → fld a.a1 8 8 ≠ 0 → within a.a2 0x7FFF = true → a.a2 ≠ 0 → ∃ t, exec (.learnCtl a) s = .next t ∧ answered t 0 0 0 ∧
    t.geom.learn.mode = fld a.a0 0 2 ∧ t.geom.learn.cycles = fld a.a0 8 8 ∧ t.geom.learn.blend = fld a.a1 0 5 ∧ t.geom.learn.steady = fld a.a1 8 8 ∧
    t.geom.learn.resth = a.a2.toNat ∧ t.geom.learn.resrep = bit a.a0 2 ∧ t.geom.learn.counted = 0 ∧ t.geom.learn.sums = Vector.replicate 256 0 ∧
    (∀ p : Fin 256, (t.geom.e[p]).act = (s.geom.e[p]).act ∧ (t.geom.e[p]).shd = (if bit a.a0 3 then 0 else (s.geom.e[p]).shd) ∧
      (t.geom.e[p]).rmax = (if bit a.a0 4 then 0 else (s.geom.e[p]).rmax)) ∧
    { t with mbox := s.mbox, bus := s.bus, wheel := s.wheel, geom := s.geom } = s)

/-! ### Event slots and reports -/

/-- GO of an accepted slot copies its staged words and waits for the reference it takes, held when firing is not permitted or while
it was held before; late at once without LATEDROP it is armed four ticks ahead, in the tick of its GO (DEDUCED, log 15); over an armed occurrence the words wait. A refused GO
leaves LAST 6, source 8 and a REFUSE record with the first reason, and in the safe state every GO is refused with reason 7. CANCEL
of a slot that is pending, or armed with a beginning action, retires it with a CANCEL record, which a full report FIFO loses and
counts; an armed END or CLEAR stays armed and loses only what waited behind it; CANCEL of a slot that is empty or retired, or in the
safe state, only stages its word. With FCLK stopped neither does anything, and in a phase of the boot that has no window
each only moves WINADR; a write that the protection image masks raises source 45. The record of the row comes behind those of its tick,
where R112 does not put it before one of them; WINSEL and WINADR stand behind the slot's word 4 (R95 to R99, R111, R112, R117, R389,
R419). -/
def Obligations.SlotCommands : Prop :=
  (∀ (i : Fin 64) w s, hostBus s = true → winOpen s 1 = true → slotWritable s i.val = true → bit w 1 = false →
    refuseReason s { s.sched.slots[i].staged with ctl2 := w &&& 0x1C } = 0 → s.sched.slots[i].st ≠ .armed →
    takeRef s { s.sched.slots[i].staged with ctl2 := w &&& 0x1C } ≠ .late → ∃ t, exec (.slotGo i w) s = .next t ∧
    t.sched.slots[i] = { s.sched.slots[i] with staged := { s.sched.slots[i].staged with ctl2 := w &&& 0x1C }, live := { s.sched.slots[i].staged with ctl2 := w &&& 0x1C }, st := .pending, hold := (s.sched.slots[i].st == .pending && s.sched.slots[i].hold) || !permitted s { s.sched.slots[i].staged with ctl2 := w &&& 0x1C }, ref := takeRef s { s.sched.slots[i].staged with ctl2 := w &&& 0x1C } } ∧
    wordDone 1 (8 * i.val + 4) t = true ∧ { besidePointer s t with sched := s.sched, rpt := s.rpt, bus := { (besidePointer s t).bus with intstat := s.bus.intstat, fresh := s.bus.fresh, freshAt := s.bus.freshAt } } = s) ∧
  (∀ (i : Fin 64) w s, hostBus s = true → winOpen s 1 = true → slotWritable s i.val = true → bit w 1 = false → bit w 3 = false →
    refuseReason s { s.sched.slots[i].staged with ctl2 := w &&& 0x1C } = 0 → s.sched.slots[i].st = .retired → takeRef s { s.sched.slots[i].staged with ctl2 := w &&& 0x1C } = .late → permitted s { s.sched.slots[i].staged with ctl2 := w &&& 0x1C } = true →
    (∀ k : Fin 13, sepOthers s i k.val = []) → ∃ t, exec (.slotGo i w) s = .next t ∧
    t.sched.slots[i].st = .armed ∧ t.sched.slots[i].live = { s.sched.slots[i].staged with ctl2 := w &&& 0x1C } ∧ t.sched.slots[i].late = true ∧ t.sched.slots[i].atb = s.clk.tb + 4 ∧
    wordDone 1 (8 * i.val + 4) t = true ∧ { besidePointer s t with sched := s.sched, rpt := s.rpt, bus := { (besidePointer s t).bus with intstat := s.bus.intstat, fresh := s.bus.fresh, freshAt := s.bus.freshAt } } = s) ∧
  (∀ (i : Fin 64) w s, hostBus s = true → winOpen s 1 = true → slotWritable s i.val = true → bit w 1 = false →
    refuseReason s { s.sched.slots[i].staged with ctl2 := w &&& 0x1C } = 0 → s.sched.slots[i].st = .armed → ∃ t, exec (.slotGo i w) s = .next t ∧
    t.sched.slots = vupd s.sched.slots i (fun x => { x with staged := { x.staged with ctl2 := w &&& 0x1C }, waiting := some { x.staged with ctl2 := w &&& 0x1C } }) ∧
    wordDone 1 (8 * i.val + 4) t = true ∧ { besidePointer s t with sched := { t.sched with slots := s.sched.slots } } = s) ∧
  (∀ (i : Fin 64) w s, hostBus s = true → winOpen s 1 = true → slotWritable s i.val = true → bit w 1 = false →
    refuseReason s { s.sched.slots[i].staged with ctl2 := w &&& 0x1C } ≠ 0 →
    laterRecs (recRank 5 i.val (refuseReason s { s.sched.slots[i].staged with ctl2 := w &&& 0x1C })) s = 0 → s.rpt.fifo.length < 128 → ∃ t, exec (.slotGo i w) s = .next t ∧
    (s.flt.safe = true → refuseReason s { s.sched.slots[i].staged with ctl2 := w &&& 0x1C } = 7) ∧
    t.sched.slots = vupd s.sched.slots i (fun x => { x with staged := { x.staged with ctl2 := w &&& 0x1C }, last := 6 }) ∧
    waits t 8 0 (w16 (i.val + 256 * refuseReason s { s.sched.slots[i].staged with ctl2 := w &&& 0x1C })) ∧
    t.rpt.fifo = s.rpt.fifo ++ [⟨w16 (5 + 16 * i.val + 1024 * refuseReason s { s.sched.slots[i].staged with ctl2 := w &&& 0x1C }), s.sched.seq, s.sched.slots[i].staged.ctl1, s.sched.slots[i].staged.param⟩] ∧
    t.sched.seq = s.sched.seq + 1 ∧ wordDone 1 (8 * i.val + 4) t = true ∧ { besidePointer s (quietly s t) with sched := s.sched, rpt := s.rpt } = s) ∧
  (∀ (i : Fin 64) w s, hostBus s = true → winOpen s 1 = true → slotWritable s i.val = true → s.flt.safe = false → s.sched.slots[i].st = .pending → laterRecs (recRank 4 i.val 3) s = 0 → s.rpt.fifo.length < 128 →
    ∃ t, exec (.slotCancel i w) s = .next t ∧ t.sched.slots[i].st = .retired ∧ t.sched.slots[i].last = 3 ∧ t.sched.slots[i].waiting = none ∧
    t.rpt.fifo = s.rpt.fifo ++ [⟨w16 (4 + 16 * i.val + 1024 * 3), s.sched.seq, s.sched.slots[i].live.angl, w16 (fld s.sched.slots[i].live.ctl1 0 4)⟩] ∧
    bit t.bus.intstat 0 = true ∧ wordDone 1 (8 * i.val + 4) t = true ∧ { besidePointer s (quietly s t) with sched := s.sched, rpt := s.rpt } = s) ∧
  (∀ (i : Fin 64) w s, hostBus s = true → winOpen s 1 = true → slotWritable s i.val = true → s.flt.safe = false → s.sched.slots[i].st = .armed →
    s.sched.slots[i].live.begins = true → laterRecs (recRank 4 i.val (11 + b2n (bit s.sched.slots[i].cyc 0) 5)) s = 0 → s.rpt.fifo.length < 128 → ∃ t, exec (.slotCancel i w) s = .next t ∧ t.sched.slots[i].st = .retired ∧
    t.sched.slots[i].last = 3 ∧ t.sched.slots[i].waiting = none ∧
    t.rpt.fifo = s.rpt.fifo ++ [⟨w16 (4 + 16 * i.val + 1024 * (11 + b2n (bit s.sched.slots[i].cyc 0) 5)), s.sched.seq, s.sched.slots[i].live.angl, w16 (fld s.sched.slots[i].live.ctl1 0 4)⟩] ∧
    bit t.bus.intstat 0 = true ∧ wordDone 1 (8 * i.val + 4) t = true ∧ { besidePointer s (quietly s t) with sched := s.sched, rpt := s.rpt } = s) ∧
  (∀ (i : Fin 64) w s, hostBus s = true → winOpen s 1 = true → slotWritable s i.val = true → s.flt.safe = false → s.sched.slots[i].st = .armed →
    s.sched.slots[i].live.begins = false → ∃ t, exec (.slotCancel i w) s = .next t ∧
    t.sched.slots = vupd s.sched.slots i (fun x => { x with staged := { x.staged with ctl2 := w &&& 0x1C }, waiting := none }) ∧
    wordDone 1 (8 * i.val + 4) t = true ∧ { besidePointer s t with sched := { t.sched with slots := s.sched.slots } } = s) ∧
  (∀ (i : Fin 64) w s, hostBus s = true → winOpen s 1 = true → slotWritable s i.val = true → s.flt.safe = false → s.sched.slots[i].st = .pending → laterRecs (recRank 4 i.val 3) s = 0 → 128 ≤ s.rpt.fifo.length →
    ∃ t, exec (.slotCancel i w) s = .next t ∧ t.sched.slots[i].st = .retired ∧ t.rpt.fifo = s.rpt.fifo ∧
    t.rpt.lost = (if s.rpt.lost < 63 then s.rpt.lost + 1 else 63) ∧
    t.sched.seq = s.sched.seq + 1 ∧ wordDone 1 (8 * i.val + 4) t = true ∧ { besidePointer s t with sched := s.sched, rpt := s.rpt } = s) ∧
  (∀ (i : Fin 64) w s, hostBus s = true → winOpen s 1 = true → slotWritable s i.val = true →
    s.flt.safe = true ∨ s.sched.slots[i].st = .empty ∨ s.sched.slots[i].st = .retired → ∃ t, exec (.slotCancel i w) s = .next t ∧
    t.sched.slots = vupd s.sched.slots i (fun x => { x with staged := { x.staged with ctl2 := w &&& 0x1C } }) ∧
    wordDone 1 (8 * i.val + 4) t = true ∧ { besidePointer s t with sched := { t.sched with slots := s.sched.slots } } = s) ∧
  (∀ (i : Fin 64) w s, hostBus s = true → busUp s = false → exec (.slotGo i w) s = .next s ∧ exec (.slotCancel i w) s = .next s) ∧
  (∀ (i : Fin 64) w s, hostBus s = true → busUp s = true → winOpen s 1 = false → ∃ t, exec (.slotGo i w) s = .next t ∧
    exec (.slotCancel i w) s = .next t ∧ wordDone 1 (8 * i.val + 4) t = true ∧ besidePointer s t = s) ∧
  (∀ (i : Fin 64) w s, hostBus s = true → winOpen s 1 = true → slotWritable s i.val = false → ∃ t, exec (.slotGo i w) s = .next t ∧
    exec (.slotCancel i w) s = .next t ∧ waits t 45 0 (w16 (1 + 256 * i.val)) ∧ wordDone 1 (8 * i.val + 4) t = true ∧ besidePointer s (quietly s t) = s)

/-- The evaluation of a pending slot arms it when the commit test gives a TB value, and keeps its distance otherwise; an armed slot fires
when TB reaches its value: MARK writes a FIRE record with its PARAM and retires, SET raises its timed channel. A cycle start counts
CYC and writes a CYCLE record, which R112 puts before a record of its tick that is its FIRE; the end of a PULSE takes its channel LOW (R94, R100, R101, R105 to R108, R110, R112, R114, R161). -/
def Obligations.SlotEvents : Prop :=
  (∀ (i : Fin 64) a l d s, dueEval s i = true → s.sched.slots[i].ref = .wait d → distC s s.sched.slots[i].live.target ≤ d + cyc16 s.wheel.cfg / 2 →
    commitTest s s.sched.slots[i].live = some (a, l) → (∀ k : Fin 13, sepOthers s i k.val = []) → ∃ t, exec (.slotEvaluation i) s = .next t ∧
    t.sched.slots[i].st = .armed ∧ t.sched.slots[i].atb = a ∧ t.sched.slots[i].late = l ∧ t.sched.slots[i].shift = false ∧
    t.sched.slots[i].live = s.sched.slots[i].live ∧ { t with sched := s.sched } = s) ∧
  (∀ (i : Fin 64) d s, dueEval s i = true → s.sched.slots[i].ref = .wait d → distC s s.sched.slots[i].live.target ≤ d + cyc16 s.wheel.cfg / 2 →
    commitTest s s.sched.slots[i].live = none → ∃ t, exec (.slotEvaluation i) s = .next t ∧
    t.sched.slots = vupd s.sched.slots i (fun x => { x with ref := .wait (distC s x.live.target) }) ∧ { t with sched := s.sched } = s) ∧
  (∀ (i : Fin 64) s, dueEval s i = false → exec (.slotEvaluation i) s = .next s) ∧
  (∀ (i : Fin 64) s, dueFire s i = true → s.sched.slots[i].live.act = 7 → s.sched.slots[i].waiting = none → s.sched.slots[i].live.rep = false →
    s.sched.slots[i].live.noRep = false →
    laterRecs (recRank 1 i.val (b2n s.sched.slots[i].shift 1 + b2n (bit s.sched.slots[i].cyc 0) 5)) s = 0 → s.rpt.fifo.length < 128 → s.sched.slots[i].atb = s.clk.tb → s.sched.slots[i].late = false →
    ∃ t, exec (.slotFire i) s = .next t ∧ t.sched.slots[i].st = .retired ∧ t.sched.slots[i].last = 1 ∧
    t.rpt.fifo = s.rpt.fifo ++ [⟨w16 (1 + 16 * i.val + 1024 * (b2n s.sched.slots[i].shift 1 + b2n (bit s.sched.slots[i].cyc 0) 5)), s.sched.seq, s.sched.slots[i].live.param, tbLo s.clk.tb⟩] ∧
    { t with sched := s.sched, rpt := s.rpt, bus := s.bus } = s) ∧
  (∀ (i : Fin 64) (n : Fin 12) s, dueFire s i = true → s.sched.slots[i].live.act = 3 → s.sched.slots[i].live.chan = n.val → s.sched.slots[i].waiting = none →
    s.sched.slots[i].live.rep = false → s.sys.oe = true → s.dbg.ptest = false → blkOn s .chan = true → paired s n.val = false → s.diag.test = none →
    s.chan[n].cfg.mode = 1 → s.chan[n].st = .low → s.chan[n].drv = false → s.chan[n].own = false → s.chan[n].cont = false → groupLatched s n = false → ∃ t, exec (.slotFire i) s = .next t ∧
    t.chan[n].st = .high ∧ t.chan[n].drv = true ∧ t.chan[n].pulse.startAt = s.clk.tb ∧ t.chan[n].pulse.maxTicks = imgMaxTicks s n ∧
    (∀ m : Fin 12, m ≠ n → t.chan[m] = s.chan[m]) ∧ t.sched.slots[i].st = .retired ∧ t.sched.slots[i].last = 1 ∧ t.chs = s.chs ∧ t.store = s.store ∧
    t.mbox = s.mbox ∧ t.pending = s.pending) ∧
  (∀ (i : Fin 64) s, dueFire s i = false → exec (.slotFire i) s = .next s) ∧
  (∀ s, dueCycle s = true → effSync s = .sync → laterRecs (recRank 3 0 3) s = 0 → s.rpt.fifo.length < 128 → ∃ t, exec .cycleStart s = .next t ∧ t.sched.cyc = s.sched.cyc + 1 ∧
    t.rpt.fifo = s.rpt.fifo ++ [⟨w16 (3 + 1024 * 3), s.sched.seq, s.sched.cyc + 1, tbLo s.clk.tb⟩] ∧ t.sched.slots = s.sched.slots ∧
    { quietly s t with sched := s.sched, rpt := s.rpt } = s) ∧
  (∀ (r : Quad) (pre : List Quad) s, dueCycle s = true → effSync s = .sync → laterRecs (recRank 3 0 3) s = 1 → s.rpt.fifo = pre ++ [r] → r.w1 = s.sched.seq - 1 →
    s.rpt.fifo.length < 128 → ∃ t, exec .cycleStart s = .next t ∧ t.sched.cyc = s.sched.cyc + 1 ∧ t.sched.seq = s.sched.seq + 1 ∧
    t.rpt.fifo = pre ++ [⟨w16 (3 + 1024 * 3), s.sched.seq - 1, s.sched.cyc + 1, tbLo s.clk.tb⟩, { r with w1 := s.sched.seq }]) ∧
  (∀ s, dueCycle s = false → exec .cycleStart s = .next s) ∧
  (∀ (n : Fin 12) s, duePulseEnd s n = true → ∃ t, exec (.pulseWidthEnd n) s = .next t ∧ t.chan[n].st = .low ∧ t.chan[n].drv = false ∧
    t.sched = s.sched ∧ t.store = s.store ∧ t.mbox = s.mbox ∧ t.pending = s.pending) ∧
  (∀ (n : Fin 12) s, duePulseEnd s n = false → exec (.pulseWidthEnd n) s = .next s)

/-- A read of RPTDAT pops the oldest record when WPTR is 0 and answers its word 0, or 0x0000 when there is none; at WPTR 1 to 3 it
answers that word of the record popped last and WPTR moves on modulo 4. A read of RPTSTAT answers COUNT, WPTR and LOST and clears
LOST, but a drop of the same tick is counted after the clear; RPTSTAT is 0x0000 at reset (R118, R119). -/
def Obligations.ReportReads : Prop :=
  (∀ q rest s, hostBus s = true → busUp s = true → s.rpt.wptr = 0 → s.rpt.fifo = q :: rest → droppedNow s = [] → exec .reportPop s =
    .next { settleSeq q s with rpt := { s.rpt with fifo := rest, held := q, wptr := 1 }, bus := { s.bus with data := q.w0 } }) ∧
  (∀ s, hostBus s = true → busUp s = true → s.rpt.wptr = 0 → s.rpt.fifo = [] → exec .reportPop s = .next { s with bus := { s.bus with data := 0 } }) ∧
  (∀ s, hostBus s = true → busUp s = true → s.rpt.wptr ≠ 0 → exec .reportPop s =
    .next { s with rpt := { s.rpt with wptr := (s.rpt.wptr + 1) % 4 }, bus := { s.bus with data := s.rpt.held.word s.rpt.wptr } }) ∧
  (∀ s, hostBus s = true → busUp s = true → droppedNow s = [] → exec .rptstatRead s =
    .next { s with rpt := { s.rpt with lost := 0, lostWas := 0 }, bus := { s.bus with data := w16 (s.rpt.fifo.length + 256 * s.rpt.wptr + 1024 * s.rpt.lost) } }) ∧
  (∀ s, hostBus s = true → busUp s = true → droppedNow s ≠ [] → ∃ t, exec .rptstatRead s = .next t ∧ t.bus.data = w16 (s.rpt.fifo.length + 256 * s.rpt.wptr + 1024 * s.rpt.lostWas) ∧
    t.rpt = { s.rpt with lost := min 63 (droppedNow s).length, lostWas := 0 } ∧ { t with rpt := s.rpt, bus := { t.bus with data := s.bus.data } } = s) ∧
  (w16 (State.reset.rpt.fifo.length + 256 * State.reset.rpt.wptr + 1024 * State.reset.rpt.lost) = 0x0000) ∧
  (∀ s, hostBus s = true → busUp s = false → exec .reportPop s = .next { s with bus := { s.bus with data := 0 } } ∧ exec .rptstatRead s = .next { s with bus := { s.bus with data := 0 } })

/-! ### Cam phase and sampling -/

/-- A measured cam edge in CONFIRM or SYNC writes one entry: PH is the distance of the edge of its polarity that lies nearest, with the cam, the
index, the polarity and UNM beside it, the stamp, and CYC at the stamp. A matched one moves the average and the comparison, an unmatched
one leaves them; VALID and the count of the matched edges follow (R120, R122, R123, R125, R139). Where coarse edges give
the position, the edge's angle is the one that ANGLE shows (the model's choice, log 16). An edge of the pin moves nothing of the
cam-phase unit while its EN is 0 (R120). -/
def Obligations.CamPhase : Prop :=
  (∀ (c : Fin 4) rise stamp j d d16 s, wheelLive s = true → camPasses c stamp s = true → s.sys.coarse = false → cpsLive s = true → s.flt.safe = false → s.cams[c].en = true →
    s.cams[c].sync = false → s.cams[c].uses rise = true → bit s.cpc.cams[c].cfg 0 = true → effSync s = .confirm ∨ effSync s = .sync → s.cpc.ph.q.length < 32 →
    bareNow s = false → nearest (cyc16 s.wheel.cfg) (edgeAng (cyc16 s.wheel.cfg) (edgePred (effPred s) (effPrev s) stamp) stamp) rise 0 s.cams[c].edges none = some (j, d) →
    d16 = signedMod (cyc16 s.wheel.cfg) (16 * (((s.cams[c].edges[j]?).map (·.angle)).getD 0 : Int) - edgeAng (cyc16 s.wheel.cfg) (edgePred (effPred s) (effPrev s) stamp) stamp) →
    ∃ t, exec (.camEdge c rise stamp) s = .next t ∧
    t.cpc.ph.q = s.cpc.ph.q ++ [⟨i16 (satS 16 (sar (d16 + 128) 8)), w16 (c.val + 4 * j + b2n rise 6 + b2n (decide (16384 * s.cams[c].tol < d16.natAbs)) 7 + b2n t.cpc.cams[c].out 8 + 32768), tbLo stamp, cycOf s stamp⟩] ∧
    t.cpc.cams[c] = (if 16384 * s.cams[c].tol < d16.natAbs then s.cpc.cams[c] else matchEdge (satS 16 (sar (d16 + 128) 8)) s.cpc.cams[c]) ∧
    (d16.natAbs ≤ 16384 * s.cams[c].tol → t.cpc.cams[c].valid = true ∧ t.cpc.cams[c].cnt = satInc s.cpc.cams[c].cnt 255) ∧
    (∀ k : Fin 4, k ≠ c → t.cpc.cams[k] = s.cpc.cams[k]) ∧ t.cpc.wins = s.cpc.wins ∧ t.cpc.cv = s.cpc.cv ∧
    { t with pins := s.pins, cpc := s.cpc, bus := s.bus, free := s.free } = s) ∧
  (∀ (c : Fin 4) rise stamp j d d16 s, wheelLive s = true → camPasses c stamp s = true → s.sys.coarse = false → cpsLive s = true → s.flt.safe = false → s.cams[c].en = true →
    s.cams[c].sync = false → s.cams[c].uses rise = true → bit s.cpc.cams[c].cfg 0 = true → effSync s = .confirm ∨ effSync s = .sync → s.cpc.ph.q.length < 32 →
    bareNow s = true → nearest (cyc16 s.wheel.cfg) (bareAng s (cyc16 s.wheel.cfg) stamp) rise 0 s.cams[c].edges none = some (j, d) →
    d16 = signedMod (cyc16 s.wheel.cfg) (16 * (((s.cams[c].edges[j]?).map (·.angle)).getD 0 : Int) - bareAng s (cyc16 s.wheel.cfg) stamp) →
    ∃ t, exec (.camEdge c rise stamp) s = .next t ∧
    t.cpc.ph.q = s.cpc.ph.q ++ [⟨i16 (satS 16 (sar (d16 + 128) 8)), w16 (c.val + 4 * j + b2n rise 6 + b2n (decide (16384 * s.cams[c].tol < d16.natAbs)) 7 + b2n t.cpc.cams[c].out 8 + 32768), tbLo stamp, cycOf s stamp⟩] ∧
    t.cpc.cams[c] = (if 16384 * s.cams[c].tol < d16.natAbs then s.cpc.cams[c] else matchEdge (satS 16 (sar (d16 + 128) 8)) s.cpc.cams[c]) ∧
    (d16.natAbs ≤ 16384 * s.cams[c].tol → t.cpc.cams[c].valid = true ∧ t.cpc.cams[c].cnt = satInc s.cpc.cams[c].cnt 255) ∧
    (∀ k : Fin 4, k ≠ c → t.cpc.cams[k] = s.cpc.cams[k]) ∧ t.cpc.wins = s.cpc.wins ∧ t.cpc.cv = s.cpc.cv ∧
    { t with pins := s.pins, cpc := s.cpc, bus := s.bus, free := s.free } = s) ∧
  (∀ (c : Fin 4) rise stamp s, wheelLive s = true → camPasses c stamp s = true → s.sys.coarse = false → s.cams[c].sync = false → bit s.cpc.cams[c].cfg 0 = false →
    exec (.camEdge c rise stamp) s = .next { s with pins := { s.pins with cam := vupd s.pins.cam c (PinIn.put rise stamp) } })

/-- Angle windows: a crossing of a_0 in a running window begins a pass with strobe 0; a strobe issues with its stamp, its angle and its
source, at once or delayed while CSTB was busy, and the last one ends the pass, where a waiting copy takes effect; APPLY copies the
staged fields at once when no pass runs or with EN 0, which ends a pass, and waits for the end of the pass otherwise; an invalid copy
sets BAD and changes no live field; a masked write raises source 45, and one while the block is gated off source 46; WINSEL
and WINADR stand behind the window's word 3 (R126 to R130, R330, R389, R419). -/
def Obligations.AngleWindows : Prop :=
  (∀ (w : Fin 8) s, duePass s w = true → ∃ t, exec (.windowPassStart w) s = .next t ∧ t.cpc.wins[w].active = true ∧ t.cpc.wins[w].k = 0 ∧
    t.cpc.wins[w].cross = false ∧ t.cpc.wins[w].trav = (s.sched.nowAngle + cycC s.wheel.cfg - s.cpc.wins[w].live.start % cycC s.wheel.cfg) % cycC s.wheel.cfg ∧
    (0 < s.cpc.wins[w].live.count → t.cpc.wins[w].dueAt.head? = some s.clk.tb) ∧ (∀ v : Fin 8, v ≠ w → t.cpc.wins[v] = s.cpc.wins[v]) ∧
    { t with cpc := { t.cpc with wins := s.cpc.wins } } = s) ∧
  (∀ (w : Fin 8) s, duePass s w = false → exec (.windowPassStart w) s = .next s) ∧
  (∀ (w : Fin 8) s, dueStrobe s w = true → s.cpc.wins[w].k + 1 < s.cpc.wins[w].live.count → ∃ t, exec (.windowStrobe w) s = .next t ∧
    t.cpc.strobes = s.cpc.strobes ++ [⟨s.clk.tb, angle s, w.val, false, bit (cycNow s) 0⟩] ∧ t.cpc.lastStrobe = some s.clk.tb ∧
    t.cpc.wins[w] = { s.cpc.wins[w] with k := s.cpc.wins[w].k + 1, dueAt := s.cpc.wins[w].dueAt.drop 1 } ∧ (∀ v : Fin 8, v ≠ w → t.cpc.wins[v] = s.cpc.wins[v]) ∧
    t.sched.slots = s.sched.slots ∧ t.sched.seq = s.sched.seq ∧ { t with cpc := s.cpc, sched := s.sched } = s) ∧
  (∀ (w : Fin 8) s, dueStrobe s w = true → s.cpc.wins[w].live.count ≤ s.cpc.wins[w].k + 1 → ∃ t, exec (.windowStrobe w) s = .next t ∧
    t.cpc.strobes = s.cpc.strobes ++ [⟨s.clk.tb, angle s, w.val, false, bit (cycNow s) 0⟩] ∧ t.cpc.wins[w].active = false ∧ t.cpc.wins[w].copy = none ∧
    t.cpc.wins[w].live = s.cpc.wins[w].copy.getD s.cpc.wins[w].live ∧ { t with cpc := s.cpc, sched := s.sched } = s) ∧
  (∀ (w : Fin 8) s, dueStrobe s w = false → exec (.windowStrobe w) s = .next s) ∧
  (∀ (w : Fin 8) s, dueDelayed s w = true → ∃ t, exec (.delayedStrobeIssue w) s = .next t ∧
    t.cpc.strobes = s.cpc.strobes ++ [⟨s.clk.tb, angle s, w.val, true, bit (cycNow s) 0⟩] ∧ t.cpc.lastStrobe = some s.clk.tb ∧
    t.cpc.wins[w].k = s.cpc.wins[w].k + 1 ∧ { t with cpc := s.cpc, sched := s.sched } = s) ∧
  (∀ (w : Fin 8) s, dueDelayed s w = false → exec (.delayedStrobeIssue w) s = .next s) ∧
  (∀ (w : Fin 8) v s, hostBus s = true → winOpen s 7 = true → blkOn s .cps = true → cpcWritable s (32 + 8 * w.val + 3) = true →
    s.cpc.wins[w].active = false ∨ (winStaged s.cpc.wins[w] (v ||| 4)).en = false →
    (winStaged s.cpc.wins[w] (v ||| 4)).count ≠ 0 → (winStaged s.cpc.wins[w] (v ||| 4)).start < cycC s.wheel.cfg → (winStaged s.cpc.wins[w] (v ||| 4)).stop < cycC s.wheel.cfg →
    ∃ t, exec (.windowApply w v) s = .next t ∧ t.cpc.wins[w].live = winStaged s.cpc.wins[w] (v ||| 4) ∧ t.cpc.wins[w].bad = false ∧ t.cpc.wins[w].copy = none ∧
    t.cpc.wins[w].active = false ∧ t.cpc.wins[w].w3 = v &&& 3 ∧ (∀ u : Fin 8, u ≠ w → t.cpc.wins[u] = s.cpc.wins[u]) ∧ wordDone 7 (32 + 8 * w.val + 3) t = true ∧ { besidePointer s t with cpc := { t.cpc with wins := s.cpc.wins } } = s) ∧
  (∀ (w : Fin 8) v s, hostBus s = true → winOpen s 7 = true → blkOn s .cps = true → cpcWritable s (32 + 8 * w.val + 3) = true → s.cpc.wins[w].active = true →
    (winStaged s.cpc.wins[w] (v ||| 4)).en = true → (winStaged s.cpc.wins[w] (v ||| 4)).count ≠ 0 →
    (winStaged s.cpc.wins[w] (v ||| 4)).start < cycC s.wheel.cfg → (winStaged s.cpc.wins[w] (v ||| 4)).stop < cycC s.wheel.cfg →
    ∃ t, exec (.windowApply w v) s = .next t ∧ t.cpc.wins[w] = { s.cpc.wins[w] with w3 := v &&& 3, copy := some (winStaged s.cpc.wins[w] (v ||| 4)), bad := false } ∧
    (∀ u : Fin 8, u ≠ w → t.cpc.wins[u] = s.cpc.wins[u]) ∧ wordDone 7 (32 + 8 * w.val + 3) t = true ∧ { besidePointer s t with cpc := { t.cpc with wins := s.cpc.wins } } = s) ∧
  (∀ (w : Fin 8) v s, hostBus s = true → winOpen s 7 = true → blkOn s .cps = true → cpcWritable s (32 + 8 * w.val + 3) = true →
    (winStaged s.cpc.wins[w] (v ||| 4)).count = 0 ∨ cycC s.wheel.cfg ≤ (winStaged s.cpc.wins[w] (v ||| 4)).start ∨ cycC s.wheel.cfg ≤ (winStaged s.cpc.wins[w] (v ||| 4)).stop →
    ∃ t, exec (.windowApply w v) s = .next t ∧ t.cpc.wins[w] = { s.cpc.wins[w] with w3 := v &&& 3, bad := true } ∧ wordDone 7 (32 + 8 * w.val + 3) t = true ∧ { besidePointer s t with cpc := { t.cpc with wins := s.cpc.wins } } = s) ∧
  (∀ (w : Fin 8) v s, hostBus s = true → winOpen s 7 = true → blkOn s .cps = true → cpcWritable s (32 + 8 * w.val + 3) = false → ∃ t, exec (.windowApply w v) s = .next t ∧
    waits t 45 0 0x0702 ∧ wordDone 7 (32 + 8 * w.val + 3) t = true ∧ besidePointer s (quietly s t) = s) ∧
  (∀ (w : Fin 8) v s, hostBus s = true → busUp s = false → exec (.windowApply w v) s = .next s) ∧
  (∀ (w : Fin 8) v s, hostBus s = true → regOpen s 0x2C = true → winOpen s 7 = false → ∃ t, exec (.windowApply w v) s = .next t ∧
    wordDone 7 (32 + 8 * w.val + 3) t = true ∧ besidePointer s t = s) ∧
  (∀ (w : Fin 8) v s, hostBus s = true → winOpen s 7 = true → blkOn s .cps = false → ∃ t, exec (.windowApply w v) s = .next t ∧
    waits t 46 0 0x070A ∧ wordDone 7 (32 + 8 * w.val + 3) t = true ∧ besidePointer s (quietly s t) = s)

/-- Frames of the converter. The receiver takes one only where it begins: after two high samples, while the hunt is on, with a low start
bit (R146). A frame that no strobe claims changes only its line; one that began within 50 ticks of the oldest strobe's claim point writes
that strobe's entry with its result, SEQ, angle and tags; of two strobes that it serves the second gets the same result with ERR 3; a
frame with an error answers 0 with ERR 1 and source 10; a strobe's claim point is that of the CLAT in force at the frame (the
model's choice: DESIGN CHOICE, log 30); a search that ends without a frame answers ERR 2 (R131 to R133, R139). The
pop ports take the oldest entry, or 0 from an empty buffer, and words 1 to 3 are those of the entry taken last; the status words answer
COUNT and LOST and clear LOST; while the block is gated off they answer 0 and raise source 46. WINSEL and WINADR stand behind the
port's word (R135 to R137, R330, R419). -/
def Obligations.ConverterAndBuffers : Prop :=
  (∀ f s, cpsLive s = true → frameBegins f = true → hunting s.clk.fcyc s.cdat = true → (parseFrame (frameOf f)).start = false →
    frameBad (parseFrame (frameOf f)) false = false → s.cpc.strobes = [] → ∃ t, exec (.converterEntry f) s = .next t ∧
    t.cdat.any = true ∧ t.cdat.missing = 0 ∧ { t with cdat := s.cdat } = s) ∧
  (∀ f x s, cpsLive s = true → frameBegins f = true → hunting s.clk.fcyc s.cdat = true → (parseFrame (frameOf f)).start = false →
    frameBad (parseFrame (frameOf f)) false = false → s.cdat.wbrk = false → s.cpc.strobes = [x] →
    tbGe (s.clk.tb - 40) (claimAt s x) = true → tbGe (s.clk.tb - 40) (tbAdd (claimAt s x) 51) = false → laterRecs rankConv s = 0 → s.cpc.cv.q.length < 64 →
    ∃ t, exec (.converterEntry f) s = .next t ∧ t.cpc.strobes = [] ∧
    t.cpc.cv.q = s.cpc.cv.q ++ [⟨(parseFrame (frameOf f)).result, s.sched.seq, w16 x.angle, w16 (x.angle / 65536 + 16 * x.src + b2n x.dly 10 + b2n x.cyc0 11 + 32768)⟩] ∧
    t.sched.seq = s.sched.seq + 1 ∧ t.flt = s.flt ∧ { quietly s t with cdat := s.cdat, cpc := s.cpc, sched := s.sched } = s) ∧
  (∀ f x y s, cpsLive s = true → frameBegins f = true → hunting s.clk.fcyc s.cdat = true → (parseFrame (frameOf f)).start = false →
    frameBad (parseFrame (frameOf f)) false = false → s.cdat.wbrk = false → s.cpc.strobes = [x, y] →
    tbGe (s.clk.tb - 40) (claimAt s x) = true → tbGe (s.clk.tb - 40) (tbAdd (claimAt s x) 51) = false → tbGe (s.clk.tb - 40) (claimAt s y) = true →
    laterRecs rankConv s = 0 → s.cpc.cv.q.length < 63 → ∃ t, exec (.converterEntry f) s = .next t ∧ t.cpc.strobes = [] ∧
    t.cpc.cv.q = s.cpc.cv.q ++ [⟨(parseFrame (frameOf f)).result, s.sched.seq, w16 x.angle, w16 (x.angle / 65536 + 16 * x.src + b2n x.dly 10 + b2n x.cyc0 11 + 32768)⟩, ⟨(parseFrame (frameOf f)).result, s.sched.seq + 1, w16 y.angle, w16 (y.angle / 65536 + 16 * y.src + 768 + b2n y.dly 10 + b2n y.cyc0 11 + 32768)⟩] ∧
    t.flt = s.flt ∧ { quietly s t with cdat := s.cdat, cpc := s.cpc, sched := s.sched } = s) ∧
  (∀ f x s, cpsLive s = true → frameBegins f = true → hunting s.clk.fcyc s.cdat = true → (parseFrame (frameOf f)).start = false →
    frameBad (parseFrame (frameOf f)) false = true → s.cdat.wbrk = false → s.cdat.missing < 2 → s.cpc.strobes = [x] →
    tbGe (s.clk.tb - 40) (claimAt s x) = true → tbGe (s.clk.tb - 40) (tbAdd (claimAt s x) 51) = false → laterRecs rankConv s = 0 → s.cpc.cv.q.length < 64 →
    ∃ t, exec (.converterEntry f) s = .next t ∧ t.cpc.strobes = [] ∧
    t.cpc.cv.q = s.cpc.cv.q ++ [⟨0, s.sched.seq, w16 x.angle, w16 (x.angle / 65536 + 16 * x.src + 256 + b2n x.dly 10 + b2n x.cyc0 11 + 32768)⟩] ∧
    waits t 10 0 1 ∧ bit t.bus.intstat 7 = true ∧ { quietly s t with cdat := s.cdat, cpc := s.cpc, sched := s.sched } = s) ∧
  (∀ f s, cpsLive s = false ∨ frameBegins f = false ∨ hunting s.clk.fcyc s.cdat = false ∨ (parseFrame (frameOf f)).start = true → exec (.converterEntry f) s = .next s) ∧
  (∀ x rest s, s.cpc.strobes = x :: rest → dueSearch s = true → laterRecs rankConv s = 0 → s.cpc.cv.q.length < 64 → ∃ t, exec .converterSearchTimeout s = .next t ∧ t.cpc.strobes = rest ∧
    t.cpc.cv.q = s.cpc.cv.q ++ [⟨0, s.sched.seq, w16 x.angle, w16 (x.angle / 65536 + 16 * x.src + 512 + b2n x.dly 10 + b2n x.cyc0 11 + 32768)⟩] ∧
    waits t 10 0 2 ∧ bit t.bus.intstat 7 = true ∧ { quietly s t with cpc := s.cpc, sched := s.sched } = s) ∧
  (∀ s, dueSearch s = false → exec .converterSearchTimeout s = .next s) ∧
  (∀ q rest s, hostBus s = true → busUp s = true → blkOn s .cps = true → s.cpc.cv.goneNow s.clk.tb = [] → s.cpc.cv.q = q :: rest → exec (.bufferPop true 0) s =
    .next { settleSeq q s with cpc := { s.cpc with cv := { s.cpc.cv with q := rest, held := q } }, bus := { s.bus with data := q.w0, winsel := 7, winadr := 257 } }) ∧
  (∀ q rest s, hostBus s = true → busUp s = true → blkOn s .cps = true → s.cpc.ph.goneNow s.clk.tb = [] → s.cpc.ph.q = q :: rest → exec (.bufferPop false 0) s =
    .next { s with cpc := { s.cpc with ph := { s.cpc.ph with q := rest, held := q } }, bus := { s.bus with data := q.w0, winsel := 7, winadr := 129 } }) ∧
  (∀ s, hostBus s = true → busUp s = true → blkOn s .cps = true → s.cpc.cv.goneNow s.clk.tb = [] → s.cpc.cv.q = [] → exec (.bufferPop true 0) s =
    .next { s with cpc := { s.cpc with cv := { s.cpc.cv with held := {} } }, bus := { s.bus with data := 0, winsel := 7, winadr := 257 } }) ∧
  (∀ s, hostBus s = true → busUp s = true → blkOn s .cps = true → s.cpc.ph.goneNow s.clk.tb = [] → s.cpc.ph.q = [] → exec (.bufferPop false 0) s =
    .next { s with cpc := { s.cpc with ph := { s.cpc.ph with held := {} } }, bus := { s.bus with data := 0, winsel := 7, winadr := 129 } }) ∧
  (∀ (j : Fin 4) s, hostBus s = true → busUp s = true → blkOn s .cps = true → j ≠ 0 → exec (.bufferPop true j) s = .next { s with bus := { s.bus with data := s.cpc.cv.held.word j.val, winsel := 7, winadr := w16 (257 + j.val) } } ∧
    exec (.bufferPop false j) s = .next { s with bus := { s.bus with data := s.cpc.ph.held.word j.val, winsel := 7, winadr := w16 (129 + j.val) } }) ∧
  (∀ s, hostBus s = true → busUp s = true → blkOn s .cps = true → s.cpc.cv.goneNow s.clk.tb = [] → exec (.bufferStatusRead true) s =
    .next { s with cpc := { s.cpc with cv := { s.cpc.cv with lost := 0, lostWas := 0 } }, bus := { s.bus with data := w16 (s.cpc.cv.q.length + 256 * s.cpc.cv.lost), winsel := 7, winadr := 99 } }) ∧
  (∀ s, hostBus s = true → busUp s = true → blkOn s .cps = true → s.cpc.ph.goneNow s.clk.tb = [] → exec (.bufferStatusRead false) s =
    .next { s with cpc := { s.cpc with ph := { s.cpc.ph with lost := 0, lostWas := 0 } }, bus := { s.bus with data := w16 (s.cpc.ph.q.length + 256 * s.cpc.ph.lost), winsel := 7, winadr := 100 } }) ∧
  (∀ conv s, hostBus s = true → busUp s = true → blkOn s .cps = false → ∃ t, exec (.bufferStatusRead conv) s = .next t ∧ waits t 46 0 0x070A ∧
    quietly s t = { s with bus := { s.bus with data := 0, winsel := 7, winadr := if conv then 99 else 100 } })

/-! ### Channels and sense lines -/

/-- Frames and slots of the sense lines. The receiver takes a frame only where it begins: after two high samples, while the hunt is on,
with a low start bit (R146). A valid frame regulates a channel in HOLD with SLEW 0, ends a boost at PEAK, and ends a decay with the
second frame in a row at or below DECTHR; a frame with an error counts in FERR and raises source 11; the third slot in a row without a
valid frame, or a line held at one level, breaks the line, contains its shaped channel and raises source 12, or source 9 on CDAT
(R131, R147, R148, R152, R153, R155, R158, R165). -/
def Obligations.SenseFrames : Prop :=
  (∀ (n : Fin 8) f s, chanLive s = false → exec (.senseFrameComplete n f) s = .next s) ∧
  (∀ (n : Fin 8) f s, chanLive s = true → s.diag.test = none → frameBegins f = false ∨ hunting s.clk.fcyc s.lines[n] = false ∨ (parseFrame (frameOf f)).start = true →
    exec (.senseFrameComplete n f) s = .next { s with pins := { s.pins with sns := vput s.pins.sns n.val true } }) ∧
  (∀ (n : Fin 8) f s, chanLive s = true → s.diag.test = none → paired s n.val = false → frameBegins f = true → hunting s.clk.fcyc s.lines[n] = true → (parseFrame (frameOf f)).start = false → frameBad (parseFrame (frameOf f)) true = false →
    s.lines[n].wbrk = false → s.chan[sh n].st = .hold → s.chan[sh n].pulse.blank = false → s.chan[sh n].cfg.slew = 0 → suspended s.chan[sh n] = false →
    ∃ t, exec (.senseFrameComplete n f) s = .next t ∧ t.chan[sh n].st = .hold ∧ t.chan[sh n].lastI = (parseFrame (frameOf f)).i ∧
    t.chan[sh n].reg.teff = s.chan[sh n].reg.target ∧
    t.chan[sh n].drv = (if s.chan[sh n].reg.target ≤ (parseFrame (frameOf f)).i then false
      else if s.chan[sh n].reg.h ≤ s.chan[sh n].reg.target ∧ (parseFrame (frameOf f)).i ≤ s.chan[sh n].reg.target - s.chan[sh n].reg.h then true else s.chan[sh n].drv) ∧
    t.lines[n].lastI = (parseFrame (frameOf f)).i ∧ t.lines[n].lastDl = (parseFrame (frameOf f)).dl ∧ t.lines[n].missing = 0 ∧ (∀ m : Fin 12, m ≠ sh n → t.chan[m] = s.chan[m]) ∧
    (∀ m : Fin 8, m ≠ n → t.lines[m] = s.lines[m]) ∧ t.sched = s.sched ∧ t.store = s.store ∧ t.mbox = s.mbox ∧ t.pending = s.pending) ∧
  (∀ (n : Fin 8) f s, chanLive s = true → s.diag.test = none → paired s n.val = false → frameBegins f = true → hunting s.clk.fcyc s.lines[n] = true → (parseFrame (frameOf f)).start = false → frameBad (parseFrame (frameOf f)) true = false →
    s.lines[n].wbrk = false → s.chan[sh n].st = .boost → s.chan[sh n].pulse.cPeak ≤ (parseFrame (frameOf f)).i → ∃ t, exec (.senseFrameComplete n f) s = .next t ∧
    t.chan[sh n].st = .dead ∧ t.chan[sh n].drv = false ∧ t.chan[sh n].pulse.exitAt = some s.clk.tb ∧ t.store = s.store ∧ t.mbox = s.mbox ∧ t.pending = s.pending) ∧
  (∀ (n : Fin 8) f s, chanLive s = true → s.diag.test = none → paired s n.val = false → frameBegins f = true → hunting s.clk.fcyc s.lines[n] = true → (parseFrame (frameOf f)).start = false → frameBad (parseFrame (frameOf f)) true = false →
    s.lines[n].wbrk = false → s.chan[sh n].st = .decay → (parseFrame (frameOf f)).i ≤ s.chan[sh n].cfg.decthr → 1 ≤ s.chan[sh n].pulse.decRun →
    ∃ t, exec (.senseFrameComplete n f) s = .next t ∧ t.chan[sh n].st = .idle ∧ t.store = s.store ∧ t.mbox = s.mbox ∧ t.pending = s.pending) ∧
  (∀ (n : Fin 8) f s, chanLive s = true → s.diag.test = none → frameBegins f = true → hunting s.clk.fcyc s.lines[n] = true → (parseFrame (frameOf f)).start = false → frameBad (parseFrame (frameOf f)) true = true →
    s.lines[n].missing = 0 → ∃ t, exec (.senseFrameComplete n f) s = .next t ∧ t.lines[n].missing = 1 ∧ t.lines[n].good = 0 ∧
    t.lines[n].ferr = (if s.lines[n].ferr < 65535 then s.lines[n].ferr + 1 else 65535) ∧ t.lines[n].lastI = s.lines[n].lastI ∧ waits t 11 n.val 0 ∧
    (∀ m : Fin 12, t.chan[m].st = s.chan[m].st ∧ (s.chan[m].gaps = 0 → t.chan[m].drv = s.chan[m].drv)) ∧
    { quietly s t with lines := s.lines, chan := s.chan, therm := s.therm, pins := s.pins } = s) ∧
  (∀ (l : Fin 9) (n : Fin 8) s, l.val = n.val → chanLive s = true → s.diag.test = none → deadlinePassed s s.lines[n] = true → paired s n.val = false →
    s.lines[n].missing = 2 → s.lines[n].wbrk = false → s.chan[sh n].cfg.mode = 2 → s.chan[sh n].st ≠ .off → ∃ t, exec (.senseSlotMissing l) s = .next t ∧
    t.lines[n].wbrk = true ∧ t.lines[n].wbrkAt = s.clk.tb ∧ t.chan[sh n].st = .contained ∧ t.chan[sh n].own = true ∧ waits t 12 n.val 0 ∧
    (s.chan[sh n].st ≠ .contained → t.chan[sh n].drv = false) ∧
    t.sched = s.sched ∧ t.store = s.store ∧ t.mbox = s.mbox ∧ t.pending = s.pending) ∧
  (∀ (l : Fin 9) (n : Fin 8) s, l.val = n.val → deadlinePassed s s.lines[n] = false → exec (.senseSlotMissing l) s = .next s) ∧
  (∀ (l : Fin 9) s, l.val = 8 → liveN s = true → blkOn s .cps = true → deadlinePassed s s.cdat = true → s.cdat.missing = 2 → s.cdat.wbrk = false →
    ∃ t, exec (.senseSlotMissing l) s = .next t ∧ t.cdat.wbrk = true ∧ t.cdat.wbrkAt = s.clk.tb ∧ waits t 9 0 0 ∧ { quietly s t with cdat := s.cdat } = s) ∧
  (∀ (l : Fin 9) (n : Fin 8) high s, l.val = n.val → chanLive s = true → s.diag.test = none → paired s n.val = false → s.lines[n].wbrk = false →
    s.chan[sh n].cfg.mode = 2 → ∃ t, exec (.lineStuckTimeout l high) s = .next t ∧ t.lines[n].wbrk = true ∧ t.chan[sh n].own = true ∧ waits t 12 n.val 0 ∧
    t.pins.sns[n] = high ∧ t.sched = s.sched ∧ t.store = s.store ∧ t.mbox = s.mbox ∧ t.pending = s.pending) ∧
  (∀ (l : Fin 9) high s, l.val = 8 → liveN s = true → blkOn s .cps = true → s.cdat.wbrk = false → ∃ t, exec (.lineStuckTimeout l high) s = .next t ∧
    t.cdat = { s.cdat with wbrk := true, wbrkAt := s.clk.tb, good := 0 } ∧ waits t 9 0 0 ∧ { quietly s t with cdat := s.cdat } = s)

/-- The phases of a pulse: TBOOST ends the boost, the dead time ends in PEAK or, when TPEAK is over, in HOLD, TPEAK ends the peak with the
hold level as target, THOLD ends the hold in DECAY, DECMAX ends the decay in IDLE with source 14, and the max on-time ends any pulse
with source 13 (R155 to R158). -/
def Obligations.PulsePhases : Prop :=
  (∀ (n : Fin 8) s, dueTboost s n = true → ∃ t, exec (.tboostElapsed n) s = .next t ∧ t.chan[sh n].st = .dead ∧ t.chan[sh n].drv = false ∧
    t.chan[sh n].pulse.exitAt = some s.clk.tb ∧ { t with chan := s.chan, chs := s.chs, trip := s.trip, diag := s.diag } = s) ∧
  (∀ (n : Fin 8) s, dueTboost s n = false → exec (.tboostElapsed n) s = .next s) ∧
  (∀ (n : Fin 8) s, dueDeadEnd s n = true → s.chan[sh n].st = .dead → s.chan[sh n].pulse.peakOver = false → peakDone s s.chan[sh n] = false →
    ∃ t, exec (.deadTimeEnd n) s = .next t ∧ t.chan[sh n].st = .peak ∧ { t with chan := s.chan, chs := s.chs, trip := s.trip, diag := s.diag } = s) ∧
  (∀ (n : Fin 8) s, dueDeadEnd s n = true → s.chan[sh n].st = .dead → s.chan[sh n].pulse.peakOver = true → tholdOver s (sh n) = false →
    ∃ t, exec (.deadTimeEnd n) s = .next t ∧ t.chan[sh n].st = .hold ∧ t.chan[sh n].reg.h = s.chan[sh n].pulse.cHysh ∧
    t.chan[sh n].reg.target = throttled s.chan[sh n].pulse.cHold (stepOf s (sh n)) ∧ { t with chan := s.chan, chs := s.chs, trip := s.trip, diag := s.diag } = s) ∧
  (∀ (n : Fin 8) s, dueDeadEnd s n = false → exec (.deadTimeEnd n) s = .next s) ∧
  (∀ (n : Fin 8) s, dueTpeak s n = true → s.chan[sh n].st = .peak → ∃ t, exec (.tpeakElapsed n) s = .next t ∧ t.chan[sh n].st = .hold ∧
    t.chan[sh n].reg.h = s.chan[sh n].pulse.cHysh ∧ t.chan[sh n].reg.target = throttled s.chan[sh n].pulse.cHold (stepOf s (sh n)) ∧
    { t with chan := s.chan, chs := s.chs, trip := s.trip, diag := s.diag } = s) ∧
  (∀ (n : Fin 8) s, dueTpeak s n = true → s.chan[sh n].st = .dead → ∃ t, exec (.tpeakElapsed n) s = .next t ∧ t.chan[sh n].st = .dead ∧
    t.chan[sh n].pulse.peakOver = true ∧ (∀ m : Fin 12, m ≠ sh n → t.chan[m] = s.chan[m]) ∧ { t with chan := s.chan } = s) ∧
  (∀ (n : Fin 8) s, dueTpeak s n = false → exec (.tpeakElapsed n) s = .next s) ∧
  (∀ (n : Fin 8) s, dueThold s n = true → ∃ t, exec (.tholdElapsed n) s = .next t ∧ t.chan[sh n].st = .decay ∧ t.chan[sh n].drv = false ∧
    t.chan[sh n].pulse.decAt = s.clk.tb ∧ t.chan[sh n].pulse.decRun = 0 ∧ { t with chan := s.chan, chs := s.chs, trip := s.trip, diag := s.diag } = s) ∧
  (∀ (n : Fin 8) s, dueThold s n = false → exec (.tholdElapsed n) s = .next s) ∧
  (∀ (n : Fin 12) s, dueMaxOn s n = true → ∃ t, exec (.maxOnTime n) s = .next t ∧ t.chan[n].st = (if s.chan[n].st = .high then .low else .decay) ∧
    t.chan[n].drv = false ∧ waits t 13 n.val 0 ∧ { quietly s t with chan := s.chan, chs := s.chs, trip := s.trip, diag := s.diag } = s) ∧
  (∀ (n : Fin 12) s, dueMaxOn s n = false → exec (.maxOnTime n) s = .next s) ∧
  (∀ (n : Fin 8) s, dueDecay s n = true → ∃ t, exec (.decayTimeout n) s = .next t ∧ t.chan[sh n].st = .idle ∧ t.chan[sh n].cfg.scpend = 0 ∧
    (lineBroken s (sh n) = false → waits t 14 n.val 0) ∧ { quietly s t with chan := s.chan, chs := s.chs, trip := s.trip, diag := s.diag } = s)

/-- CHANNEL_SET sets an idle channel's mode and fields and puts it in the resting state of its mode, and answers check 5 on a channel that is
not idle; PROFILE_LOAD stages two words and with APPLY 1 loads the profile, or answers its failing check and keeps the staged words;
PAIR_SET joins and splits a pair; SENSE_SCALE is in force at once on an idle channel and pending on another (R151, R162, R169 to
R172, R442 to R444). -/
def Obligations.ChannelCommands : Prop :=
  (∀ a (n : Fin 12) s, mboxFree s = true → admitted 0x10 a s = true → fld a.a0 0 4 = n.val → within a.a0 0xFF7F = true → within a.a1 0xFFF = true → a.a2 ≠ 0 →
    (n.val < 8 ∨ fld a.a0 4 2 < 2 ∧ bit a.a0 6 = false) → (fld a.a0 4 2 < 2 ∨ s.chan[n].cfg.scale ≠ 0) → emitDrives s n.val = false → paired s n.val = false →
    idleX s n = true → s.chan[n].cont = false → lineBroken s n = false → ∃ t, exec (.channelSet a) s = .next t ∧ answered t 0 0 0 ∧
    t.chan[n].cfg = { s.chan[n].cfg with mode := fld a.a0 4 2, boostuse := bit a.a0 6, slew := fld a.a0 8 8, decthr := a.a1.toNat, decmax := a.a2.toNat } ∧
    t.chan[n].st = restState (fld a.a0 4 2) ∧ { t with mbox := s.mbox, bus := s.bus, chan := s.chan, chs := s.chs, trip := s.trip, diag := s.diag } = s) ∧
  (∀ a (n : Fin 12) s, mboxFree s = true → admitted 0x10 a s = true → fld a.a0 0 4 = n.val → within a.a0 0xFF7F = true → within a.a1 0xFFF = true → a.a2 ≠ 0 →
    (n.val < 8 ∨ fld a.a0 4 2 < 2 ∧ bit a.a0 6 = false) → (fld a.a0 4 2 < 2 ∨ s.chan[n].cfg.scale ≠ 0) → emitDrives s n.val = false → paired s n.val = false →
    idleX s n = false → ∃ t, exec (.channelSet a) s = .next t ∧ answered t 0x17 5 0 ∧ { t with mbox := s.mbox, bus := s.bus } = s) ∧
  (∀ a s, mboxFree s = true → admitted 0x11 a s = true → within a.a0 0x13F = true → bit a.a0 8 = false → ∃ t, exec (.profileLoad a) s = .next t ∧ answered t 0 0 0 ∧
    t.chs = { s.chs with stage := vput (vput s.chs.stage (2 * fld a.a0 4 2) a.a1) (2 * fld a.a0 4 2 + 1) a.a2 } ∧ { t with mbox := s.mbox, bus := s.bus, chs := s.chs } = s) ∧
  (∀ a v s, mboxFree s = true → admitted 0x11 a s = true → within a.a0 0x13F = true → bit a.a0 8 = true →
    v = vput (vput s.chs.stage (2 * fld a.a0 4 2) a.a1) (2 * fld a.a0 4 2 + 1) a.a2 → (profOf v).hysp ≤ (profOf v).peak → (profOf v).hysh ≤ (profOf v).hold →
    ∃ t, exec (.profileLoad a) s = .next t ∧ answered t 0 0 0 ∧ t.chs = { s.chs with stage := v, profs := vput s.chs.profs (fld a.a0 0 4) (profOf v) } ∧
    { t with mbox := s.mbox, bus := s.bus, chs := s.chs } = s) ∧
  (∀ a v s, mboxFree s = true → admitted 0x11 a s = true → within a.a0 0x13F = true → bit a.a0 8 = true →
    v = vput (vput s.chs.stage (2 * fld a.a0 4 2) a.a1) (2 * fld a.a0 4 2 + 1) a.a2 → (profOf v).peak < (profOf v).hysp →
    ∃ t, exec (.profileLoad a) s = .next t ∧ answered t 0x17 1 0 ∧ t.chs = { s.chs with stage := v } ∧ { t with mbox := s.mbox, bus := s.bus, chs := s.chs } = s) ∧
  (∀ a (p : Fin 4) (lo up : Fin 12) s, mboxFree s = true → admitted 0x13 a s = true → within a.a0 7 = true → fld a.a0 0 2 = p.val → lo.val = 2 * p.val →
    up.val = 2 * p.val + 1 → bit a.a0 2 = true → s.chs.pairs[p] = false → (vget s.lines lo.val {}).wbrk = false → (vget s.lines up.val {}).wbrk = false → s.chan[lo].st = .idle → s.chan[up].st = .idle → s.diag.test = none →
    s.chan[lo].cfg.mode = 2 → s.chan[lo].cfg.scale = s.chan[up].cfg.scale → s.chan[lo].cfg.scale ≠ 0 → ∃ t, exec (.pairSet a) s = .next t ∧ answered t 0 0 0 ∧
    t.chs.pairs[p] = true ∧ t.chan[up].cfg.mode = 4 ∧ t.chan[up].st = .off ∧ t.chan[lo].st = .idle ∧
    { t with mbox := s.mbox, bus := s.bus, chan := s.chan, chs := s.chs, trip := s.trip, diag := s.diag } = s) ∧
  (∀ a (p : Fin 4) (lo up : Fin 12) s, mboxFree s = true → admitted 0x13 a s = true → within a.a0 7 = true → fld a.a0 0 2 = p.val → lo.val = 2 * p.val →
    up.val = 2 * p.val + 1 → bit a.a0 2 = false → s.chs.pairs[p] = true → (vget s.lines lo.val {}).wbrk = false → s.chan[lo].st = .idle → s.diag.test = none → ∃ t, exec (.pairSet a) s = .next t ∧
    answered t 0 0 0 ∧ t.chs = { s.chs with pairs := vupd s.chs.pairs p fun _ => false } ∧ t.chan[up].cfg.mode = 0 ∧ t.chan[up].st = .off ∧ t.chan[lo].st = .idle ∧
    (∀ m : Fin 12, m ≠ lo → m ≠ up → t.chan[m] = s.chan[m]) ∧ { t with mbox := s.mbox, bus := s.bus, chan := s.chan, chs := s.chs } = s) ∧
  (∀ a (n : Fin 12) s, mboxFree s = true → admitted 0x19 a s = true → within a.a0 7 = true → a.a1 ≠ 0 → fld a.a0 0 3 = n.val → paired s n.val = false → idle s n = true →
    ∃ t, exec (.senseScale a) s = .next t ∧ answered t 0 0 0 ∧
    t.chan = vupd s.chan n (fun c => { c with cfg := { c.cfg with scale := a.a1.toNat, scpend := 0 } }) ∧ { t with mbox := s.mbox, bus := s.bus, chan := s.chan } = s) ∧
  (∀ a (n : Fin 12) s, mboxFree s = true → admitted 0x19 a s = true → within a.a0 7 = true → a.a1 ≠ 0 → fld a.a0 0 3 = n.val → paired s n.val = false → idle s n = false →
    ∃ t, exec (.senseScale a) s = .next t ∧ answered t 0 1 0 ∧
    t.chan = vupd s.chan n (fun c => { c with cfg := { c.cfg with scpend := a.a1.toNat } }) ∧ { t with mbox := s.mbox, bus := s.bus, chan := s.chan } = s)

/-! ### Brass -/

/-- The eight instructions, in the issue cycle of a channel that may issue: END enters DECAY, SETT and SETH give the target and the hysteresis as codes,
WAITT and WAITI hold, BR branches on its condition, BOOST holds and drops the request, SIG sets the signals and its interrupt bit;
each counts once, and outside the issue cycle of a channel that may issue none does anything (R174, R176, R178 to R183). -/
def Obligations.BrassInstructions : Prop :=
  (∀ (n : Fin 8) s, dueIssue s n = true → ∃ t, exec (.brassEnd n) s = .next t ∧ t.chan[sh n].st = .decay ∧ t.chan[sh n].drv = false ∧
    t.chan[sh n].prog.run = false ∧ t.chan[sh n].breq = false ∧ t.chan[sh n].prog.issued = (if s.chan[sh n].prog.issued < 65535 then s.chan[sh n].prog.issued + 1 else 65535) ∧
     { t with chan := s.chan, chs := s.chs, trip := s.trip, diag := s.diag } = s) ∧
  (∀ (n : Fin 8) level noslew s, dueIssue s n = true → ∃ t, exec (.sett n level false noslew) s = .next t ∧ t.chan[sh n].prog.issued = satInc s.chan[sh n].prog.issued 65535 ∧
    t.chan[sh n].reg.target = codeOf s (sh n) level.toNat ∧ t.chan[sh n].prog.thr = false ∧ t.chan[sh n].prog.pc = s.chan[sh n].prog.pc + 1 ∧
    (s.chan[sh n].reg.target ≠ codeOf s (sh n) level.toNat → t.chan[sh n].reg.retarget = true ∧ t.chan[sh n].reg.noslew = noslew) ∧
    (∀ m : Fin 12, m ≠ sh n → t.chan[m] = s.chan[m]) ∧ { t with chan := s.chan } = s) ∧
  (∀ (n : Fin 8) level noslew s, dueIssue s n = true → ∃ t, exec (.sett n level true noslew) s = .next t ∧ t.chan[sh n].prog.issued = satInc s.chan[sh n].prog.issued 65535 ∧
    t.chan[sh n].reg.target = throttled (codeOf s (sh n) level.toNat) (stepOf s (sh n)) ∧ t.chan[sh n].prog.thr = true ∧
    t.chan[sh n].prog.full = codeOf s (sh n) level.toNat ∧ (∀ m : Fin 12, m ≠ sh n → t.chan[m] = s.chan[m]) ∧ { t with chan := s.chan } = s) ∧
  (∀ (n : Fin 8) hys s, dueIssue s n = true → ∃ t, exec (.seth n hys) s = .next t ∧ t.chan[sh n].prog.issued = satInc s.chan[sh n].prog.issued 65535 ∧ t.chan[sh n].reg = { s.chan[sh n].reg with h := codeOf s (sh n) hys.toNat } ∧
    t.chan[sh n].prog.pc = s.chan[sh n].prog.pc + 1 ∧ (∀ m : Fin 12, m ≠ sh n → t.chan[m] = s.chan[m]) ∧ { t with chan := s.chan } = s) ∧
  (∀ (n : Fin 8) d abs s, dueIssue s n = true →
    tbGe s.clk.tb ((if abs then s.chan[sh n].pulse.startAt else s.clk.tb) + BitVec.ofNat 48 (10 * d.toNat)) = false → ∃ t, exec (.waitt n d abs) s = .next t ∧ t.chan[sh n].prog.issued = satInc s.chan[sh n].prog.issued 65535 ∧
    t.chan[sh n].prog.wait = .time ((if abs then s.chan[sh n].pulse.startAt else s.clk.tb) + BitVec.ofNat 48 (10 * d.toNat)) ∧
    t.chan[sh n].prog.pc = s.chan[sh n].prog.pc ∧ (∀ m : Fin 12, m ≠ sh n → t.chan[m] = s.chan[m]) ∧ { t with chan := s.chan } = s) ∧
  (∀ (n : Fin 8) d abs s, dueIssue s n = true →
    tbGe s.clk.tb ((if abs then s.chan[sh n].pulse.startAt else s.clk.tb) + BitVec.ofNat 48 (10 * d.toNat)) = true → ∃ t, exec (.waitt n d abs) s = .next t ∧ t.chan[sh n].prog.issued = satInc s.chan[sh n].prog.issued 65535 ∧
    t.chan[sh n].prog.wait = .none ∧ t.chan[sh n].prog.pc = s.chan[sh n].prog.pc + 1 ∧ { t with chan := s.chan } = s) ∧
  (∀ (n : Fin 8) level dir tmo s, dueIssue s n = true → ∃ t, exec (.waiti n level dir tmo) s = .next t ∧ t.chan[sh n].prog.issued = satInc s.chan[sh n].prog.issued 65535 ∧
    t.chan[sh n].prog.wait = .current (codeOf s (sh n) level.toNat) dir (if tmo = 0 then none else some (s.clk.tb + BitVec.ofNat 48 (100 * tmo.toNat))) ∧
    t.chan[sh n].prog.pc = s.chan[sh n].prog.pc ∧ (∀ m : Fin 12, m ≠ sh n → t.chan[m] = s.chan[m]) ∧ { t with chan := s.chan } = s) ∧
  (∀ (n : Fin 8) dest inv cond level s, dueIssue s n = true → ∃ t, exec (.br n dest inv cond level) s = .next t ∧ t.chan[sh n].prog.issued = satInc s.chan[sh n].prog.issued 65535 ∧
    t.chan[sh n].prog.pc = (if brassCond s n cond level = inv then s.chan[sh n].prog.pc + 1 else dest.toNat) ∧ t.chan[sh n].reg = s.chan[sh n].reg ∧
    (∀ m : Fin 12, m ≠ sh n → t.chan[m] = s.chan[m]) ∧ { t with chan := s.chan } = s) ∧
  (∀ (n : Fin 8) s, dueIssue s n = true → s.chan[sh n].breq = false → ∃ t, exec (.boost n true) s = .next t ∧ t.chan[sh n].prog.issued = satInc s.chan[sh n].prog.issued 65535 ∧ t.chan[sh n].breq = true ∧
    ((paired s n.val = true → forceable s.chan[mate (sh n)] = false) → t.chan[sh n].drv = true) ∧ t.chan[sh n].prog.pc = s.chan[sh n].prog.pc + 1 ∧ t.chs.boosten = true ∧
    { t with chan := s.chan, chs := s.chs, trip := s.trip, diag := s.diag } = s) ∧
  (∀ (n : Fin 8) s, dueIssue s n = true → s.chan[sh n].breq = true → ∃ t, exec (.boost n false) s = .next t ∧ t.chan[sh n].prog.issued = satInc s.chan[sh n].prog.issued 65535 ∧ t.chan[sh n].breq = false ∧
    t.chan[sh n].drv = false ∧ t.chan[sh n].prog.wait = .boostOff ∧ t.chan[sh n].prog.pc = s.chan[sh n].prog.pc ∧
    { t with chan := s.chan, chs := s.chs, trip := s.trip, diag := s.diag } = s) ∧
  (∀ (n : Fin 8) value mask irq s, dueIssue s n = true → ∃ t, exec (.sig n value mask irq) s = .next t ∧ t.chan[sh n].prog.issued = satInc s.chan[sh n].prog.issued 65535 ∧
    t.chan[sh n].prog.siga = (if mask.getLsbD 0 then value.getLsbD 0 else s.chan[sh n].prog.siga) ∧
    t.chan[sh n].prog.sigb = (if mask.getLsbD 1 then value.getLsbD 1 else s.chan[sh n].prog.sigb) ∧
    t.brass.sigirq = (if irq then s.brass.sigirq ||| BitVec.ofNat 8 (2 ^ n.val) else s.brass.sigirq) ∧ (irq = true → bit t.bus.intstat 8 = true) ∧
    t.chan[sh n].prog.pc = s.chan[sh n].prog.pc + 1 ∧ (∀ m : Fin 12, m ≠ sh n → t.chan[m] = s.chan[m]) ∧ { t with chan := s.chan, brass := s.brass, bus := s.bus } = s) ∧
  (∀ (n : Fin 8) level thr noslew d tmo dest cond vm s, dueIssue s n = false → exec (.brassEnd n) s = .next s ∧ exec (.sett n level thr noslew) s = .next s ∧
    exec (.seth n level) s = .next s ∧ exec (.waitt n d thr) s = .next s ∧ exec (.boost n thr) s = .next s ∧
    exec (.waiti n level thr tmo) s = .next s ∧ exec (.br n dest thr cond level) s = .next s ∧ exec (.sig n vm vm thr) s = .next s)

/-- In its issue cycle a channel runs the instruction at its PC, and an empty entry is a single END; the time of a WAITT and the timeout of a
WAITI end the hold at the next instruction. BRASS_LOAD stages an instruction, and its header loads the program and the entry when its
five checks hold, or is refused with check 1 past the end of the store. A read of SIGIRQ clears it, and answers 0 with source 46 while
the block is gated off; WINSEL and WINADR stand behind it (R173, R174, R178, R181, R183, R186, R187, R330, R419, R445). -/
def Obligations.BrassCourse : Prop :=
  (∀ (n : Fin 8) s, dueIssue s n = true → exec (.brassIssueCycle n) s = .next (brassIssue n (brassFetch s n) s)) ∧
  (∀ (n : Fin 8) level thr noslew s, dueIssue s n = true → brassFetch s n = .sett level thr noslew → ∃ t, exec (.brassIssueCycle n) s = .next t ∧
    exec (.sett n level thr noslew) s = .next t ∧ t.chan[sh n].prog.pc = s.chan[sh n].prog.pc + 1 ∧ { t with chan := s.chan } = s) ∧
  (∀ (n : Fin 8) dest inv cond level s, dueIssue s n = true → brassFetch s n = .br dest inv cond level → ∃ t, exec (.brassIssueCycle n) s = .next t ∧
    exec (.br n dest inv cond level) s = .next t ∧ { t with chan := s.chan } = s) ∧
  (∀ (n : Fin 8) s, dueIssue s n = true → (vget s.brass.dir s.chan[sh n].prog.entry {}).len = 0 → ∃ t, exec (.brassIssueCycle n) s = .next t ∧
    exec (.brassEnd n) s = .next t ∧ t.chan[sh n].st = .decay ∧ t.chan[sh n].prog.run = false) ∧
  (∀ (n : Fin 8) s, dueIssue s n = false → exec (.brassIssueCycle n) s = .next s) ∧
  (∀ (n : Fin 8) s, dueWaitt s n = true → ∃ t, exec (.waittExpiry n) s = .next t ∧ t.chan[sh n].prog.wait = .none ∧ t.chan[sh n].prog.pc = s.chan[sh n].prog.pc + 1 ∧
    t.chan[sh n].prog.timedOut = s.chan[sh n].prog.timedOut ∧ (∀ m : Fin 12, m ≠ sh n → t.chan[m] = s.chan[m]) ∧ { t with chan := s.chan } = s) ∧
  (∀ (n : Fin 8) s, dueWaitt s n = false → exec (.waittExpiry n) s = .next s) ∧
  (∀ (n : Fin 8) s, dueWaiti s n = true → ∃ t, exec (.waitiTimeout n) s = .next t ∧ t.chan[sh n].prog.wait = .none ∧ t.chan[sh n].prog.pc = s.chan[sh n].prog.pc + 1 ∧
    t.chan[sh n].prog.timedOut = true ∧ (∀ m : Fin 12, m ≠ sh n → t.chan[m] = s.chan[m]) ∧ { t with chan := s.chan } = s) ∧
  (∀ (n : Fin 8) s, dueWaiti s n = false → exec (.waitiTimeout n) s = .next s) ∧
  (∀ a s, mboxFree s = true → admitted 0x12 a s = true → bit a.a0 15 = false → within a.a0 0x801F = true → ∃ t, exec (.brassLoadInstruction a) s = .next t ∧
    answered t 0 0 0 ∧ t.brass = { s.brass with staged := vput s.brass.staged (fld a.a0 0 5) (a.a2 ++ a.a1) } ∧ { t with mbox := s.mbox, bus := s.bus, brass := s.brass } = s) ∧
  (∀ a s, mboxFree s = true → admitted 0x12 a s = true → bit a.a0 15 = true → bit a.a0 8 = true → within a.a0 0x810F = true → within a.a1 0x3FFF = true →
    fld a.a1 8 6 ≤ 32 → fld a.a1 0 8 + fld a.a1 8 6 ≤ 256 → (stagedProg s (fld a.a1 8 6)).all brassClean = true →
    (stagedProg s (fld a.a1 8 6)).all (brassInside (fld a.a1 8 6)) = true → (fld a.a1 8 6 = 0 ∨ brassCloses (vget s.brass.staged (fld a.a1 8 6 - 1) 0) = true) →
    brassInUse s (fld a.a0 0 4) (fld a.a1 0 8) (fld a.a1 8 6) = false → ∃ t, exec (.brassLoadHeader a) s = .next t ∧ answered t 0 0 0 ∧
    t.brass.dir = vput s.brass.dir (fld a.a0 0 4) ⟨fld a.a1 0 8, fld a.a1 8 6, a.a2.toNat⟩ ∧
    (∀ i : Fin 256, t.brass.code[i] = (if fld a.a1 0 8 ≤ i.val ∧ i.val < fld a.a1 0 8 + fld a.a1 8 6 then vget s.brass.staged (i.val - fld a.a1 0 8) 0 else s.brass.code[i])) ∧
    t.brass.sigirq = s.brass.sigirq ∧ { t with mbox := s.mbox, bus := s.bus, brass := s.brass } = s) ∧
  (∀ a s, mboxFree s = true → admitted 0x12 a s = true → bit a.a0 15 = true → within a.a0 0x810F = true → within a.a1 0x3FFF = true →
    fld a.a1 8 6 ≤ 32 → 256 < fld a.a1 0 8 + fld a.a1 8 6 → ∃ t, exec (.brassLoadHeader a) s = .next t ∧ answered t 0x17 1 0 ∧ { t with mbox := s.mbox, bus := s.bus } = s) ∧
  (∀ s, hostBus s = true → busUp s = true → blkOn s .chan = true → exec .sigirqRead s =
    .next { s with brass := { s.brass with sigirq := 0 }, bus := { s.bus with data := s.brass.sigirq.setWidth 16, winsel := 3, winadr := 577 } }) ∧
  (∀ s, hostBus s = true → busUp s = true → blkOn s .chan = false → ∃ t, exec .sigirqRead s = .next t ∧ waits t 46 0 0x0308 ∧
    quietly s t = { s with bus := { s.bus with data := 0, winsel := 3, winadr := 577 } })

/-! ### Trip and diagnostics -/

/-- TRIP# asserted and heard latches the candidate groups that are neither in dead time nor in blanking with source 20, and those in
their dead time with source 21; their channels that are neither off nor contained are tripped, and their pins low at once; a group in blanking defers, with source 20, to
the end of its blanking; an unheard assertion only shows in TRIPIN. A release clears TRIPIN, a deferral ends in a latch only while TRIP#
is asserted, and TRIP_CLEAR clears the latches it names, or answers ACTIVE while TRIP# is asserted (R201 to R207, R448). -/
def Obligations.TripInput : Prop :=
  (∀ s, liveN s = true → s.trip.tripin = false → tripHeard s = false → ∃ t, exec .tripAssert s = .next t ∧ t.trip = { s.trip with tripin := true } ∧
    { t with trip := s.trip, pins := { t.pins with trip := s.pins.trip } } = s) ∧
  (∀ s, liveN s = true → s.trip.tripin = true → exec .tripAssert s = .next { s with pins := { s.pins with trip := s.pins.trip.put false (s.clk.tb - 1) } }) ∧
  (∀ (g : Fin 4) s, liveN s = true → s.trip.tripin = false → tripHeard s = true → s.diag.test = none → candidates s = [g] → s.trip.latched[g] = false →
    ahead s.trip.deadEnd[g] s.clk.tb = false → ahead s.trip.blankEnd[g] s.clk.tb = false → ∃ t, exec .tripAssert s = .next t ∧ t.trip.tripin = true ∧
    t.trip.latched[g] = true ∧ (∀ h : Fin 4, h ≠ g → t.trip.latched[h] = s.trip.latched[h]) ∧ t.trip.tcnt = min 65535 (s.trip.tcnt + 1) ∧ waits t 20 (2 ^ g.val) (w16 (2 ^ g.val)) ∧
    bit t.bus.intstat 3 = true ∧ (∀ n : Fin 12, s.trip.group[n] = g.val → t.chan[n].st = .off ∨ t.chan[n].st = .contained ∨ t.chan[n].st = .tripped) ∧
    (∀ n : Fin 12, s.trip.group[n] = g.val → t.chan[n].drv = false ∧ (s.dbg.ptest = false → pinDrv t n = false)) ∧
    { quietly s t with chan := s.chan, chs := s.chs, trip := s.trip, diag := s.diag, pins := s.pins } = s) ∧
  (∀ (g : Fin 4) s, liveN s = true → s.trip.tripin = false → tripHeard s = true → s.diag.test = none → candidates s = [g] → s.trip.latched[g] = false →
    ahead s.trip.deadEnd[g] s.clk.tb = true → ∃ t, exec .tripAssert s = .next t ∧ t.trip.latched[g] = true ∧ waits t 21 (2 ^ g.val) (w16 (2 ^ g.val)) ∧
    { quietly s t with chan := s.chan, chs := s.chs, trip := s.trip, diag := s.diag, pins := s.pins } = s) ∧
  (∀ (g : Fin 4) b s, liveN s = true → s.trip.tripin = false → tripHeard s = true → s.diag.test = none → candidates s = [g] → s.trip.latched[g] = false →
    ahead s.trip.deadEnd[g] s.clk.tb = false → s.trip.blankEnd[g] = some b → ahead s.trip.blankEnd[g] s.clk.tb = true → ∃ t, exec .tripAssert s = .next t ∧
    t.trip = { s.trip with tripin := true, tcnt := min 65535 s.trip.tcnt, defer := vupd s.trip.defer g (fun l => l ++ [b]) } ∧ waits t 20 (2 ^ g.val) (w16 (2 ^ g.val + 16)) ∧
    (∀ n : Fin 12, t.chan[n].st = s.chan[n].st ∨ groupLatched s n = true) ∧
    { quietly s t with chan := s.chan, chs := s.chs, trip := s.trip, pins := s.pins } = s) ∧
  (∀ s, liveN s = true → ∃ t, exec .tripRelease s = .next t ∧ t.trip = { s.trip with tripin := false } ∧
    { t with trip := s.trip, pins := { t.pins with trip := s.pins.trip } } = s) ∧
  (∀ s, legLive s = true → exec .tripRelease s = .next { s with leg := { s.leg with tripin := false } }) ∧
  (∀ (g : Fin 4) s, dueDeferral s g = true → s.trip.tripin = true → s.trip.latched[g] = false → ∃ t, exec (.tripDeferralEnd g) s = .next t ∧
    t.trip.latched[g] = true ∧ t.trip.defer[g] = [] ∧ waits t 20 (2 ^ g.val) (w16 (2 ^ g.val)) ∧ { quietly s t with chan := s.chan, chs := s.chs, trip := s.trip, diag := s.diag, pins := s.pins } = s) ∧
  (∀ (g : Fin 4) s, dueDeferral s g = true → s.trip.tripin = false → ∃ t, exec (.tripDeferralEnd g) s = .next t ∧
    t.trip.defer[g] = (s.trip.defer[g]).filter (fun e => !tbGe s.clk.tb e) ∧ { t with trip := { t.trip with defer := s.trip.defer } } = s) ∧
  (∀ (g : Fin 4) s, dueDeferral s g = false → exec (.tripDeferralEnd g) s = .next s) ∧
  (∀ a s, mboxFree s = true → admitted 0x15 a s = true → within a.a0 0xF = true → s.trip.tripin = false → ∃ t, exec (.tripClear a) s = .next t ∧
    (∀ g : Fin 4, t.trip.latched[g] = (s.trip.latched[g] && !bit a.a0 g.val)) ∧ t.mbox.status = 0 ∧ t.mbox.done = true ∧ (∀ g : Fin 4, bit t.mbox.res0 g.val = t.trip.latched[g]) ∧
    (∀ n : Fin 12, s.chan[n].st ≠ .tripped → t.chan[n].st = s.chan[n].st) ∧
    { t with mbox := s.mbox, bus := s.bus, chan := s.chan, chs := s.chs, trip := s.trip, diag := s.diag } = s) ∧
  (∀ a s, mboxFree s = true → admitted 0x15 a s = true → within a.a0 0xF = true → s.trip.tripin = true → ∃ t, exec (.tripClear a) s = .next t ∧
    t.mbox.status = 0x18 ∧ t.mbox.done = true ∧ t.mbox.busy = false ∧ (∀ g : Fin 4, bit t.mbox.res0 g.val = t.trip.latched[g]) ∧ { t with mbox := s.mbox, bus := s.bus } = s)

/-- DIAG_RUN CHAN gives a channel its fields and starts its judgement anew, and TRIP takes DEAD, TBLANK and, without KEEP, the groups
(R208, R209). TEST of channel 0 alone ends at once with LASTRUN 8 and its bit in the result when the channel may not be driven, and
otherwise waits in step 1 with the command still running (R210, R446). Step 1 of channel 7 ends without a frame after 20 µs with LASTRUN
6 or 7, and the firmware goes on with the test unless it is halted (R27); a test pulse ends with DRVn decided low, and three ticks later,
when the pin has fallen, the wait for the end of decay begins (R19); before their time neither row does anything (R211). -/
def Obligations.DiagRuns : Prop :=
  (∀ a (n : Fin 8) s, mboxFree s = true → admitted 0x14 a s = true → fld a.a0 14 2 = 0 → within a.a0 0xCFFF = true → within a.a1 0xFFF = true → within a.a2 0xFFF = true →
    within a.a3 0xFFF = true → fld a.a0 4 4 ≠ 0 → fld a.a0 8 4 ≠ 0 → a.a1 ≠ 0 → a.a2 ≠ 0 → a.a3 ≠ 0 → fld a.a0 0 3 = n.val → ∃ t, exec (.diagRunChan a) s = .next t ∧
    answered t 0 0 0 ∧ t.diag.ch[n] = { s.diag.ch[n] with en := bit a.a0 3, nocur := a.a1.toNat, oclim := a.a2.toNat, didt := a.a3.toNat, nrise := fld a.a0 4 4, conf := fld a.a0 8 4, cand := 0, cnt := 0, cls := if bit a.a0 3 then s.diag.ch[n].cls else 0 } ∧
    (∀ m : Fin 8, m ≠ n → t.diag.ch[m] = s.diag.ch[m]) ∧ t.diag.test = s.diag.test ∧ { t with mbox := s.mbox, bus := s.bus, diag := s.diag } = s) ∧
  (∀ a s, mboxFree s = true → admitted 0x14 a s = true → fld a.a0 14 2 = 1 → 5 ≤ fld a.a0 0 6 → fld a.a0 0 6 ≤ 50 → fld a.a0 6 8 ≤ 200 → within a.a3 1 = true → bit a.a3 0 = true →
    (∀ p : Fin 4, s.chs.pairs[p] = false) → ∃ t, exec (.diagRunTrip a) s = .next t ∧ answered t 0 0 0 ∧ t.trip = { s.trip with dead := fld a.a0 0 6, tblank := fld a.a0 6 8 } ∧
    { t with mbox := s.mbox, bus := s.bus, trip := s.trip } = s) ∧
  (∀ a s, mboxFree s = true → admitted 0x14 a s = true → fld a.a0 14 2 = 1 → 5 ≤ fld a.a0 0 6 → fld a.a0 0 6 ≤ 50 → fld a.a0 6 8 ≤ 200 → within a.a3 1 = true → bit a.a3 0 = false →
    within a.a2 0xFF = true → (∀ p : Fin 4, s.chs.pairs[p] = false) → (∀ g : Fin 4, s.trip.latched[g] = false ∧ s.trip.defer[g] = []) → ∃ t, exec (.diagRunTrip a) s = .next t ∧
    answered t 0 0 0 ∧ t.trip = { s.trip with dead := fld a.a0 0 6, tblank := fld a.a0 6 8, group := Vector.ofFn (groupArg a) } ∧ { t with mbox := s.mbox, bus := s.bus, trip := s.trip } = s) ∧
  (∀ a s, mboxFree s = true → admitted 0x14 a s = true → fld a.a0 14 2 = 2 → within a.a0 0x81FF = true → within a.a1 0xFF = true → 1 ≤ fld a.a1 0 8 → fld a.a1 0 8 ≤ 200 →
    s.diag.test = none → s.sys.oe = false → fld a.a0 0 8 = 1 → s.chs.pairs[(0 : Fin 4)] = false → ∃ t, exec (.diagRunTest a) s = .next t ∧ answered t 0 8 0 ∧ t.diag.test = none ∧
    (vget t.diag.ch 0 {}).lastrun = 8 ∧ { t with mbox := s.mbox, bus := s.bus, diag := s.diag } = s) ∧
  (∀ a s, mboxFree s = true → admitted 0x14 a s = true → fld a.a0 14 2 = 2 → within a.a0 0x81FF = true → within a.a1 0xFF = true → 1 ≤ fld a.a1 0 8 → fld a.a1 0 8 ≤ 200 →
    s.diag.test = none → bit a.a0 0 = true → s.chs.pairs[(0 : Fin 4)] = false → testSkips s { mask := a.a0.setWidth 8, pulse := bit a.a0 8, tpulse := fld a.a1 0 8 } 0 = false →
    s.lines[(0 : Fin 8)].wbrk = false → ∃ t, exec (.diagRunTest a) s = .next t ∧ t.mbox.busy = true ∧ t.mbox.committed = true ∧
    t.diag.test = some { mask := a.a0.setWidth 8, pulse := bit a.a0 8, tpulse := fld a.a1 0 8, since := s.clk.tb } ∧ { t with mbox := s.mbox, diag := s.diag } = s) ∧
  (∀ d s, dueTestWait s = true → s.diag.test = some d → d.ch = 7 → paired s 7 = false → testHas s d 0 = false → ∃ t, exec .diagTestWaitTimeout s = .next t ∧
    (s.dbg.halted = false → t.diag.test = none) ∧ (s.dbg.halted = true → t.diag.test.map (·.ph) = some .next ∧ t.mbox = s.mbox) ∧
    (vget t.diag.ch 7 {}).lastrun = (if vget d.sawI 0 false then 6 else 7) ∧ t.chan = s.chan ∧ t.store = s.store ∧ t.pending = s.pending) ∧
  (∀ s, dueTestWait s = false → exec .diagTestWaitTimeout s = .next s) ∧
  (∀ d s, dueTestPulse s = true → s.diag.test = some d → tbSince d.since s.clk.tb < 10 * d.tpulse + 3 → ∃ t, exec .diagTestPulseEnd s = .next t ∧ t.diag = s.diag ∧
    t.chan[chOf d.ch].drv = false ∧ { t with chan := s.chan } = s) ∧
  (∀ d s, dueTestPulse s = true → s.diag.test = some d → 10 * d.tpulse + 3 ≤ tbSince d.since s.clk.tb → ∃ t, exec .diagTestPulseEnd s = .next t ∧
    t.diag.test = some { d with ph := .decay, since := s.clk.tb, offs := #v[0, 0] } ∧ t.chan[chOf d.ch].drv = false ∧ { t with chan := s.chan, diag := s.diag } = s) ∧
  (∀ s, dueTestPulse s = false → exec .diagTestPulseEnd s = .next s)

/-! ### Temperature -/

/-- The thermal tick clears the accumulators, puts waiting parameters and ambients into force, leaves a channel with EN 0 at step 0 with its nodes
as they were, keeps an enabled channel's step within 16 - FLOOR, and raises source 24 when a step leaves 0; a die sensor's reading is
kept and shows in DIEMAX, or with an invalid one source 22 is raised and DIEVAL clears (R215, R216, R219, R220, R223, R225). -/
def Obligations.Temperatures : Prop :=
  (∀ s, dueThermal s = false → exec .thermalTick s = .next s) ∧
  (∀ s, dueThermal s = true → ∃ t, exec .thermalTick s = .next t ∧ t.therm.tickAt = some s.clk.tb ∧ t.therm.amb = none ∧ t.therm.dieSet = none ∧
    t.therm.ta = (match s.therm.amb with | some (a, _) => a | none => s.therm.ta) ∧
    (∀ n : Fin 8, t.therm.ch[n].e2 = 0 ∧ t.therm.ch[n].e2on = 0 ∧ t.therm.ch[n].e1off = 0 ∧ t.therm.ch[n].waiting = none ∧ t.therm.ch[n].init = none ∧
      t.therm.ch[n].live = (s.therm.ch[n].waiting).getD s.therm.ch[n].live) ∧
    (∀ n : Fin 8, t.therm.ch[n].en = true → t.therm.ch[n].step ≤ 16 - t.therm.ch[n].floor) ∧
    (∀ n : Fin 8, t.therm.ch[n].en = false → t.therm.ch[n].step = 0 ∧ t.therm.ch[n].raw = 0 ∧
      (s.therm.ch[n].init = none → t.therm.ch[n].tw = s.therm.ch[n].tw ∧ t.therm.ch[n].th = s.therm.ch[n].th ∧ t.therm.ch[n].tj = s.therm.ch[n].tj)) ∧
    (∀ n : Fin 8, s.therm.ch[n].step = 0 → 0 < t.therm.ch[n].step → waits t 24 n.val (w16 t.therm.ch[n].step) ∧ bit t.bus.intstat 4 = true) ∧
    (∀ n : Fin 12, t.chan[n].st = s.chan[n].st ∧ t.chan[n].drv = s.chan[n].drv) ∧ { quietly s t with therm := s.therm, chan := s.chan, store := s.store } = s) ∧
  (∀ (k : Fin 4) r s, liveN s = true → blkOn s .therm = true → -110 ≤ r → r ≤ 350 → ∃ t, exec (.dieConversion k r) s = .next t ∧ t.therm.die[k] = r ∧
    t.therm.dieval[k] = true ∧ (∀ j : Fin 4, j ≠ k → t.therm.die[j] = s.therm.die[j] ∧ t.therm.dieval[j] = s.therm.dieval[j]) ∧
    (∀ j : Fin 4, t.therm.dieval[j] = true → t.therm.die[j] ≤ t.therm.diemax) ∧ t.therm.diepeak = max s.therm.diepeak t.therm.diemax ∧ t.therm.ch = s.therm.ch ∧
    (s.therm.diehi = false → (s.therm.diethr : Int) ≤ t.therm.diemax → t.therm.diehi = true ∧ waits t 23 0 (i16 t.therm.diemax)) ∧
    (t.therm.diemax < (s.therm.diethr : Int) - s.therm.diehys → t.therm.diehi = false) ∧
    { quietly s t with therm := s.therm } = s) ∧
  (∀ (k : Fin 4) r s, liveN s = true → blkOn s .therm = true → (r < -110 ∨ 350 < r) → s.therm.dieval[k] = true → ∃ t, exec (.dieConversion k r) s = .next t ∧
    t.therm.dieval[k] = false ∧ t.therm.die = s.therm.die ∧ waits t 22 0 (w16 k.val) ∧ { quietly s t with therm := s.therm } = s) ∧
  (∀ (n : Fin 8) s, hostBus s = true → busUp s = true → blkOn s .therm = true → ∃ t, exec (.thermCapture n) s = .next t ∧ t.bus.data = i16 (nodeWord s.therm.ch[n].tw) ∧
    t.therm.ch[n].capH = thSnapshot s n ∧ t.therm.ch[n].capD = s.therm.ch[n].capD ∧ t.therm.ch[n].tw = s.therm.ch[n].tw ∧ { t with therm := s.therm, bus := s.bus } = s) ∧
  (∀ (n : Fin 8) s, hostBus s = true → busUp s = true → blkOn s .therm = false → ∃ t, exec (.thermCapture n) s = .next t ∧ t.bus.data = 0 ∧ waits t 46 0 0x0609 ∧ { quietly s t with bus := s.bus } = s)

/-- THERM_SET: STAGE writes one staged word without the reserved bits of CFG, or answers BADARG past word 17; APPLY lets the staged sets of
the channels named wait for the next tick when each meets its conditions, answers check 1 when one does not, and starts the other
staged sets again from what their channels hold; AMB, INIT and DIE wait for the next tick too (R225, R226, R449). -/
def Obligations.ThermalCommands : Prop :=
  (∀ a (n : Fin 8) s, mboxFree s = true → admitted 0x18 a s = true → fld a.a0 13 3 = 0 → within a.a0 0xE0FF = true → fld a.a0 0 3 = n.val → fld a.a0 3 5 ≤ 17 →
    ∃ t, exec (.thermSetStage a) s = .next t ∧ answered t 0 0 0 ∧ t.therm.ch[n] = { s.therm.ch[n] with staged := vput s.therm.ch[n].staged (fld a.a0 3 5) (if fld a.a0 3 5 = 0 then a.a1 &&& 0x1F03 else a.a1) } ∧
    (∀ m : Fin 8, m ≠ n → t.therm.ch[m] = s.therm.ch[m]) ∧ { t with mbox := s.mbox, bus := s.bus, therm := { t.therm with ch := s.therm.ch } } = s) ∧
  (∀ a s, mboxFree s = true → admitted 0x18 a s = true → fld a.a0 13 3 = 0 → within a.a0 0xE0FF = true → 17 < fld a.a0 3 5 → ∃ t, exec (.thermSetStage a) s = .next t ∧
    answered t 0x16 0 0 ∧ { t with mbox := s.mbox, bus := s.bus } = s) ∧
  (∀ a s, mboxFree s = true → admitted 0x18 a s = true → fld a.a0 13 3 = 1 → within a.a0 0xE0FF = true → (∀ n : Fin 8, bit a.a0 n.val = true → thApplyOk s.therm.ch[n].staged = true) →
    ∃ t, exec (.thermSetApply a) s = .next t ∧ answered t 0 0 0 ∧
    (∀ n : Fin 8, t.therm.ch[n] = if bit a.a0 n.val then { s.therm.ch[n] with waiting := some s.therm.ch[n].staged } else { s.therm.ch[n] with staged := (s.therm.ch[n].waiting).getD s.therm.ch[n].live }) ∧
    { t with mbox := s.mbox, bus := s.bus, therm := { t.therm with ch := s.therm.ch } } = s) ∧
  (∀ a (n : Fin 8) s, mboxFree s = true → admitted 0x18 a s = true → fld a.a0 13 3 = 1 → within a.a0 0xE0FF = true → bit a.a0 n.val = true → thApplyOk s.therm.ch[n].staged = false →
    ∃ t, exec (.thermSetApply a) s = .next t ∧ answered t 0x17 1 0 ∧ { t with mbox := s.mbox, bus := s.bus } = s) ∧
  (∀ a s, mboxFree s = true → admitted 0x18 a s = true → fld a.a0 13 3 = 2 → within a.a0 0xE000 = true → ambOk a.a1 = true → ambOk a.a2 = true → ∃ t, exec (.thermSetAmb a) s = .next t ∧
    answered t 0 0 0 ∧ t.therm = { s.therm with amb := some (a.a1.toInt, a.a2.toInt) } ∧ { t with mbox := s.mbox, bus := s.bus, therm := s.therm } = s) ∧
  (∀ a s, mboxFree s = true → admitted 0x18 a s = true → fld a.a0 13 3 = 3 → within a.a0 0xE0FF = true → ambOk a.a1 = true → ∃ t, exec (.thermSetInit a) s = .next t ∧
    answered t 0 0 0 ∧ (∀ n : Fin 8, t.therm.ch[n] = if bit a.a0 n.val then { s.therm.ch[n] with init := some a.a1.toInt } else s.therm.ch[n]) ∧
    { t with mbox := s.mbox, bus := s.bus, therm := { t.therm with ch := s.therm.ch } } = s) ∧
  (∀ a s, mboxFree s = true → admitted 0x18 a s = true → fld a.a0 13 3 = 4 → within a.a0 0xE000 = true → a.a1.toNat ≤ 350 → within a.a2 0x3F = true → ∃ t, exec (.thermSetDie a) s = .next t ∧
    answered t 0 0 0 ∧ t.therm = { s.therm with dieSet := some (a.a1.toNat, a.a2.toNat) } ∧ { t with mbox := s.mbox, bus := s.bus, therm := s.therm } = s)

/-! ### General timers -/

/-- Timers: an increment onto TIMCMP sets MATCH and stops a one-shot there, one from the top to 0 sets OVF and takes a waiting preload, and
a gated one-shot ends with MATCH when its gate leaves (R230 to R232, R235, R243). TIMCTL with EN 1 starts a timer at rest with residue 0
and gives a running one its fields, after an increment of this tick that still waits for its row; TIMCNT_H loads the count with residue 0; TIMCMP_H loads the preload, which takes effect at once on a
timer at rest and waits on a running one; TIMFLG clears the flags named, but for one that this tick has set; without the block's clock
each of these writes raises source 46 and changes nothing else (R229, R235, R236, R240, R242, R330). -/
def Obligations.Timers : Prop :=
  (∀ (k : Fin 8) s, dueMatch s k = true → s.tim.t[k].os = false → s.tim.t[k].count ≠ s.tim.t[k].cmp → s.tim.t[k].count < 4294967295 → ∃ t, exec (.timerMatch k) s = .next t ∧
    t.tim.t[k] = { s.tim.t[k] with count := s.tim.t[k].count + 1, hit := true, inc := false, hitAt := some s.clk.tb } ∧ s.tim.t[k].count + 1 = s.tim.t[k].cmp ∧
    (s.tim.t[k].ie = true → s.tim.t[k].hit = false → bit t.bus.intstat 5 = true) ∧ (∀ j : Fin 8, j ≠ k → t.tim.t[j] = s.tim.t[j]) ∧ { quietly s t with tim := s.tim } = s) ∧
  (∀ (k : Fin 8) s, dueMatch s k = true → s.tim.t[k].os = true → s.tim.t[k].count < 4294967295 → s.tim.t[k].pld = false → ∃ t, exec (.timerMatch k) s = .next t ∧
    t.tim.t[k] = { s.tim.t[k] with en := false, shut := false, count := s.tim.t[k].cmp, hit := true, inc := false, hitAt := some s.clk.tb } ∧ (∀ j : Fin 8, j ≠ k → t.tim.t[j] = s.tim.t[j]) ∧
    { quietly s t with tim := s.tim } = s) ∧
  (∀ (k : Fin 8) s, dueMatch s k = false → exec (.timerMatch k) s = .next s) ∧
  (∀ (k : Fin 8) s, dueOvf s k = true → s.tim.t[k].os = false → s.tim.t[k].cmp ≠ 0 → ∃ t, exec (.timerOverflow k) s = .next t ∧
    t.tim.t[k].count = 0 ∧ t.tim.t[k].ovf = true ∧ t.tim.t[k].hit = s.tim.t[k].hit ∧ t.tim.t[k].en = s.tim.t[k].en ∧ t.tim.t[k].pld = false ∧
    t.tim.t[k].cmp = (if s.tim.t[k].pld then s.tim.t[k].preload else s.tim.t[k].cmp) ∧ (s.tim.t[k].ie = true → s.tim.t[k].ovf = false → bit t.bus.intstat 5 = true) ∧
    (∀ j : Fin 8, j ≠ k → t.tim.t[j] = s.tim.t[j]) ∧ { quietly s t with tim := s.tim } = s) ∧
  (∀ (k : Fin 8) s, dueOvf s k = false → exec (.timerOverflow k) s = .next s) ∧
  (∀ (k : Fin 8) s, dueGateStop s k = true → ∃ t, exec (.timerGateStop k) s = .next t ∧ t.tim.t[k].en = false ∧ t.tim.t[k].hit = true ∧
    t.tim.t[k].count = s.tim.t[k].count ∧ t.tim.t[k].residue = s.tim.t[k].residue ∧ (∀ j : Fin 8, j ≠ k → t.tim.t[j] = s.tim.t[j]) ∧ { quietly s t with tim := s.tim } = s) ∧
  (∀ (k : Fin 8) s, dueGateStop s k = false → exec (.timerGateStop k) s = .next s) ∧
  (∀ w s, hostBus s = true → regOpen s 0x52 = true → blkOn s .tim = true → s.tim.t[timSel s].en = false → s.tim.t[timSel s].inc = false → ∃ t, exec (.timerRearm w) s = .next t ∧
    t.tim.t[timSel s] = { s.tim.t[timSel s] with en := true, os := bit w 1, clrm := bit w 2, pre := fld w 3 4, gsrc := fld w 7 6, glvl := bit w 13, ie := bit w 14, residue := 0, gateSeen := false, inc := false, shut := false } ∧
    (∀ j : Fin 8, j ≠ timSel s → t.tim.t[j] = s.tim.t[j]) ∧ { quietly s t with tim := s.tim } = s) ∧
  (∀ w s, hostBus s = true → regOpen s 0x52 = true → blkOn s .tim = true → s.tim.t[timSel s].en = true → s.tim.t[timSel s].inc = false → ∃ t, exec (.timerRearm w) s = .next t ∧
    t.tim.t[timSel s] = { s.tim.t[timSel s] with os := bit w 1, clrm := bit w 2, pre := fld w 3 4, gsrc := fld w 7 6, glvl := bit w 13, ie := bit w 14, residue := if fld w 3 4 = s.tim.t[timSel s].pre then s.tim.t[timSel s].residue else 0 } ∧
    (∀ j : Fin 8, j ≠ timSel s → t.tim.t[j] = s.tim.t[j]) ∧ { quietly s t with tim := s.tim } = s) ∧
  (∀ w s, hostBus s = true → regOpen s 0x52 = true → blkOn s .tim = true → s.tim.t[timSel s].inc = true → ∃ t, exec (.timerRearm w) s = .next t ∧ exec (.timerRearm w) (timStep (timSel s) s) = .next t) ∧
  (∀ w s, hostBus s = true → regOpen s 0x56 = true → blkOn s .tim = true → ∃ t, exec (.countLoad w) s = .next t ∧
    t.tim.t[timSel s] = { s.tim.t[timSel s] with count := w.toNat * 65536 + s.tim.t[timSel s].cntStage.toNat, residue := 0, inc := false } ∧
    (∀ j : Fin 8, j ≠ timSel s → t.tim.t[j] = s.tim.t[j]) ∧ { t with tim := { t.tim with t := s.tim.t } } = s) ∧
  (∀ w s, hostBus s = true → regOpen s 0x5A = true → blkOn s .tim = true → ∃ t, exec (.preloadLoad w) s = .next t ∧
    t.tim.t[timSel s].preload = w.toNat * 65536 + s.tim.t[timSel s].cmpStage.toNat ∧ t.tim.t[timSel s].pld = s.tim.t[timSel s].en ∧
    t.tim.t[timSel s].cmp = (if s.tim.t[timSel s].en then s.tim.t[timSel s].cmp else w.toNat * 65536 + s.tim.t[timSel s].cmpStage.toNat) ∧
    { t.tim.t[timSel s] with preload := s.tim.t[timSel s].preload, cmp := s.tim.t[timSel s].cmp, pld := s.tim.t[timSel s].pld } = s.tim.t[timSel s] ∧
    (∀ j : Fin 8, j ≠ timSel s → t.tim.t[j] = s.tim.t[j]) ∧ { t with tim := { t.tim with t := s.tim.t } } = s) ∧
  (∀ w s, hostBus s = true → regOpen s 0x5C = true → blkOn s .tim = true → ∃ t, exec (.timerFlagClear w) s = .next t ∧
    (∀ k : Fin 8, t.tim.t[k] = { s.tim.t[k] with hit := s.tim.t[k].hit && (!bit w k.val || s.tim.t[k].hitAt == some s.clk.tb), ovf := s.tim.t[k].ovf && (!bit w (8 + k.val) || s.tim.t[k].ovfAt == some s.clk.tb) }) ∧
    { t with tim := { t.tim with t := s.tim.t } } = s) ∧
  (∀ w s, hostBus s = true → regOpen s 0x52 = true → blkOn s .tim = false → ∃ t, exec (.timerRearm w) s = .next t ∧ waits t 46 0 0x5203 ∧ quietly s t = s) ∧
  (∀ w s, hostBus s = true → regOpen s 0x56 = true → blkOn s .tim = false → ∃ t, exec (.countLoad w) s = .next t ∧ waits t 46 0 0x5603 ∧ quietly s t = s) ∧
  (∀ w s, hostBus s = true → regOpen s 0x5A = true → blkOn s .tim = false → ∃ t, exec (.preloadLoad w) s = .next t ∧ waits t 46 0 0x5A03 ∧ quietly s t = s) ∧
  (∀ w s, hostBus s = true → regOpen s 0x5C = true → blkOn s .tim = false → ∃ t, exec (.timerFlagClear w) s = .next t ∧ waits t 46 0 0x5C03 ∧ quietly s t = s)

/-! ### Faults -/

/-- The collector counts each event it applies, in CNT and in FCNT; severity 0 stops there, from severity 1 a record enters the history and the open
record opens or takes the event in, from severity 2 FLT is set, severity 3 and 4 contain the channels of the event, and severity 5
enters the safe state, in which every pin is low (R246 to R252, R254 to R256, R259, R268, R368). -/
def Obligations.FaultEvents : Prop :=
  (∀ s, collectorOn s = false → exec .faultEventApply s = .next s) ∧
  (∀ s, s.flt.queue = [] → exec .faultEventApply s = .next s) ∧
  (∀ (e : FEvent) (rest : List FEvent) s, collectorOn s = true → s.flt.queue = e :: rest → e.src < 48 → vget s.flt.sev e.src 0 = 0 → s.store.run = none → Memory.wf s = true →
    ∃ t, exec .faultEventApply s = .next t ∧ t.flt = { s.flt with queue := rest, cnt := vput s.flt.cnt e.src (min 65535 (vget s.flt.cnt e.src 0 + 1)) } ∧
    lifetime t e.src = min 65535 (lifetime s e.src + 1) ∧ t.store.dirty = true ∧ { t with flt := s.flt, store := s.store } = s) ∧
  (∀ (e : FEvent) (rest : List FEvent) s, collectorOn s = true → s.flt.queue = e :: rest → e.src < 48 → vget s.flt.sev e.src 0 = 1 ∨ vget s.flt.sev e.src 0 = 2 →
    vget s.flt.ring e.src false = false → s.flt.hist.length < 16 → s.flt.openRec = none → laterRecs rankHist s = 0 → ∃ t, exec .faultEventApply s = .next t ∧ t.flt.queue = rest ∧
    t.flt.hist = s.flt.hist ++ [⟨w16 (e.src + 64 * b2n e.carried 0 + 256 * e.ch + 4096 * vget s.flt.sev e.src 0), s.sched.seq, tbLo s.clk.tb, tbHi s.clk.tb⟩] ∧
    t.flt.openRec = some ⟨e.src, e.ch, vget s.flt.sev e.src 0, b2n e.carried 0, e.det, s.sched.seq, tbLo s.clk.tb, tbHi s.clk.tb, 0, 1#48 <<< e.src⟩ ∧
    t.sched = { s.sched with seq := s.sched.seq + 1, ranks := ranksNow s ++ [rankHist], ranksAt := s.clk.tb } ∧ (vget s.flt.sev e.src 0 = 2 → bit t.bus.intstat 2 = true) ∧ t.chan = s.chan ∧ t.flt.safe = s.flt.safe ∧
    { t with flt := s.flt, bus := s.bus, store := s.store, sched := s.sched, cpc := s.cpc, rpt := s.rpt } = s) ∧
  (∀ (e : FEvent) (rest : List FEvent) (r : OpenRec) s, collectorOn s = true → s.flt.queue = e :: rest → e.src < 48 → vget s.flt.sev e.src 0 = 1 ∨ vget s.flt.sev e.src 0 = 2 →
    vget s.flt.ring e.src false = false → s.flt.hist.length = 16 → s.flt.openRec = some r → ∃ t, exec .faultEventApply s = .next t ∧
    t.flt.hist.length = 16 ∧ t.flt.hist.dropLast = s.flt.hist.drop 1 ∧ t.flt.hlost = true ∧
    t.flt.openRec = some { r with merges := min 255 (r.merges + 1), map := r.map ||| (1#48 <<< e.src), cls := max r.cls (b2n e.carried 0) } ∧ t.chan = s.chan ∧
    { t with flt := s.flt, bus := s.bus, store := s.store, sched := s.sched, cpc := s.cpc, rpt := s.rpt } = s) ∧
  (∀ (e : FEvent) (rest : List FEvent) s, collectorOn s = true → s.flt.queue = e :: rest → vget s.flt.sev e.src 0 = 3 ∨ vget s.flt.sev e.src 0 = 4 → s.flt.safe = false →
    ∃ t, exec .faultEventApply s = .next t ∧ t.flt.safe = false ∧ bit t.bus.intstat 2 = true ∧
    (∀ n ∈ containSet s e (vget s.flt.sev e.src 0), t.chan[n].cont = true ∧ (t.chan[n].st = .off ∨ t.chan[n].st = .contained) ∧
    (s.chan[n].st ≠ .off → s.chan[n].st ≠ .contained → t.chan[n].drv = false)) ∧ (∀ n : Fin 12, s.chan[n].cont = true → t.chan[n].cont = true) ∧
    t.store.bankA = s.store.bankA ∧ t.store.bankB = s.store.bankB ∧ t.pending = s.pending) ∧
  (∀ (e : FEvent) (rest : List FEvent) s, collectorOn s = true → s.flt.queue = e :: rest → vget s.flt.sev e.src 0 = 5 → s.flt.safe = false →
    ∃ t, exec .faultEventApply s = .next t ∧ t.flt.safe = true ∧ t.flt.safeSrc = w16 (e.src + 32768) ∧ t.sys.oe = false ∧ t.emit.run = false ∧ t.dbg.ptest = false ∧
    pinsLow t ∧ (∀ n : Fin 12, t.chan[n].cont = true) ∧ (∀ i : Fin 64, t.sched.slots[i].st ≠ .pending ∧ t.sched.slots[i].st ≠ .armed) ∧ bit t.bus.intstat 2 = true ∧
    t.sec = s.sec ∧ t.pending = s.pending) ∧
  (∀ s, liveN s = true → s.flt.safe = false → ∃ t, exec .collectorSelfCheck s = .next t ∧ t.flt.self = true ∧ t.flt.safe = true ∧ t.flt.safeSrc = 0x806F ∧
    waits t 47 0 0 ∧ pinsLow t ∧ t.sys.oe = false ∧ (∀ n : Fin 12, t.chan[n].cont = true) ∧ t.sec = s.sec ∧ t.pending = s.pending) ∧
  (∀ s, watchdogOn s = true → ∃ t, exec .watchdogExpiry s = .next t ∧ waits t 43 0 0 ∧ (s.mbox.run.isSome = true → t.mbox.cut = true) ∧ t.mbox.args = s.mbox.args ∧
    (s.mbox.run = none → t.store = s.store ∧ t.sec = s.sec) ∧ { quietly s t with mbox := s.mbox, store := s.store, sec := s.sec } = s)

/-- FLTACK: ACK closes the open record, of which an event of the same tick opens the next one, LIFT ends a channel's containment unless
a limit or the safe state holds it, HCLR empties the history, SELFCLR clears SELF outside the safe state, and it is not writable in the
boot window. FLTHIST gives a record's four words and removes it, or 0 from an empty history, FLTSTAT clears HLOST by its reading, and
OSUM captures the open record (R250, R253, R258, R260, R263, R265 to R267, R269, R342). -/
def Obligations.FaultRegisters : Prop :=
  (∀ s, hostBus s = true → regOpen s 0x4C = true → s.flt.freshNow s.clk.tb = none → exec .faultAck s = .next { s with flt := { s.flt with openRec := none, capH := none, capD := none } }) ∧
  (∀ r s, hostBus s = true → regOpen s 0x4C = true → s.flt.freshNow s.clk.tb = some r → ∃ t, exec .faultAck s = .next t ∧ t.flt.openRec = some r ∧ t.flt.hist = s.flt.hist ∧
    t.flt.cnt = s.flt.cnt ∧ { t with flt := s.flt } = s) ∧
  (∀ (m : BitVec 12) (n : Fin 12) s, hostBus s = true → regOpen s 0x4C = true → s.flt.safe = false → m.getLsbD n.val = true → limitHolds s n = false → isPartner s n = false → s.chan[n].cont = true → s.chan[n].contAt ≠ some s.clk.tb →
    ∃ t, exec (.containmentLift m) s = .next t ∧ t.chan[n].cont = false ∧ (∀ k : Fin 12, m.getLsbD k.val = false → paired s k.val = false → isPartner s k = false → t.chan[k].st = s.chan[k].st ∧ t.chan[k].cont = s.chan[k].cont ∧ t.chan[k].cfg = s.chan[k].cfg) ∧
    { t with chan := s.chan, diag := s.diag, chs := s.chs, trip := s.trip } = s) ∧
  (∀ (m : BitVec 12) s, hostBus s = true → regOpen s 0x4C = true → (∀ n : Fin 12, m.getLsbD n.val = true → s.chan[n].contAt = some s.clk.tb) →
    ∃ t, exec (.containmentLift m) s = .next t ∧ t.chan = s.chan ∧ { t with diag := s.diag } = s) ∧
  (∀ (m : BitVec 12) s, hostBus s = true → regOpen s 0x4C = true → s.flt.safe = true → exec (.containmentLift m) s = .next s) ∧
  (∀ s, hostBus s = true → regOpen s 0x4C = true → s.flt.histOf s.clk.tb = 0 → s.flt.goneNow s.clk.tb = [] → exec .historyClear s = .next { s with flt := { s.flt with hist := [], held := {}, hwptr := 0, gone := [] } }) ∧
  (∀ s, hostBus s = true → regOpen s 0x4C = true → s.flt.histOf s.clk.tb ≤ s.flt.hist.length → ∃ t, exec .historyClear s = .next t ∧ t.flt.hist.length = s.flt.histOf s.clk.tb ∧
    t.flt.hist = s.flt.hist.drop (s.flt.hist.length - s.flt.histOf s.clk.tb) ∧ t.flt.hwptr = 0 ∧ t.flt.cnt = s.flt.cnt ∧ t.flt.openRec = s.flt.openRec ∧ { t with flt := s.flt } = s) ∧
  (∀ s, hostBus s = true → regOpen s 0x4C = true → s.flt.safe = false → exec .selfClear s = .next { s with flt := { s.flt with self := false } }) ∧
  (∀ s, s.sys.pwr = .run → s.flt.safe = true → exec .selfClear s = .next s) ∧
  (∀ (m : BitVec 12) s, s.sys.pwr = .run → s.sys.boot < 5 → exec .faultAck s = .next s ∧ exec (.containmentLift m) s = .next s ∧ exec .historyClear s = .next s ∧ exec .selfClear s = .next s) ∧
  (∀ (q : Quad) (rest : List Quad) s, hostBus s = true → busUp s = true → s.flt.goneNow s.clk.tb = [] → s.flt.hwptr = 0 → s.flt.hist = q :: rest → exec .historyPop s =
    .next { s with bus := { s.bus with data := q.w0 }, flt := { s.flt with hist := rest, held := q, hwptr := 1 } }) ∧
  (∀ s, hostBus s = true → busUp s = true → s.flt.goneNow s.clk.tb = [] → s.flt.hwptr = 0 → s.flt.hist = [] → exec .historyPop s = .next { s with bus := { s.bus with data := 0 } }) ∧
  (∀ s, hostBus s = true → busUp s = true → s.flt.hwptr ≠ 0 → exec .historyPop s =
    .next { s with bus := { s.bus with data := s.flt.held.word s.flt.hwptr }, flt := { s.flt with hwptr := (s.flt.hwptr + 1) % 4 } }) ∧
  (∀ s, hostBus s = true → busUp s = true → s.flt.goneNow s.clk.tb = [] → ∃ t, exec .fltstatRead s = .next t ∧ t.bus.data = fltstat s ∧ bit t.bus.data 0 = s.flt.openRec.isSome ∧
    (s.flt.openRec = none → s.flt.hist = [] → s.flt.hwptr = 0 → bit t.bus.data 12 = s.flt.hlost ∧ bit t.bus.data 3 = s.flt.safe) ∧
    t.flt = { s.flt with hlost := false, hlostWas := false } ∧ { t with bus := { t.bus with data := s.bus.data }, flt := s.flt } = s) ∧
  (∀ (r : OpenRec) s, hostBus s = true → busUp s = true → s.flt.openRec = some r → ∃ t, exec .openRecordCapture s = .next t ∧ t.bus.data = w16 (r.src + 256 * r.ch + 4096 * r.sev) ∧
    t.flt = { s.flt with capH := some (openWords r) } ∧ wordDone 5 128 t = true ∧ { besidePointer s t with bus := { (besidePointer s t).bus with data := s.bus.data }, flt := s.flt } = s) ∧
  (∀ s, hostBus s = true → busUp s = true → s.flt.openRec = none → ∃ t, exec .openRecordCapture s = .next t ∧ t.bus.data = 0 ∧ wordDone 5 128 t = true ∧
    { besidePointer s t with bus := { (besidePointer s t).bus with data := s.bus.data } } = s)

/-- FSRC_SET sets a source's severity and its RING flag and refuses by its four checks in their order; FLT_READ answers the counts of a source and its
lifetime, with CLEAR sets CNT to 0 after reading it, and HIST answers words 2h and 2h + 1 of a record that the history holds (R270, R271, R450). -/
def Obligations.FaultCommands : Prop :=
  (∀ a s, mboxFree s = true → admitted 0x20 a s = true → within a.a0 0x0F3F = true → fld a.a0 0 6 ≤ 46 → fld a.a0 8 3 ≤ 5 →
    firstFail (fsrcChecks (fld a.a0 0 6) (fld a.a0 8 3) (bit a.a0 11)) = none → s.store.run = none → ∃ t, exec (.fsrcSet a) s = .next t ∧ answered t 0 0 0 ∧
    t.flt = { s.flt with sev := vput s.flt.sev (fld a.a0 0 6) (fld a.a0 8 3), ring := vput s.flt.ring (fld a.a0 0 6) (bit a.a0 11) } ∧
    t.store.dirty = true ∧ { t with mbox := s.mbox, bus := s.bus, flt := s.flt, store := s.store } = s) ∧
  (∀ a s, mboxFree s = true → admitted 0x20 a s = true → within a.a0 0x0F3F = true → fld a.a0 0 6 = 38 → fld a.a0 8 3 ≤ 2 → bit a.a0 11 = true →
    ∃ t, exec (.fsrcSet a) s = .next t ∧ answered t 0x17 4 0 ∧ { t with mbox := s.mbox, bus := s.bus } = s) ∧
  (∀ a k s, mboxFree s = true → admitted 0x20 a s = true → within a.a0 0x0F3F = true → fld a.a0 0 6 ≤ 46 → fld a.a0 8 3 ≤ 5 →
    firstFail (fsrcChecks (fld a.a0 0 6) (fld a.a0 8 3) (bit a.a0 11)) = some k → ∃ t, exec (.fsrcSet a) s = .next t ∧ answered t 0x17 k 0 ∧
    { t with mbox := s.mbox, bus := s.bus } = s) ∧
  (∀ a s, mboxFree s = true → admitted 0x20 a s = true → 46 < fld a.a0 0 6 → ∃ t, exec (.fsrcSet a) s = .next t ∧ answered t 0x16 0 0 ∧
    { t with mbox := s.mbox, bus := s.bus } = s) ∧
  (∀ a s, mboxFree s = true → admitted 0x21 (fltForm 0 a) s = true → within (fltForm 0 a).a0 0xC03F = true → fld a.a0 0 6 ≤ 47 → ∃ t, exec (.fltReadCount a) s = .next t ∧
    answered t 0 (vget s.flt.cnt (fld a.a0 0 6) 0) (lifetime s (fld a.a0 0 6)) ∧ { t with mbox := s.mbox, bus := s.bus } = s) ∧
  (∀ a s, mboxFree s = true → admitted 0x21 (fltForm 1 a) s = true → within (fltForm 1 a).a0 0xC03F = true → fld a.a0 0 6 ≤ 47 → ∃ t, exec (.fltReadClear a) s = .next t ∧
    answered t 0 (vget s.flt.cnt (fld a.a0 0 6) 0) (lifetime s (fld a.a0 0 6)) ∧ t.flt = { s.flt with cnt := vput s.flt.cnt (fld a.a0 0 6) 0 } ∧
    { t with mbox := s.mbox, bus := s.bus, flt := s.flt } = s) ∧
  (∀ a (q : Quad) s, mboxFree s = true → admitted 0x21 (fltForm 2 a) s = true → within (fltForm 2 a).a0 0xC01F = true → s.flt.hist[fld a.a0 0 4]? = some q → bit a.a0 4 = false →
    ∃ t, exec (.fltReadHist a) s = .next t ∧ answered t 0 q.w0.toNat q.w1.toNat ∧ { t with mbox := s.mbox, bus := s.bus } = s) ∧
  (∀ a (q : Quad) s, mboxFree s = true → admitted 0x21 (fltForm 2 a) s = true → within (fltForm 2 a).a0 0xC01F = true → s.flt.hist[fld a.a0 0 4]? = some q → bit a.a0 4 = true →
    ∃ t, exec (.fltReadHist a) s = .next t ∧ answered t 0 q.w2.toNat q.w3.toNat ∧ { t with mbox := s.mbox, bus := s.bus } = s) ∧
  (∀ a s, mboxFree s = true → admitted 0x21 (fltForm 2 a) s = true → within (fltForm 2 a).a0 0xC01F = true → s.flt.hist.length ≤ fld a.a0 0 4 →
    ∃ t, exec (.fltReadHist a) s = .next t ∧ answered t 0x17 1 0 ∧ { t with mbox := s.mbox, bus := s.bus } = s)

/-! ### The host bus and the mailbox -/

/-- Writes and reads of the bus: an INTSTAT write clears the bits written as 1, but for a condition of the same tick, INTEN and the window
pointers take their fields, ANGLE_L and TB_0 capture their upper words for the host alone, and a WINDAT read answers the word of the
selected space at WINADR and steps WINADR; the severity table is one such space, and space 0 reads 0. A write of WINDAT to a
read-only space changes nothing but the pointer; a register without FCLK or with a failed ROM reads 0x0000 and captures nothing, and before
the boot window ends, and in the safe state, the writes that R342 and R260 do not list have no effect. In STOP with WCS 1 RDY holds an
access back and asks for the wake with code 6, which begins with the next tick (log 31); without VDDIOA no access takes place
(R85, R260, R323, R342, R355, R418, R419, R424, R427, R513). -/
def Obligations.BusAccesses : Prop :=
  (∀ w s, hostBus s = true → regOpen s 0x2E = true → exec (.interruptClear w) s = .next { s with bus := { s.bus with intstat := s.bus.intstat &&& ~~~(w &&& ~~~freshInts s) } }) ∧
  (∀ (w : Word) s, hostBus s = true → regOpen s 0x30 = true → isNative s = true → exec (.registerWrite 0x30 w) s = .next { s with bus := { s.bus with inten := w &&& 0x1FFF } }) ∧
  (∀ (w : Word) s, hostBus s = true → regOpen s 0x2A = true → isNative s = true → exec (.registerWrite 0x2B w) s = .next { s with bus := { s.bus with winadr := w } }) ∧
  (∀ (w : Word) s, hostBus s = true → regOpen s 0x28 = true → isNative s = true → exec (.registerWrite 0x28 w) s = .next { s with bus := { s.bus with winsel := w &&& 0x00FF } }) ∧
  (∀ s, hostBus s = true → busUp s = true → exec .angleCapture s = .next { s with bus := { s.bus with data := w16 (angle s), angH := angleHWord s } }) ∧
  (∀ s, hostBus s = true → busUp s = true → exec .tbCapture s =
    .next { s with bus := { s.bus with data := s.clk.tb.setWidth 16, tbH := (s.clk.tb >>> 16).setWidth 32 } }) ∧
  (∀ s, hostBus s = true → busUp s = true → fld s.bus.winsel 0 8 = 5 → s.bus.winadr.toNat < 48 → exec .windatRead s = .next { s with bus :=
    { s.bus with data := w16 (vget s.flt.sev s.bus.winadr.toNat 0 + b2n (vget s.flt.ring s.bus.winadr.toNat false) 3), winadr := s.bus.winadr + 1 } }) ∧
  (∀ s, hostBus s = true → busUp s = true → fld s.bus.winsel 0 8 = 0 → exec .windatRead s = .next { s with bus := { s.bus with data := 0, winadr := s.bus.winadr + 1 } }) ∧
  (∀ (w : Word) s, hostBus s = true → regOpen s 0x2C = true → isNative s = true → fld s.bus.winsel 0 8 = 4 ∨ fld s.bus.winsel 0 8 = 5 ∨ fld s.bus.winsel 0 8 = 8 →
    exec (.registerWrite 0x2C w) s = .next { s with bus := { s.bus with winadr := s.bus.winadr + 1 } }) ∧
  (∀ s, hostBus s = true → busUp s = true → exec .windatRead s = .next (putData (readWin .host (fld s.bus.winsel 0 8) s.bus.winadr.toNat s).1
    { (readWin .host (fld s.bus.winsel 0 8) s.bus.winadr.toNat s).2 with bus := { (readWin .host (fld s.bus.winsel 0 8) s.bus.winadr.toNat s).2.bus with winadr := (readWin .host (fld s.bus.winsel 0 8) s.bus.winadr.toNat s).2.bus.winadr + 1 } })) ∧
  (∀ (a : BitVec 8) (w : Word) s, isNative s = true → s.sys.inReset = false → s.sys.vddioa = true → s.sys.pwr = .stop → s.sys.wcs = true → ∃ t, exec (.registerWrite a w) s = .next t ∧
    t.sys.wakeReq = some (min (s.sys.wakeReq.getD 6) 6) ∧ t.bus.rdyWait = s.bus.rdyWait ++ [.registerWrite a w] ∧
    { t with sys := { t.sys with wakeReq := s.sys.wakeReq }, bus := { t.bus with rdyWait := s.bus.rdyWait } } = s) ∧
  (∀ (a : BitVec 8) (w : Word) s, s.sys.vddioa = false → exec (.registerWrite a w) s = .next s ∧ exec .windatRead s = .next s ∧ exec .tbCapture s = .next s ∧ exec .angleCapture s = .next s) ∧
  (∀ s, hostBus s = true → busUp s = false → exec .angleCapture s = .next { s with bus := { s.bus with data := 0 } } ∧ exec .tbCapture s = .next { s with bus := { s.bus with data := 0 } } ∧
    exec .windatRead s = .next { s with bus := { s.bus with data := 0 } }) ∧
  (∀ (a : BitVec 8) (w : Word) s, s.sys.pwr = .run → isNative s = true → s.sys.boot < 5 → bootWrites.contains (regAddr a) = false → exec (.registerWrite a w) s = .next s) ∧
  (∀ (a : BitVec 8) (w : Word) s, s.sys.pwr = .run → isNative s = true → s.flt.safe = true → 5 ≤ s.sys.boot → safeWrites.contains (regAddr a) = false → exec (.registerWrite a w) s = .next s)

/-- The mailbox: while it is not busy a write of an argument is taken and a write of MBCMD submits the code with the arguments as they stand;
while it is busy both are ignored and set OVR, as a write of MBCMD is during an entry into a low-power state, and a submission waits while the
firmware serves another command. The next command is the one submitted, then the oldest remote one; a host command cut short ends with
INTERRUPTED, and Q0 is 1 where its effect had begun: a command that only waits for a credit or for a commit to yield has had none, the model's
reading (R417, R429, R430, R435; log 7). -/
def Obligations.MailboxCourse : Prop :=
  (∀ (w : Word) s, mboxFree s = true → regOpen s 0x1C = true → exec (.registerWrite 0x1C w) s =
    .next { s with mbox := { s.mbox with args := { s.mbox.args with a1 := w } } }) ∧
  (∀ (w : Word) s, mboxFree s = true → exec (.registerWrite 0x18 w) s = .next (started (w.setWidth 8) s.mbox.args s)) ∧
  (∀ (w : Word) (a : BitVec 8) s, hostBus s = true → regOpen s 0x18 = true → s.mbox.busy = true → regAddr a = 0x18 ∨ regAddr a = 0x1A ∨ regAddr a = 0x1C ∨ regAddr a = 0x1E ∨ regAddr a = 0x20 →
    exec (.registerWrite a w) s = .next { s with mbox := { s.mbox with ovr := true } }) ∧
  (∀ (w : Word) (c : Cmd) s, hostBus s = true → regOpen s 0x18 = true → s.mbox.busy = false → s.mbox.run = some c → exec (.registerWrite 0x18 w) s = .next { s with mbox :=
    { s.mbox with cmd := w.setWidth 8, busy := true, done := false, ovr := false, byDbg := false, waiting := some ⟨.host, w.setWidth 8, s.mbox.args⟩ } }) ∧
  (∀ (a : BitVec 8) (w : Word) s, regOpen s 0x18 = true → s.sys.vddioa = true → s.sys.pwr = .entering → regAddr a = 0x18 → ∃ t, exec (.registerWrite a w) s = .next t ∧
    t.mbox = { s.mbox with ovr := true } ∧ { t with mbox := s.mbox, sys := { t.sys with wakeLatch := s.sys.wakeLatch } } = s) ∧
  (∀ (c : Cmd) s, coreOn s = true → s.mbox.run = none → s.mbox.waiting = some c → exec .mailboxCommandStart s =
    .next { s with mbox := { s.mbox with run := some c, waiting := none } }) ∧
  (∀ (c : Cmd) (cs : List Cmd) s, coreOn s = true → s.mbox.run = none → s.mbox.waiting = none → s.mbox.remote = c :: cs → exec .mailboxCommandStart s =
    .next { s with mbox := { s.mbox with run := some c, remote := cs } }) ∧
  (∀ s, (coreOn s = false ∨ s.mbox.run.isSome = true ∨ (s.mbox.waiting = none ∧ s.mbox.remote = [])) → exec .mailboxCommandStart s = .next s) ∧
  (∀ (c : Cmd) s, coreOn s = true → s.mbox.run = some c → c.sender = .host → s.mbox.cut = true → ∃ t, exec .commandInterrupted s = .next t ∧
    answered t 0x21 (b2n (cutHadEffect s) 0) 0 ∧ t.link = { s.link with sendWait := none } ∧ t.store = { s.store with yielded := false } ∧
    { t with mbox := s.mbox, bus := s.bus, link := s.link, store := s.store } = s) ∧
  (∀ s, s.mbox.cut = false → exec .commandInterrupted s = .next s)

/-- A host command that the checks refuse ends with the status of the first check that fails and changes nothing else, whatever its row: an unassigned code, a
class that CMDMASK denies, which raises source 45, the boot window, the safe state, the lifecycle, and a disabled block; a code or form without a
row of its own is refused too, with BADARG where only the form has none, the model's reading (R431, R433, R436, R439; log 7). -/
def Obligations.MailboxChecks : Prop :=
  (∀ (code : Byte) s, mboxFree s = true → assignedCodes.contains code.toNat = false → ∃ t, exec (rowOf ⟨.host, code, s.mbox.args⟩) s = .next t ∧
    answered t 0x10 0 0 ∧ { t with mbox := s.mbox, bus := s.bus } = s) ∧
  (∀ (code : Byte) s, mboxFree s = true → assignedCodes.contains code.toNat = true → classOf code.toNat ≠ 0 → bit (vget s.sec.img 24 0) (classOf code.toNat) = false →
    ∃ t, exec (rowOf ⟨.host, code, s.mbox.args⟩) s = .next t ∧ answered t 0x11 0 0 ∧ waits t 45 0 (w16 (3 + code.toNat * 256)) ∧ { quietly s t with mbox := s.mbox } = s) ∧
  (∀ (code : Byte) s, mboxFree s = true → assignedCodes.contains code.toNat = true → classOf code.toNat = 0 ∨ bit (vget s.sec.img 24 0) (classOf code.toNat) = true →
    s.sys.boot < 5 → bootCodes.contains code.toNat = false → ∃ t, exec (rowOf ⟨.host, code, s.mbox.args⟩) s = .next t ∧
    answered t 0x12 0 0 ∧ { t with mbox := s.mbox, bus := s.bus } = s) ∧
  (∀ (code : Byte) s, mboxFree s = true → assignedCodes.contains code.toNat = true → classOf code.toNat = 0 ∨ bit (vget s.sec.img 24 0) (classOf code.toNat) = true →
    5 ≤ s.sys.boot ∨ bootCodes.contains code.toNat = true → s.flt.safe = true → safeCodes.contains code.toNat = false → ∃ t, exec (rowOf ⟨.host, code, s.mbox.args⟩) s = .next t ∧
    answered t 0x13 0 0 ∧ { t with mbox := s.mbox, bus := s.bus } = s) ∧
  (∀ (code : Byte) s, mboxFree s = true → assignedCodes.contains code.toNat = true → classOf code.toNat = 0 ∨ bit (vget s.sec.img 24 0) (classOf code.toNat) = true →
    5 ≤ s.sys.boot ∨ bootCodes.contains code.toNat = true → s.flt.safe = false ∨ safeCodes.contains code.toNat = true → lifecycleOk code.toNat s.mbox.args s.sec.lc = false →
    ∃ t, exec (rowOf ⟨.host, code, s.mbox.args⟩) s = .next t ∧ answered t 0x14 0 0 ∧ { t with mbox := s.mbox, bus := s.bus } = s) ∧
  (∀ (code : Byte) (b : Blk) s, mboxFree s = true → assignedCodes.contains code.toNat = true → classOf code.toNat = 0 ∨ bit (vget s.sec.img 24 0) (classOf code.toNat) = true →
    5 ≤ s.sys.boot ∨ bootCodes.contains code.toNat = true → s.flt.safe = false ∨ safeCodes.contains code.toNat = true → lifecycleOk code.toNat s.mbox.args s.sec.lc = true →
    blockOf code.toNat s.mbox.args = some b → blkOn s b = false → ∃ t, exec (rowOf ⟨.host, code, s.mbox.args⟩) s = .next t ∧ answered t 0x15 0 0 ∧
    { t with mbox := s.mbox, bus := s.bus } = s) ∧
  (∀ (code : Byte) a s, mboxFree s = true → assignedCodes.contains code.toNat = false → ∃ t, exec (.unassignedCommand code a) s = .next t ∧
    answered t 0x10 0 0 ∧ { t with mbox := s.mbox, bus := s.bus } = s) ∧
  (∀ (code : Byte) a s, mboxFree s = true → noRow code a = true → admitted code a s = true → ∃ t, exec (.unassignedCommand code a) s = .next t ∧
    answered t 0x16 0 0 ∧ { t with mbox := s.mbox, bus := s.bus } = s)

/-! ### The link -/

/-- Lock and breaks: a lock takes an unlocked follower to FORWARD, or to JOINING when it was a member; its loss holds RCK and lets FCO start; a
break without lock, or an upstream one, raises source 34 and takes a follower to UNLOCKED without its number, its queues empty, and one without lock takes a judged RCK from an unlocked follower. Slots: the master sends a forwarded
frame before its own in an odd slot and keeps a good foreign frame for forwarding with HC + 1 and SEEN, but without lock or in a break the slot
that it receives is lost; a follower forwards with HC + 1, voids its own frames and those meant for it alone, and marks a bad slot; a member injects
a local frame into an empty odd slot alone; a wrong CRC raises source 35, a code violation source 36, and a reserved type is
only counted (R276, R280 to R285, R293, R295, R300, R303, R308). -/
def Obligations.LinkSlots : Prop :=
  (∀ s, linkLive s = true → s.link.lock = false → s.link.st = .unlocked → exec .lockAcquired s = .next { s with
    link := { s.link with lock := true, brk := false, st := if s.link.rejoin then .joining else .forward, rejoin := false }, clk := { s.clk with holdover := false } }) ∧
  (∀ s, linkLive s = true → s.link.lock = true → s.link.st ≠ .master → exec .lockLost s =
    .next { s with link := { s.link with lock := false }, clk := { s.clk with holdover := true, fcoOn := true } }) ∧
  (∀ s, linkLive s = true → s.link.lock = true → s.link.st = .master → exec .lockLost s = .next { s with link := { s.link with lock := false } }) ∧
  (∀ up s, breaks s up = true → s.link.st = .master → ∃ t, exec (.linkBreak up) s = .next t ∧ t.link = { s.link with brk := true } ∧ waits t 34 0 (w16 (b2n up 0)) ∧
    { quietly s t with link := s.link } = s) ∧
  (∀ up s, breaks s up = true → s.link.st ≠ .master → ∃ t, exec (.linkBreak up) s = .next t ∧ t.link.st = .unlocked ∧ t.link.node = 0 ∧ t.link.brk = true ∧ t.link.out = [] ∧
    t.link.fwd = [] ∧ t.link.mir.valid = false ∧ t.link.mir.applied = 0 ∧ t.link.sendWait = none ∧ (s.link.st = .member → t.link.rejoin = true) ∧ waits t 34 0 (w16 (b2n up 0)) ∧
    t.chan = s.chan ∧ t.store = s.store ∧ t.wheel = s.wheel ∧ t.pending = s.pending) ∧
  (∀ up s, breaks s up = false → breaksAgain s up = false → exec (.linkBreak up) s = .next s) ∧
  (∀ up s, breaksAgain s up = true → ∃ t, exec (.linkBreak up) s = .next t ∧ t.clk.rckok = false ∧ t.link.st = .unlocked ∧ t.chan = s.chan ∧ t.store = s.store ∧ t.wheel = s.wheel ∧
    t.pending = s.pending) ∧
  (∀ (f : Frame) (fs : List Frame) s, linkLive s = true → s.link.st = .master → s.link.k.getLsbD 0 = true → s.link.fwd = f :: fs → ∃ t, exec (.slotTransmit (.empty false)) s = .next t ∧
    t.link = { s.link with k := s.link.k + 1, fwd := fs, sent := .full f } ∧ { t with link := s.link } = s) ∧
  (∀ rx s, linkLive s = true → s.link.st = .master → endpoint s = false → s.link.k.getLsbD 0 = false → s.link.out = [] → exec (.slotTransmit rx) s =
    .next { s with link := { s.link with k := s.link.k + 1, sent := .empty false } }) ∧
  (∀ (o : OutFrame) (os : List OutFrame) (f : Frame) s, endpoint s = true → s.link.st = .master → s.link.k.getLsbD 0 = false → s.link.out = o :: os → o.stamp = none → o.rank ≠ rankJoin →
    crcState f = .good → fSrc f ≠ 0 → fVoid f = false → fSeen f = false → f.ext.toNat / 64 = 0 → fHc f < 31 → ∃ t, exec (.slotTransmit (.full f)) s = .next t ∧ t.link.sent = .full o.frame ∧ t.link.out = os ∧
    t.link.fwd.take s.link.fwd.length = s.link.fwd ∧ t.link.fwd.length = s.link.fwd.length + 1 ∧
    (∀ g ∈ t.link.fwd.drop s.link.fwd.length, fHc g = fHc f + 1 ∧ fSeen g = true ∧ fSrc g = fSrc f ∧ g.payload = f.payload ∧ crcState g = .good) ∧ { t with link := s.link } = s) ∧
  (∀ (f : Frame) s, linkLive s = true → follows s = true → s.link.lock = true → crcState f = .good → f.ty ≠ 9 → f.ext.toNat / 64 = 0 → fHc f < 31 → ∃ t, exec (.cutThroughForward (.full f)) s = .next t ∧
    t.link = { s.link with sent := .full (forwarded s false f), open_ := false, mir := { s.link.mir with tooth := if accepts s f && f.ty == 1 then some s.clk.tb else s.link.mir.tooth } } ∧
    fHc (forwarded s false f) = fHc f + 1 ∧ (forwarded s false f).payload = f.payload ∧ crcState (forwarded s false f) = .good ∧ fSrc (forwarded s false f) = fSrc f ∧
    fVoid (forwarded s false f) = (fVoid f || voids s f) ∧ { t with link := s.link } = s) ∧
  (∀ (f : Frame) s, linkLive s = true → follows s = true → s.link.lock = true → f.ext.toNat / 64 = 0 → fHc f < 31 → ∃ t, exec (.cutThroughForward (.bad f)) s = .next t ∧
    t.link = { s.link with sent := .marked (forwarded s true f), open_ := false } ∧ crcState (forwarded s true f) = .poisoned ∧ { t with link := s.link } = s) ∧
  (∀ odd s, linkLive s = true → follows s = true → s.link.lock = true → exec (.cutThroughForward (.empty odd)) s = .next { s with link := { s.link with sent := .empty odd, open_ := odd } }) ∧
  (∀ (o : OutFrame) (os : List OutFrame) s, linkLive s = true → s.link.st = .member → s.link.open_ = true → s.link.out = o :: os → exec .localInjection s =
    .next { s with link := { s.link with out := os, sent := .full o.frame, open_ := false } }) ∧
  (∀ s, s.link.st ≠ .member ∨ s.link.open_ = false → exec .localInjection s = .next s) ∧
  (∀ (f : Frame) s, endpoint s = true → crcState f = .wrong → ∃ t, exec (.linkFrameError (.full f)) s = .next t ∧
    t.link = { s.link with crcErr := if s.link.crcErr < 65535 then s.link.crcErr + 1 else 65535 } ∧ waits t 35 0 (w16 (fSrc f + 32 * f.ty)) ∧ { quietly s t with link := s.link } = s) ∧
  (∀ (f : Frame) s, endpoint s = true → ∃ t, exec (.linkFrameError (.bad f)) s = .next t ∧
    t.link = { s.link with codeViol := if s.link.codeViol < 65535 then s.link.codeViol + 1 else 65535 } ∧ waits t 36 0 0 ∧ { quietly s t with link := s.link } = s) ∧
  (∀ (f : Frame) s, accepts s f = true → f.ty = 0 ∨ 12 ≤ f.ty → exec (.reservedFrame f) s =
    .next { s with link := { s.link with resvd := if s.link.resvd < 65535 then s.link.resvd + 1 else 65535 } })

/-- The mirror: a TOOTH frame with its GEOM frame updates position, half and stamp of the mirror, a record without its GEOM frame
is discarded, STATE1 and STATE2 together give sF, and STATE2 the master's state and the cycle count, CONFIG is compared with the unit's own wheel, a first missing record is
bridged by a synthetic tooth and the second in a row ends the mirror. Messages and commands of the ring: HOST and REPLY enter the receive
store, four for each source, CREDIT returns credits up to 4, REMOTE waits for the firmware, FAULT raises source 38, and JOIN gives a
joining follower or a member its number; the state codes 6 and 7 are left aside here (R287 to R290, R296 to R299, R302, R305). -/
def Obligations.LinkFrames : Prop :=
  (∀ (f g : Frame) (trx : Tb) s, accepts s f = true → f.ty = 1 → follows s = true → s.wheel.cfgd = true → accepts s g = true → g.ty = 2 → payBits f.payload 23 3 ≤ 5 →
    ∃ t, exec (.toothRecord f (.full g) trx) s = .next t ∧ t.link.mir.pos = payBits f.payload 12 8 ∧ t.link.mir.half = payBits f.payload 20 1 ∧ t.link.mir.missing = 0 ∧ t.link.mir.tooth = none ∧
    t.link.mir.p.tk = trx - BitVec.ofNat 48 (payBits f.payload 0 12 + linkDelay s (fHc f)) ∧ t.link.mir.rstate = Sync.ofCode (payBits f.payload 23 3) ∧
    t.link.mir.gNext = ((g.payload >>> 16).setWidth 16).toInt ∧ t.wheel = s.wheel ∧ t.pred = s.pred ∧ t.chan = s.chan ∧ t.store = s.store ∧ t.mbox = s.mbox ∧ t.pending = s.pending) ∧
  (∀ (f : Frame) (trx : Tb) (rx : RxSlot) s, accepts s f = true → f.ty = 1 → follows s = true → s.wheel.cfgd = true → geomOf s rx = none → exec (.toothRecord f rx trx) s =
    .next { s with link := { s.link with mir := { s.link.mir with tooth := none } } }) ∧
  (∀ (f : Frame) s, accepts s f = true → f.ty = 3 → follows s = true → exec (.state1 f) s = .next { s with link := { s.link with mir := { s.link.mir with state1 := some f.payload } } }) ∧
  (∀ (f : Frame) (lo : BitVec 32) s, accepts s f = true → f.ty = 4 → follows s = true → s.link.mir.state1 = some lo → ∃ t, exec (.state2 f) s = .next t ∧
    t.link.mir.stateSeen = true ∧ t.link.mir.p.sF = ((f.payload.setWidth 8).append lo : BitVec 40).toInt ∧ t.link.mir.state1 = none ∧ t.wheel = s.wheel ∧ t.pred = s.pred ∧ t.store = s.store) ∧
  (∀ (f : Frame) s, accepts s f = true → f.ty = 4 → follows s = true → s.link.mir.state1 = none → ∃ t, exec (.state2 f) s = .next t ∧
    t.link.mir.stateSeen = s.link.mir.stateSeen ∧ t.link.mir.p.sF = s.link.mir.p.sF) ∧
  (∀ (f : Frame) s, accepts s f = true → f.ty = 4 → follows s = true → payBits f.payload 24 3 ≤ 5 → ∃ t, exec (.state2 f) s = .next t ∧ t.link.mir.rstate = Sync.ofCode (payBits f.payload 24 3) ∧
    t.link.mir.hv = f.payload.getLsbD 27 ∧ (t.sched.cyc = f.payload.extractLsb' 8 16 ∨ t.sched.cyc = f.payload.extractLsb' 8 16 + 1) ∧
    t.wheel = s.wheel ∧ t.pred = s.pred ∧ t.chan = s.chan ∧ t.store = s.store ∧ t.mbox = s.mbox ∧ t.pending = s.pending) ∧
  (∀ (f : Frame) s, accepts s f = true → f.ty = 5 → follows s = true → s.wheel.cfgd = true → f.payload ≠ configPayload s.wheel.cfg → ∃ t, exec (.config f) s = .next t ∧
    t.link.mir.cfgOk = false ∧ t.link.mir.valid = false ∧ waits t 37 0 3 ∧ t.wheel = s.wheel ∧ t.chan = s.chan ∧ t.store = s.store ∧ t.pending = s.pending) ∧
  (∀ (f : Frame) s, accepts s f = true → f.ty = 5 → follows s = true → s.wheel.cfgd = true → f.payload = configPayload s.wheel.cfg → ∃ t, exec (.config f) s = .next t ∧
    t.link.mir.cfgOk = true ∧ t.wheel = s.wheel ∧ t.chan = s.chan ∧ t.store = s.store ∧ t.pending = s.pending) ∧
  (∀ s, dueMissing s = true → s.link.mir.valid = true → s.link.mir.missing = 0 → ∃ t, exec .recordMissingDeadline s = .next t ∧ t.link.mir.missing = 1 ∧
    t.link.mir.pos = nextPos s.wheel.cfg s.link.mir.pos ∧ t.link.mir.valid = true ∧ { t with link := { t.link with mir := s.link.mir } } = s) ∧
  (∀ s, dueMissing s = true → s.link.mir.valid = true → 1 ≤ s.link.mir.missing → ∃ t, exec .recordMissingDeadline s = .next t ∧ t.link.mir.valid = false ∧ t.link.mir.applied = 0 ∧
    (s.link.mir.ring = true → waits t 39 0 1 ∧ t.link.mir.ring = false) ∧ t.wheel = s.wheel ∧ t.chan = s.chan ∧ t.store = s.store ∧ t.pending = s.pending) ∧
  (∀ s, dueMissing s = false → exec .recordMissingDeadline s = .next s) ∧
  (∀ (f : Frame) s, accepts s f = true → f.ty = 6 → ∃ t, exec (.faultFrame f) s = .next t ∧
    waits t 38 0 (w16 (fSrc f + 32 * payBits f.payload 0 6 + 2048 * payBits f.payload 6 2 + 8192 * payBits f.payload 15 1)) ∧ quietly s t = s) ∧
  (∀ (f : Frame) s, accepts s f = true → f.ty = 7 → fBc f = false → (s.link.rx.filter fun x => x.src == fSrc f).length < 4 → ∃ t, exec (.hostFrame f) s = .next t ∧
    t.link = { s.link with rx := s.link.rx ++ [⟨fSrc f, false, f.payload⟩] } ∧ bit t.bus.intstat 9 = true ∧ { quietly s t with link := s.link } = s) ∧
  (∀ (f : Frame) s, accepts s f = true → f.ty = 11 → fBc f = false → (s.link.rx.filter fun x => x.src == fSrc f).length < 4 → ∃ t, exec (.replyFrame f) s = .next t ∧
    t.link = { s.link with rx := s.link.rx ++ [⟨fSrc f, true, f.payload⟩] } ∧ bit t.bus.intstat 9 = true ∧ { quietly s t with link := s.link } = s) ∧
  (∀ (f : Frame) s, accepts s f = true → f.ty = 8 → fBc f = false → s.link.sendWait = none → exec (.creditFrame f) s = .next { s with link :=
    { s.link with credits := vput s.link.credits (fSrc f) (min 4 (vget s.link.credits (fSrc f) 0 + payBits f.payload 0 2 + 1)) } }) ∧
  (∀ (f : Frame) s, accepts s f = true → f.ty = 10 → fBc f = false → exec (.remoteFrame f) s = .next { s with mbox := { s.mbox with remote := s.mbox.remote ++
    [⟨.ring (fSrc f) (f.payload.extractLsb' 24 8), f.payload.extractLsb' 0 8, ⟨f.payload.extractLsb' 8 16, 0, 0, 0⟩⟩] } }) ∧
  (∀ (f : Frame) delay s, f.ty = 9 → endpoint s = true → crcState f = .good → fVoid f = false → f.ext.toNat / 64 = 0 → s.link.st = .joining ∨ s.link.st = .member → f.payload.getLsbD 5 = false →
    s.link.sendWait = none → ∃ t, exec (.joinFrame f delay) s = .next t ∧ t.link = { s.link with st := .member, node := payBits f.payload 0 5, credits := Vector.replicate 32 4, ringSize := t.link.ringSize } ∧
    payBits f.payload 0 5 < t.link.ringSize ∧ { t with link := s.link, free := s.free } = s) ∧
  (∀ (f : Frame) delay s, f.ty = 9 → endpoint s = true → crcState f = .good → fVoid f = false → f.ext.toNat / 64 = 0 → s.link.st = .joining ∨ s.link.st = .member → f.payload.getLsbD 5 = true →
    ∃ t, exec (.joinFrame f delay) s = .next t ∧ waits t 37 0 2 ∧ quietly s t = s) ∧
  (∀ (f : Frame) delay s, s.link.st = .forward → exec (.joinFrame f delay) s = .next s) ∧
  (∀ (f : Frame) delay s, f.ty = 9 → endpoint s = true → crcState f = .good → fVoid f = false → f.ext.toNat / 64 = 0 → s.link.st = .master → s.link.joining = false →
    ∃ t, exec (.joinFrame f delay) s = .next t ∧ waits t 37 0 1 ∧ quietly s t = s)

/-- LINK_ROLE takes a role only in OFF, and not during the pin-drive test, and answers its queries; OFF ends every state of the link. LINK_JOIN starts an enumeration at the master, which
ends with the size and the delay that the returning JOIN frame gives, also when the core is halted then, or with TIMEOUT 100 µs after its departure
without the JOIN frame, and makes a follower joining. LINK_SEND needs a number and a unit of the ring, of whose size a member takes a
free value (the model's choice, log 12), takes a credit, waits for one, or with NOWAIT answers NOCREDIT, and a credit that comes ends the wait; RECV gives the oldest message and returns a credit (R296, R297, R300, R301, R303, R401, R451 to R453; log 12). -/
def Obligations.LinkCommands : Prop :=
  (∀ a s, mboxFree s = true → admitted 0x28 a s = true → within a.a0 0xFF37 = true → fld a.a0 0 2 = 1 → s.link.st = .off → s.dbg.ptest = false → ∃ t, exec (.linkRole a) s = .next t ∧ answered t 0 0 0 ∧
    t.link = { s.link with st := .master, backup := bit a.a0 2, cable := fld a.a0 8 8, k := 0 } ∧ { t with mbox := s.mbox, bus := s.bus, link := s.link } = s) ∧
  (∀ a s, mboxFree s = true → admitted 0x28 a s = true → within a.a0 0xFF37 = true → fld a.a0 0 2 = 2 → s.link.st = .off → s.dbg.ptest = false → ∃ t, exec (.linkRole a) s = .next t ∧ answered t 0 0 0 ∧
    t.link = { s.link with st := .unlocked, backup := bit a.a0 2, cable := fld a.a0 8 8, k := 0 } ∧ { t with mbox := s.mbox, bus := s.bus, link := s.link } = s) ∧
  (∀ a s, mboxFree s = true → admitted 0x28 a s = true → within a.a0 0xFF37 = true → fld a.a0 0 2 = 1 ∨ fld a.a0 0 2 = 2 → s.link.st ≠ .off ∨ s.dbg.ptest = true → ∃ t, exec (.linkRole a) s = .next t ∧
    answered t 0x1A 0 0 ∧ { t with mbox := s.mbox, bus := s.bus } = s) ∧
  (∀ a s, mboxFree s = true → admitted 0x28 a s = true → within a.a0 0xFF37 = true → fld a.a0 0 2 = 0 → ∃ t, exec (.linkRole a) s = .next t ∧ answered t 0 0 0 ∧ t.link.st = .off ∧
    t.link.node = 0 ∧ t.link.out = [] ∧ t.link.mir.valid = false ∧ t.link.mir.ring = false ∧ t.wheel = s.wheel ∧ t.chan = s.chan ∧ t.store = s.store ∧ t.pending = s.pending) ∧
  (∀ a s, mboxFree s = true → admitted 0x28 a s = true → within a.a0 0xFF37 = true → fld a.a0 0 2 = 3 → fld a.a0 4 2 = 1 → ∃ t, exec (.linkRoleQuery a) s = .next t ∧
    answered t 0 s.link.crcErr s.link.codeViol ∧ { t with mbox := s.mbox, bus := s.bus } = s) ∧
  (∀ a s, mboxFree s = true → admitted 0x28 a s = true → within a.a0 0xFF37 = true → fld a.a0 0 2 = 3 → fld a.a0 4 2 = 0 → s.link.st = .master → ∃ t, exec (.linkRoleQuery a) s = .next t ∧
    answered t 0 s.link.ringSize s.link.loopDelay ∧ { t with mbox := s.mbox, bus := s.bus } = s) ∧
  (∀ a s, mboxFree s = true → admitted 0x28 a s = true → within a.a0 0xFF37 = true → fld a.a0 0 2 = 3 → fld a.a0 4 2 = 2 → ∃ t, exec (.linkRoleQuery a) s = .next t ∧
    answered t 0 s.link.resvd (linkstat s).toNat ∧ { t with mbox := s.mbox, bus := s.bus } = s) ∧
  (∀ s, mboxFree s = true → admitted 0x29 s.mbox.args s = true → s.link.st = .off ∨ s.link.st = .unlocked → ∃ t, exec .linkJoin s = .next t ∧ answered t 0x1A 0 0 ∧
    { t with mbox := s.mbox, bus := s.bus } = s) ∧
  (∀ s, mboxFree s = true → admitted 0x29 s.mbox.args s = true → s.link.st = .forward ∨ s.link.st = .member → s.link.sendWait = none → ∃ t, exec .linkJoin s = .next t ∧ answered t 0 0 0 ∧
    t.link = { s.link with st := .joining, node := 0, out := [], fwd := [], open_ := false, joining := false, joinAt := none } ∧ { t with mbox := s.mbox, bus := s.bus, link := s.link } = s) ∧
  (∀ s, mboxFree s = true → admitted 0x29 s.mbox.args s = true → s.link.st = .master → ∃ t, exec .linkJoin s = .next t ∧ t.mbox.busy = true ∧ t.mbox.committed = true ∧
    t.link = { s.link with out := insertOut ⟨rankJoin, mkFrame 9 0 0 true 1, none⟩ s.link.out, joining := true, joinAt := none } ∧ { t with mbox := s.mbox, bus := s.bus, link := s.link } = s) ∧
  (∀ (f : Frame) (delay : Nat) (c : Cmd) s, f.ty = 9 → endpoint s = true → crcState f = .good → fVoid f = false → f.ext.toNat / 64 = 0 → f.payload.getLsbD 5 = false → s.link.st = .master →
    s.link.joining = true → s.link.joinAt.isSome = true → coreOn s = true → s.mbox.run = some c → c.sender = .host → c.code = 0x29 → s.mbox.committed = true → s.mbox.cut = false →
    s.link.sendWait = none → ∃ t, exec (.joinFrame f delay) s = .next t ∧ answered t 0 (payBits f.payload 0 5) delay ∧ t.link.ringSize = payBits f.payload 0 5 ∧ t.link.loopDelay = delay ∧
    t.link.enumerated = true ∧ t.link.joining = false ∧ t.link.credits = Vector.replicate 32 4 ∧ { t with mbox := s.mbox, bus := s.bus, link := s.link } = s) ∧
  (∀ (o : OutFrame) (os : List OutFrame) s, linkLive s = true → s.link.st = .master → s.link.k.getLsbD 0 = false → s.link.out = o :: os → o.stamp = none → o.rank = rankJoin →
    exec (.slotTransmit (.empty false)) s = .next { s with link := { s.link with k := s.link.k + 1, sent := .full o.frame, out := os, joinAt := some s.clk.tb } }) ∧
  (∀ (f : Frame) (delay : Nat) (c : Cmd) s, f.ty = 9 → endpoint s = true → crcState f = .good → fVoid f = false → f.ext.toNat / 64 = 0 → s.link.st = .master →
    s.link.joining = true → s.link.joinAt.isSome = true → s.dbg.halted = true → s.mbox.run = some c → c.code = 0x29 → s.mbox.committed = true → s.mbox.cut = false →
    s.link.sendWait = none → ∃ t, exec (.joinFrame f delay) s = .next t ∧ dueJoin t = false ∧ t.link.enumerated = true ∧
    t.mbox = { s.mbox with ready := some (0, if f.payload.getLsbD 5 then 32 else payBits f.payload 0 5, delay) } ∧ { t with mbox := s.mbox, link := s.link } = s) ∧
  (∀ s, dueJoin s = false → exec .joinTimeout s = .next s) ∧
  (∀ (c : Cmd) s, dueJoin s = true → coreOn s = true → s.mbox.run = some c → c.sender = .host → c.code = 0x29 → s.mbox.committed = true → s.mbox.cut = false → ∃ t, exec .joinTimeout s = .next t ∧
    answered t 0x1B 0 0 ∧ t.link = { s.link with joining := false, joinAt := none } ∧ { t with mbox := s.mbox, bus := s.bus, link := s.link } = s) ∧
  (∀ a s, mboxFree s = true → admitted 0x2A (linkForm 0 a) s = true → within (linkForm 0 a).a0 0xC11F = true → onRing s = true → dstOk s (fld a.a0 0 5) = true →
    0 < vget s.link.credits (fld a.a0 0 5) 0 → ∃ t, exec (.linkSend a) s = .next t ∧ answered t 0 0 0 ∧ t.link = { s.link with
      credits := vput s.link.credits (fld a.a0 0 5) (vget s.link.credits (fld a.a0 0 5) 0 - 1),
      out := insertOut ⟨rankHost, mkFrame 7 s.link.node (fld a.a0 0 5) false (a.a2.append a.a1), none⟩ s.link.out } ∧ { t with mbox := s.mbox, bus := s.bus, link := s.link } = s) ∧
  (∀ a s, mboxFree s = true → admitted 0x2A (linkForm 0 a) s = true → within (linkForm 0 a).a0 0xC11F = true → onRing s = false → ∃ t, exec (.linkSend a) s = .next t ∧
    answered t 0x1A 0 0 ∧ { t with mbox := s.mbox, bus := s.bus } = s) ∧
  (∀ a s, mboxFree s = true → admitted 0x2A (linkForm 0 a) s = true → within (linkForm 0 a).a0 0xC11F = true → onRing s = true → dstOk s (fld a.a0 0 5) = true →
    vget s.link.credits (fld a.a0 0 5) 0 = 0 → bit a.a0 8 = true → ∃ t, exec (.linkSend a) s = .next t ∧ answered t 0x19 0 0 ∧ { t with mbox := s.mbox, bus := s.bus } = s) ∧
  (∀ a s, mboxFree s = true → admitted 0x2A (linkForm 0 a) s = true → within (linkForm 0 a).a0 0xC11F = true → onRing s = true → dstOk s (fld a.a0 0 5) = true →
    vget s.link.credits (fld a.a0 0 5) 0 = 0 → bit a.a0 8 = false → ∃ t, exec (.linkSend a) s = .next t ∧ t.mbox.busy = true ∧ t.mbox.committed = true ∧
    t.link = { s.link with sendWait := some (fld a.a0 0 5, ⟨rankHost, mkFrame 7 s.link.node (fld a.a0 0 5) false (a.a2.append a.a1), none⟩) } ∧ { t with mbox := s.mbox, bus := s.bus, link := s.link } = s) ∧
  (∀ (f : Frame) (o : OutFrame) (c : Cmd) s, accepts s f = true → f.ty = 8 → fBc f = false → s.link.sendWait = some (fSrc f, o) → o.frame.ty = 7 → coreOn s = true → s.mbox.run = some c → c.sender = .host →
    c.code = 0x2A → s.mbox.committed = true → s.mbox.cut = false → s.flt.safe = false → blkOn s .link = true → dstOk s (fSrc f) = true → ∃ t, exec (.creditFrame f) s = .next t ∧ answered t 0 0 0 ∧
    t.link.sendWait = none ∧ vget t.link.credits (fSrc f) 0 = min 4 (vget s.link.credits (fSrc f) 0 + payBits f.payload 0 2 + 1) - 1 ∧ t.link.out.length = s.link.out.length + 1 ∧
    { t with mbox := s.mbox, bus := s.bus, link := s.link } = s) ∧
  (∀ a s, mboxFree s = true → admitted 0x2A (linkForm 2 a) s = true → within (linkForm 2 a).a0 0xC11F = true → onRing s = true → dstOk s (fld a.a0 0 5) = true →
    0 < vget s.link.credits (fld a.a0 0 5) 0 → ∃ t, exec (.linkSendRemote a) s = .next t ∧ answered t 0 (fld a.a1 8 8) 0 ∧
    t.link.credits = vput s.link.credits (fld a.a0 0 5) (vget s.link.credits (fld a.a0 0 5) 0 - 1) ∧ t.link.out.length = s.link.out.length + 1 ∧
    { t with mbox := s.mbox, bus := s.bus, link := { t.link with credits := s.link.credits, out := s.link.out } } = s) ∧
  (∀ a (m : RxMsg) (rest : List RxMsg) s, mboxFree s = true → admitted 0x2A (linkForm 1 a) s = true → within (linkForm 1 a).a0 0xC000 = true → onRing s = true → s.link.rx = m :: rest →
    ∃ t, exec (.linkSendRecv a) s = .next t ∧ answered t 0 (m.src + b2n m.reply 8 + 512 * min 127 rest.length) 0 ∧ t.link.rx = rest ∧ t.link.rxHold = m ∧
    t.link.out = insertOut ⟨rankCredit, mkFrame 8 s.link.node m.src false 0, none⟩ s.link.out ∧
    { t with mbox := s.mbox, bus := s.bus, link := { t.link with rx := s.link.rx, rxHold := s.link.rxHold, out := s.link.out } } = s) ∧
  (∀ a s, mboxFree s = true → admitted 0x2A (linkForm 1 a) s = true → within (linkForm 1 a).a0 0xC000 = true → s.link.rx = [] → ∃ t, exec (.linkSendRecv a) s = .next t ∧
    answered t 0x20 0 0 ∧ { t with mbox := s.mbox, bus := s.bus } = s) ∧
  (∀ a s, mboxFree s = true → admitted 0x2A (linkForm 3 a) s = true → within (linkForm 3 a).a0 0xC000 = true → ∃ t, exec (.linkSendData a) s = .next t ∧
    answered t 0 (s.link.rxHold.payload.extractLsb' 0 16).toNat (s.link.rxHold.payload.extractLsb' 16 16).toNat ∧ { t with mbox := s.mbox, bus := s.bus } = s)

/-! ### Store, lifecycle and debug port -/

/-- The record that a commit leaves is valid: its target holds MAGIC, the sequence number, LEN, FMT and the right CRC, the body that the shadow had and 30 reserved bytes of 0,
and the other bank keeps its bytes while no further request waits (R362, R363, R365, R370). -/
def Obligations.CommittedRecordIsValid : Prop :=
  ∀ (c : Commit) s, s.store.run = some c → s.store.yielded = false → ∃ t, exec (.commitComplete true) s = .next t ∧ recordValid (bank t c.target) = true ∧
    cell32 bankDefault 4 (bank t c.target) = c.seq % 4294967296 ∧
    (∀ i : Fin bodyLen, cellGet bankDefault (16 + i.val) (bank t c.target) = cellGet shadowDefault (16 + i.val) s.store.shadow) ∧
    (∀ i : Fin 30, cellGet bankDefault (16 + bodyLen + i.val) (bank t c.target) = 0) ∧
    (s.store.queue = [] → bank t (!c.target) = bank s (!c.target))

/-- STORE_READ answers two words of a bank, during a commit when the commit has yielded to it, and after the commit when that one is of the power
failure or PFAIL stands (what the target holds meanwhile is log 18); COMMIT erases the target and starts a commit when the shadow is dirty or
forced and answers CLEAN otherwise, CLEAR loads the defaults and commits; the first failure of a commit repeats it and the second
raises source 41 and leaves the target invalid, its bytes free values (R368, R370, R371, R373, R375, R377, R378, R454; log 18). -/
def Obligations.StoreCommands : Prop :=
  (∀ a s, mboxFree s = true → admitted 0x30 a s = true → within a.a0 1 = true → a.a1.toNat ≤ 1022 → s.store.run = none → ∃ t, exec (.storeRead a) s = .next t ∧
    answered t 0 (cell16 bankDefault (2 * a.a1.toNat) (bank s (bit a.a0 0))) (cell16 bankDefault (2 * a.a1.toNat + 2) (bank s (bit a.a0 0))) ∧ { t with mbox := s.mbox, bus := s.bus } = s) ∧
  (∀ a s, mboxFree s = true → admitted 0x30 a s = true → within a.a0 1 = false ∨ 1022 < a.a1.toNat → ∃ t, exec (.storeRead a) s = .next t ∧ answered t 0x16 0 0 ∧ { t with mbox := s.mbox, bus := s.bus } = s) ∧
  (∀ a s, mboxFree s = true → admitted 0x30 a s = true → within a.a0 1 = true → a.a1.toNat ≤ 1022 → s.store.run.isSome = true → readWaits s = true → ∃ t, exec (.storeRead a) s = .next t ∧
    t.mbox.busy = true ∧ t.mbox.committed = true ∧ { t with mbox := s.mbox } = s) ∧
  (∀ a (c : Commit) s, mboxFree s = true → admitted 0x30 a s = true → within a.a0 1 = true → a.a1.toNat ≤ 1022 → s.store.run = some c → s.sys.pfail = false → c.cause ≠ .pfail →
    ∃ t, exec (.storeRead a) s = .next t ∧ t.mbox.busy = true ∧ t.mbox.committed = true ∧ t.store.yielded = true ∧ (∀ d ∈ t.store.run, d.target = c.target ∧ d.cause = c.cause ∧ c.prog ≤ d.prog) ∧
    t.store.run.isSome = true ∧ { t with mbox := s.mbox, free := s.free, store := { t.store with yielded := s.store.yielded, run := s.store.run } } = s) ∧
  (∀ (c : Cmd) s, liveN s = true → s.mbox.run = some c → c.sender = .host → c.code = 0x30 → s.mbox.committed = true → s.mbox.cut = false → s.dbg.halted = false → s.store.run.isSome = true →
    s.store.yielded = true → ∃ t, exec .storeReadComplete s = .next t ∧ answered t 0 (readResult c.args s).1 (readResult c.args s).2 ∧ t.store = { s.store with yielded := false } ∧
    { t with mbox := s.mbox, bus := s.bus, store := s.store } = s) ∧
  (∀ ok s, s.store.yielded = true → exec (.commitComplete ok) s = .next s) ∧
  (∀ (c : Cmd) s, liveN s = true → s.mbox.run = some c → c.code = 0x30 → s.mbox.committed = true → readWaits s = true → exec .storeReadComplete s = .next s) ∧
  (∀ (c : Cmd) s, liveN s = true → s.mbox.run = some c → c.sender = .host → c.code = 0x30 → s.mbox.committed = true → s.mbox.cut = false → s.dbg.halted = false → s.store.run = none →
    ∃ t, exec .storeReadComplete s = .next t ∧ answered t 0 (readResult c.args s).1 (readResult c.args s).2 ∧ { t with mbox := s.mbox, bus := s.bus, store := { t.store with yielded := s.store.yielded } } = s) ∧
  (∀ a s, mboxFree s = true → admitted 0x31 { a with a0 := a.a0 &&& 0xFFFC } s = true → within a.a0 7 = true → s.store.run = none → s.store.dirty = true ∨ bit a.a0 2 = true →
    ∃ t, exec (.storeCommit a) s = .next t ∧ t.mbox.busy = true ∧ t.mbox.committed = true ∧ t.store.run = some ⟨commitTarget s, .host (bit a.a0 2), false, commitSeq s, 0⟩ ∧
    t.store.shadow = s.store.shadow ∧ bank t (commitTarget s) = [] ∧ bank t (!commitTarget s) = bank s (!commitTarget s) ∧ { t with mbox := s.mbox, store := s.store } = s) ∧
  (∀ a s, mboxFree s = true → admitted 0x31 { a with a0 := a.a0 &&& 0xFFFC } s = true → within a.a0 7 = true → s.store.run = none → s.store.dirty = false → bit a.a0 2 = false →
    ∃ t, exec (.storeCommit a) s = .next t ∧ answered t 1 0 0 ∧ { t with mbox := s.mbox, bus := s.bus } = s) ∧
  (∀ a s, mboxFree s = true → admitted 0x31 { a with a0 := (a.a0 &&& 0xFFFC) ||| 1 } s = true → within a.a0 7 = true → s.store.run = none →
    ∃ t, exec (.storeCommitClear a) s = .next t ∧ t.mbox.busy = true ∧ t.store.shadow = defaultShadow openImage ∧ t.store.run = some ⟨commitTarget s, .clear, false, commitSeq s, 0⟩ ∧
    { t with mbox := s.mbox, store := s.store } = s) ∧
  (∀ (c : Commit) s, s.store.run = some c → s.store.yielded = false → c.second = false → ∃ t, exec (.commitComplete false) s = .next t ∧ t.store.run = some { c with second := true, prog := 0 } ∧
    t.store.shadow = s.store.shadow ∧ recordValid (bank t c.target) = false ∧ bank t (!c.target) = bank s (!c.target) ∧ { t with store := s.store } = s) ∧
  (∀ (c : Commit) s, s.store.run = some c → s.store.yielded = false → c.second = true → s.store.queue = [] → isNative s = true → ∃ t, exec (.commitComplete false) s = .next t ∧ t.store.run = none ∧
    t.store.failed = (if s.store.failed < 65535 then s.store.failed + 1 else 65535) ∧
    waits t 41 0 (w16 (b2n c.target 0 + 2 * (match c.cause with | .pfail => 2 | .standby => 3 | _ => 1))) ∧ recordValid (bank t c.target) = false ∧ bank t (!c.target) = bank s (!c.target) ∧
    t.store.latest = s.store.latest ∧ (s.store.dirty = true → t.store.dirty = true) ∧
    { quietly s t with store := s.store, mbox := s.mbox, link := s.link, sys := s.sys, dbg := s.dbg, free := s.free } = s) ∧
  (∀ (c : Commit) (b : Bool) (m : Cmd) s, s.store.run = some c → s.store.yielded = false → c.cause = .host b → s.mbox.run = some m → m.sender = .host → m.code = 0x31 → s.mbox.committed = true → s.mbox.cut = false →
    s.dbg.halted = false → s.store.queue = [] → ∃ t, exec (.commitComplete true) s = .next t ∧ answered t 0 (b2n c.target 0) (c.seq % 65536) ∧ t.store.latest = (if c.target then 2 else 1) ∧
    t.store.commits = (if s.store.commits < 65535 then s.store.commits + 1 else 65535) ∧ { t with store := s.store, mbox := s.mbox, bus := s.bus } = s) ∧
  (∀ (c : Commit) (b : Bool) (m : Cmd) s, s.store.run = some c → s.store.yielded = false → c.second = true → c.cause = .host b → s.mbox.run = some m → m.sender = .host → m.code = 0x31 → s.mbox.committed = true →
    s.mbox.cut = false → s.dbg.halted = false → s.store.queue = [] → ∃ t, exec (.commitComplete false) s = .next t ∧ answered t 0x1C (b2n c.target 0) 0) ∧
  (∀ ok s, s.store.run = none → exec (.commitComplete ok) s = .next s)

/-- LIFECYCLE_ADVANCE writes a key word once and advances only with its key and a complete key area; the second word of an advance to SEALED follows the first,
but not while the core is halted, and the word that an interrupted advance was writing is written before the next (the model's reading, log 24); B3 and the end of every key word's write derive the
lifecycle from words 16 and 17, and an advance ends an unlock. A challenge is drawn unless the lockout holds, replaces an earlier one, and without one an answer is refused; a
right answer unlocks, and a wrong one counts, locks out and raises source 44 (R361, R382, R383, R390 to R392, R457 to R459; log 24). -/
def Obligations.SecurityCommands : Prop :=
  (∀ a s, mboxFree s = true → admitted 0x3E { a with a0 := a.a0 &&& 0x7FFF } s = true → within a.a0 0x800F = true → keyWritten s.sec (fld a.a0 0 4) = false → a.a1 ≠ 0xFFFF → s.sec.adv = none →
    ∃ t, exec (.lifecycleAdvanceKey a) s = .next t ∧ t.mbox.busy = true ∧ t.sec = { s.sec with adv := some (.key (fld a.a0 0 4) a.a1) } ∧ { t with mbox := s.mbox, sec := s.sec } = s) ∧
  (∀ a s, mboxFree s = true → admitted 0x3E { a with a0 := a.a0 &&& 0x7FFF } s = true → within a.a0 0x800F = true → keyWritten s.sec (fld a.a0 0 4) = true → s.sec.adv = none →
    ∃ t, exec (.lifecycleAdvanceKey a) s = .next t ∧ answered t 0x17 1 0 ∧ { t with mbox := s.mbox, bus := s.bus } = s) ∧
  (∀ a s, mboxFree s = true → admitted 0x3E { a with a0 := a.a0 ||| 0x8000 } s = true → within a.a0 0x8003 = true → fld a.a0 0 2 = 1 → a.a1 = 0x4C43 → s.sec.lc = 0 → keyComplete s.sec = true →
    keyWritten s.sec 16 = false → s.sec.adv = none → ∃ t, exec (.lifecycleAdvanceStep a) s = .next t ∧ t.mbox.busy = true ∧ t.sec = { s.sec with adv := some (.lock 1) } ∧ { t with mbox := s.mbox, sec := s.sec } = s) ∧
  (∀ a s, mboxFree s = true → admitted 0x3E { a with a0 := a.a0 ||| 0x8000 } s = true → within a.a0 0x8003 = true → fld a.a0 0 2 = 1 ∨ fld a.a0 0 2 = 2 → a.a1 ≠ 0x4C43 → s.sec.adv = none →
    ∃ t, exec (.lifecycleAdvanceStep a) s = .next t ∧ answered t 0x17 1 0 ∧ { t with mbox := s.mbox, bus := s.bus } = s) ∧
  (∀ a (w : Fin 16) v s, mboxFree s = true → admitted 0x3E { a with a0 := a.a0 &&& 0x7FFF } s = true → within a.a0 0x800F = true → keyWritten s.sec (fld a.a0 0 4) = false → a.a1 ≠ 0xFFFF →
    s.sec.adv = some (.key w.val v) → s.sec.keys[w.val]'(by omega) = 0xFFFF → w.val ≠ fld a.a0 0 4 → ∃ t, exec (.lifecycleAdvanceKey a) s = .next t ∧ t.mbox.busy = true ∧
    t.sec.keys = s.sec.keys.set w.val v (by omega) ∧ t.sec.adv = some (.key (fld a.a0 0 4) a.a1) ∧ { t with mbox := s.mbox, sec := s.sec } = s) ∧
  (∀ (w : Fin 16) v s, liveN s = true → s.sec.adv = some (.key w.val v) → s.sec.keys[w.val]'(by omega) = 0xFFFF → ∃ t, exec .keyWriteComplete s = .next t ∧ t.sec.adv = none ∧
    t.sec.keys = s.sec.keys.set w.val v (by omega) ∧ t.sec.unlk = s.sec.unlk ∧ { t with mbox := s.mbox, bus := s.bus, sec := s.sec, link := s.link } = s) ∧
  (∀ s, liveN s = true → s.sec.adv = some (.lock 1) → s.sec.keys[17] = 0xFFFF → s.sec.keys[16] = 0xFFFF → ∃ t, exec .keyWriteComplete s = .next t ∧ t.sec.lc = 1 ∧
    t.sec.keys = s.sec.keys.set 16 0x4C4B ∧ t.sec.adv = none ∧ t.sec.unlk = false ∧ t.sec.chal = none ∧ t.dbg = { s.dbg with ptest := false } ∧
    { t with mbox := s.mbox, bus := s.bus, sec := s.sec, link := s.link, dbg := s.dbg } = s) ∧
  (∀ s, liveN s = true → s.sec.adv = some .seal → ∃ t, exec .keyWriteComplete s = .next t ∧ t.sec.lc = 2 ∧ t.sec.adv = none ∧ t.sec.unlk = false ∧ t.sec.chal = none ∧
    { t with mbox := s.mbox, bus := s.bus, sec := s.sec, link := s.link, dbg := s.dbg } = s) ∧
  (∀ s, liveN s = true → s.sec.adv = some (.lock 2) → coreOn s = true → s.mbox.cut = false → s.sec.keys[17] = 0xFFFF → s.sec.keys[16] = 0xFFFF → exec .keyWriteComplete s =
    .next { s with sec := { s.sec with keys := s.sec.keys.set 16 0x4C4B, lc := 1, adv := some .seal } }) ∧
  (∀ s, s.sec.adv = some .sealNext → coreOn s = false → exec .keyWriteComplete s = .next s) ∧
  (∀ (d : Advance) s, liveN s = true → s.sec.adv = some d → d ≠ .sealNext ∨ coreOn s = true → ∃ t, exec .keyWriteComplete s = .next t ∧
    t.sec.lc = (if t.sec.keys[17] ≠ 0xFFFF then 2 else if t.sec.keys[16] ≠ 0xFFFF then 1 else 0) ∧ { t with mbox := s.mbox, bus := s.bus, sec := s.sec, link := s.link, dbg := s.dbg } = s) ∧
  (∀ s, inPhase s 3 = true → ∃ t, exec .recordApplied s = .next t ∧ t.sec.keys = s.sec.keys ∧
    t.sec.lc = (if t.sec.keys[17] ≠ 0xFFFF then 2 else if t.sec.keys[16] ≠ 0xFFFF then 1 else 0) ∧ t.store.bankA = s.store.bankA ∧ t.store.bankB = s.store.bankB ∧ t.pending = s.pending) ∧
  (∀ a s, mboxFree s = true → admitted 0x3C a s = true → within a.a0 7 = true → bit a.a0 2 = true → s.sec.unlk = false → s.sys.boot = 5 → s.clk.aocok = true → s.sec.lockout = false →
    ∃ t, exec (.unlockChallenge a) s = .next t ∧ answered t 0 (chalWord (Config.random s.free) (2 * fld a.a0 0 2)).toNat (chalWord (Config.random s.free) (2 * fld a.a0 0 2 + 1)).toNat ∧
    t.sec = { s.sec with chal := some (Config.random s.free), ansM := none } ∧ { t with mbox := s.mbox, bus := s.bus, sec := s.sec, free := s.free } = s) ∧
  (∀ a s, mboxFree s = true → admitted 0x3C a s = true → within a.a0 7 = true → bit a.a0 2 = true → s.sec.unlk = false → s.sys.boot = 5 → s.clk.aocok = true → s.sec.lockout = true →
    ∃ t, exec (.unlockChallenge a) s = .next t ∧ answered t 0x1E 0 0 ∧ { t with mbox := s.mbox, bus := s.bus } = s) ∧
  (∀ a s, mboxFree s = true → admitted 0x3D a s = true → s.sec.chal = none → ∃ t, exec (.unlockAnswer a) s = .next t ∧ answered t 0x1D 0 0 ∧ { t with mbox := s.mbox, bus := s.bus } = s) ∧
  (∀ a (x : BitVec 128) s, mboxFree s = true → admitted 0x3D a s = true → s.sec.chal = some x → s.sec.ansM = none → ∃ t, exec (.unlockAnswer a) s = .next t ∧ answered t 0 1 0 ∧
    t.sec = { s.sec with ansM := some (a.a3 ++ a.a2 ++ a.a1 ++ a.a0) } ∧ { t with mbox := s.mbox, bus := s.bus, sec := s.sec } = s) ∧
  (∀ a (x : BitVec 128) lo s, mboxFree s = true → admitted 0x3D a s = true → s.sec.chal = some x → s.sec.ansM = some lo → ∃ t, exec (.unlockAnswer a) s = .next t ∧ t.mbox.busy = true ∧
    t.sec = { s.sec with chal := none, ansM := none, chk := some ⟨(a.a3 ++ a.a2 ++ a.a1 ++ a.a0) ++ lo, x, false, true⟩ } ∧ { t with mbox := s.mbox, sec := s.sec } = s) ∧
  (∀ (k : Check) s, liveN s = true → s.sec.chk = some k → bytesLE 16 k.answer = expectedAnswer s.sec k.chal → ∃ t, exec .answerCheckComplete s = .next t ∧
    t.sec = { s.sec with chk := none, unlk := true } ∧ { t with mbox := s.mbox, bus := s.bus, sec := s.sec, link := s.link } = s) ∧
  (∀ (k : Check) s, liveN s = true → s.sec.chk = some k → bytesLE 16 k.answer ≠ expectedAnswer s.sec k.chal → s.sec.fails < 255 → ∃ t, exec .answerCheckComplete s = .next t ∧
    t.sec = { s.sec with chk := none, fails := s.sec.fails + 1, lockout := true } ∧ waits t 44 0 (w16 (s.sec.fails + 1 + b2n k.dbg 8)) ∧
    { quietly s t with mbox := s.mbox, sec := s.sec, link := s.link } = s) ∧
  (∀ s, s.sec.lockout = true → s.clk.aocok = true → exec .lockoutEnd s = .next { s with sec := { s.sec with lockout := false } })

/-- The debug port: a line reset attaches it with its registers at their reset values, a header error makes it ignore the line until then, a detach releases
the halt and ends the pin-drive test; each access is acknowledged OK, FAULT while ERR is set or when the lifecycle does not permit it, with
source 45 then; HALT stops the core, which ends after the halt what has completed during it, PTEST needs its conditions and takes the link OFF from any of its states, CHAL draws a challenge, and DCHAL, DANS, DPIN and the host
accesses do as their registers say; a write with wrong parity is discarded and sets ERR, and a write of DCTL acts by its bits (R390, R391, R394 to R403). -/
def Obligations.DebugPort : Prop :=
  (∀ s, dbgOn s = true → s.dbg.attached = false → exec .lineReset s = .next { s with dbg := { attached := true } }) ∧
  (∀ s, dbgOn s = true → s.dbg.attached = true → exec .lineReset s = .next { s with dbg := { s.dbg with ignoring := false } }) ∧
  (∀ s, heard s = true → exec .debugHeaderError s = .next { s with dbg := { s.dbg with ignoring := true, ack := 7 } }) ∧
  (∀ s, heard s = false → exec .debugHeaderError s = .next s) ∧
  (∀ s, dbgOn s = true → s.dbg.attached = true → s.mbox.ready = none → s.link.sendWait = none → s.diag.test = none → exec .detachTimeout s =
    .next { s with dbg := { s.dbg with attached := false, ignoring := false, ptest := false, dwsel := 0, dwadr := 0, halt := false, halted := false } }) ∧
  (∀ s, heard s = true → s.mbox.ready = none → s.link.sendWait = none → s.diag.test = none → exec .detach s =
    .next { s with dbg := { s.dbg with ack := 1, attached := false, ignoring := false, ptest := false, dwsel := 0, dwadr := 0, halt := false, halted := false } }) ∧
  (∀ s, heard s = true → exec .clrerr s = .next { s with dbg := { s.dbg with ack := 1, err := false } }) ∧
  (∀ s, heard s = true → dbgFull s = true → dbgRun s = true → s.sys.pwr = .run → exec (.halt true) s = .next { s with dbg := { s.dbg with ack := 1, halt := true, halted := true } }) ∧
  (∀ s, heard s = true → dbgFull s = true → dbgRun s = true → s.mbox.ready = none → s.link.sendWait = none → s.diag.test = none → exec (.halt false) s =
    .next { s with dbg := { s.dbg with ack := 1, halt := false, halted := false } }) ∧
  (∀ (c : Cmd) (st q0 q1 : Nat) s, heard s = true → dbgFull s = true → dbgRun s = true → s.mbox.ready = some (st, q0, q1) → s.mbox.run = some c → c.sender = .host → s.link.sendWait = none →
    s.diag.test = none → ∃ t, exec (.halt false) s = .next t ∧ answered t st q0 q1 ∧ t.dbg = { s.dbg with ack := 1, halt := false, halted := false } ∧
    { t with mbox := s.mbox, bus := s.bus, dbg := s.dbg } = s) ∧
  (∀ on s, heard s = true → dbgFull s = false → fclkRuns s = true → ∃ t, exec (.halt on) s = .next t ∧ t.dbg = { s.dbg with ack := 4 } ∧ waits t 45 0 0x070E ∧ { quietly s t with dbg := s.dbg } = s) ∧
  (∀ s, heard s = true → s.sec.lc = 0 → dbgRun s = true → s.dbg.ptest = false → ptestOk s = true → ∃ t, exec (.ptest true) s = .next t ∧
    t.dbg = { s.dbg with ack := 1, ptest := true } ∧ t.link.st = .off ∧ t.link.node = 0 ∧ t.link.out = [] ∧ t.link.mir.valid = false ∧ t.chan = s.chan ∧ t.store = s.store ∧ t.sec = s.sec ∧ t.pending = s.pending) ∧
  (∀ s, heard s = true → s.sec.lc = 0 → dbgRun s = true → s.dbg.ptest = false → ptestOk s = false → exec (.ptest true) s = .next { s with dbg := { s.dbg with ack := 4 } }) ∧
  (∀ s, heard s = true → s.sec.lc = 0 → dbgRun s = true → exec (.ptest false) s = .next { s with dbg := { s.dbg with ack := 1, ptest := false } }) ∧
  (∀ s, heard s = true → dbgUnlock s = true → s.sec.lc = 1 → s.sec.unlk = false → s.sys.boot = 5 → s.clk.aocok = true → s.sec.lockout = false → s.flt.safe = false → exec .chal s =
    .next { s with dbg := { s.dbg with ack := 1, p := 0, ans := [] }, sec := { s.sec with chal := some (Config.random s.free), ansM := none }, free := s.free + 1 }) ∧
  (∀ s, heard s = true → s.dbg.err = true → exec .dchalRead s = .next { s with dbg := { s.dbg with ack := 4 } }) ∧
  (∀ (x : BitVec 128) s, heard s = true → s.dbg.err = false → dbgUnlock s = true → s.sec.chal = some x → exec .dchalRead s =
    .next { s with dbg := { s.dbg with ack := 1, p := (s.dbg.p + 1) % 8 }, bus := { s.bus with data := chalWord x s.dbg.p } }) ∧
  (∀ w s, heard s = true → s.dbg.err = false → dbgUnlock s = true → s.dbg.ans.length < 7 → exec (.dansWrite w) s = .next { s with dbg := { s.dbg with ack := 1, ans := s.dbg.ans ++ [w] } }) ∧
  (∀ w (x : BitVec 128) s, heard s = true → s.dbg.err = false → dbgUnlock s = true → s.dbg.ans.length = 7 → s.sec.chal = some x → exec (.dansWrite w) s =
    .next { s with dbg := { s.dbg with ack := 1, ans := [] }, sec := { s.sec with chal := none, ansM := none, chk := some ⟨wordsLE (s.dbg.ans ++ [w]), x, true, false⟩ } }) ∧
  (∀ w s, heard s = true → s.dbg.err = false → dbgFull s = true → dbgRun s = true → exec (.dpinWrite w) s = .next { s with dbg := { s.dbg with ack := 1, dpin := w } }) ∧
  (∀ w parity s, heard s = true → exec (.debugHostAccess .drd 0 w parity) s = .next (if s.dbg.err then { s with dbg := { s.dbg with ack := 4 } } else
    { s with dbg := { s.dbg with ack := 1 }, bus := { s.bus with data := devid } })) ∧
  (∀ w parity s, heard s = true → ∃ t, exec (.debugHostAccess .drd 6 w parity) s = .next t ∧ t.dbg = { s.dbg with ack := 1 } ∧ fld t.bus.data 0 2 = s.sec.lc % 4 ∧
    (s.sec.lc < 4 → bit t.bus.data 2 = s.sec.unlk) ∧ { t with dbg := s.dbg, bus := { t.bus with data := s.bus.data } } = s) ∧
  (∀ w s, heard s = true → s.dbg.err = false → dbgFull s = true → dbgRun s = true → exec (.debugHostAccess .dwr 9 w true) s = .next { s with dbg := { s.dbg with ack := 1, dwadr := w } }) ∧
  (∀ w s, heard s = true → s.dbg.err = false → dbgFull s = true → dbgRun s = true → exec (.debugHostAccess .dwr 9 w false) s = .next { s with dbg := { s.dbg with ack := 1, err := true } }) ∧
  (∀ w s, heard s = true → s.dbg.err = false → hwrOk s = true → dbgWaking s = false → regOpen s 0x30 = true → exec (.debugHostAccess .hwr 0x18 w true) s =
    .next { s with dbg := { s.dbg with ack := 1 }, bus := { s.bus with inten := w &&& 0x1FFF } }) ∧
  (∀ (a : BitVec 6) w s, heard s = true → s.dbg.err = false → hwrOk s = true → dbgWaking s = false → a.toNat ≤ 47 → exec (.debugHostAccess .hwr a w false) s =
    .next { s with dbg := { s.dbg with ack := 1, err := true } }) ∧
  (∀ (a : BitVec 6) w parity s, heard s = true → s.dbg.err = false → s.sys.pwr = .standby → fclkRuns s = false → dbgWaking s = false → a.toNat ≤ 47 → exec (.debugHostAccess .hwr a w parity) s =
    .next { s with dbg := { s.dbg with ack := 4 } }) ∧
  (∀ (a : BitVec 6) w parity s, heard s = true → 14 < a.toNat → exec (.debugHostAccess .drd a w parity) s = .next { s with dbg := { s.dbg with ack := 4 } }) ∧
  (∀ s, heard s = true → s.sec.lc = 0 → dbgRun s = true → s.sys.pwr = .run → s.dbg.ptest = false → exec (.debugHostAccess .dwr 7 0x0021 true) s =
    .next { s with dbg := { s.dbg with ack := 1, err := false, halt := true, halted := true } }) ∧
  (∀ w parity s, heard s = true → s.dbg.err = false → dbgFull s = true → dbgWaking s = true → exec (.debugHostAccess .hrd 0x18 w parity) s = .next { s with dbg := { s.dbg with ack := 2 } })

/-! ### The wheel emitter -/

/-- EMIT_START refuses a running emitter, a channel in use and tables that fail a check, with the number in MBRES0 and EERR (for
checks 1 and 2 the model's reading, as what a pulse of width 0 and the first pulse and step are; log 19), and otherwise starts at
position 0 with the tables as they stand, tooth 0 lying 1 000 ticks ahead; EMIT_STOP stops it and says whether it ran. A step's end moves the
position and begins the next step at the next speed, of this segment or of the next one, at the end of the profile it starts over or holds, and a cam
edge toggles its cam
(R497, R498, R500, R501, R504, R505, R507, R508; log 19). -/
def Obligations.WheelEmitter : Prop :=
  (∀ a s, mboxFree s = true → admitted 0x38 a s = true → within a.a0 0x03FF = true → s.emit.run = true → ∃ t, exec (.emitStart a) s = .next t ∧ answered t 0x17 1 0 ∧
    t.emit = { s.emit with eerr := 1 } ∧ { t with mbox := s.mbox, bus := s.bus, emit := s.emit } = s) ∧
  (∀ a (n : Fin 12) s, mboxFree s = true → admitted 0x38 a s = true → within a.a0 0x03FF = true → s.emit.run = false → 8 ≤ n.val → n.val ≤ 8 + fld a.a0 2 2 → s.chan[n].cfg.mode ≠ 0 → ∃ t, exec (.emitStart a) s = .next t ∧ answered t 0x17 2 0 ∧
    t.emit = { s.emit with eerr := 2 } ∧ { t with mbox := s.mbox, bus := s.bus, emit := s.emit } = s) ∧
  (∀ a (k : Nat) s, mboxFree s = true → admitted 0x38 a s = true → within a.a0 0x03FF = true → s.emit.run = false → (∀ n : Fin 12, 8 ≤ n.val → n.val ≤ 8 + fld a.a0 2 2 → s.chan[n].cfg.mode = 0) →
    firstFail (emChecks s.emit.win (bit a.a0 1) (fld a.a0 2 2) (fld a.a0 4 5 + 1)) = some k → ∃ t, exec (.emitStart a) s = .next t ∧ answered t 0x17 k 0 ∧
    t.emit = { s.emit with eerr := k } ∧ { t with mbox := s.mbox, bus := s.bus, emit := s.emit } = s) ∧
  (∀ a s, mboxFree s = true → admitted 0x38 a s = true → within a.a0 0x03FF = true → s.emit.run = false → (∀ n : Fin 12, 8 ≤ n.val → n.val ≤ 8 + fld a.a0 2 2 → s.chan[n].cfg.mode = 0) →
    firstFail (emChecks s.emit.win (bit a.a0 1) (fld a.a0 2 2) (fld a.a0 4 5 + 1)) = none → ∃ t, exec (.emitStart a) s = .next t ∧ answered t 0 0 0 ∧ t.emit.run = true ∧ t.emit.tab = s.emit.win ∧
    t.emit.win = s.emit.win ∧ t.emit.loop = bit a.a0 0 ∧ t.emit.dircode = bit a.a0 1 ∧ t.emit.ncam = fld a.a0 2 2 ∧ t.emit.nseg = fld a.a0 4 5 + 1 ∧ t.emit.cycle = bit a.a0 9 ∧
    t.emit.p = 0 ∧ t.emit.h = 0 ∧ t.emit.step = 0 ∧ t.emit.crank = false ∧ t.emit.t0 = s.clk.tb ∧ t.emit.len = 1000 ∧ (0 < pulseWidth t.emit (emRev t.emit) (emPeriod s.emit.win (emW s.emit.win 4)) →
    t.emit.edges.head? = some ⟨s.clk.tb + 1000, true, false⟩) ∧
    (∀ c : Fin 3, t.emit.cam[c] = (decide (c.val < fld a.a0 2 2) && (vget s.emit.win (8 + c.val) 0).toNat.testBit 5)) ∧ t.chan = s.chan ∧ t.store = s.store ∧ t.pending = s.pending) ∧
  (∀ s, mboxFree s = true → admitted 0x39 s.mbox.args s = true → ∃ t, exec .emitStop s = .next t ∧ answered t 0 (b2n s.emit.run 0) 0 ∧ t.emit.run = false ∧ t.emit.edges = [] ∧
    t.emit.crank = false ∧ (∀ c : Fin 3, t.emit.cam[c] = false) ∧ t.emit.win = s.emit.win ∧ t.chan = s.chan ∧ t.store = s.store ∧ t.pending = s.pending) ∧
  (∀ s, dueStep s = false → exec .emitStep s = .next s) ∧
  (∀ s, dueStep s = true → s.emit.ncam = 0 → s.emit.step = 0 → ∃ t, exec .emitStep s = .next t ∧ t.emit.step = 1 ∧ t.emit.p = s.emit.p ∧ t.emit.h = s.emit.h ∧ t.emit.t0 = s.clk.tb ∧
    t.emit.spd = emSpeed s.emit.tab (emW s.emit.tab 4) 0 1 ∧ t.emit.len = emPeriod s.emit.tab t.emit.spd ∧ { t with emit := s.emit } = s) ∧
  (∀ s, dueStep s = true → s.emit.ncam = 0 → 0 < s.emit.step → s.emit.step < emLen s.emit.tab s.emit.seg → s.emit.holding = false → ∃ t, exec .emitStep s = .next t ∧
    t.emit.step = s.emit.step + 1 ∧ (t.emit.p, t.emit.h) = emNext s.emit ∧ t.emit.t0 = s.clk.tb ∧
    t.emit.spd = emSpeed s.emit.tab (emPrev s.emit.tab s.emit.seg) s.emit.seg (s.emit.step + 1) ∧ t.emit.len = emPeriod s.emit.tab t.emit.spd ∧ { t with emit := s.emit } = s) ∧
  (∀ s, dueStep s = true → s.emit.ncam = 0 → 0 < s.emit.step → emLen s.emit.tab s.emit.seg ≤ s.emit.step → s.emit.nseg ≤ s.emit.seg + 1 → s.emit.cycle = false → s.emit.holding = false →
    ∃ t, exec .emitStep s = .next t ∧ t.emit.holding = true ∧ t.emit.spd = s.emit.spd ∧ t.emit.ecyc = (if s.emit.ecyc < 65535 then s.emit.ecyc + 1 else 65535) ∧
    (t.emit.p, t.emit.h) = emNext s.emit ∧ { t with emit := s.emit } = s) ∧
  (∀ s, dueStep s = true → s.emit.ncam = 0 → 0 < s.emit.step → emLen s.emit.tab s.emit.seg ≤ s.emit.step → s.emit.seg + 1 < s.emit.nseg → s.emit.holding = false →
    ∃ t, exec .emitStep s = .next t ∧ t.emit.seg = s.emit.seg + 1 ∧ t.emit.step = 1 ∧ t.emit.spd = emSpeed s.emit.tab (emPrev s.emit.tab (s.emit.seg + 1)) (s.emit.seg + 1) 1 ∧
    (t.emit.p, t.emit.h) = emNext s.emit ∧ { t with emit := s.emit } = s) ∧
  (∀ s, dueStep s = true → s.emit.ncam = 0 → 0 < s.emit.step → emLen s.emit.tab s.emit.seg ≤ s.emit.step → s.emit.nseg ≤ s.emit.seg + 1 → s.emit.cycle = true → s.emit.holding = false →
    ∃ t, exec .emitStep s = .next t ∧ t.emit.seg = 0 ∧ t.emit.step = 1 ∧ t.emit.spd = emSpeed s.emit.tab (emW s.emit.tab 4) 0 1 ∧
    t.emit.ecyc = (if s.emit.ecyc < 65535 then s.emit.ecyc + 1 else 65535) ∧ (t.emit.p, t.emit.h) = emNext s.emit ∧ { t with emit := s.emit } = s) ∧
  (∀ s, dueStep s = true → 0 < s.emit.step → s.emit.loop = false → ∃ t, exec .emitStep s = .next t ∧ (t.emit.p, t.emit.h) = emNext s.emit ∧ t.emit.t0 = s.clk.tb ∧
    t.emit.len = emPeriod s.emit.tab t.emit.spd ∧ { t with emit := s.emit } = s) ∧
  (∀ (c : Fin 3) s, dueCam s c = true → ∃ t, exec (.emitCamEdge c) s = .next t ∧ t.emit.cam[c] = !s.emit.cam[c]) ∧
  (∀ (c : Fin 3) s, dueCam s c = true → s.emit.loop = false → ∃ t, exec (.emitCamEdge c) s = .next t ∧ t.emit.cam[c] = !s.emit.cam[c] ∧
    (∀ d : Fin 3, d ≠ c → t.emit.cam[d] = s.emit.cam[d]) ∧ t.emit.p = s.emit.p ∧ t.emit.edges = s.emit.edges ∧ { t with emit := s.emit } = s) ∧
  (∀ (c : Fin 3) s, dueCam s c = false → exec (.emitCamEdge c) s = .next s)

/-! ### The legacy face -/

/-- The legacy face answers from the end of B1 with the wheel of WCODE 0. Its writes: LCTL and LOUTEN put channels to IDLE, LWHEEL takes a wheel by its code
and ignores code 7, an ARM outside SYNC or beyond the cycle is refused with SLOTERR and one in SYNC arms the slot, CANCEL removes an armed slot, and the captures,
the profile access, the timer loads and the write-1-to-clear bits act as their registers say, but a bit that is set in the same tick stays; before the face answers, and without VDDIOA, every one is ignored.
That a CANCEL of a slot that is not armed does nothing, and how a set and a clear of one tick fall, is the model's reading (log 28)
(R464, R467 to R469, R473, R474, R476, R477, R481, R486 to R489, R491, R494, R513; log 28). -/
def Obligations.LegacyRegisters : Prop :=
  (∀ s, isNative s = false → fclkRuns s = true → s.sys.boot = 1 → s.leg.ready = false → ∃ t, exec (.legacyReady true) s = .next t ∧ t.leg = { s.leg with ready := true } ∧
    t.wheel.cfg.n = 36 ∧ t.wheel.cfg.m = 1 ∧ { t with leg := s.leg, wheel := s.wheel } = s) ∧
  (∀ s, isNative s = false → fclkRuns s = true → s.sys.boot = 1 → s.leg.ready = false → exec (.legacyReady false) s = .next { s with sys := { s.sys with boot := 6 } }) ∧
  (∀ v s, legLive s = true → s.sys.vddioa = true → s.leg.oe = true → v.getLsbD 0 = false → s.leg.decen = v.getLsbD 1 → ∃ t, exec (.lctlWrite v) s = .next t ∧ t.leg.oe = false ∧
    (∀ n : Fin 8, t.leg.ch[n].st = .idle ∧ legLevel t n = false) ∧ t.leg.slots = s.leg.slots ∧ t.leg.timers = s.leg.timers ∧ { t with leg := s.leg } = s) ∧
  (∀ v s, legLive s = true → s.sys.vddioa = true → s.leg.oe = false → s.leg.decen = false → exec (.lctlWrite v) s = .next { s with leg := { s.leg with oe := v.getLsbD 0, decen := v.getLsbD 1 } }) ∧
  (∀ (v : Byte) s, legLive s = true → s.sys.vddioa = true → v.toNat % 8 = 7 → exec (.lwheelWrite v) s = .next s) ∧
  (∀ (v : Byte) s, legLive s = true → s.sys.vddioa = true → v.toNat % 8 = 2 → v &&& 0x3F ≠ s.leg.wheel → ∃ t, exec (.lwheelWrite v) s = .next t ∧ t.leg.wheel = v &&& 0x3F ∧ t.wheel.cfg.n = 60 ∧
    t.wheel.cfg.m = 2 ∧ t.wheel.cfg.two = v.getLsbD 4 ∧ t.wheel.cfg.edge = v.getLsbD 3 ∧ t.wheel.st = .nosync ∧ t.leg.ch = s.leg.ch ∧ t.store = s.store ∧ t.pending = s.pending) ∧
  (∀ v s, legLive s = true → s.sys.vddioa = true → ∃ t, exec (.loutenWrite v) s = .next t ∧ t.leg.louten = v ∧ (∀ n : Fin 8, v.getLsbD n.val = false → t.leg.ch[n].st = .idle ∧ legLevel t n = false) ∧
    (∀ n : Fin 8, v.getLsbD n.val = true → t.leg.ch[n].st = s.leg.ch[n].st) ∧ { t with leg := s.leg } = s) ∧
  (∀ (v : Byte) s, legLive s = true → s.sys.vddioa = true → v.getLsbD 3 = false → s.wheel.st ≠ .sync ∨ cycC s.wheel.cfg ≤ 64 * s.leg.evang.toNat → ∃ t, exec (.legacyArm v) s = .next t ∧ t.leg.sloterr = true ∧
    t.leg.slots[lslot s].refused = true ∧ t.leg.slots[lslot s].armed = false ∧ (∀ i : Fin 16, i ≠ lslot s → t.leg.slots[i] = s.leg.slots[i]) ∧
    { t with leg := { t.leg with slots := s.leg.slots, sloterr := s.leg.sloterr } } = s) ∧
  (∀ (v : Byte) s, legLive s = true → s.sys.vddioa = true → s.wheel.st = .sync → 64 * s.leg.evang.toNat < cycC s.wheel.cfg → ∃ t, exec (.legacyArm v) s = .next t ∧
    t.leg.slots[lslot s] = { act := v.toNat % 4, ch := s.leg.evch.toNat % 8, prof := s.leg.evch.toNat / 16 % 4, armed := true, lf := legFire s s.leg.evang.toNat } ∧
    (∀ i : Fin 16, i ≠ lslot s → t.leg.slots[i] = s.leg.slots[i]) ∧ { t with leg := { t.leg with slots := s.leg.slots } } = s) ∧
  (∀ (v : Byte) s, legLive s = true → s.sys.vddioa = true → v.getLsbD 2 = false → ∃ t, exec (.legacyCancel v) s = .next t ∧
    t.leg.slots[lslot s] = (if s.leg.slots[lslot s].armed then { s.leg.slots[lslot s] with armed := false, cancelled := true } else s.leg.slots[lslot s]) ∧
    (∀ i : Fin 16, i ≠ lslot s → t.leg.slots[i] = s.leg.slots[i]) ∧ { t with leg := { t.leg with slots := s.leg.slots } } = s) ∧
  (∀ s, legLive s = true → s.sys.vddioa = true → exec .legacyAngleCapture s = .next { s with leg := { s.leg with langCap := BitVec.ofNat 8 (angle s / 64 / 256) }, bus := { s.bus with data := w16 (angle s / 64 % 256) } }) ∧
  (∀ s, legLive s = true → s.sys.vddioa = true → exec .legacyPeriodCapture s = .next { s with leg := { s.leg with perCap := BitVec.ofNat 8 (lper s / 256) }, bus := { s.bus with data := w16 (lper s % 256) } }) ∧
  (∀ (v : Byte) s, legLive s = true → s.sys.vddioa = true → exec (.lprofdatAccess (some v)) s = .next { s with leg := { s.leg with profbyte := (s.leg.profbyte + 1) % 8, profs := vput s.leg.profs s.leg.profsel (vput (vget s.leg.profs s.leg.profsel (Vector.replicate 8 0)) s.leg.profbyte (if s.leg.profbyte = 6 then v &&& 1 else if s.leg.profbyte = 7 then 0 else v)) } }) ∧
  (∀ s, legLive s = true → s.sys.vddioa = true → exec (.lprofdatAccess none) s = .next { s with leg := { s.leg with profbyte := (s.leg.profbyte + 1) % 8 }, bus := { s.bus with data := (vget (vget s.leg.profs s.leg.profsel (Vector.replicate 8 0)) s.leg.profbyte 0).setWidth 16 } }) ∧
  (∀ s, legLive s = true → s.sys.vddioa = true → (freshLeg s).getLsbD 5 = true → exec .triplatClear s = .next s) ∧
  (∀ s, legLive s = true → s.sys.vddioa = true → (freshLeg s).getLsbD 5 = false → exec .triplatClear s = .next { s with leg := { s.leg with triplat := false } }) ∧
  (∀ (v : Byte) s, legLive s = true → s.sys.vddioa = true → ∃ t, exec (.lstatClear v) s = .next t ∧ t.leg.lost = (s.leg.lost && (!v.getLsbD 2 || (freshLeg s).getLsbD 2)) ∧ t.leg.bad = (s.leg.bad && (!v.getLsbD 3 || (freshLeg s).getLsbD 3)) ∧
    t.leg.sloterr = (s.leg.sloterr && (!v.getLsbD 4 || (freshLeg s).getLsbD 4)) ∧
    t.leg.trip = (s.leg.trip && (!v.getLsbD 5 || (freshLeg s).getLsbD 5)) ∧ t.leg.maxon = (s.leg.maxon && (!v.getLsbD 6 || (freshLeg s).getLsbD 6)) ∧
    t.leg.tim = (s.leg.tim && (!v.getLsbD 7 || (freshLeg s).getLsbD 7)) ∧ { t with leg := { t.leg with lost := s.leg.lost, bad := s.leg.bad, sloterr := s.leg.sloterr, trip := s.leg.trip, maxon := s.leg.maxon, tim := s.leg.tim } } = s) ∧
  (∀ (v : Byte) s, legLive s = true → s.sys.vddioa = true → ∃ t, exec (.ltimctlWrite v) s = .next t ∧ t.leg.timers[ltim s].en = v.getLsbD 0 ∧ t.leg.timers[ltim s].clrm = v.getLsbD 1 ∧
    t.leg.timers[ltim s].pre = v.toNat / 4 % 4 ∧ t.leg.timers[ltim s].ie = v.getLsbD 6 ∧ t.leg.timers[ltim s].hit = (s.leg.timers[ltim s].hit && (!v.getLsbD 4 || s.leg.timers[ltim s].hitAt == some s.clk.tb)) ∧
    t.leg.timers[ltim s].ovf = (s.leg.timers[ltim s].ovf && (!v.getLsbD 5 || s.leg.timers[ltim s].ovfAt == some s.clk.tb)) ∧ t.leg.timers[ltim s].count = s.leg.timers[ltim s].count ∧
    (∀ k : Fin 2, k ≠ ltim s → t.leg.timers[k] = s.leg.timers[k]) ∧ { t with leg := { t.leg with timers := s.leg.timers } } = s) ∧
  (∀ (hi : Byte) s, legLive s = true → s.sys.vddioa = true → ∃ t, exec (.legacyCountLoad hi) s = .next t ∧ t.leg.timers[ltim s].count = 256 * hi.toNat + s.leg.timers[ltim s].cntStage.toNat ∧
    t.leg.timers[ltim s].cmp = s.leg.timers[ltim s].cmp ∧ (∀ k : Fin 2, k ≠ ltim s → t.leg.timers[k] = s.leg.timers[k]) ∧ { t with leg := { t.leg with timers := s.leg.timers } } = s) ∧
  (∀ (hi : Byte) s, legLive s = true → s.sys.vddioa = true → ∃ t, exec (.legacyCompareLoad hi) s = .next t ∧
    t.leg.timers[ltim s] = { s.leg.timers[ltim s] with cmp := 256 * hi.toNat + s.leg.timers[ltim s].cmpStage.toNat } ∧
    (∀ k : Fin 2, k ≠ ltim s → t.leg.timers[k] = s.leg.timers[k]) ∧ { t with leg := { t.leg with timers := s.leg.timers } } = s) ∧
  (∀ v hi s, legLive s = false ∨ s.sys.vddioa = false → exec (.lctlWrite v) s = .next s ∧ exec (.lwheelWrite v) s = .next s ∧ exec (.loutenWrite v) s = .next s ∧ exec (.legacyArm v) s = .next s ∧
    exec (.legacyCancel v) s = .next s ∧ exec .triplatClear s = .next s ∧ exec (.lstatClear v) s = .next s ∧ exec (.ltimctlWrite v) s = .next s ∧
    exec (.legacyCountLoad hi) s = .next s ∧ exec (.legacyCompareLoad hi) s = .next s) ∧
  (∀ s, isNative s = false → s.sys.inReset = false → exec .legacyFcoStop s = .next { s with clk := { s.clk with fclkOn := false, fcoOn := false, fcook := false } })

/-- The course of the legacy face: a slot fires at its tick, without a pin effect while OE, its LOUTEN bit or TRIPLAT forbids it; a pulse goes from boost to dead to
peak or hold, its PWM follows its period, and MAXON ends it with its flags, as END and CLEAR end a pulse and a SET; the trip puts every channel to IDLE, and
latches again when it is still low after a clear; and a timer's increment sets
MATCH on its compare and OVF from 0xFFFF, with LSTAT.TIM where IE is 1 at the set (the model's reading, log 28), and with CLRM the increment
from the compare returns to 0 (R478, R480, R482, R483, R485 to R487, R491; log 28). -/
def Obligations.LegacyCourse : Prop :=
  (∀ (i : Fin 16) s, dueLFire s i = true → s.leg.oe = false ∨ s.leg.triplat = true → exec (.legacySlotFire i) s =
    .next { s with leg := { s.leg with slots := s.leg.slots.set i { s.leg.slots[i] with armed := false, fired := true } } }) ∧
  (∀ (i : Fin 16) (n : Fin 8) s, dueLFire s i = true → s.leg.oe = true → s.leg.triplat = false → s.leg.louten.getLsbD n.val = true → s.leg.slots[i].ch = n.val → s.leg.slots[i].act = 2 →
    s.leg.ch[n].st = .idle → ∃ t, exec (.legacySlotFire i) s = .next t ∧ t.leg.ch[n].st = .set ∧ legLevel t n = true ∧ t.leg.slots[i].fired = true ∧ t.leg.slots[i].armed = false ∧
    (∀ m : Fin 8, m ≠ n → t.leg.ch[m] = s.leg.ch[m]) ∧ { t with leg := { t.leg with slots := s.leg.slots, ch := s.leg.ch } } = s) ∧
  (∀ (i : Fin 16) (n : Fin 8) s, dueLFire s i = true → s.leg.oe = true → s.leg.triplat = false → s.leg.louten.getLsbD n.val = true → s.leg.slots[i].ch = n.val → s.leg.slots[i].act = 0 →
    s.leg.ch[n].st = .idle → ((vget s.leg.profs s.leg.slots[i].prof (Vector.replicate 8 0))[0]) ≠ 0 → ∃ t, exec (.legacySlotFire i) s = .next t ∧ t.leg.ch[n].st = .boost ∧
    t.leg.boosten = true ∧ t.leg.ch[n].prof = s.leg.slots[i].prof ∧ t.leg.ch[n].startAt = s.clk.tb ∧ legLevel t n = true ∧ { t with leg := s.leg } = s) ∧
  (∀ (i : Fin 16) (n : Fin 8) s, dueLFire s i = true → s.leg.oe = true → s.leg.triplat = false → s.leg.louten.getLsbD n.val = true → s.leg.slots[i].ch = n.val →
    (s.leg.slots[i].act = 1 ∧ s.leg.ch[n].st.runs = true) ∨ (s.leg.slots[i].act = 3 ∧ s.leg.ch[n].st = .set) → ∃ t, exec (.legacySlotFire i) s = .next t ∧ t.leg.ch[n].st = .idle ∧
    legLevel t n = false ∧ t.leg.slots[i].fired = true ∧ { t with leg := s.leg } = s) ∧
  (∀ (i : Fin 16) s, dueLFire s i = false → exec (.legacySlotFire i) s = .next s) ∧
  (∀ (n : Fin 8) s, dueLPhase s n = true → s.leg.ch[n].st = .boost → ∃ t, exec (.legacyPhaseEnd n) s = .next t ∧ t.leg.ch[n].st = .dead ∧ legLevel t n = false ∧
    (∀ m : Fin 8, t.leg.ch[m].st = if m = n then .dead else s.leg.ch[m].st) ∧ { t with leg := s.leg } = s) ∧
  (∀ (n : Fin 8) s, dueLPhase s n = true → s.leg.ch[n].st = .dead → lprof s s.leg.ch[n] 1 ≠ 0 → ∃ t, exec (.legacyPhaseEnd n) s = .next t ∧ t.leg.ch[n].st = .peak ∧
    t.leg.ch[n].phaseAt = s.clk.tb ∧ (∀ m : Fin 8, m ≠ n → t.leg.ch[m] = s.leg.ch[m]) ∧ { t with leg := { t.leg with ch := s.leg.ch } } = s) ∧
  (∀ (n : Fin 8) s, dueLPhase s n = true → s.leg.ch[n].st = .peak → ∃ t, exec (.legacyPhaseEnd n) s = .next t ∧ t.leg.ch[n].st = .hold ∧ t.leg.ch[n].phaseAt = s.clk.tb ∧
    (∀ m : Fin 8, m ≠ n → t.leg.ch[m] = s.leg.ch[m]) ∧ { t with leg := { t.leg with ch := s.leg.ch } } = s) ∧
  (∀ (n : Fin 8) s, dueLPhase s n = false → exec (.legacyPhaseEnd n) s = .next s) ∧
  (∀ (n : Fin 8) s, dueLPwm s n = true → reached s.leg.ch[n].perEnd s.clk.tb = false → exec (.legacyPwmPeriod n) s =
    .next { s with leg := { s.leg with ch := s.leg.ch.set n { s.leg.ch[n] with want := false } } }) ∧
  (∀ (n : Fin 8) s, dueLPwm s n = true → reached s.leg.ch[n].perEnd s.clk.tb = true → ∃ t, exec (.legacyPwmPeriod n) s = .next t ∧
    t.leg.ch[n].perEnd = some (s.clk.tb + BitVec.ofNat 48 (50 * max 4 (lprof s s.leg.ch[n] 4))) ∧ t.leg.ch[n].st = s.leg.ch[n].st ∧
    (∀ m : Fin 8, m ≠ n → t.leg.ch[m] = s.leg.ch[m]) ∧ { t with leg := { t.leg with ch := s.leg.ch } } = s) ∧
  (∀ (n : Fin 8) s, dueLPwm s n = false → exec (.legacyPwmPeriod n) s = .next s) ∧
  (∀ (n : Fin 8) s, dueLMaxon s n = true → ∃ t, exec (.legacyMaxon n) s = .next t ∧ t.leg.ch[n].st = .idle ∧ legLevel t n = false ∧ t.leg.maxon = true ∧ t.leg.maxch = n.val ∧
    t.leg.slots = s.leg.slots ∧ { t with leg := s.leg } = s) ∧
  (∀ (n : Fin 8) s, dueLMaxon s n = false → exec (.legacyMaxon n) s = .next s) ∧
  (∀ s, legLive s = true → s.leg.tripin = false → ∃ t, exec .legacyTripAssert s = .next t ∧ t.leg.tripin = true ∧ t.leg.triplat = true ∧ t.leg.trip = true ∧
    (∀ n : Fin 8, t.leg.ch[n].st = .idle ∧ legLevel t n = false) ∧ t.leg.slots = s.leg.slots ∧ t.leg.timers = s.leg.timers ∧ { t with leg := s.leg } = s) ∧
  (∀ s, dueLTrip s = true → ∃ t, exec .legacyTripAssert s = .next t ∧ t.leg.triplat = true ∧ t.leg.trip = true ∧ (∀ n : Fin 8, t.leg.ch[n].st = .idle) ∧ { t with leg := s.leg } = s) ∧
  (∀ (k : Fin 2) s, dueLMatch s k = true → s.leg.timers[k].count < 65535 → s.leg.timers[k].count ≠ s.leg.timers[k].cmp → ∃ t, exec (.legacyTimerMatch k) s = .next t ∧ t.leg.timers[k].hit = true ∧ t.leg.timers[k].inc = false ∧
    t.leg.timers[k].count = s.leg.timers[k].count + 1 ∧ s.leg.timers[k].count + 1 = s.leg.timers[k].cmp ∧
    t.leg.timers[k].ovf = s.leg.timers[k].ovf ∧ t.leg.tim = (s.leg.tim || s.leg.timers[k].ie) ∧ (∀ j : Fin 2, j ≠ k → t.leg.timers[j] = s.leg.timers[j]) ∧
    { t with leg := { t.leg with timers := s.leg.timers, tim := s.leg.tim, fresh := s.leg.fresh, freshAt := s.leg.freshAt } } = s) ∧
  (∀ t : LTimer, t.clrm = true → t.count = t.cmp → t.incTo = 0) ∧ (∀ t : LTimer, t.clrm = false ∨ t.count ≠ t.cmp → t.incTo = (t.count + 1) % 65536) ∧
  (∀ (k : Fin 2) s, dueLMatch s k = false → exec (.legacyTimerMatch k) s = .next s) ∧
  (∀ (k : Fin 2) s, dueLOvf s k = true → ∃ t, exec (.legacyTimerOverflow k) s = .next t ∧ t.leg.timers[k].ovf = true ∧ t.leg.timers[k].count = 0 ∧
    t.leg.tim = (s.leg.tim || s.leg.timers[k].ie) ∧ (∀ j : Fin 2, j ≠ k → t.leg.timers[j] = s.leg.timers[j]) ∧
    { t with leg := { t.leg with timers := s.leg.timers, tim := s.leg.tim, fresh := s.leg.fresh, freshAt := s.leg.freshAt } } = s) ∧
  (∀ (k : Fin 2) s, dueLOvf s k = false → exec (.legacyTimerOverflow k) s = .next s)
end

