-- ==== Sys2Proof/Laws/Frame.lean ====
section
/-! SUPPORT. Frames: for each operation, the blocks of the state that it may change. `but m s` is the state without the
blocks of the mask `m`, so `but m (f s) = but m s` says that f changes nothing outside them. -/

namespace Sys2Proof.Machine

/-- The state without the blocks whose bits are set in `m`. -/
def but (m : Nat) (s : State) : State :=
  { sys := (if m.testBit 0 then {} else s.sys), clk := (if m.testBit 1 then {} else s.clk), wheel := (if m.testBit 2 then {} else s.wheel), cams := (if m.testBit 3 then Vector.replicate 4 {} else s.cams), pred := (if m.testBit 4 then {} else s.pred), predPrev := (if m.testBit 5 then {} else s.predPrev), spd := (if m.testBit 6 then none else s.spd), geom := (if m.testBit 7 then {} else s.geom), sched := (if m.testBit 8 then {} else s.sched), rpt := (if m.testBit 9 then {} else s.rpt), cpc := (if m.testBit 10 then {} else s.cpc), chan := (if m.testBit 11 then Vector.replicate 12 {} else s.chan), chs := (if m.testBit 12 then {} else s.chs), lines := (if m.testBit 13 then Vector.replicate 8 {} else s.lines), cdat := (if m.testBit 14 then {} else s.cdat), brass := (if m.testBit 15 then {} else s.brass), diag := (if m.testBit 16 then {} else s.diag), trip := (if m.testBit 17 then {} else s.trip), therm := (if m.testBit 18 then {} else s.therm), tim := (if m.testBit 19 then {} else s.tim), flt := (if m.testBit 20 then {} else s.flt), link := (if m.testBit 21 then {} else s.link), store := (if m.testBit 22 then {} else s.store), sec := (if m.testBit 23 then {} else s.sec), dbg := (if m.testBit 24 then {} else s.dbg), bus := (if m.testBit 25 then {} else s.bus), mbox := (if m.testBit 26 then {} else s.mbox), pins := (if m.testBit 27 then {} else s.pins), emit := (if m.testBit 28 then {} else s.emit), leg := (if m.testBit 29 then {} else s.leg), free := (if m.testBit 30 then 0 else s.free), pending := (if m.testBit 31 then [] else s.pending) }
theorem ite_but (m : Nat) (c : Prop) [Decidable c] (a b : State) : but m (if c then a else b) = if c then but m a else but m b := by split <;> rfl
theorem itep_but {α : Type} (m : Nat) (c : Prop) [Decidable c] (a b : α × State) : but m (if c then a else b).2 = if c then but m a.2 else but m b.2 := by split <;> rfl
theorem itec_but (m : Nat) (c : Prop) [Decidable c] (a b : CmdRes) : but m (if c then a else b).st = if c then but m a.st else but m b.st := by split <;> rfl
theorem testBit_le {a b : Nat} (h : a ||| b = b) (i : Nat) (hb : b.testBit i = false) : a.testBit i = false := by
  rw [← h, Nat.testBit_or, Bool.or_eq_false_iff] at hb
  exact hb.1
theorem but_le {a b : Nat} {s t : State} (h : a ||| b = b) (e : but a t = but a s) : but b t = but b s := by
  have k := testBit_le h
  simp only [but, State.mk.injEq]
  repeat' apply And.intro
  · cases hb : b.testBit 0
    · have ha := k 0 hb
      have q := congrArg State.sys e
      simpa only [but, ha, hb, Bool.false_eq_true, if_false] using q
    · rfl
  · cases hb : b.testBit 1
    · have ha := k 1 hb
      have q := congrArg State.clk e
      simpa only [but, ha, hb, Bool.false_eq_true, if_false] using q
    · rfl
  · cases hb : b.testBit 2
    · have ha := k 2 hb
      have q := congrArg State.wheel e
      simpa only [but, ha, hb, Bool.false_eq_true, if_false] using q
    · rfl
  · cases hb : b.testBit 3
    · have ha := k 3 hb
      have q := congrArg State.cams e
      simpa only [but, ha, hb, Bool.false_eq_true, if_false] using q
    · rfl
  · cases hb : b.testBit 4
    · have ha := k 4 hb
      have q := congrArg State.pred e
      simpa only [but, ha, hb, Bool.false_eq_true, if_false] using q
    · rfl
  · cases hb : b.testBit 5
    · have ha := k 5 hb
      have q := congrArg State.predPrev e
      simpa only [but, ha, hb, Bool.false_eq_true, if_false] using q
    · rfl
  · cases hb : b.testBit 6
    · have ha := k 6 hb
      have q := congrArg State.spd e
      simpa only [but, ha, hb, Bool.false_eq_true, if_false] using q
    · rfl
  · cases hb : b.testBit 7
    · have ha := k 7 hb
      have q := congrArg State.geom e
      simpa only [but, ha, hb, Bool.false_eq_true, if_false] using q
    · rfl
  · cases hb : b.testBit 8
    · have ha := k 8 hb
      have q := congrArg State.sched e
      simpa only [but, ha, hb, Bool.false_eq_true, if_false] using q
    · rfl
  · cases hb : b.testBit 9
    · have ha := k 9 hb
      have q := congrArg State.rpt e
      simpa only [but, ha, hb, Bool.false_eq_true, if_false] using q
    · rfl
  · cases hb : b.testBit 10
    · have ha := k 10 hb
      have q := congrArg State.cpc e
      simpa only [but, ha, hb, Bool.false_eq_true, if_false] using q
    · rfl
  · cases hb : b.testBit 11
    · have ha := k 11 hb
      have q := congrArg State.chan e
      simpa only [but, ha, hb, Bool.false_eq_true, if_false] using q
    · rfl
  · cases hb : b.testBit 12
    · have ha := k 12 hb
      have q := congrArg State.chs e
      simpa only [but, ha, hb, Bool.false_eq_true, if_false] using q
    · rfl
  · cases hb : b.testBit 13
    · have ha := k 13 hb
      have q := congrArg State.lines e
      simpa only [but, ha, hb, Bool.false_eq_true, if_false] using q
    · rfl
  · cases hb : b.testBit 14
    · have ha := k 14 hb
      have q := congrArg State.cdat e
      simpa only [but, ha, hb, Bool.false_eq_true, if_false] using q
    · rfl
  · cases hb : b.testBit 15
    · have ha := k 15 hb
      have q := congrArg State.brass e
      simpa only [but, ha, hb, Bool.false_eq_true, if_false] using q
    · rfl
  · cases hb : b.testBit 16
    · have ha := k 16 hb
      have q := congrArg State.diag e
      simpa only [but, ha, hb, Bool.false_eq_true, if_false] using q
    · rfl
  · cases hb : b.testBit 17
    · have ha := k 17 hb
      have q := congrArg State.trip e
      simpa only [but, ha, hb, Bool.false_eq_true, if_false] using q
    · rfl
  · cases hb : b.testBit 18
    · have ha := k 18 hb
      have q := congrArg State.therm e
      simpa only [but, ha, hb, Bool.false_eq_true, if_false] using q
    · rfl
  · cases hb : b.testBit 19
    · have ha := k 19 hb
      have q := congrArg State.tim e
      simpa only [but, ha, hb, Bool.false_eq_true, if_false] using q
    · rfl
  · cases hb : b.testBit 20
    · have ha := k 20 hb
      have q := congrArg State.flt e
      simpa only [but, ha, hb, Bool.false_eq_true, if_false] using q
    · rfl
  · cases hb : b.testBit 21
    · have ha := k 21 hb
      have q := congrArg State.link e
      simpa only [but, ha, hb, Bool.false_eq_true, if_false] using q
    · rfl
  · cases hb : b.testBit 22
    · have ha := k 22 hb
      have q := congrArg State.store e
      simpa only [but, ha, hb, Bool.false_eq_true, if_false] using q
    · rfl
  · cases hb : b.testBit 23
    · have ha := k 23 hb
      have q := congrArg State.sec e
      simpa only [but, ha, hb, Bool.false_eq_true, if_false] using q
    · rfl
  · cases hb : b.testBit 24
    · have ha := k 24 hb
      have q := congrArg State.dbg e
      simpa only [but, ha, hb, Bool.false_eq_true, if_false] using q
    · rfl
  · cases hb : b.testBit 25
    · have ha := k 25 hb
      have q := congrArg State.bus e
      simpa only [but, ha, hb, Bool.false_eq_true, if_false] using q
    · rfl
  · cases hb : b.testBit 26
    · have ha := k 26 hb
      have q := congrArg State.mbox e
      simpa only [but, ha, hb, Bool.false_eq_true, if_false] using q
    · rfl
  · cases hb : b.testBit 27
    · have ha := k 27 hb
      have q := congrArg State.pins e
      simpa only [but, ha, hb, Bool.false_eq_true, if_false] using q
    · rfl
  · cases hb : b.testBit 28
    · have ha := k 28 hb
      have q := congrArg State.emit e
      simpa only [but, ha, hb, Bool.false_eq_true, if_false] using q
    · rfl
  · cases hb : b.testBit 29
    · have ha := k 29 hb
      have q := congrArg State.leg e
      simpa only [but, ha, hb, Bool.false_eq_true, if_false] using q
    · rfl
  · cases hb : b.testBit 30
    · have ha := k 30 hb
      have q := congrArg State.free e
      simpa only [but, ha, hb, Bool.false_eq_true, if_false] using q
    · rfl
  · cases hb : b.testBit 31
    · have ha := k 31 hb
      have q := congrArg State.pending e
      simpa only [but, ha, hb, Bool.false_eq_true, if_false] using q
    · rfl
theorem le_trans_mask {a b c : Nat} (h : a ||| b = b) (h' : b ||| c = c) : a ||| c = c := by
  rw [← h', ← Nat.or_assoc, h]
theorem but_le2 {a b c : Nat} {s t : State} (h : a ||| b = b) (h' : b ||| c = c) (e : but a t = but a s) : but c t = but c s :=
  but_le h' (but_le h e)

/-- Two states that agree outside the blocks of one mask and outside those of another, disjoint one are equal. -/
theorem but_ext {m n : Nat} {s t : State} (hd : m &&& n = 0) (h : but m t = but m s) (h' : but n t = but n s) : t = s := by
  have k : ∀ i, m.testBit i = true → n.testBit i = false := fun i hi => by
    have q := congrArg (·.testBit i) hd
    simpa [hi] using q
  cases t
  cases s
  rw [State.mk.injEq]
  repeat' apply And.intro
  · cases hb : m.testBit 0
    · have q := congrArg State.sys h
      simpa only [but, hb, Bool.false_eq_true, if_false] using q
    · have q := congrArg State.sys h'
      simpa only [but, k 0 hb, Bool.false_eq_true, if_false] using q
  · cases hb : m.testBit 1
    · have q := congrArg State.clk h
      simpa only [but, hb, Bool.false_eq_true, if_false] using q
    · have q := congrArg State.clk h'
      simpa only [but, k 1 hb, Bool.false_eq_true, if_false] using q
  · cases hb : m.testBit 2
    · have q := congrArg State.wheel h
      simpa only [but, hb, Bool.false_eq_true, if_false] using q
    · have q := congrArg State.wheel h'
      simpa only [but, k 2 hb, Bool.false_eq_true, if_false] using q
  · cases hb : m.testBit 3
    · have q := congrArg State.cams h
      simpa only [but, hb, Bool.false_eq_true, if_false] using q
    · have q := congrArg State.cams h'
      simpa only [but, k 3 hb, Bool.false_eq_true, if_false] using q
  · cases hb : m.testBit 4
    · have q := congrArg State.pred h
      simpa only [but, hb, Bool.false_eq_true, if_false] using q
    · have q := congrArg State.pred h'
      simpa only [but, k 4 hb, Bool.false_eq_true, if_false] using q
  · cases hb : m.testBit 5
    · have q := congrArg State.predPrev h
      simpa only [but, hb, Bool.false_eq_true, if_false] using q
    · have q := congrArg State.predPrev h'
      simpa only [but, k 5 hb, Bool.false_eq_true, if_false] using q
  · cases hb : m.testBit 6
    · have q := congrArg State.spd h
      simpa only [but, hb, Bool.false_eq_true, if_false] using q
    · have q := congrArg State.spd h'
      simpa only [but, k 6 hb, Bool.false_eq_true, if_false] using q
  · cases hb : m.testBit 7
    · have q := congrArg State.geom h
      simpa only [but, hb, Bool.false_eq_true, if_false] using q
    · have q := congrArg State.geom h'
      simpa only [but, k 7 hb, Bool.false_eq_true, if_false] using q
  · cases hb : m.testBit 8
    · have q := congrArg State.sched h
      simpa only [but, hb, Bool.false_eq_true, if_false] using q
    · have q := congrArg State.sched h'
      simpa only [but, k 8 hb, Bool.false_eq_true, if_false] using q
  · cases hb : m.testBit 9
    · have q := congrArg State.rpt h
      simpa only [but, hb, Bool.false_eq_true, if_false] using q
    · have q := congrArg State.rpt h'
      simpa only [but, k 9 hb, Bool.false_eq_true, if_false] using q
  · cases hb : m.testBit 10
    · have q := congrArg State.cpc h
      simpa only [but, hb, Bool.false_eq_true, if_false] using q
    · have q := congrArg State.cpc h'
      simpa only [but, k 10 hb, Bool.false_eq_true, if_false] using q
  · cases hb : m.testBit 11
    · have q := congrArg State.chan h
      simpa only [but, hb, Bool.false_eq_true, if_false] using q
    · have q := congrArg State.chan h'
      simpa only [but, k 11 hb, Bool.false_eq_true, if_false] using q
  · cases hb : m.testBit 12
    · have q := congrArg State.chs h
      simpa only [but, hb, Bool.false_eq_true, if_false] using q
    · have q := congrArg State.chs h'
      simpa only [but, k 12 hb, Bool.false_eq_true, if_false] using q
  · cases hb : m.testBit 13
    · have q := congrArg State.lines h
      simpa only [but, hb, Bool.false_eq_true, if_false] using q
    · have q := congrArg State.lines h'
      simpa only [but, k 13 hb, Bool.false_eq_true, if_false] using q
  · cases hb : m.testBit 14
    · have q := congrArg State.cdat h
      simpa only [but, hb, Bool.false_eq_true, if_false] using q
    · have q := congrArg State.cdat h'
      simpa only [but, k 14 hb, Bool.false_eq_true, if_false] using q
  · cases hb : m.testBit 15
    · have q := congrArg State.brass h
      simpa only [but, hb, Bool.false_eq_true, if_false] using q
    · have q := congrArg State.brass h'
      simpa only [but, k 15 hb, Bool.false_eq_true, if_false] using q
  · cases hb : m.testBit 16
    · have q := congrArg State.diag h
      simpa only [but, hb, Bool.false_eq_true, if_false] using q
    · have q := congrArg State.diag h'
      simpa only [but, k 16 hb, Bool.false_eq_true, if_false] using q
  · cases hb : m.testBit 17
    · have q := congrArg State.trip h
      simpa only [but, hb, Bool.false_eq_true, if_false] using q
    · have q := congrArg State.trip h'
      simpa only [but, k 17 hb, Bool.false_eq_true, if_false] using q
  · cases hb : m.testBit 18
    · have q := congrArg State.therm h
      simpa only [but, hb, Bool.false_eq_true, if_false] using q
    · have q := congrArg State.therm h'
      simpa only [but, k 18 hb, Bool.false_eq_true, if_false] using q
  · cases hb : m.testBit 19
    · have q := congrArg State.tim h
      simpa only [but, hb, Bool.false_eq_true, if_false] using q
    · have q := congrArg State.tim h'
      simpa only [but, k 19 hb, Bool.false_eq_true, if_false] using q
  · cases hb : m.testBit 20
    · have q := congrArg State.flt h
      simpa only [but, hb, Bool.false_eq_true, if_false] using q
    · have q := congrArg State.flt h'
      simpa only [but, k 20 hb, Bool.false_eq_true, if_false] using q
  · cases hb : m.testBit 21
    · have q := congrArg State.link h
      simpa only [but, hb, Bool.false_eq_true, if_false] using q
    · have q := congrArg State.link h'
      simpa only [but, k 21 hb, Bool.false_eq_true, if_false] using q
  · cases hb : m.testBit 22
    · have q := congrArg State.store h
      simpa only [but, hb, Bool.false_eq_true, if_false] using q
    · have q := congrArg State.store h'
      simpa only [but, k 22 hb, Bool.false_eq_true, if_false] using q
  · cases hb : m.testBit 23
    · have q := congrArg State.sec h
      simpa only [but, hb, Bool.false_eq_true, if_false] using q
    · have q := congrArg State.sec h'
      simpa only [but, k 23 hb, Bool.false_eq_true, if_false] using q
  · cases hb : m.testBit 24
    · have q := congrArg State.dbg h
      simpa only [but, hb, Bool.false_eq_true, if_false] using q
    · have q := congrArg State.dbg h'
      simpa only [but, k 24 hb, Bool.false_eq_true, if_false] using q
  · cases hb : m.testBit 25
    · have q := congrArg State.bus h
      simpa only [but, hb, Bool.false_eq_true, if_false] using q
    · have q := congrArg State.bus h'
      simpa only [but, k 25 hb, Bool.false_eq_true, if_false] using q
  · cases hb : m.testBit 26
    · have q := congrArg State.mbox h
      simpa only [but, hb, Bool.false_eq_true, if_false] using q
    · have q := congrArg State.mbox h'
      simpa only [but, k 26 hb, Bool.false_eq_true, if_false] using q
  · cases hb : m.testBit 27
    · have q := congrArg State.pins h
      simpa only [but, hb, Bool.false_eq_true, if_false] using q
    · have q := congrArg State.pins h'
      simpa only [but, k 27 hb, Bool.false_eq_true, if_false] using q
  · cases hb : m.testBit 28
    · have q := congrArg State.emit h
      simpa only [but, hb, Bool.false_eq_true, if_false] using q
    · have q := congrArg State.emit h'
      simpa only [but, k 28 hb, Bool.false_eq_true, if_false] using q
  · cases hb : m.testBit 29
    · have q := congrArg State.leg h
      simpa only [but, hb, Bool.false_eq_true, if_false] using q
    · have q := congrArg State.leg h'
      simpa only [but, k 29 hb, Bool.false_eq_true, if_false] using q
  · cases hb : m.testBit 30
    · have q := congrArg State.free h
      simpa only [but, hb, Bool.false_eq_true, if_false] using q
    · have q := congrArg State.free h'
      simpa only [but, k 30 hb, Bool.false_eq_true, if_false] using q
  · cases hb : m.testBit 31
    · have q := congrArg State.pending h
      simpa only [but, hb, Bool.false_eq_true, if_false] using q
    · have q := congrArg State.pending h'
      simpa only [but, k 31 hb, Bool.false_eq_true, if_false] using q

/-! ### Ops.lean -/

theorem foldSt_but (M : Nat) {α : Type} (xs : List α) (f : α → State → State) (s : State) (hf : ∀ x0 t, but M (f x0 t) = but M t) : but M (foldSt xs f s) = but M s := by
  unfold foldSt
  induction xs generalizing s with
  | nil => rfl
  | cons x xs ih => rw [List.foldl_cons, ih, hf]

theorem setInt_but (b : Nat) (s : State) : but 33554432 (setInt b s) = but 33554432 s := rfl
theorem setIntIf_but (c : Bool) (b : Nat) (s : State) : but 33554432 (setIntIf c b s) = but 33554432 s := by
  have b_setInt : ∀ (b : Nat) (s : State), but 33554432 (setInt b s) = but 33554432 s := fun b s => but_le (by decide) (setInt_but b s)
  unfold setIntIf; simp only [ite_but, b_setInt, ite_self]
theorem noteLeg_but (b : Nat) (s : State) : but 536870912 (noteLeg b s) = but 536870912 s := rfl
theorem drawRandom_but (s : State) : but 1073741824 ((drawRandom s).2) = but 1073741824 s := rfl
theorem raiseC_but (src ch : Nat) (det : Word) (carried : Bool) (s : State) : but 1048576 (raiseC src ch det carried s) = but 1048576 s := by
  have lit : ∀ (t : State) (y_flt : Flt), but 1048576 { t with flt := y_flt } = but 1048576 t := fun _ _ => rfl
  unfold raiseC; simp only [ite_but, lit, ite_self]
theorem raise_but (src ch : Nat) (det : Word) (s : State) : but 1048576 (raise src ch det s) = but 1048576 s := by
  have b_raiseC : ∀ (src ch : Nat) (det : Word) (carried : Bool) (s : State), but 1048576 (raiseC src ch det carried s) = but 1048576 s := fun src ch det carried s => but_le (by decide) (raiseC_but src ch det carried s)
  unfold raise; simp only [b_raiseC]
theorem newInstant_but (s : State) : but 1048576 (newInstant s) = but 1048576 s := rfl
theorem makeRoom_but (k : Nat) (s : State) : but 1536 (makeRoom k s) = but 1536 s := by
  unfold makeRoom
  split <;> rfl
theorem takeSeq_but (rank : Nat) (s : State) : but 1792 ((takeSeq rank s).2) = but 1792 s := by
  have b_makeRoom : ∀ (k : Nat) (s : State), but 1792 (makeRoom k s) = but 1792 s := fun k s => but_le (by decide) (makeRoom_but k s)
  have lit : ∀ (t : State) (y_sched : Sched), but 1792 { t with sched := y_sched } = but 1792 t := fun _ _ => rfl
  unfold takeSeq; simp only [lit, b_makeRoom]
theorem settleSeq_but (r : Quad) (s : State) : but 256 (settleSeq r s) = but 256 s := by
  have lit : ∀ (t : State) (y_sched : Sched), but 256 { t with sched := y_sched } = but 256 t := fun _ _ => rfl
  unfold settleSeq; simp only [ite_but, lit, ite_self]
theorem dropRec_but (r : Quad) (s : State) : but 512 (dropRec r s) = but 512 s := rfl
theorem enterFifo_but (j : Nat) (r : Quad) (s : State) : but 33554944 (enterFifo j r s) = but 33554944 s := by
  have b_setInt : ∀ (b : Nat) (s : State), but 33554944 (setInt b s) = but 33554944 s := fun b s => but_le (by decide) (setInt_but b s)
  have b_dropRec : ∀ (r : Quad) (s : State), but 33554944 (dropRec r s) = but 33554944 s := fun r s => but_le (by decide) (dropRec_but r s)
  have lit : ∀ (t : State) (y_rpt : Rpt), but 33554944 { t with rpt := y_rpt } = but 33554944 t := fun _ _ => rfl
  unfold enterFifo; simp only [ite_but, lit, b_setInt, b_dropRec, ite_self]
theorem pushRec_but (ty src flags : Nat) (w2 w3 : Word) (s : State) : but 33556224 (pushRec ty src flags w2 w3 s) = but 33556224 s := by
  have b_takeSeq : ∀ (rank : Nat) (s : State), but 33556224 ((takeSeq rank s).2) = but 33556224 s := fun rank s => but_le (by decide) (takeSeq_but rank s)
  have b_enterFifo : ∀ (j : Nat) (r : Quad) (s : State), but 33556224 (enterFifo j r s) = but 33556224 s := fun j r s => but_le (by decide) (enterFifo_but j r s)
  unfold pushRec; simp only [ite_but, b_takeSeq, b_enterFifo, ite_self]
theorem putData_but (w : Word) (s : State) : but 33554432 (putData w s) = but 33554432 s := rfl
theorem readIf_but (M : Nat) (c : Bool) (f : State → Word × State) (s : State) (hM : 33554432 ||| M = M) (hf : ∀ t, but M ((f t).2) = but M t) : but M (readIf c f s) = but M s := by
  have b_putData : ∀ (w : Word) (s : State), but M (putData w s) = but M s := fun w s => but_le2 (by decide) hM (putData_but w s)
  unfold readIf; simp only [ite_but, b_putData, hf, ite_self]
theorem updChan_but (n : Fin 12) (f : Chan → Chan) (s : State) : but 2048 (updChan n f s) = but 2048 s := rfl

/-! ### ChanOps.lean -/

theorem groupRise_but (g : Nat) (s : State) : but 131072 (groupRise g s) = but 131072 s := rfl
theorem setDrv1_but (n : Fin 12) (lvl : Bool) (s : State) : but 2048 (setDrv1 n lvl s) = but 2048 s := rfl
theorem pinRise_but (n : Fin 12) (s : State) : but 198656 (pinRise n s) = but 198656 s := rfl
theorem pinFall_but (n : Fin 12) (s : State) : but 2048 (pinFall n s) = but 2048 s := rfl
theorem setDrv_but (n : Fin 12) (lvl : Bool) (s : State) : but 2048 (setDrv n lvl s) = but 2048 s := by
  have b_setDrv1 : ∀ (n : Fin 12) (lvl : Bool) (s : State), but 2048 (setDrv1 n lvl s) = but 2048 s := fun n lvl s => but_le (by decide) (setDrv1_but n lvl s)
  unfold setDrv; simp only [ite_but, b_setDrv1, ite_self]
theorem forceLow_but (s : State) : but 2048 (forceLow s) = but 2048 s := by
  have b_updChan : ∀ (n : Fin 12) (f : Chan → Chan) (s : State), but 2048 (updChan n f s) = but 2048 s := fun n f s => but_le (by decide) (updChan_but n f s)
  have b_setDrv : ∀ (n : Fin 12) (lvl : Bool) (s : State), but 2048 (setDrv n lvl s) = but 2048 s := fun n lvl s => but_le (by decide) (setDrv_but n lvl s)
  have lit : ∀ (t : State) (y_chan : Vector Chan 12), but 2048 { t with chan := y_chan } = but 2048 t := fun _ _ => rfl
  unfold forceLow; simp only [lit, foldSt_but, b_updChan, b_setDrv, implies_true]
theorem boostEnds_but (e : Tb) (s : State) : but 133120 (boostEnds e s) = but 133120 s := rfl
theorem boostUpdate_but (old : Vector Chan 12) (s : State) : but 137216 (boostUpdate old s) = but 137216 s := by
  have b_forceLow : ∀ (s : State), but 137216 (forceLow s) = but 137216 s := fun s => but_le (by decide) (forceLow_but s)
  have b_boostEnds : ∀ (e : Tb) (s : State), but 137216 (boostEnds e s) = but 137216 s := fun e s => but_le (by decide) (boostEnds_but e s)
  have lit : ∀ (t : State) (y_chs : Chs), but 137216 { t with chs := y_chs } = but 137216 t := fun _ _ => rfl
  unfold boostUpdate; simp only [ite_but, lit, b_forceLow, b_boostEnds, ite_self]
theorem boostRise_but (s : State) : but 133120 (boostRise s) = but 133120 s := by
  have b_groupRise : ∀ (g : Nat) (s : State), but 133120 (groupRise g s) = but 133120 s := fun g s => but_le (by decide) (groupRise_but g s)
  have lit : ∀ (t : State) (y_chan : Vector Chan 12), but 133120 { t with chan := y_chan } = but 133120 t := fun _ _ => rfl
  unfold boostRise; simp only [lit, foldSt_but, b_groupRise, implies_true]
theorem boostFall_but (s : State) : but 133120 (boostFall s) = but 133120 s := rfl
theorem pinEdges_but (s : State) : but 134416384 (pinEdges s) = but 134416384 s := by
  have b_pinRise : ∀ (n : Fin 12) (s : State), but 134416384 (pinRise n s) = but 134416384 s := fun n s => but_le (by decide) (pinRise_but n s)
  have b_pinFall : ∀ (n : Fin 12) (s : State), but 134416384 (pinFall n s) = but 134416384 s := fun n s => but_le (by decide) (pinFall_but n s)
  have b_boostRise : ∀ (s : State), but 134416384 (boostRise s) = but 134416384 s := fun s => but_le (by decide) (boostRise_but s)
  have b_boostFall : ∀ (s : State), but 134416384 (boostFall s) = but 134416384 s := fun s => but_le (by decide) (boostFall_but s)
  have lit : ∀ (t : State) (y_pins : Pins), but 134416384 { t with pins := y_pins } = but 134416384 t := fun _ _ => rfl
  unfold pinEdges; simp only [ite_but, lit, foldSt_but, b_pinRise, b_pinFall, b_boostRise, b_boostFall, ite_self, implies_true]
theorem shiftOuts_but (lv : OutLevels) (s : State) : but 134217728 (shiftOuts lv s) = but 134217728 s := rfl
theorem dropPins_but (p : Fin 12 → Bool) (s : State) : but 134217728 (dropPins p s) = but 134217728 s := rfl
theorem settle_but (n : Fin 12) (st : ChSt) (s : State) : but 137216 (settle n st s) = but 137216 s := by
  have b_updChan : ∀ (n : Fin 12) (f : Chan → Chan) (s : State), but 137216 (updChan n f s) = but 137216 s := fun n f s => but_le (by decide) (updChan_but n f s)
  have b_boostUpdate : ∀ (old : Vector Chan 12) (s : State), but 137216 (boostUpdate old s) = but 137216 s := fun old s => but_le (by decide) (boostUpdate_but old s)
  have b_setDrv : ∀ (n : Fin 12) (lvl : Bool) (s : State), but 137216 (setDrv n lvl s) = but 137216 s := fun n lvl s => but_le (by decide) (setDrv_but n lvl s)
  unfold settle; simp only [b_updChan, b_boostUpdate, b_setDrv]
theorem enterDecay_but (n : Fin 12) (s : State) : but 137216 (enterDecay n s) = but 137216 s := by
  have b_settle : ∀ (n : Fin 12) (st : ChSt) (s : State), but 137216 (settle n st s) = but 137216 s := fun n st s => but_le (by decide) (settle_but n st s)
  have b_updChan : ∀ (n : Fin 12) (f : Chan → Chan) (s : State), but 137216 (updChan n f s) = but 137216 s := fun n f s => but_le (by decide) (updChan_but n f s)
  unfold enterDecay; simp only [b_settle, b_updChan]
theorem applyScale_but (n : Fin 12) (s : State) : but 2048 (applyScale n s) = but 2048 s := by
  have b_updChan : ∀ (n : Fin 12) (f : Chan → Chan) (s : State), but 2048 (updChan n f s) = but 2048 s := fun n f s => but_le (by decide) (updChan_but n f s)
  unfold applyScale; simp only [ite_but, b_updChan, ite_self]
theorem refreshI_but (m : Fin 8) (s : State) : but 2048 (refreshI m s) = but 2048 s := rfl
theorem endFallback_but (n : Fin 12) (s : State) : but 2048 (endFallback n s) = but 2048 s := by
  have b_updChan : ∀ (n : Fin 12) (f : Chan → Chan) (s : State), but 2048 (updChan n f s) = but 2048 s := fun n f s => but_le (by decide) (updChan_but n f s)
  have b_refreshI : ∀ (m : Fin 8) (s : State), but 2048 (refreshI m s) = but 2048 s := fun m s => but_le (by decide) (refreshI_but m s)
  unfold endFallback; (repeat' split) <;> first | rfl | simp only [ite_but, itep_but, itec_but, b_updChan, b_refreshI, ite_self, implies_true]
theorem enterIdle_but (n : Fin 12) (s : State) : but 137216 (enterIdle n s) = but 137216 s := by
  have b_endFallback : ∀ (n : Fin 12) (s : State), but 137216 (endFallback n s) = but 137216 s := fun n s => but_le (by decide) (endFallback_but n s)
  have b_applyScale : ∀ (n : Fin 12) (s : State), but 137216 (applyScale n s) = but 137216 s := fun n s => but_le (by decide) (applyScale_but n s)
  have b_settle : ∀ (n : Fin 12) (st : ChSt) (s : State), but 137216 (settle n st s) = but 137216 s := fun n st s => but_le (by decide) (settle_but n st s)
  unfold enterIdle; simp only [b_endFallback, b_applyScale, b_settle]
theorem enterLow_but (n : Fin 12) (s : State) : but 137216 (enterLow n s) = but 137216 s := by
  have b_applyScale : ∀ (n : Fin 12) (s : State), but 137216 (applyScale n s) = but 137216 s := fun n s => but_le (by decide) (applyScale_but n s)
  have b_settle : ∀ (n : Fin 12) (st : ChSt) (s : State), but 137216 (settle n st s) = but 137216 s := fun n st s => but_le (by decide) (settle_but n st s)
  unfold enterLow; simp only [b_applyScale, b_settle]
theorem release_but (n : Fin 12) (s : State) : but 137216 (release n s) = but 137216 s := by
  have b_enterDecay : ∀ (n : Fin 12) (s : State), but 137216 (enterDecay n s) = but 137216 s := fun n s => but_le (by decide) (enterDecay_but n s)
  have b_enterLow : ∀ (n : Fin 12) (s : State), but 137216 (enterLow n s) = but 137216 s := fun n s => but_le (by decide) (enterLow_but n s)
  have b_settle : ∀ (n : Fin 12) (st : ChSt) (s : State), but 137216 (settle n st s) = but 137216 s := fun n st s => but_le (by decide) (settle_but n st s)
  unfold release; simp only [ite_but, b_enterDecay, b_enterLow, b_settle, ite_self]
theorem containInput_but (n : Fin 12) (s : State) : but 137216 (containInput n s) = but 137216 s := by
  have b_setDrv1 : ∀ (n : Fin 12) (lvl : Bool) (s : State), but 137216 (setDrv1 n lvl s) = but 137216 s := fun n lvl s => but_le (by decide) (setDrv1_but n lvl s)
  have b_settle : ∀ (n : Fin 12) (st : ChSt) (s : State), but 137216 (settle n st s) = but 137216 s := fun n st s => but_le (by decide) (settle_but n st s)
  unfold containInput; simp only [ite_but, b_setDrv1, b_settle, ite_self]
theorem containCh_but (n : Fin 12) (s : State) : but 137216 (containCh n s) = but 137216 s := by
  have b_containInput : ∀ (n : Fin 12) (s : State), but 137216 (containInput n s) = but 137216 s := fun n s => but_le (by decide) (containInput_but n s)
  have b_updChan : ∀ (n : Fin 12) (f : Chan → Chan) (s : State), but 137216 (updChan n f s) = but 137216 s := fun n f s => but_le (by decide) (updChan_but n f s)
  unfold containCh; simp only [ite_but, b_containInput, b_updChan, ite_self]
theorem leaveContained_but (n : Fin 12) (s : State) : but 137216 (leaveContained n s) = but 137216 s := by
  have b_release : ∀ (n : Fin 12) (s : State), but 137216 (release n s) = but 137216 s := fun n s => but_le (by decide) (release_but n s)
  unfold leaveContained; simp only [ite_but, b_release, ite_self]
theorem tripInput_but (n : Fin 12) (s : State) : but 137216 (tripInput n s) = but 137216 s := by
  have b_setDrv1 : ∀ (n : Fin 12) (lvl : Bool) (s : State), but 137216 (setDrv1 n lvl s) = but 137216 s := fun n lvl s => but_le (by decide) (setDrv1_but n lvl s)
  have b_settle : ∀ (n : Fin 12) (st : ChSt) (s : State), but 137216 (settle n st s) = but 137216 s := fun n st s => but_le (by decide) (settle_but n st s)
  unfold tripInput; (repeat' split) <;> first | rfl | simp only [b_settle]
theorem tripAll_but (s : State) : but 137216 (tripAll s) = but 137216 s := by
  have b_tripInput : ∀ (n : Fin 12) (s : State), but 137216 (tripInput n s) = but 137216 s := fun n s => but_le (by decide) (tripInput_but n s)
  unfold tripAll; simp only [foldSt_but, b_tripInput, implies_true]
theorem outputsDown_but (s : State) : but 134421504 (outputsDown s) = but 134421504 s := by
  have b_enterDecay : ∀ (n : Fin 12) (s : State), but 134421504 (enterDecay n s) = but 134421504 s := fun n s => but_le (by decide) (enterDecay_but n s)
  have b_enterLow : ∀ (n : Fin 12) (s : State), but 134421504 (enterLow n s) = but 134421504 s := fun n s => but_le (by decide) (enterLow_but n s)
  have b_setDrv1 : ∀ (n : Fin 12) (lvl : Bool) (s : State), but 134421504 (setDrv1 n lvl s) = but 134421504 s := fun n lvl s => but_le (by decide) (setDrv1_but n lvl s)
  have b_pinEdges : ∀ (s : State), but 134421504 (pinEdges s) = but 134421504 s := fun s => but_le (by decide) (pinEdges_but s)
  have lit : ∀ (t : State) (y_cpc : Cpc) (y_pins : Pins), but 134421504 { t with cpc := y_cpc, pins := y_pins } = but 134421504 t := fun _ _ _ => rfl
  unfold outputsDown; simp only [ite_but, lit, foldSt_but, b_enterDecay, b_enterLow, b_setDrv1, b_pinEdges, ite_self, implies_true]
theorem containAll_but (s : State) : but 137216 (containAll s) = but 137216 s := by
  have b_settle : ∀ (n : Fin 12) (st : ChSt) (s : State), but 137216 (settle n st s) = but 137216 s := fun n st s => but_le (by decide) (settle_but n st s)
  have b_updChan : ∀ (n : Fin 12) (f : Chan → Chan) (s : State), but 137216 (updChan n f s) = but 137216 s := fun n f s => but_le (by decide) (updChan_but n f s)
  unfold containAll; simp only [foldSt_but, b_settle, b_updChan, implies_true]
theorem setTarget_but (n : Fin 12) (v : Nat) (noslew : Bool) (s : State) : but 2048 (setTarget n v noslew s) = but 2048 s := rfl
theorem regulate_but (n : Fin 12) (i : Nat) (s : State) : but 2048 (regulate n i s) = but 2048 s := by
  have b_updChan : ∀ (n : Fin 12) (f : Chan → Chan) (s : State), but 2048 (updChan n f s) = but 2048 s := fun n f s => but_le (by decide) (updChan_but n f s)
  have b_setDrv : ∀ (n : Fin 12) (lvl : Bool) (s : State), but 2048 (setDrv n lvl s) = but 2048 s := fun n lvl s => but_le (by decide) (setDrv_but n lvl s)
  unfold regulate; simp only [ite_but, b_updChan, b_setDrv, ite_self]
theorem enterHold_but (n : Fin 12) (s : State) : but 137216 (enterHold n s) = but 137216 s := by
  have b_updChan : ∀ (n : Fin 12) (f : Chan → Chan) (s : State), but 137216 (updChan n f s) = but 137216 s := fun n f s => but_le (by decide) (updChan_but n f s)
  have b_boostUpdate : ∀ (old : Vector Chan 12) (s : State), but 137216 (boostUpdate old s) = but 137216 s := fun old s => but_le (by decide) (boostUpdate_but old s)
  have b_setTarget : ∀ (n : Fin 12) (v : Nat) (noslew : Bool) (s : State), but 137216 (setTarget n v noslew s) = but 137216 s := fun n v noslew s => but_le (by decide) (setTarget_but n v noslew s)
  unfold enterHold; simp only [b_updChan, b_boostUpdate, b_setTarget]
theorem enterPeak_but (n : Fin 12) (s : State) : but 137216 (enterPeak n s) = but 137216 s := by
  have b_boostUpdate : ∀ (old : Vector Chan 12) (s : State), but 137216 (boostUpdate old s) = but 137216 s := fun old s => but_le (by decide) (boostUpdate_but old s)
  have b_updChan : ∀ (n : Fin 12) (f : Chan → Chan) (s : State), but 137216 (updChan n f s) = but 137216 s := fun n f s => but_le (by decide) (updChan_but n f s)
  unfold enterPeak; simp only [b_boostUpdate, b_updChan]
theorem boostExit_but (n : Fin 12) (s : State) : but 137216 (boostExit n s) = but 137216 s := by
  have b_updChan : ∀ (n : Fin 12) (f : Chan → Chan) (s : State), but 137216 (updChan n f s) = but 137216 s := fun n f s => but_le (by decide) (updChan_but n f s)
  have b_boostUpdate : ∀ (old : Vector Chan 12) (s : State), but 137216 (boostUpdate old s) = but 137216 s := fun old s => but_le (by decide) (boostUpdate_but old s)
  have b_setDrv : ∀ (n : Fin 12) (lvl : Bool) (s : State), but 137216 (setDrv n lvl s) = but 137216 s := fun n lvl s => but_le (by decide) (setDrv_but n lvl s)
  unfold boostExit; simp only [b_updChan, b_boostUpdate, b_setDrv]
theorem throttleMoved_but (n : Fin 12) (s : State) : but 2048 (throttleMoved n s) = but 2048 s := by
  have b_setTarget : ∀ (n : Fin 12) (v : Nat) (noslew : Bool) (s : State), but 2048 (setTarget n v noslew s) = but 2048 s := fun n v noslew s => but_le (by decide) (setTarget_but n v noslew s)
  unfold throttleMoved; simp only [ite_but, b_setTarget, ite_self]
theorem startProfile_but (n : Fin 12) (param : Word) (s : State) : but 137216 (startProfile n param s) = but 137216 s := by
  have b_updChan : ∀ (n : Fin 12) (f : Chan → Chan) (s : State), but 137216 (updChan n f s) = but 137216 s := fun n f s => but_le (by decide) (updChan_but n f s)
  have b_boostUpdate : ∀ (old : Vector Chan 12) (s : State), but 137216 (boostUpdate old s) = but 137216 s := fun old s => but_le (by decide) (boostUpdate_but old s)
  have b_setDrv : ∀ (n : Fin 12) (lvl : Bool) (s : State), but 137216 (setDrv n lvl s) = but 137216 s := fun n lvl s => but_le (by decide) (setDrv_but n lvl s)
  unfold startProfile; simp only [ite_but, b_updChan, b_boostUpdate, b_setDrv, ite_self]
theorem startBrass_but (n : Fin 12) (param : Word) (s : State) : but 137216 (startBrass n param s) = but 137216 s := by
  have b_boostUpdate : ∀ (old : Vector Chan 12) (s : State), but 137216 (boostUpdate old s) = but 137216 s := fun old s => but_le (by decide) (boostUpdate_but old s)
  have b_updChan : ∀ (n : Fin 12) (f : Chan → Chan) (s : State), but 137216 (updChan n f s) = but 137216 s := fun n f s => but_le (by decide) (updChan_but n f s)
  unfold startBrass; simp only [b_boostUpdate, b_updChan]
theorem timedRise_but (n : Fin 12) (width : Option Nat) (s : State) : but 2048 (timedRise n width s) = but 2048 s := by
  have b_setDrv : ∀ (n : Fin 12) (lvl : Bool) (s : State), but 2048 (setDrv n lvl s) = but 2048 s := fun n lvl s => but_le (by decide) (setDrv_but n lvl s)
  have b_updChan : ∀ (n : Fin 12) (f : Chan → Chan) (s : State), but 2048 (updChan n f s) = but 2048 s := fun n f s => but_le (by decide) (updChan_but n f s)
  unfold timedRise; simp only [b_setDrv, b_updChan]
theorem fireAction_but (n : Fin 12) (act : Nat) (param : Word) (s : State) : but 137216 ((fireAction n act param s).2) = but 137216 s := by
  have b_startBrass : ∀ (n : Fin 12) (param : Word) (s : State), but 137216 (startBrass n param s) = but 137216 s := fun n param s => but_le (by decide) (startBrass_but n param s)
  have b_startProfile : ∀ (n : Fin 12) (param : Word) (s : State), but 137216 (startProfile n param s) = but 137216 s := fun n param s => but_le (by decide) (startProfile_but n param s)
  have b_enterDecay : ∀ (n : Fin 12) (s : State), but 137216 (enterDecay n s) = but 137216 s := fun n s => but_le (by decide) (enterDecay_but n s)
  have b_enterLow : ∀ (n : Fin 12) (s : State), but 137216 (enterLow n s) = but 137216 s := fun n s => but_le (by decide) (enterLow_but n s)
  have b_timedRise : ∀ (n : Fin 12) (width : Option Nat) (s : State), but 137216 (timedRise n width s) = but 137216 s := fun n width s => but_le (by decide) (timedRise_but n width s)
  unfold fireAction; simp only [ite_but, itep_but, b_startBrass, b_startProfile, b_enterDecay, b_enterLow, b_timedRise, ite_self]

/-! ### DiagOps.lean -/

theorem updDiag_but (n : Fin 8) (f : DiagCh → DiagCh) (s : State) : but 65536 (updDiag n f s) = but 65536 s := rfl
theorem setClass_but (n : Fin 8) (c : Nat) (s : State) : but 34668544 (setClass n c s) = but 34668544 s := by
  have b_setInt : ∀ (b : Nat) (s : State), but 34668544 (setInt b s) = but 34668544 s := fun b s => but_le (by decide) (setInt_but b s)
  have b_raise : ∀ (src ch : Nat) (det : Word) (s : State), but 34668544 (raise src ch det s) = but 34668544 s := fun src ch det s => but_le (by decide) (raise_but src ch det s)
  have b_updDiag : ∀ (n : Fin 8) (f : DiagCh → DiagCh) (s : State), but 34668544 (updDiag n f s) = but 34668544 s := fun n f s => but_le (by decide) (updDiag_but n f s)
  unfold setClass; (repeat' split) <;> first | rfl | simp only [b_setInt, b_raise, b_updDiag]
theorem verdict_but (n : Fin 8) (on : Bool) (need v : Nat) (s : State) : but 34668544 (verdict n on need v s) = but 34668544 s := by
  have b_updDiag : ∀ (n : Fin 8) (f : DiagCh → DiagCh) (s : State), but 34668544 (updDiag n f s) = but 34668544 s := fun n f s => but_le (by decide) (updDiag_but n f s)
  have b_setClass : ∀ (n : Fin 8) (c : Nat) (s : State), but 34668544 (setClass n c s) = but 34668544 s := fun n c s => but_le (by decide) (setClass_but n c s)
  unfold verdict; simp only [ite_but, b_updDiag, b_setClass, ite_self]
theorem testVerdict_but (n : Fin 8) (on : Bool) (v : Nat) (s : State) : but 34668544 (testVerdict n on v s) = but 34668544 s := by
  have b_verdict : ∀ (n : Fin 8) (on : Bool) (need v : Nat) (s : State), but 34668544 (verdict n on need v s) = but 34668544 s := fun n on need v s => but_le (by decide) (verdict_but n on need v s)
  have lit : ∀ (t : State) (y_diag : Diag), but 34668544 { t with diag := y_diag } = but 34668544 t := fun _ _ => rfl
  unfold testVerdict; (repeat' split) <;> first | rfl | simp only [ite_but, itep_but, itec_but, lit, b_verdict, ite_self, implies_true]
theorem testOther_but (n : Fin 8) (i : Nat) (s : State) : but 65536 (testOther n i s) = but 65536 s := by
  have lit : ∀ (t : State) (y_diag : Diag), but 65536 { t with diag := y_diag } = but 65536 t := fun _ _ => rfl
  unfold testOther; (repeat' split) <;> first | rfl | simp only [ite_but, itep_but, itec_but, lit, ite_self, implies_true]
theorem classify_but (n : Fin 8) (i dl : Nat) (prev : Option Nat) (s : State) : but 34668544 (classify n i dl prev s) = but 34668544 s := by
  have b_updDiag : ∀ (n : Fin 8) (f : DiagCh → DiagCh) (s : State), but 34668544 (updDiag n f s) = but 34668544 s := fun n f s => but_le (by decide) (updDiag_but n f s)
  have b_testVerdict : ∀ (n : Fin 8) (on : Bool) (v : Nat) (s : State), but 34668544 (testVerdict n on v s) = but 34668544 s := fun n on v s => but_le (by decide) (testVerdict_but n on v s)
  have b_verdict : ∀ (n : Fin 8) (on : Bool) (need v : Nat) (s : State), but 34668544 (verdict n on need v s) = but 34668544 s := fun n on need v s => but_le (by decide) (verdict_but n on need v s)
  have b_testOther : ∀ (n : Fin 8) (i : Nat) (s : State), but 34668544 (testOther n i s) = but 34668544 s := fun n i s => but_le (by decide) (testOther_but n i s)
  unfold classify; simp only [ite_but, b_updDiag, b_testVerdict, b_verdict, b_testOther, ite_self]
theorem latchGroups_but (src : Nat) (gs : List (Fin 4)) (s : State) : but 168957952 (latchGroups src gs s) = but 168957952 s := by
  have b_setInt : ∀ (b : Nat) (s : State), but 168957952 (setInt b s) = but 168957952 s := fun b s => but_le (by decide) (setInt_but b s)
  have b_raiseC : ∀ (src ch : Nat) (det : Word) (carried : Bool) (s : State), but 168957952 (raiseC src ch det carried s) = but 168957952 s := fun src ch det carried s => but_le (by decide) (raiseC_but src ch det carried s)
  have b_dropPins : ∀ (p : Fin 12 → Bool) (s : State), but 168957952 (dropPins p s) = but 168957952 s := fun p s => but_le (by decide) (dropPins_but p s)
  have b_tripAll : ∀ (s : State), but 168957952 (tripAll s) = but 168957952 s := fun s => but_le (by decide) (tripAll_but s)
  have lit : ∀ (t : State) (y_trip : Trip), but 168957952 { t with trip := y_trip } = but 168957952 t := fun _ _ => rfl
  unfold latchGroups; simp only [ite_but, lit, b_setInt, b_raiseC, b_dropPins, b_tripAll, ite_self]

/-! ### SenseOps.lean -/

theorem updLine_but (n : Fin 8) (f : Line → Line) (s : State) : but 8192 (updLine n f s) = but 8192 s := rfl
theorem noteDue_but (s : State) : but 8192 (noteDue s) = but 8192 s := rfl
theorem addHeat_but (n : Fin 8) (lvl : Bool) (x : Nat) (s : State) : but 262144 (addHeat n lvl x s) = but 262144 s := by
  have lit : ∀ (t : State) (y_therm : Therm), but 262144 { t with therm := y_therm } = but 262144 t := fun _ _ => rfl
  unfold addHeat; simp only [ite_but, lit, ite_self]
theorem waitiFrame_but (n : Fin 12) (i : Nat) (s : State) : but 2048 (waitiFrame n i s) = but 2048 s := by
  have b_updChan : ∀ (n : Fin 12) (f : Chan → Chan) (s : State), but 2048 (updChan n f s) = but 2048 s := fun n f s => but_le (by decide) (updChan_but n f s)
  unfold waitiFrame; (repeat' split) <;> first | rfl | simp only [ite_but, itep_but, itec_but, b_updChan, ite_self, implies_true]
theorem chanFrame_but (n : Fin 12) (i : Nat) (s : State) : but 137216 (chanFrame n i s) = but 137216 s := by
  have b_boostExit : ∀ (n : Fin 12) (s : State), but 137216 (boostExit n s) = but 137216 s := fun n s => but_le (by decide) (boostExit_but n s)
  have b_enterDecay : ∀ (n : Fin 12) (s : State), but 137216 (enterDecay n s) = but 137216 s := fun n s => but_le (by decide) (enterDecay_but n s)
  have b_regulate : ∀ (n : Fin 12) (i : Nat) (s : State), but 137216 (regulate n i s) = but 137216 s := fun n i s => but_le (by decide) (regulate_but n i s)
  have b_waitiFrame : ∀ (n : Fin 12) (i : Nat) (s : State), but 137216 (waitiFrame n i s) = but 137216 s := fun n i s => but_le (by decide) (waitiFrame_but n i s)
  have b_enterIdle : ∀ (n : Fin 12) (s : State), but 137216 (enterIdle n s) = but 137216 s := fun n s => but_le (by decide) (enterIdle_but n s)
  have b_updChan : ∀ (n : Fin 12) (f : Chan → Chan) (s : State), but 137216 (updChan n f s) = but 137216 s := fun n f s => but_le (by decide) (updChan_but n f s)
  unfold chanFrame; dsimp only; (repeat' split) <;> first | rfl | simp only [b_boostExit, b_enterDecay, b_regulate, b_waitiFrame, b_enterIdle]
theorem gapSlot_but (m : Fin 12) (s : State) : but 2048 (gapSlot m s) = but 2048 s := by
  have b_updChan : ∀ (n : Fin 12) (f : Chan → Chan) (s : State), but 2048 (updChan n f s) = but 2048 s := fun n f s => but_le (by decide) (updChan_but n f s)
  have b_setDrv : ∀ (n : Fin 12) (lvl : Bool) (s : State), but 2048 (setDrv n lvl s) = but 2048 s := fun n lvl s => but_le (by decide) (setDrv_but n lvl s)
  unfold gapSlot; simp only [ite_but, b_updChan, b_setDrv, ite_self]
theorem chanMissing_but (n : Fin 8) (s : State) : but 2048 (chanMissing n s) = but 2048 s := by
  have b_gapSlot : ∀ (m : Fin 12) (s : State), but 2048 (gapSlot m s) = but 2048 s := fun m s => but_le (by decide) (gapSlot_but m s)
  unfold chanMissing; simp only [ite_but, b_gapSlot, ite_self]
theorem breakEffect_but (n : Fin 8) (s : State) : but 137216 (breakEffect n s) = but 137216 s := by
  have b_refreshI : ∀ (m : Fin 8) (s : State), but 137216 (refreshI m s) = but 137216 s := fun m s => but_le (by decide) (refreshI_but m s)
  have b_updChan : ∀ (n : Fin 12) (f : Chan → Chan) (s : State), but 137216 (updChan n f s) = but 137216 s := fun n f s => but_le (by decide) (updChan_but n f s)
  have b_containInput : ∀ (n : Fin 12) (s : State), but 137216 (containInput n s) = but 137216 s := fun n s => but_le (by decide) (containInput_but n s)
  unfold breakEffect; simp only [ite_but, b_refreshI, b_updChan, b_containInput, ite_self]
theorem enterBreak_but (n : Fin 8) (s : State) : but 1259520 (enterBreak n s) = but 1259520 s := by
  have b_updLine : ∀ (n : Fin 8) (f : Line → Line) (s : State), but 1259520 (updLine n f s) = but 1259520 s := fun n f s => but_le (by decide) (updLine_but n f s)
  have b_updDiag : ∀ (n : Fin 8) (f : DiagCh → DiagCh) (s : State), but 1259520 (updDiag n f s) = but 1259520 s := fun n f s => but_le (by decide) (updDiag_but n f s)
  have b_breakEffect : ∀ (n : Fin 8) (s : State), but 1259520 (breakEffect n s) = but 1259520 s := fun n s => but_le (by decide) (breakEffect_but n s)
  have b_raiseC : ∀ (src ch : Nat) (det : Word) (carried : Bool) (s : State), but 1259520 (raiseC src ch det carried s) = but 1259520 s := fun src ch det carried s => but_le (by decide) (raiseC_but src ch det carried s)
  unfold enterBreak; simp only [ite_but, b_updLine, b_updDiag, b_breakEffect, b_raiseC, ite_self]
theorem leaveBreak_but (n : Fin 8) (s : State) : but 137216 (leaveBreak n s) = but 137216 s := by
  have b_leaveContained : ∀ (n : Fin 12) (s : State), but 137216 (leaveContained n s) = but 137216 s := fun n s => but_le (by decide) (leaveContained_but n s)
  have b_updChan : ∀ (n : Fin 12) (f : Chan → Chan) (s : State), but 137216 (updChan n f s) = but 137216 s := fun n f s => but_le (by decide) (updChan_but n f s)
  unfold leaveBreak; simp only [ite_but, b_leaveContained, b_updChan, ite_self]
theorem testDecayFrame_but (m : Fin 12) (i : Nat) (s : State) : but 65536 (testDecayFrame m i s) = but 65536 s := by
  have lit : ∀ (t : State) (y_diag : Diag), but 65536 { t with diag := y_diag } = but 65536 t := fun _ _ => rfl
  unfold testDecayFrame; (repeat' split) <;> first | rfl | simp only [ite_but, itep_but, itec_but, lit, ite_self, implies_true]
theorem takeFrame_but (m : Fin 12) (i : Nat) (stale : Bool) (s : State) : but 202752 (takeFrame m i stale s) = but 202752 s := by
  have b_testDecayFrame : ∀ (m : Fin 12) (i : Nat) (s : State), but 202752 (testDecayFrame m i s) = but 202752 s := fun m i s => but_le (by decide) (testDecayFrame_but m i s)
  have b_chanFrame : ∀ (n : Fin 12) (i : Nat) (s : State), but 202752 (chanFrame n i s) = but 202752 s := fun n i s => but_le (by decide) (chanFrame_but n i s)
  have b_updChan : ∀ (n : Fin 12) (f : Chan → Chan) (s : State), but 202752 (updChan n f s) = but 202752 s := fun n f s => but_le (by decide) (updChan_but n f s)
  have b_gapSlot : ∀ (m : Fin 12) (s : State), but 202752 (gapSlot m s) = but 202752 s := fun m s => but_le (by decide) (gapSlot_but m s)
  unfold takeFrame; simp only [ite_but, b_testDecayFrame, b_chanFrame, b_updChan, b_gapSlot, ite_self]
theorem slotMissing_but (n : Fin 8) (lvl : Bool) (s : State) : but 1521664 (slotMissing n lvl s) = but 1521664 s := by
  have b_updLine : ∀ (n : Fin 8) (f : Line → Line) (s : State), but 1521664 (updLine n f s) = but 1521664 s := fun n f s => but_le (by decide) (updLine_but n f s)
  have b_addHeat : ∀ (n : Fin 8) (lvl : Bool) (x : Nat) (s : State), but 1521664 (addHeat n lvl x s) = but 1521664 s := fun n lvl x s => but_le (by decide) (addHeat_but n lvl x s)
  have b_chanMissing : ∀ (n : Fin 8) (s : State), but 1521664 (chanMissing n s) = but 1521664 s := fun n s => but_le (by decide) (chanMissing_but n s)
  have b_enterBreak : ∀ (n : Fin 8) (s : State), but 1521664 (enterBreak n s) = but 1521664 s := fun n s => but_le (by decide) (enterBreak_but n s)
  unfold slotMissing; simp only [ite_but, b_updLine, b_addHeat, b_chanMissing, b_enterBreak, ite_self]
theorem slotValid_but (n : Fin 8) (b : FrameBits) (s : State) : but 35076096 (slotValid n b s) = but 35076096 s := by
  have b_raise : ∀ (src ch : Nat) (det : Word) (s : State), but 35076096 (raise src ch det s) = but 35076096 s := fun src ch det s => but_le (by decide) (raise_but src ch det s)
  have b_updLine : ∀ (n : Fin 8) (f : Line → Line) (s : State), but 35076096 (updLine n f s) = but 35076096 s := fun n f s => but_le (by decide) (updLine_but n f s)
  have b_addHeat : ∀ (n : Fin 8) (lvl : Bool) (x : Nat) (s : State), but 35076096 (addHeat n lvl x s) = but 35076096 s := fun n lvl x s => but_le (by decide) (addHeat_but n lvl x s)
  have b_classify : ∀ (n : Fin 8) (i dl : Nat) (prev : Option Nat) (s : State), but 35076096 (classify n i dl prev s) = but 35076096 s := fun n i dl prev s => but_le (by decide) (classify_but n i dl prev s)
  have b_leaveBreak : ∀ (n : Fin 8) (s : State), but 35076096 (leaveBreak n s) = but 35076096 s := fun n s => but_le (by decide) (leaveBreak_but n s)
  have b_takeFrame : ∀ (m : Fin 12) (i : Nat) (stale : Bool) (s : State), but 35076096 (takeFrame m i stale s) = but 35076096 s := fun m i stale s => but_le (by decide) (takeFrame_but m i stale s)
  unfold slotValid; simp only [ite_but, b_raise, b_updLine, b_addHeat, b_classify, b_leaveBreak, b_takeFrame, ite_self]
theorem senseFrame_but (n : Fin 8) (x : BitVec 82) (s : State) : but 35076096 (senseFrame n x s) = but 35076096 s := by
  have b_updLine : ∀ (n : Fin 8) (f : Line → Line) (s : State), but 35076096 (updLine n f s) = but 35076096 s := fun n f s => but_le (by decide) (updLine_but n f s)
  have b_slotMissing : ∀ (n : Fin 8) (lvl : Bool) (s : State), but 35076096 (slotMissing n lvl s) = but 35076096 s := fun n lvl s => but_le (by decide) (slotMissing_but n lvl s)
  have b_raise : ∀ (src ch : Nat) (det : Word) (s : State), but 35076096 (raise src ch det s) = but 35076096 s := fun src ch det s => but_le (by decide) (raise_but src ch det s)
  have b_slotValid : ∀ (n : Fin 8) (b : FrameBits) (s : State), but 35076096 (slotValid n b s) = but 35076096 s := fun n b s => but_le (by decide) (slotValid_but n b s)
  unfold senseFrame; simp only [ite_but, b_updLine, b_slotMissing, b_raise, b_slotValid, ite_self]

/-! ### BusOps.lean -/

theorem gateEvent_but (b : Blk) (win : Bool) (id : Nat) (s : State) : but 1048576 (gateEvent b win id s) = but 1048576 s := by
  have b_raise : ∀ (src ch : Nat) (det : Word) (s : State), but 1048576 (raise src ch det s) = but 1048576 s := fun src ch det s => but_le (by decide) (raise_but src ch det s)
  unfold gateEvent; simp only [b_raise]
theorem gatedWrite_but (M : Nat) (b : Blk) (a : Nat) (f : State → State) (s : State) (hM : 1048576 ||| M = M) (hf : ∀ t, but M (f t) = but M t) : but M (gatedWrite b a f s) = but M s := by
  have b_gateEvent : ∀ (b : Blk) (win : Bool) (id : Nat) (s : State), but M (gateEvent b win id s) = but M s := fun b win id s => but_le2 (by decide) hM (gateEvent_but b win id s)
  unfold gatedWrite; simp only [ite_but, b_gateEvent, hf, ite_self]
theorem gatedRead_but (M : Nat) (b : Blk) (a : Nat) (f : State → Word × State) (s : State) (hM : 1048576 ||| M = M) (hf : ∀ t, but M ((f t).2) = but M t) : but M ((gatedRead b a f s).2) = but M s := by
  have b_gateEvent : ∀ (b : Blk) (win : Bool) (id : Nat) (s : State), but M (gateEvent b win id s) = but M s := fun b win id s => but_le2 (by decide) hM (gateEvent_but b win id s)
  unfold gatedRead; simp only [itep_but, b_gateEvent, hf, ite_self]
theorem gatedWindow_but (M : Nat) (b : Blk) (space : Nat) (f : State → Word × State) (s : State) (hM : 1048576 ||| M = M) (hf : ∀ t, but M ((f t).2) = but M t) : but M ((gatedWindow b space f s).2) = but M s := by
  have b_gateEvent : ∀ (b : Blk) (win : Bool) (id : Nat) (s : State), but M (gateEvent b win id s) = but M s := fun b win id s => but_le2 (by decide) hM (gateEvent_but b win id s)
  unfold gatedWindow; simp only [itep_but, b_gateEvent, hf, ite_self]
theorem askWake_but (code : Nat) (s : State) : but 1 (askWake code s) = but 1 s := rfl
theorem holdRows_but (is : List Instr) (s : State) : but 33554433 (holdRows is s) = but 33554433 s := rfl
theorem latchWake_but (code : Nat) (s : State) : but 1 (latchWake code s) = but 1 s := rfl
theorem csFalls_but (s : State) : but 1 (csFalls s) = but 1 s := by
  have b_latchWake : ∀ (code : Nat) (s : State), but 1 (latchWake code s) = but 1 s := fun code s => but_le (by decide) (latchWake_but code s)
  have b_askWake : ∀ (code : Nat) (s : State), but 1 (askWake code s) = but 1 s := fun code s => but_le (by decide) (askWake_but code s)
  unfold csFalls; (repeat' split) <;> first | rfl | simp only [ite_but, itep_but, itec_but, b_latchWake, b_askWake, ite_self, implies_true]
theorem hostRow_but (M : Nat) (i : Instr) (f : State → State) (s : State) (hM : 33554433 ||| M = M) (hf : ∀ t, but M (f t) = but M t) : but M (hostRow i f s) = but M s := by
  have b_holdRows : ∀ (is : List Instr) (s : State), but M (holdRows is s) = but M s := fun is s => but_le2 (by decide) hM (holdRows_but is s)
  have b_csFalls : ∀ (s : State), but M (csFalls s) = but M s := fun s => but_le2 (by decide) hM (csFalls_but s)
  unfold hostRow; simp only [ite_but, b_holdRows, b_csFalls, hf, ite_self]
theorem hostRead_but (M : Nat) (i : Instr) (f : State → Word × State) (s : State) (hM : 33554433 ||| M = M) (hf : ∀ t, but M ((f t).2) = but M t) : but M (hostRead i f s) = but M s :=
  hostRow_but M i _ s hM fun t => readIf_but M (busUp t) f t (le_trans_mask (by decide) hM) hf
theorem stepWinadr_but (p : Path) (s : State) : but 33554432 (stepWinadr p s) = but 33554432 s := by
  have lit : ∀ (t : State) (y_bus : Bus), but 33554432 { t with bus := y_bus } = but 33554432 t := fun _ _ => rfl
  unfold stepWinadr; (repeat' split) <;> first | rfl | simp only [ite_but, itep_but, itec_but, lit, ite_self, implies_true]
theorem pointAt_but (space off : Nat) (s : State) : but 33554432 (pointAt space off s) = but 33554432 s := by
  have lit : ∀ (t : State) (y_bus : Bus), but 33554432 { t with bus := y_bus } = but 33554432 t := fun _ _ => rfl
  unfold pointAt; simp only [ite_but, lit, ite_self]
theorem windowRead_but (M : Nat) (i : Instr) (space off : Nat) (f : State → Word × State) (s : State) (hM : 33554433 ||| M = M) (hf : ∀ t, but M ((f t).2) = but M t) : but M (windowRead i space off f s) = but M s := by
  refine hostRead_but M i _ s (le_trans_mask (by decide) hM) fun t => ?_
  dsimp only
  rw [but_le2 (by decide) hM (stepWinadr_but .host _), hf, but_le2 (by decide) hM (pointAt_but space off t)]
theorem windowWrite_but (M : Nat) (i : Instr) (space off : Nat) (f : State → State) (s : State) (hM : 33554433 ||| M = M) (hf : ∀ t, but M (f t) = but M t) : but M (windowWrite i space off f s) = but M s := by
  refine hostRow_but M i _ s (le_trans_mask (by decide) hM) fun t => ?_
  split
  · rw [but_le2 (by decide) hM (stepWinadr_but .host _), hf, but_le2 (by decide) hM (pointAt_but space off t)]
  · rfl
theorem deny_but (p : Path) (kind id : Nat) (s : State) : but 1048576 (deny p kind id s) = but 1048576 s := by
  have b_raise : ∀ (src ch : Nat) (det : Word) (s : State), but 1048576 (raise src ch det s) = but 1048576 s := fun src ch det s => but_le (by decide) (raise_but src ch det s)
  unfold deny; simp only [b_raise]

/-! ### Predictor.lean -/

theorem readAngleL_but (p : Path) (s : State) : but 33554432 ((readAngleL p s).2) = but 33554432 s := by
  have lit : ∀ (t : State) (y_bus : Bus), but 33554432 { t with bus := y_bus } = but 33554432 t := fun _ _ => rfl
  unfold readAngleL; (repeat' split) <;> first | rfl | simp only [ite_but, itep_but, itec_but, lit, ite_self, implies_true]
theorem setPred_but (p : Pred) (s : State) : but 48 (setPred p s) = but 48 s := rfl
theorem beginPred_but (p : Pred) (s : State) : but 48 (beginPred p s) = but 48 s := rfl
theorem noteResidual_but (p h : Nat) (res : Int) (s : State) : but 34604928 (noteResidual p h res s) = but 34604928 s := by
  have b_raise : ∀ (src ch : Nat) (det : Word) (s : State), but 34604928 (raise src ch det s) = but 34604928 s := fun src ch det s => but_le (by decide) (raise_but src ch det s)
  have b_pushRec : ∀ (ty src flags : Nat) (w2 w3 : Word) (s : State), but 34604928 (pushRec ty src flags w2 w3 s) = but 34604928 s := fun ty src flags w2 w3 s => but_le (by decide) (pushRec_but ty src flags w2 w3 s)
  have lit : ∀ (t : State) (y_geom : Geom), but 34604928 { t with geom := y_geom } = but 34604928 t := fun _ _ => rfl
  unfold noteResidual; simp only [ite_but, lit, b_raise, b_pushRec, ite_self]
theorem learnRev_but (stamp : Tb) (s : State) : but 128 (learnRev stamp s) = but 128 s := by
  have lit : ∀ (t : State) (x : Geom), but 128 { t with geom := x } = but 128 t := fun _ _ => rfl
  unfold learnRev
  dsimp only
  rw [lit]
  cases s.geom.learn.t0 with
  | none => rfl
  | some t0 => dsimp only; rw [lit]
theorem learnTooth_but (stamp : Tb) (p : Nat) (s : State) : but 128 (learnTooth stamp p s) = but 128 s := rfl
theorem learnSpoil_but (s : State) : but 128 (learnSpoil s) = but 128 s := rfl
theorem learnLost_but (s : State) : but 128 (learnLost s) = but 128 s := rfl

/-! ### LinkOps.lean -/

theorem queueOut_but (rank : Nat) (f : Frame) (stamp : Option Tb) (s : State) : but 2097152 (queueOut rank f stamp s) = but 2097152 s := rfl
theorem queueFault_but (src cls ch sev : Nat) (safe : Bool) (det : Word) (s : State) : but 2097152 (queueFault src cls ch sev safe det s) = but 2097152 s := by
  have b_queueOut : ∀ (rank : Nat) (f : Frame) (stamp : Option Tb) (s : State), but 2097152 (queueOut rank f stamp s) = but 2097152 s := fun rank f stamp s => but_le (by decide) (queueOut_but rank f stamp s)
  unfold queueFault; simp only [ite_but, b_queueOut, ite_self]

/-! ### MboxOps.lean -/

theorem badArg_but (s : State) : but 0 ((badArg s).st) = but 0 s := rfl
theorem checkFail_but (k : Nat) (s : State) : but 0 ((checkFail k s).st) = but 0 s := rfl
theorem checked_but (M : Nat) (argsOk : Bool) (checks : List Bool) (s : State) (eff : CmdRes) (heff : but M eff.st = but M s) : but M ((checked argsOk checks s eff).st) = but M s := by
  unfold checked; (repeat' split) <;> first | rfl | simp only [heff]
theorem denyEvent_but (code : Nat) (ring : Bool) (s : State) : but 1048576 (denyEvent code ring s) = but 1048576 s := by
  have b_raise : ∀ (src ch : Nat) (det : Word) (s : State), but 1048576 (raise src ch det s) = but 1048576 s := fun src ch det s => but_le (by decide) (raise_but src ch det s)
  unfold denyEvent; simp only [b_raise]
theorem guarded_but (M : Nat) (c : Cmd) (op : Args → State → CmdRes) (s : State) (hM : 1048576 ||| M = M) (hop : ∀ x0 t, but M ((op x0 t).st) = but M t) : but M ((guarded c op s).st) = but M s := by
  have b_denyEvent : ∀ (code : Nat) (ring : Bool) (s : State), but M (denyEvent code ring s) = but M s := fun code ring s => but_le2 (by decide) hM (denyEvent_but code ring s)
  unfold guarded; simp only [itec_but, b_denyEvent, hop, ite_self]
theorem submit_but (p : Path) (code : Byte) (s : State) : but 67108864 (submit p code s) = but 67108864 s := by
  have lit : ∀ (t : State) (y_mbox : Mbox), but 67108864 { t with mbox := y_mbox } = but 67108864 t := fun _ _ => rfl
  unfold submit; simp only [ite_but, lit, ite_self]
theorem writeArg_but (n : Nat) (w : Word) (s : State) : but 67108864 (writeArg n w s) = but 67108864 s := by
  have lit : ∀ (t : State) (y_mbox : Mbox), but 67108864 { t with mbox := y_mbox } = but 67108864 t := fun _ _ => rfl
  unfold writeArg; simp only [ite_but, lit, ite_self]
theorem replyTo_but (node : Nat) (tag : Byte) (status q0 : Nat) (s : State) : but 2097152 (replyTo node tag status q0 s) = but 2097152 s := by
  have b_queueOut : ∀ (rank : Nat) (f : Frame) (stamp : Option Tb) (s : State), but 2097152 (queueOut rank f stamp s) = but 2097152 s := fun rank f stamp s => but_le (by decide) (queueOut_but rank f stamp s)
  unfold replyTo; simp only [ite_but, b_queueOut, ite_self]
theorem endCmd_but (status q0 q1 : Nat) (s : State) : but 102760448 (endCmd status q0 q1 s) = but 102760448 s := by
  have b_setInt : ∀ (b : Nat) (s : State), but 102760448 (setInt b s) = but 102760448 s := fun b s => but_le (by decide) (setInt_but b s)
  have b_replyTo : ∀ (node : Nat) (tag : Byte) (status q0 : Nat) (s : State), but 102760448 (replyTo node tag status q0 s) = but 102760448 s := fun node tag status q0 s => but_le (by decide) (replyTo_but node tag status q0 s)
  have lit : ∀ (t : State) (y_mbox : Mbox), but 102760448 { t with mbox := y_mbox } = but 102760448 t := fun _ _ => rfl
  unfold endCmd; (repeat' split) <;> first | rfl | simp only [lit, b_replyTo]
theorem but_mbox (M : Nat) (hM : 67108864 ||| M = M) (t : State) (x : Mbox) : but M { t with mbox := x } = but M t :=
  but_le (a := 67108864) hM rfl
theorem serve_but (M : Nat) (c : Cmd) (op : Args → State → CmdRes) (s : State) (hM : 103809024 ||| M = M) (hop : ∀ x0 t, but M ((op x0 t).st) = but M t) : but M (serve c op s) = but M s := by
  have hg : but M (guarded c op s).st = but M s := guarded_but M c op s (le_trans_mask (by decide) hM) hop
  have he : ∀ (status q0 q1 : Nat) (s : State), but M (endCmd status q0 q1 s) = but M s := fun status q0 q1 s => but_le2 (by decide) hM (endCmd_but status q0 q1 s)
  have hb : ∀ (t : State) (x : Mbox), but M { t with mbox := x } = but M t := but_mbox M (le_trans_mask (by decide) hM)
  unfold serve
  dsimp only
  split
  · rw [he, hg]
  · rw [hb, hg]
theorem hostSubmit_but (code : Byte) (a : Args) (s : State) : but 67108864 (hostSubmit code a s) = but 67108864 s := by
  have b_submit : ∀ (p : Path) (code : Byte) (s : State), but 67108864 (submit p code s) = but 67108864 s := fun p code s => but_le (by decide) (submit_but p code s)
  have lit : ∀ (t : State) (y_mbox : Mbox), but 67108864 { t with mbox := y_mbox } = but 67108864 t := fun _ _ => rfl
  unfold hostSubmit; simp only [ite_but, lit, b_submit, ite_self]
theorem mboxServe_but (M : Nat) (code : Byte) (op : Args → State → CmdRes) (a : Args) (s : State) (hM : 103809024 ||| M = M) (hop : ∀ x0 t, but M ((op x0 t).st) = but M t) : but M (mboxServe code op a s) = but M s := by
  unfold mboxServe
  split
  · split
    · exact serve_but M _ op s hM hop
    · rfl
  · rfl
theorem mboxTake_but (M : Nat) (code : Byte) (op : Args → State → CmdRes) (a : Args) (s : State) (hM : 103809024 ||| M = M) (hop : ∀ x0 t, but M ((op x0 t).st) = but M t) : but M (mboxTake code op a s) = but M s := by
  unfold mboxTake
  split
  · exact mboxServe_but M code op a s hM hop
  · split
    · rfl
    · exact (mboxServe_but M code op a _ hM hop).trans (but_le2 (by decide) hM (hostSubmit_but code a s))
theorem mboxRow_but (M : Nat) (code : Byte) (op : Args → State → CmdRes) (a : Args) (s : State) (hM : 103809025 ||| M = M) (hop : ∀ x0 t, but M ((op x0 t).st) = but M t) : but M (mboxRow code op a s) = but M s := by
  unfold mboxRow
  split
  · exact but_le2 (by decide) hM (holdRows_but _ s)
  · exact (mboxTake_but M code op a _ (le_trans_mask (by decide) hM) hop).trans (but_le2 (by decide) hM (csFalls_but s))
theorem cutHardware_but (s : State) : but 12582912 (cutHardware s) = but 12582912 s := rfl
theorem cutCore_but (s : State) : but 79691776 (cutCore s) = but 79691776 s := by
  have b_cutHardware : ∀ (s : State), but 79691776 (cutHardware s) = but 79691776 s := fun s => but_le (by decide) (cutHardware_but s)
  have lit : ∀ (t : State) (y_mbox : Mbox), but 79691776 { t with mbox := y_mbox } = but 79691776 t := fun _ _ => rfl
  unfold cutCore; simp only [ite_but, lit, b_cutHardware, ite_self]
theorem startNext_but (s : State) : but 67108864 (startNext s) = but 67108864 s := by
  have lit : ∀ (t : State) (y_mbox : Mbox), but 67108864 { t with mbox := y_mbox } = but 67108864 t := fun _ _ => rfl
  unfold startNext; (repeat' split) <;> first | rfl | simp only [ite_but, itep_but, itec_but, lit, ite_self, implies_true]

/-! ### Brass.lean -/

theorem updProg_but (n : Fin 12) (f : Prog → Prog) (s : State) : but 2048 (updProg n f s) = but 2048 s := rfl
theorem issued_but (n : Fin 8) (s : State) : but 2048 (issued n s) = but 2048 s := rfl
theorem stepPc_but (n : Fin 8) (s : State) : but 2048 (stepPc n s) = but 2048 s := rfl
theorem holdEnds_but (n : Fin 8) (s : State) : but 2048 (holdEnds n s) = but 2048 s := rfl
theorem opEnd_but (n : Fin 8) (s : State) : but 137216 (opEnd n s) = but 137216 s := by
  have b_enterDecay : ∀ (n : Fin 12) (s : State), but 137216 (enterDecay n s) = but 137216 s := fun n s => but_le (by decide) (enterDecay_but n s)
  have b_issued : ∀ (n : Fin 8) (s : State), but 137216 (issued n s) = but 137216 s := fun n s => but_le (by decide) (issued_but n s)
  unfold opEnd; simp only [b_enterDecay, b_issued]
theorem opSett_but (n : Fin 8) (level : Word) (thr noslew : Bool) (s : State) : but 2048 (opSett n level thr noslew s) = but 2048 s := by
  have b_issued : ∀ (n : Fin 8) (s : State), but 2048 (issued n s) = but 2048 s := fun n s => but_le (by decide) (issued_but n s)
  have b_updProg : ∀ (n : Fin 12) (f : Prog → Prog) (s : State), but 2048 (updProg n f s) = but 2048 s := fun n f s => but_le (by decide) (updProg_but n f s)
  have b_stepPc : ∀ (n : Fin 8) (s : State), but 2048 (stepPc n s) = but 2048 s := fun n s => but_le (by decide) (stepPc_but n s)
  have b_setTarget : ∀ (n : Fin 12) (v : Nat) (noslew : Bool) (s : State), but 2048 (setTarget n v noslew s) = but 2048 s := fun n v noslew s => but_le (by decide) (setTarget_but n v noslew s)
  unfold opSett; simp only [b_issued, b_updProg, b_stepPc, b_setTarget]
theorem opSeth_but (n : Fin 8) (hys : Word) (s : State) : but 2048 (opSeth n hys s) = but 2048 s := rfl
theorem opWaitt_but (n : Fin 8) (t : BitVec 24) (abs : Bool) (s : State) : but 2048 (opWaitt n t abs s) = but 2048 s := by
  have b_issued : ∀ (n : Fin 8) (s : State), but 2048 (issued n s) = but 2048 s := fun n s => but_le (by decide) (issued_but n s)
  have b_stepPc : ∀ (n : Fin 8) (s : State), but 2048 (stepPc n s) = but 2048 s := fun n s => but_le (by decide) (stepPc_but n s)
  have b_updProg : ∀ (n : Fin 12) (f : Prog → Prog) (s : State), but 2048 (updProg n f s) = but 2048 s := fun n f s => but_le (by decide) (updProg_but n f s)
  unfold opWaitt; simp only [ite_but, b_issued, b_stepPc, b_updProg, ite_self]
theorem opWaiti_but (n : Fin 8) (level : Word) (dir : Bool) (tmo : BitVec 12) (s : State) : but 2048 (opWaiti n level dir tmo s) = but 2048 s := rfl
theorem opBr_but (n : Fin 8) (dest : BitVec 5) (inv : Bool) (cond : BitVec 4) (level : Word) (s : State) : but 2048 (opBr n dest inv cond level s) = but 2048 s := by
  have b_issued : ∀ (n : Fin 8) (s : State), but 2048 (issued n s) = but 2048 s := fun n s => but_le (by decide) (issued_but n s)
  have b_updProg : ∀ (n : Fin 12) (f : Prog → Prog) (s : State), but 2048 (updProg n f s) = but 2048 s := fun n f s => but_le (by decide) (updProg_but n f s)
  have b_stepPc : ∀ (n : Fin 8) (s : State), but 2048 (stepPc n s) = but 2048 s := fun n s => but_le (by decide) (stepPc_but n s)
  unfold opBr; simp only [ite_but, b_issued, b_updProg, b_stepPc, ite_self]
theorem boostOn_but (n : Fin 8) (s : State) : but 137216 (boostOn n s) = but 137216 s := by
  have b_updChan : ∀ (n : Fin 12) (f : Chan → Chan) (s : State), but 137216 (updChan n f s) = but 137216 s := fun n f s => but_le (by decide) (updChan_but n f s)
  have b_boostUpdate : ∀ (old : Vector Chan 12) (s : State), but 137216 (boostUpdate old s) = but 137216 s := fun old s => but_le (by decide) (boostUpdate_but old s)
  have b_setDrv : ∀ (n : Fin 12) (lvl : Bool) (s : State), but 137216 (setDrv n lvl s) = but 137216 s := fun n lvl s => but_le (by decide) (setDrv_but n lvl s)
  unfold boostOn; simp only [ite_but, b_updChan, b_boostUpdate, b_setDrv, ite_self]
theorem boostOff_but (n : Fin 8) (s : State) : but 137216 (boostOff n s) = but 137216 s := by
  have b_setDrv : ∀ (n : Fin 12) (lvl : Bool) (s : State), but 137216 (setDrv n lvl s) = but 137216 s := fun n lvl s => but_le (by decide) (setDrv_but n lvl s)
  have b_boostUpdate : ∀ (old : Vector Chan 12) (s : State), but 137216 (boostUpdate old s) = but 137216 s := fun old s => but_le (by decide) (boostUpdate_but old s)
  have b_updChan : ∀ (n : Fin 12) (f : Chan → Chan) (s : State), but 137216 (updChan n f s) = but 137216 s := fun n f s => but_le (by decide) (updChan_but n f s)
  have b_stepPc : ∀ (n : Fin 8) (s : State), but 137216 (stepPc n s) = but 137216 s := fun n s => but_le (by decide) (stepPc_but n s)
  unfold boostOff; simp only [ite_but, b_setDrv, b_boostUpdate, b_updChan, b_stepPc, ite_self]
theorem opBoost_but (n : Fin 8) (on : Bool) (s : State) : but 137216 (opBoost n on s) = but 137216 s := by
  have b_issued : ∀ (n : Fin 8) (s : State), but 137216 (issued n s) = but 137216 s := fun n s => but_le (by decide) (issued_but n s)
  have b_stepPc : ∀ (n : Fin 8) (s : State), but 137216 (stepPc n s) = but 137216 s := fun n s => but_le (by decide) (stepPc_but n s)
  have b_boostOn : ∀ (n : Fin 8) (s : State), but 137216 (boostOn n s) = but 137216 s := fun n s => but_le (by decide) (boostOn_but n s)
  have b_boostOff : ∀ (n : Fin 8) (s : State), but 137216 (boostOff n s) = but 137216 s := fun n s => but_le (by decide) (boostOff_but n s)
  unfold opBoost; simp only [ite_but, b_issued, b_stepPc, b_boostOn, b_boostOff, ite_self]
theorem opSig_but (n : Fin 8) (value mask : BitVec 2) (irq : Bool) (s : State) : but 33589248 (opSig n value mask irq s) = but 33589248 s := by
  have b_issued : ∀ (n : Fin 8) (s : State), but 33589248 (issued n s) = but 33589248 s := fun n s => but_le (by decide) (issued_but n s)
  have b_updProg : ∀ (n : Fin 12) (f : Prog → Prog) (s : State), but 33589248 (updProg n f s) = but 33589248 s := fun n f s => but_le (by decide) (updProg_but n f s)
  have b_setInt : ∀ (b : Nat) (s : State), but 33589248 (setInt b s) = but 33589248 s := fun b s => but_le (by decide) (setInt_but b s)
  have b_stepPc : ∀ (n : Fin 8) (s : State), but 33589248 (stepPc n s) = but 33589248 s := fun n s => but_le (by decide) (stepPc_but n s)
  have lit : ∀ (t : State) (y_brass : Brass), but 33589248 { t with brass := y_brass } = but 33589248 t := fun _ _ => rfl
  unfold opSig; simp only [ite_but, lit, b_issued, b_updProg, b_setInt, b_stepPc, ite_self]
theorem brassIssue_but (n : Fin 8) (op : BrassOp) (s : State) : but 33724416 (brassIssue n op s) = but 33724416 s := by
  have b_opEnd : ∀ (n : Fin 8) (s : State), but 33724416 (opEnd n s) = but 33724416 s := fun n s => but_le (by decide) (opEnd_but n s)
  have b_opSett : ∀ (n : Fin 8) (level : Word) (thr noslew : Bool) (s : State), but 33724416 (opSett n level thr noslew s) = but 33724416 s := fun n level thr noslew s => but_le (by decide) (opSett_but n level thr noslew s)
  have b_opSeth : ∀ (n : Fin 8) (hys : Word) (s : State), but 33724416 (opSeth n hys s) = but 33724416 s := fun n hys s => but_le (by decide) (opSeth_but n hys s)
  have b_opWaitt : ∀ (n : Fin 8) (t : BitVec 24) (abs : Bool) (s : State), but 33724416 (opWaitt n t abs s) = but 33724416 s := fun n t abs s => but_le (by decide) (opWaitt_but n t abs s)
  have b_opWaiti : ∀ (n : Fin 8) (level : Word) (dir : Bool) (tmo : BitVec 12) (s : State), but 33724416 (opWaiti n level dir tmo s) = but 33724416 s := fun n level dir tmo s => but_le (by decide) (opWaiti_but n level dir tmo s)
  have b_opBr : ∀ (n : Fin 8) (dest : BitVec 5) (inv : Bool) (cond : BitVec 4) (level : Word) (s : State), but 33724416 (opBr n dest inv cond level s) = but 33724416 s := fun n dest inv cond level s => but_le (by decide) (opBr_but n dest inv cond level s)
  have b_opBoost : ∀ (n : Fin 8) (on : Bool) (s : State), but 33724416 (opBoost n on s) = but 33724416 s := fun n on s => but_le (by decide) (opBoost_but n on s)
  have b_opSig : ∀ (n : Fin 8) (value mask : BitVec 2) (irq : Bool) (s : State), but 33724416 (opSig n value mask irq s) = but 33724416 s := fun n value mask irq s => but_le (by decide) (opSig_but n value mask irq s)
  unfold brassIssue; (repeat' split) <;> simp [b_opEnd, b_opSett, b_opSeth, b_opWaitt, b_opWaiti, b_opBr, b_opBoost, b_opSig]
theorem brassApply_but (e base len : Nat) (maxon : Word) (s : State) : but 32768 (brassApply e base len maxon s) = but 32768 s := by
  have lit : ∀ (t : State) (y_brass : Brass), but 32768 { t with brass := y_brass } = but 32768 t := fun _ _ => rfl
  unfold brassApply; simp only [lit]
theorem cmdBrassLoad_but (a : Args) (s : State) : but 32768 ((cmdBrassLoad a s).st) = but 32768 s := by
  have b_brassApply : ∀ (e base len : Nat) (maxon : Word) (s : State), but 32768 (brassApply e base len maxon s) = but 32768 s := fun e base len maxon s => but_le (by decide) (brassApply_but e base len maxon s)
  have b_badArg : ∀ (s : State), but 32768 ((badArg s).st) = but 32768 s := fun s => but_le (by decide) (badArg_but s)
  have lit : ∀ (t : State) (y_brass : Brass), but 32768 { t with brass := y_brass } = but 32768 t := fun _ _ => rfl
  unfold cmdBrassLoad; simp only [ite_but, itec_but, lit, checked_but, b_brassApply, b_badArg, ite_self]
theorem readSigirq_but (s : State) : but 32768 ((readSigirq s).2) = but 32768 s := rfl
theorem readBrass_but (off : Nat) (s : State) : but 32768 ((readBrass off s).2) = but 32768 s := by
  have b_readSigirq : ∀ (s : State), but 32768 ((readSigirq s).2) = but 32768 s := fun s => but_le (by decide) (readSigirq_but s)
  unfold readBrass; (repeat' split) <;> first | rfl | simp only [ite_but, itep_but, itec_but, b_readSigirq, ite_self, implies_true]

/-! ### Slots.lean -/

theorem updSlot_but (i : Fin 64) (f : Slot → Slot) (s : State) : but 256 (updSlot i f s) = but 256 s := rfl
theorem permitSlots_but (s : State) : but 256 (permitSlots s) = but 256 s := by
  have lit : ∀ (t : State) (y_sched : Sched), but 256 { t with sched := y_sched } = but 256 t := fun _ _ => rfl
  unfold permitSlots; simp only [lit]
theorem newRefs_but (s : State) : but 256 (newRefs s) = but 256 s := by
  have lit : ∀ (t : State) (y_sched : Sched), but 256 { t with sched := y_sched } = but 256 t := fun _ _ => rfl
  unfold newRefs; simp only [lit]
theorem cancelRec_but (i : Fin 64) (reason : Nat) (armed cyc0 : Bool) (w : SlotW) (s : State) : but 33556224 (cancelRec i reason armed cyc0 w s) = but 33556224 s := by
  have b_pushRec : ∀ (ty src flags : Nat) (w2 w3 : Word) (s : State), but 33556224 (pushRec ty src flags w2 w3 s) = but 33556224 s := fun ty src flags w2 w3 s => but_le (by decide) (pushRec_but ty src flags w2 w3 s)
  unfold cancelRec; simp only [b_pushRec]
theorem bulkRec_but (reason n armed : Nat) (s : State) : but 33556224 (bulkRec reason n armed s) = but 33556224 s := by
  have b_pushRec : ∀ (ty src flags : Nat) (w2 w3 : Word) (s : State), but 33556224 (pushRec ty src flags w2 w3 s) = but 33556224 s := fun ty src flags w2 w3 s => but_le (by decide) (pushRec_but ty src flags w2 w3 s)
  unfold bulkRec; simp only [ite_but, b_pushRec, ite_self]
theorem deviceCancel_but (reason : Nat) (pendingToo : Bool) (s : State) : but 33556224 (deviceCancel reason pendingToo s) = but 33556224 s := by
  have b_bulkRec : ∀ (reason n armed : Nat) (s : State), but 33556224 (bulkRec reason n armed s) = but 33556224 s := fun reason n armed s => but_le (by decide) (bulkRec_but reason n armed s)
  have lit : ∀ (t : State) (y_sched : Sched), but 33556224 { t with sched := y_sched } = but 33556224 t := fun _ _ => rfl
  unfold deviceCancel; simp only [lit, b_bulkRec]
theorem safeCancel_but (batch : Nat) (s : State) : but 1048832 (safeCancel batch s) = but 1048832 s := by
  have lit : ∀ (t : State) (y_sched : Sched) (y_flt : Flt), but 1048832 { t with sched := y_sched, flt := y_flt } = but 1048832 t := fun _ _ _ => rfl
  unfold safeCancel; simp only [lit]
theorem flushBulk_but (s : State) : but 34604800 (flushBulk s) = but 34604800 s := by
  have b_bulkRec : ∀ (reason n armed : Nat) (s : State), but 34604800 (bulkRec reason n armed s) = but 34604800 s := fun reason n armed s => but_le (by decide) (bulkRec_but reason n armed s)
  have lit : ∀ (t : State) (y_flt : Flt), but 34604800 { t with flt := y_flt } = but 34604800 t := fun _ _ => rfl
  unfold flushBulk; (repeat' split) <;> first | rfl | simp only [lit, b_bulkRec]
theorem arm_but (i : Fin 64) (a : Tb) (late : Bool) (past : Option Nat) (cyc : Word) (s : State) : but 256 (arm i a late past cyc s) = but 256 s := rfl
theorem setCyc_but (c : Word) (s : State) : but 256 (setCyc c s) = but 256 s := by
  have lit : ∀ (t : State) (y_sched : Sched), but 256 { t with sched := y_sched } = but 256 t := fun _ _ => rfl
  unfold setCyc; simp only [ite_but, lit, ite_self]
theorem lateSlot_but (i : Fin 64) (s : State) : but 33556224 (lateSlot i s) = but 33556224 s := by
  have b_cancelRec : ∀ (i : Fin 64) (reason : Nat) (armed cyc0 : Bool) (w : SlotW) (s : State), but 33556224 (cancelRec i reason armed cyc0 w s) = but 33556224 s := fun i reason armed cyc0 w s => but_le (by decide) (cancelRec_but i reason armed cyc0 w s)
  have b_updSlot : ∀ (i : Fin 64) (f : Slot → Slot) (s : State), but 33556224 (updSlot i f s) = but 33556224 s := fun i f s => but_le (by decide) (updSlot_but i f s)
  have b_arm : ∀ (i : Fin 64) (a : Tb) (late : Bool) (past : Option Nat) (cyc : Word) (s : State), but 33556224 (arm i a late past cyc s) = but 33556224 s := fun i a late past cyc s => but_le (by decide) (arm_but i a late past cyc s)
  have lit : ∀ (t : State) (y_sched : Sched), but 33556224 { t with sched := y_sched } = but 33556224 t := fun _ _ => rfl
  unfold lateSlot; simp only [ite_but, lit, b_cancelRec, b_updSlot, b_arm, ite_self]
theorem settleLate_but (s : State) : but 33556224 (settleLate s) = but 33556224 s := by
  have b_lateSlot : ∀ (i : Fin 64) (s : State), but 33556224 (lateSlot i s) = but 33556224 s := fun i s => but_le (by decide) (lateSlot_but i s)
  unfold settleLate; simp only [foldSt_but, b_lateSlot, implies_true]
theorem applyPermission_but (s : State) : but 33556224 (applyPermission s) = but 33556224 s := by
  have b_settleLate : ∀ (s : State), but 33556224 (settleLate s) = but 33556224 s := fun s => but_le (by decide) (settleLate_but s)
  have b_permitSlots : ∀ (s : State), but 33556224 (permitSlots s) = but 33556224 s := fun s => but_le (by decide) (permitSlots_but s)
  unfold applyPermission; simp only [b_settleLate, b_permitSlots]
theorem retakeRefs_but (s : State) : but 33556224 (retakeRefs s) = but 33556224 s := by
  have b_settleLate : ∀ (s : State), but 33556224 (settleLate s) = but 33556224 s := fun s => but_le (by decide) (settleLate_but s)
  have b_newRefs : ∀ (s : State), but 33556224 (newRefs s) = but 33556224 s := fun s => but_le (by decide) (newRefs_but s)
  unfold retakeRefs; simp only [b_settleLate, b_newRefs]
theorem slotGo_but (i : Fin 64) (s : State) : but 34604800 (slotGo i s) = but 34604800 s := by
  have b_raise : ∀ (src ch : Nat) (det : Word) (s : State), but 34604800 (raise src ch det s) = but 34604800 s := fun src ch det s => but_le (by decide) (raise_but src ch det s)
  have b_updSlot : ∀ (i : Fin 64) (f : Slot → Slot) (s : State), but 34604800 (updSlot i f s) = but 34604800 s := fun i f s => but_le (by decide) (updSlot_but i f s)
  have b_pushRec : ∀ (ty src flags : Nat) (w2 w3 : Word) (s : State), but 34604800 (pushRec ty src flags w2 w3 s) = but 34604800 s := fun ty src flags w2 w3 s => but_le (by decide) (pushRec_but ty src flags w2 w3 s)
  have b_settleLate : ∀ (s : State), but 34604800 (settleLate s) = but 34604800 s := fun s => but_le (by decide) (settleLate_but s)
  unfold slotGo; simp only [ite_but, b_raise, b_updSlot, b_pushRec, b_settleLate, ite_self]
theorem slotCancel_but (i : Fin 64) (s : State) : but 33556224 (slotCancel i s) = but 33556224 s := by
  have b_cancelRec : ∀ (i : Fin 64) (reason : Nat) (armed cyc0 : Bool) (w : SlotW) (s : State), but 33556224 (cancelRec i reason armed cyc0 w s) = but 33556224 s := fun i reason armed cyc0 w s => but_le (by decide) (cancelRec_but i reason armed cyc0 w s)
  have b_updSlot : ∀ (i : Fin 64) (f : Slot → Slot) (s : State), but 33556224 (updSlot i f s) = but 33556224 s := fun i f s => but_le (by decide) (updSlot_but i f s)
  unfold slotCancel; dsimp only; (repeat' split) <;> first | rfl | simp only [b_cancelRec, b_updSlot]
theorem writeCtl2_but (i : Fin 64) (w : Word) (s : State) : but 34604800 (writeCtl2 i w s) = but 34604800 s := by
  have b_updSlot : ∀ (i : Fin 64) (f : Slot → Slot) (s : State), but 34604800 (updSlot i f s) = but 34604800 s := fun i f s => but_le (by decide) (updSlot_but i f s)
  have b_slotCancel : ∀ (i : Fin 64) (s : State), but 34604800 (slotCancel i s) = but 34604800 s := fun i s => but_le (by decide) (slotCancel_but i s)
  have b_slotGo : ∀ (i : Fin 64) (s : State), but 34604800 (slotGo i s) = but 34604800 s := fun i s => but_le (by decide) (slotGo_but i s)
  unfold writeCtl2; simp only [ite_but, b_updSlot, b_slotCancel, b_slotGo, ite_self]
theorem writeSlot_but (i : Fin 64) (k : Nat) (w : Word) (s : State) : but 34604800 (writeSlot i k w s) = but 34604800 s := by
  have b_updSlot : ∀ (i : Fin 64) (f : Slot → Slot) (s : State), but 34604800 (updSlot i f s) = but 34604800 s := fun i f s => but_le (by decide) (updSlot_but i f s)
  have b_writeCtl2 : ∀ (i : Fin 64) (w : Word) (s : State), but 34604800 (writeCtl2 i w s) = but 34604800 s := fun i w s => but_le (by decide) (writeCtl2_but i w s)
  unfold writeSlot; (repeat' split) <;> first | rfl | simp only [b_writeCtl2]
theorem hostSlotWrite_but (p : Path) (off : Nat) (w : Word) (s : State) : but 34604800 (hostSlotWrite p off w s) = but 34604800 s := by
  have b_deny : ∀ (p : Path) (kind id : Nat) (s : State), but 34604800 (deny p kind id s) = but 34604800 s := fun p kind id s => but_le (by decide) (deny_but p kind id s)
  have b_writeSlot : ∀ (i : Fin 64) (k : Nat) (w : Word) (s : State), but 34604800 (writeSlot i k w s) = but 34604800 s := fun i k w s => but_le (by decide) (writeSlot_but i k w s)
  unfold hostSlotWrite; (repeat' split) <;> first | rfl | simp only [b_deny, b_writeSlot]
theorem evalSlot_but (i : Fin 64) (s : State) : but 33556224 (evalSlot i s) = but 33556224 s := by
  have b_arm : ∀ (i : Fin 64) (a : Tb) (late : Bool) (past : Option Nat) (cyc : Word) (s : State), but 33556224 (arm i a late past cyc s) = but 33556224 s := fun i a late past cyc s => but_le (by decide) (arm_but i a late past cyc s)
  have b_updSlot : ∀ (i : Fin 64) (f : Slot → Slot) (s : State), but 33556224 (updSlot i f s) = but 33556224 s := fun i f s => but_le (by decide) (updSlot_but i f s)
  have b_lateSlot : ∀ (i : Fin 64) (s : State), but 33556224 (lateSlot i s) = but 33556224 s := fun i s => but_le (by decide) (lateSlot_but i s)
  unfold evalSlot; dsimp only; (repeat' split) <;> first | rfl | simp only [b_lateSlot]
theorem opEval_but (i : Fin 64) (s : State) : but 33556224 (opEval i s) = but 33556224 s := by
  have b_evalSlot : ∀ (i : Fin 64) (s : State), but 33556224 (evalSlot i s) = but 33556224 s := fun i s => but_le (by decide) (evalSlot_but i s)
  have lit : ∀ (t : State) (y_sched : Sched), but 33556224 { t with sched := y_sched } = but 33556224 t := fun _ _ => rfl
  unfold opEval; simp only [lit, b_evalSlot]
theorem issueStrobe_but (src : Nat) (dly : Bool) (s : State) : but 1280 (issueStrobe src dly s) = but 1280 s := rfl
theorem slotAction_but (w : SlotW) (s : State) : but 138496 ((slotAction w s).2) = but 138496 s := by
  have b_issueStrobe : ∀ (src : Nat) (dly : Bool) (s : State), but 138496 (issueStrobe src dly s) = but 138496 s := fun src dly s => but_le (by decide) (issueStrobe_but src dly s)
  have b_fireAction : ∀ (n : Fin 12) (act : Nat) (param : Word) (s : State), but 138496 ((fireAction n act param s).2) = but 138496 s := fun n act param s => but_le (by decide) (fireAction_but n act param s)
  unfold slotAction; simp only [itep_but, b_issueStrobe, b_fireAction, ite_self]
theorem fireRec_but (i : Fin 64) (x : Slot) (late : Bool) (f : FireFlag) (s : State) : but 33556224 (fireRec i x late f s) = but 33556224 s := by
  have b_pushRec : ∀ (ty src flags : Nat) (w2 w3 : Word) (s : State), but 33556224 (pushRec ty src flags w2 w3 s) = but 33556224 s := fun ty src flags w2 w3 s => but_le (by decide) (pushRec_but ty src flags w2 w3 s)
  unfold fireRec; simp only [ite_but, b_pushRec, ite_self]
theorem afterFire_but (i : Fin 64) (flag : FireFlag) (s : State) : but 256 (afterFire i flag s) = but 256 s := rfl
theorem fireSlot_but (i : Fin 64) (s : State) : but 33693440 (fireSlot i s) = but 33693440 s := by
  have b_slotAction : ∀ (w : SlotW) (s : State), but 33693440 ((slotAction w s).2) = but 33693440 s := fun w s => but_le (by decide) (slotAction_but w s)
  have b_afterFire : ∀ (i : Fin 64) (flag : FireFlag) (s : State), but 33693440 (afterFire i flag s) = but 33693440 s := fun i flag s => but_le (by decide) (afterFire_but i flag s)
  have b_fireRec : ∀ (i : Fin 64) (x : Slot) (late : Bool) (f : FireFlag) (s : State), but 33693440 (fireRec i x late f s) = but 33693440 s := fun i x late f s => but_le (by decide) (fireRec_but i x late f s)
  have lit : ∀ (t : State) (y_sched : Sched), but 33693440 { t with sched := y_sched } = but 33693440 t := fun _ _ => rfl
  unfold fireSlot; dsimp only; (repeat' split) <;> first | rfl | simp only [lit, b_slotAction, b_afterFire, b_fireRec]
theorem opCycleStart_but (s : State) : but 35653376 (opCycleStart s) = but 35653376 s := by
  have b_pushRec : ∀ (ty src flags : Nat) (w2 w3 : Word) (s : State), but 35653376 (pushRec ty src flags w2 w3 s) = but 35653376 s := fun ty src flags w2 w3 s => but_le (by decide) (pushRec_but ty src flags w2 w3 s)
  have b_setCyc : ∀ (c : Word) (s : State), but 35653376 (setCyc c s) = but 35653376 s := fun c s => but_le (by decide) (setCyc_but c s)
  have lit : ∀ (t : State) (y_sched : Sched) (y_link : Link), but 35653376 { t with sched := y_sched, link := y_link } = but 35653376 t := fun _ _ _ => rfl
  unfold opCycleStart; simp only [ite_but, lit, b_pushRec, b_setCyc, ite_self]
theorem readRptstat_but (s : State) : but 512 ((readRptstat s).2) = but 512 s := rfl
theorem popRec_but (q : Quad) (rest : List Quad) (s : State) : but 33554944 (popRec q rest s) = but 33554944 s := by
  have b_setInt : ∀ (b : Nat) (s : State), but 33554944 (setInt b s) = but 33554944 s := fun b s => but_le (by decide) (setInt_but b s)
  have lit : ∀ (t : State) (y_rpt : Rpt), but 33554944 { t with rpt := y_rpt } = but 33554944 t := fun _ _ => rfl
  unfold popRec; (repeat' split) <;> first | rfl | simp only [ite_but, itep_but, itec_but, lit, b_setInt, ite_self, implies_true]
theorem readRptdat_but (s : State) : but 33555200 ((readRptdat s).2) = but 33555200 s := by
  have b_settleSeq : ∀ (r : Quad) (s : State), but 33555200 (settleSeq r s) = but 33555200 s := fun r s => but_le (by decide) (settleSeq_but r s)
  have b_popRec : ∀ (q : Quad) (rest : List Quad) (s : State), but 33555200 (popRec q rest s) = but 33555200 s := fun q rest s => but_le (by decide) (popRec_but q rest s)
  have lit : ∀ (t : State) (y_rpt : Rpt), but 33555200 { t with rpt := y_rpt } = but 33555200 t := fun _ _ => rfl
  unfold readRptdat; (repeat' split) <;> first | rfl | simp only [b_settleSeq, b_popRec]

/-! ### CamPhase.lean -/

theorem pushPhase_but (q : Quad) (s : State) : but 33555456 (pushPhase q s) = but 33555456 s := by
  have b_setIntIf : ∀ (c : Bool) (b : Nat) (s : State), but 33555456 (setIntIf c b s) = but 33555456 s := fun c b s => but_le (by decide) (setIntIf_but c b s)
  have lit : ∀ (t : State) (y_cpc : Cpc), but 33555456 { t with cpc := y_cpc } = but 33555456 t := fun _ _ => rfl
  unfold pushPhase; simp only [lit, b_setIntIf]
theorem pushConv_but (q : Quad) (s : State) : but 33555456 (pushConv q s) = but 33555456 s := by
  have b_setIntIf : ∀ (c : Bool) (b : Nat) (s : State), but 33555456 (setIntIf c b s) = but 33555456 s := fun c b s => but_le (by decide) (setIntIf_but c b s)
  have lit : ∀ (t : State) (y_cpc : Cpc), but 33555456 { t with cpc := y_cpc } = but 33555456 t := fun _ _ => rfl
  unfold pushConv; simp only [lit, b_setIntIf]
theorem readPop_but (conv : Bool) (j : Nat) (s : State) : but 33555712 ((readPop conv j s).2) = but 33555712 s := by
  have b_setIntIf : ∀ (c : Bool) (b : Nat) (s : State), but 33555712 (setIntIf c b s) = but 33555712 s := fun c b s => but_le (by decide) (setIntIf_but c b s)
  have b_settleSeq : ∀ (r : Quad) (s : State), but 33555712 (settleSeq r s) = but 33555712 s := fun r s => but_le (by decide) (settleSeq_but r s)
  have lit : ∀ (t : State) (y_cpc : Cpc), but 33555712 { t with cpc := y_cpc } = but 33555712 t := fun _ _ => rfl
  unfold readPop; simp only [ite_but, itep_but, lit, b_setIntIf, b_settleSeq, ite_self]
theorem readBufStat_but (conv : Bool) (s : State) : but 1024 ((readBufStat conv s).2) = but 1024 s := by
  have lit : ∀ (t : State) (y_cpc : Cpc), but 1024 { t with cpc := y_cpc } = but 1024 t := fun _ _ => rfl
  unfold readBufStat; simp only [itep_but, lit, ite_self]
theorem updCpc_but (c : Fin 4) (f : CpcCam → CpcCam) (s : State) : but 1032 (updCpc c f s) = but 1032 s := rfl
theorem resetAverages_but (s : State) : but 1032 (resetAverages s) = but 1032 s := rfl
theorem measureEdge_but (c : Fin 4) (rise : Bool) (t : Tb) (s : State) : but 1107297288 (measureEdge c rise t s) = but 1107297288 s := by
  have b_updCpc : ∀ (c : Fin 4) (f : CpcCam → CpcCam) (s : State), but 1107297288 (updCpc c f s) = but 1107297288 s := fun c f s => but_le (by decide) (updCpc_but c f s)
  have b_setIntIf : ∀ (c : Bool) (b : Nat) (s : State), but 1107297288 (setIntIf c b s) = but 1107297288 s := fun c b s => but_le (by decide) (setIntIf_but c b s)
  have b_pushPhase : ∀ (q : Quad) (s : State), but 1107297288 (pushPhase q s) = but 1107297288 s := fun q s => but_le (by decide) (pushPhase_but q s)
  have lit : ∀ (t : State) (y_free : Nat), but 1107297288 { t with free := y_free } = but 1107297288 t := fun _ _ => rfl
  unfold measureEdge; simp only [ite_but, lit, b_updCpc, b_setIntIf, b_pushPhase, ite_self]
theorem updWin_but (w : Fin 8) (f : Win → Win) (s : State) : but 1024 (updWin w f s) = but 1024 s := rfl
theorem windowsCheck_but (s : State) : but 1024 (windowsCheck s) = but 1024 s := rfl
theorem opPassStart_but (w : Fin 8) (s : State) : but 1024 (opPassStart w s) = but 1024 s := rfl
theorem opStrobe_but (w : Fin 8) (dly : Bool) (s : State) : but 1280 (opStrobe w dly s) = but 1280 s := rfl
theorem writeWctl_but (w : Fin 8) (v : Word) (s : State) : but 1024 (writeWctl w v s) = but 1024 s := by
  have b_updWin : ∀ (w : Fin 8) (f : Win → Win) (s : State), but 1024 (updWin w f s) = but 1024 s := fun w f s => but_le (by decide) (updWin_but w f s)
  unfold writeWctl; simp only [ite_but, b_updWin, ite_self]
theorem writeCpc_but (off : Nat) (v : Word) (s : State) : but 1032 (writeCpc off v s) = but 1032 s := by
  have b_updCpc : ∀ (c : Fin 4) (f : CpcCam → CpcCam) (s : State), but 1032 (updCpc c f s) = but 1032 s := fun c f s => but_le (by decide) (updCpc_but c f s)
  have b_updWin : ∀ (w : Fin 8) (f : Win → Win) (s : State), but 1032 (updWin w f s) = but 1032 s := fun w f s => but_le (by decide) (updWin_but w f s)
  have b_writeWctl : ∀ (w : Fin 8) (v : Word) (s : State), but 1032 (writeWctl w v s) = but 1032 s := fun w v s => but_le (by decide) (writeWctl_but w v s)
  have lit : ∀ (t : State) (y_cpc : Cpc), but 1032 { t with cpc := y_cpc } = but 1032 t := fun _ _ => rfl
  unfold writeCpc; (repeat' split) <;> first | rfl | simp only [b_writeWctl]
theorem hostCpcWrite_but (p : Path) (off : Nat) (v : Word) (s : State) : but 1049608 (hostCpcWrite p off v s) = but 1049608 s := by
  have b_gateEvent : ∀ (b : Blk) (win : Bool) (id : Nat) (s : State), but 1049608 (gateEvent b win id s) = but 1049608 s := fun b win id s => but_le (by decide) (gateEvent_but b win id s)
  have b_deny : ∀ (p : Path) (kind id : Nat) (s : State), but 1049608 (deny p kind id s) = but 1049608 s := fun p kind id s => but_le (by decide) (deny_but p kind id s)
  have b_writeCpc : ∀ (off : Nat) (v : Word) (s : State), but 1049608 (writeCpc off v s) = but 1049608 s := fun off v s => but_le (by decide) (writeCpc_but off v s)
  unfold hostCpcWrite; simp only [ite_but, b_gateEvent, b_deny, b_writeCpc, ite_self]
theorem convEntry_but (x : Strobe) (err : Nat) (result : Word) (s : State) : but 34604800 (convEntry x err result s) = but 34604800 s := by
  have b_takeSeq : ∀ (rank : Nat) (s : State), but 34604800 ((takeSeq rank s).2) = but 34604800 s := fun rank s => but_le (by decide) (takeSeq_but rank s)
  have b_pushConv : ∀ (q : Quad) (s : State), but 34604800 (pushConv q s) = but 34604800 s := fun q s => but_le (by decide) (pushConv_but q s)
  have b_setInt : ∀ (b : Nat) (s : State), but 34604800 (setInt b s) = but 34604800 s := fun b s => but_le (by decide) (setInt_but b s)
  have b_raise : ∀ (src ch : Nat) (det : Word) (s : State), but 34604800 (raise src ch det s) = but 34604800 s := fun src ch det s => but_le (by decide) (raise_but src ch det s)
  unfold convEntry; simp only [ite_but, b_takeSeq, b_pushConv, b_setInt, b_raise, ite_self]
theorem opConverterFrame_but (x : BitVec 82) (s : State) : but 34621184 (opConverterFrame x s) = but 34621184 s := by
  have b_raise : ∀ (src ch : Nat) (det : Word) (s : State), but 34621184 (raise src ch det s) = but 34621184 s := fun src ch det s => but_le (by decide) (raise_but src ch det s)
  have b_convEntry : ∀ (x : Strobe) (err : Nat) (result : Word) (s : State), but 34621184 (convEntry x err result s) = but 34621184 s := fun x err result s => but_le (by decide) (convEntry_but x err result s)
  have lit : ∀ (t : State) (y_cpc : Cpc) (y_cdat : Line), but 34621184 { t with cpc := y_cpc, cdat := y_cdat } = but 34621184 t := fun _ _ _ => rfl
  unfold opConverterFrame; dsimp only; (repeat' split) <;> first | rfl | simp only [lit, b_raise, foldSt_but, b_convEntry, implies_true]
theorem readCpc_but (off : Nat) (s : State) : but 33555712 ((readCpc off s).2) = but 33555712 s := by
  have b_readBufStat : ∀ (conv : Bool) (s : State), but 33555712 ((readBufStat conv s).2) = but 33555712 s := fun conv s => but_le (by decide) (readBufStat_but conv s)
  have b_readPop : ∀ (conv : Bool) (j : Nat) (s : State), but 33555712 ((readPop conv j s).2) = but 33555712 s := fun conv j s => but_le (by decide) (readPop_but conv j s)
  unfold readCpc; (repeat' split) <;> first | rfl | simp only [b_readPop]
theorem cpsFastReset_but (s : State) : but 1032 (cpsFastReset s) = but 1032 s := rfl
theorem cpsSafe_but (s : State) : but 1024 (cpsSafe s) = but 1024 s := rfl

/-! ### TestOps.lean -/

theorem endIf_but (code : Byte) (status q0 q1 : Nat) (s : State) : but 102760448 (endIf code status q0 q1 s) = but 102760448 s := by
  have b_endCmd : ∀ (status q0 q1 : Nat) (s : State), but 102760448 (endCmd status q0 q1 s) = but 102760448 s := fun status q0 q1 s => but_le (by decide) (endCmd_but status q0 q1 s)
  have lit : ∀ (t : State) (y_mbox : Mbox), but 102760448 { t with mbox := y_mbox } = but 102760448 t := fun _ _ => rfl
  unfold endIf; (repeat' split) <;> first | rfl | simp only [b_endCmd]
theorem endReady_but (s : State) : but 102760448 (endReady s) = but 102760448 s := by
  have b_endCmd : ∀ (status q0 q1 : Nat) (s : State), but 102760448 (endCmd status q0 q1 s) = but 102760448 s := fun status q0 q1 s => but_le (by decide) (endCmd_but status q0 q1 s)
  unfold endReady; (repeat' split) <;> first | rfl | simp only [b_endCmd]
theorem testBegin_but (t : DTest) (n : Fin 8) (s : State) : but 65536 (testBegin t n s) = but 65536 s := by
  have lit : ∀ (t : State) (y_diag : Diag), but 65536 { t with diag := y_diag } = but 65536 t := fun _ _ => rfl
  unfold testBegin; simp only [ite_but, lit, ite_self]
theorem testNote_but (ch k : Nat) (r : Vector Nat 2) (s : State) : but 65536 (testNote ch k r s) = but 65536 s := by
  have lit : ∀ (t : State) (y_diag : Diag), but 65536 { t with diag := y_diag } = but 65536 t := fun _ _ => rfl
  unfold testNote; (repeat' split) <;> first | rfl | simp only [ite_but, itep_but, itec_but, lit, ite_self, implies_true]
theorem testEnd_but (s : State) : but 102825984 (testEnd s) = but 102825984 s := by
  have b_endIf : ∀ (code : Byte) (status q0 q1 : Nat) (s : State), but 102825984 (endIf code status q0 q1 s) = but 102825984 s := fun code status q0 q1 s => but_le (by decide) (endIf_but code status q0 q1 s)
  have lit : ∀ (t : State) (y_diag : Diag), but 102825984 { t with diag := y_diag } = but 102825984 t := fun _ _ => rfl
  unfold testEnd; (repeat' split) <;> first | rfl | simp only [lit, b_endIf]
theorem testFrom_but (k n : Nat) (s : State) : but 102825984 (testFrom k n s) = but 102825984 s := by
  have b_end : ∀ (s : State), but 102825984 (testEnd s) = but 102825984 s := fun s => but_le (by decide) (testEnd_but s)
  have b_note : ∀ (ch k : Nat) (r : Vector Nat 2) (s : State), but 102825984 (testNote ch k r s) = but 102825984 s := fun ch k r s => but_le (by decide) (testNote_but ch k r s)
  have b_begin : ∀ (t : DTest) (n : Fin 8) (s : State), but 102825984 (testBegin t n s) = but 102825984 s := fun t n s => but_le (by decide) (testBegin_but t n s)
  induction k generalizing n s with
  | zero => simp only [testFrom, b_end]
  | succ k ih =>
    rw [testFrom]
    (repeat' split) <;> first | rfl | simp only [ih, b_note, b_begin, b_end, ite_but, ite_self]
theorem testHold_but (ph : TestPh) (ch : Nat) (s : State) : but 65536 (testHold ph ch s) = but 65536 s := rfl
theorem testFinish_but (ch : Nat) (r : Vector Nat 2) (s : State) : but 102825984 (testFinish ch r s) = but 102825984 s := by
  have b_testNote : ∀ (ch k : Nat) (r : Vector Nat 2) (s : State), but 102825984 (testNote ch k r s) = but 102825984 s := fun ch k r s => but_le (by decide) (testNote_but ch k r s)
  have b_testHold : ∀ (ph : TestPh) (ch : Nat) (s : State), but 102825984 (testHold ph ch s) = but 102825984 s := fun ph ch s => but_le (by decide) (testHold_but ph ch s)
  have b_testFrom : ∀ (k n : Nat) (s : State), but 102825984 (testFrom k n s) = but 102825984 s := fun k n s => but_le (by decide) (testFrom_but k n s)
  unfold testFinish; simp only [ite_but, b_testNote, b_testHold, b_testFrom, ite_self]
theorem testWaitOver_but (t : DTest) (s : State) : but 102828032 (testWaitOver t s) = but 102828032 s := by
  have b_testFinish : ∀ (ch : Nat) (r : Vector Nat 2) (s : State), but 102828032 (testFinish ch r s) = but 102828032 s := fun ch r s => but_le (by decide) (testFinish_but ch r s)
  have b_setDrv : ∀ (n : Fin 12) (lvl : Bool) (s : State), but 102828032 (setDrv n lvl s) = but 102828032 s := fun n lvl s => but_le (by decide) (setDrv_but n lvl s)
  have lit : ∀ (t : State) (y_diag : Diag), but 102828032 { t with diag := y_diag } = but 102828032 t := fun _ _ => rfl
  unfold testWaitOver; simp only [ite_but, lit, b_testFinish, b_setDrv, ite_self]
theorem testAdvance_but (s : State) : but 102828032 (testAdvance s) = but 102828032 s := by
  have b_testHold : ∀ (ph : TestPh) (ch : Nat) (s : State), but 102828032 (testHold ph ch s) = but 102828032 s := fun ph ch s => but_le (by decide) (testHold_but ph ch s)
  have b_testWaitOver : ∀ (t : DTest) (s : State), but 102828032 (testWaitOver t s) = but 102828032 s := fun t s => but_le (by decide) (testWaitOver_but t s)
  have b_testFinish : ∀ (ch : Nat) (r : Vector Nat 2) (s : State), but 102828032 (testFinish ch r s) = but 102828032 s := fun ch r s => but_le (by decide) (testFinish_but ch r s)
  unfold testAdvance; (repeat' split) <;> first | rfl | simp only [ite_but, b_testHold, b_testWaitOver, b_testFinish, ite_self]
theorem testResume_but (s : State) : but 102828032 (testResume s) = but 102828032 s := by
  have b_testWaitOver : ∀ (t : DTest) (s : State), but 102828032 (testWaitOver t s) = but 102828032 s := fun t s => but_le (by decide) (testWaitOver_but t s)
  have b_testFrom : ∀ (k n : Nat) (s : State), but 102828032 (testFrom k n s) = but 102828032 s := fun k n s => but_le (by decide) (testFrom_but k n s)
  unfold testResume; (repeat' split) <;> first | rfl | simp only [b_testWaitOver, b_testFrom]
theorem testDecayOver_but (n : Fin 12) (s : State) : but 103874560 (testDecayOver n s) = but 103874560 s := by
  have b_raise : ∀ (src ch : Nat) (det : Word) (s : State), but 103874560 (raise src ch det s) = but 103874560 s := fun src ch det s => but_le (by decide) (raise_but src ch det s)
  have b_testFinish : ∀ (ch : Nat) (r : Vector Nat 2) (s : State), but 103874560 (testFinish ch r s) = but 103874560 s := fun ch r s => but_le (by decide) (testFinish_but ch r s)
  unfold testDecayOver; (repeat' split) <;> first | rfl | simp only [b_raise, b_testFinish]

/-! ### Channels.lean -/

theorem opSenseFrame_but (n : Fin 8) (x : BitVec 82) (s : State) : but 238499840 (opSenseFrame n x s) = but 238499840 s := by
  have b_testAdvance : ∀ (s : State), but 238499840 (testAdvance s) = but 238499840 s := fun s => but_le (by decide) (testAdvance_but s)
  have b_senseFrame : ∀ (n : Fin 8) (x : BitVec 82) (s : State), but 238499840 (senseFrame n x s) = but 238499840 s := fun n x s => but_le (by decide) (senseFrame_but n x s)
  have lit : ∀ (t : State) (y_pins : Pins), but 238499840 { t with pins := y_pins } = but 238499840 t := fun _ _ => rfl
  unfold opSenseFrame; simp only [ite_but, lit, b_testAdvance, b_senseFrame, ite_self]
theorem cdatMissing_but (s : State) : but 1064960 (cdatMissing s) = but 1064960 s := by
  have b_raise : ∀ (src ch : Nat) (det : Word) (s : State), but 1064960 (raise src ch det s) = but 1064960 s := fun src ch det s => but_le (by decide) (raise_but src ch det s)
  have lit : ∀ (t : State) (y_cdat : Line), but 1064960 { t with cdat := y_cdat } = but 1064960 t := fun _ _ => rfl
  unfold cdatMissing; simp only [ite_but, lit, b_raise, ite_self]
theorem opSlotMissing_but (l : Fin 9) (s : State) : but 104298496 (opSlotMissing l s) = but 104298496 s := by
  have b_testAdvance : ∀ (s : State), but 104298496 (testAdvance s) = but 104298496 s := fun s => but_le (by decide) (testAdvance_but s)
  have b_slotMissing : ∀ (n : Fin 8) (lvl : Bool) (s : State), but 104298496 (slotMissing n lvl s) = but 104298496 s := fun n lvl s => but_le (by decide) (slotMissing_but n lvl s)
  have b_updLine : ∀ (n : Fin 8) (f : Line → Line) (s : State), but 104298496 (updLine n f s) = but 104298496 s := fun n f s => but_le (by decide) (updLine_but n f s)
  have b_cdatMissing : ∀ (s : State), but 104298496 (cdatMissing s) = but 104298496 s := fun s => but_le (by decide) (cdatMissing_but s)
  have lit : ∀ (t : State) (y_cdat : Line), but 104298496 { t with cdat := y_cdat } = but 104298496 t := fun _ _ => rfl
  unfold opSlotMissing; (repeat' split) <;> first | rfl | simp only [ite_but, lit, b_testAdvance, b_slotMissing, b_updLine, b_cdatMissing, ite_self]
theorem opLineStuck_but (l : Fin 9) (high : Bool) (s : State) : but 238254080 (opLineStuck l high s) = but 238254080 s := by
  have b_testAdvance : ∀ (s : State), but 238254080 (testAdvance s) = but 238254080 s := fun s => but_le (by decide) (testAdvance_but s)
  have b_enterBreak : ∀ (n : Fin 8) (s : State), but 238254080 (enterBreak n s) = but 238254080 s := fun n s => but_le (by decide) (enterBreak_but n s)
  have b_raise : ∀ (src ch : Nat) (det : Word) (s : State), but 238254080 (raise src ch det s) = but 238254080 s := fun src ch det s => but_le (by decide) (raise_but src ch det s)
  have lit : ∀ (t : State) (y_cdat : Line) (y_pins : Pins), but 238254080 { t with cdat := y_cdat, pins := y_pins } = but 238254080 t := fun _ _ _ => rfl
  unfold opLineStuck; (repeat' split) <;> first | rfl | simp only [lit, b_testAdvance, b_enterBreak, b_raise]
theorem markPeakEnd_but (n : Fin 12) (s : State) : but 2048 (markPeakEnd n s) = but 2048 s := rfl
theorem leaveDead_but (n : Fin 12) (s : State) : but 137216 (leaveDead n s) = but 137216 s := by
  have b_markPeakEnd : ∀ (n : Fin 12) (s : State), but 137216 (markPeakEnd n s) = but 137216 s := fun n s => but_le (by decide) (markPeakEnd_but n s)
  have b_enterDecay : ∀ (n : Fin 12) (s : State), but 137216 (enterDecay n s) = but 137216 s := fun n s => but_le (by decide) (enterDecay_but n s)
  have b_enterHold : ∀ (n : Fin 12) (s : State), but 137216 (enterHold n s) = but 137216 s := fun n s => but_le (by decide) (enterHold_but n s)
  have b_enterPeak : ∀ (n : Fin 12) (s : State), but 137216 (enterPeak n s) = but 137216 s := fun n s => but_le (by decide) (enterPeak_but n s)
  unfold leaveDead; simp only [ite_but, b_markPeakEnd, b_enterDecay, b_enterHold, b_enterPeak, ite_self]
theorem opDeadEnd_but (n : Fin 12) (s : State) : but 137216 (opDeadEnd n s) = but 137216 s := by
  have b_updChan : ∀ (n : Fin 12) (f : Chan → Chan) (s : State), but 137216 (updChan n f s) = but 137216 s := fun n f s => but_le (by decide) (updChan_but n f s)
  have b_leaveDead : ∀ (n : Fin 12) (s : State), but 137216 (leaveDead n s) = but 137216 s := fun n s => but_le (by decide) (leaveDead_but n s)
  have b_boostOff : ∀ (n : Fin 8) (s : State), but 137216 (boostOff n s) = but 137216 s := fun n s => but_le (by decide) (boostOff_but n s)
  unfold opDeadEnd; simp only [ite_but, b_updChan, b_leaveDead, ite_self]
theorem opTpeak_but (n : Fin 12) (s : State) : but 137216 (opTpeak n s) = but 137216 s := by
  have b_markPeakEnd : ∀ (n : Fin 12) (s : State), but 137216 (markPeakEnd n s) = but 137216 s := fun n s => but_le (by decide) (markPeakEnd_but n s)
  have b_enterHold : ∀ (n : Fin 12) (s : State), but 137216 (enterHold n s) = but 137216 s := fun n s => but_le (by decide) (enterHold_but n s)
  unfold opTpeak; simp only [ite_but, b_markPeakEnd, b_enterHold, ite_self]
theorem opMaxOn_but (n : Fin 12) (s : State) : but 1185792 (opMaxOn n s) = but 1185792 s := by
  have b_raise : ∀ (src ch : Nat) (det : Word) (s : State), but 1185792 (raise src ch det s) = but 1185792 s := fun src ch det s => but_le (by decide) (raise_but src ch det s)
  have b_enterLow : ∀ (n : Fin 12) (s : State), but 1185792 (enterLow n s) = but 1185792 s := fun n s => but_le (by decide) (enterLow_but n s)
  have b_enterDecay : ∀ (n : Fin 12) (s : State), but 1185792 (enterDecay n s) = but 1185792 s := fun n s => but_le (by decide) (enterDecay_but n s)
  unfold opMaxOn; simp only [ite_but, b_raise, b_enterLow, b_enterDecay, ite_self]
theorem opDecayTimeout_but (n : Fin 12) (s : State) : but 1185792 (opDecayTimeout n s) = but 1185792 s := by
  have b_raise : ∀ (src ch : Nat) (det : Word) (s : State), but 1185792 (raise src ch det s) = but 1185792 s := fun src ch det s => but_le (by decide) (raise_but src ch det s)
  have b_enterIdle : ∀ (n : Fin 12) (s : State), but 1185792 (enterIdle n s) = but 1185792 s := fun n s => but_le (by decide) (enterIdle_but n s)
  unfold opDecayTimeout; simp only [ite_but, b_raise, b_enterIdle, ite_self]
theorem channelMode_but (n : Fin 12) (f : ChCfg → ChCfg) (s : State) : but 137216 (channelMode n f s) = but 137216 s := by
  have b_updChan : ∀ (n : Fin 12) (f : Chan → Chan) (s : State), but 137216 (updChan n f s) = but 137216 s := fun n f s => but_le (by decide) (updChan_but n f s)
  have b_settle : ∀ (n : Fin 12) (st : ChSt) (s : State), but 137216 (settle n st s) = but 137216 s := fun n st s => but_le (by decide) (settle_but n st s)
  have b_containInput : ∀ (n : Fin 12) (s : State), but 137216 (containInput n s) = but 137216 s := fun n s => but_le (by decide) (containInput_but n s)
  unfold channelMode; simp only [ite_but, b_updChan, b_settle, b_containInput, ite_self]
theorem cmdChannelSet_but (a : Args) (s : State) : but 137216 ((cmdChannelSet a s).st) = but 137216 s := by
  have b_channelMode : ∀ (n : Fin 12) (f : ChCfg → ChCfg) (s : State), but 137216 (channelMode n f s) = but 137216 s := fun n f s => but_le (by decide) (channelMode_but n f s)
  have b_badArg : ∀ (s : State), but 137216 ((badArg s).st) = but 137216 s := fun s => but_le (by decide) (badArg_but s)
  unfold cmdChannelSet; dsimp only; (repeat' split) <;> first | rfl | simp only [checked_but, b_channelMode]
theorem cmdProfileLoad_but (a : Args) (s : State) : but 4096 ((cmdProfileLoad a s).st) = but 4096 s := by
  have b_badArg : ∀ (s : State), but 4096 ((badArg s).st) = but 4096 s := fun s => but_le (by decide) (badArg_but s)
  have lit : ∀ (t : State) (y_chs : Chs), but 4096 { t with chs := y_chs } = but 4096 t := fun _ _ => rfl
  unfold cmdProfileLoad; simp only [itec_but, lit, b_badArg, checked_but, ite_self]
theorem checkBreak_but (n : Fin 12) (s : State) : but 137216 (checkBreak n s) = but 137216 s := by
  have b_updChan : ∀ (n : Fin 12) (f : Chan → Chan) (s : State), but 137216 (updChan n f s) = but 137216 s := fun n f s => but_le (by decide) (updChan_but n f s)
  have b_containInput : ∀ (n : Fin 12) (s : State), but 137216 (containInput n s) = but 137216 s := fun n s => but_le (by decide) (containInput_but n s)
  unfold checkBreak; simp only [ite_but, b_updChan, b_containInput, ite_self]
theorem joinPair_but (p : Fin 4) (lo up : Fin 8) (s : State) : but 137216 (joinPair p lo up s) = but 137216 s := by
  have b_updChan : ∀ (n : Fin 12) (f : Chan → Chan) (s : State), but 137216 (updChan n f s) = but 137216 s := fun n f s => but_le (by decide) (updChan_but n f s)
  have b_settle : ∀ (n : Fin 12) (st : ChSt) (s : State), but 137216 (settle n st s) = but 137216 s := fun n st s => but_le (by decide) (settle_but n st s)
  have b_refreshI : ∀ (m : Fin 8) (s : State), but 137216 (refreshI m s) = but 137216 s := fun m s => but_le (by decide) (refreshI_but m s)
  have b_checkBreak : ∀ (n : Fin 12) (s : State), but 137216 (checkBreak n s) = but 137216 s := fun n s => but_le (by decide) (checkBreak_but n s)
  have lit : ∀ (t : State) (y_chs : Chs) (y_trip : Trip), but 137216 { t with chs := y_chs, trip := y_trip } = but 137216 t := fun _ _ _ => rfl
  unfold joinPair; simp only [lit, b_updChan, b_settle, b_refreshI, b_checkBreak]
theorem splitPair_but (p : Fin 4) (lo up : Fin 8) (s : State) : but 137216 (splitPair p lo up s) = but 137216 s := by
  have b_updChan : ∀ (n : Fin 12) (f : Chan → Chan) (s : State), but 137216 (updChan n f s) = but 137216 s := fun n f s => but_le (by decide) (updChan_but n f s)
  have b_refreshI : ∀ (m : Fin 8) (s : State), but 137216 (refreshI m s) = but 137216 s := fun m s => but_le (by decide) (refreshI_but m s)
  have b_checkBreak : ∀ (n : Fin 12) (s : State), but 137216 (checkBreak n s) = but 137216 s := fun n s => but_le (by decide) (checkBreak_but n s)
  have lit : ∀ (t : State) (y_chs : Chs), but 137216 { t with chs := y_chs } = but 137216 t := fun _ _ => rfl
  unfold splitPair; simp only [lit, b_updChan, b_refreshI, b_checkBreak]
theorem cmdPairSet_but (a : Args) (s : State) : but 137216 ((cmdPairSet a s).st) = but 137216 s := by
  have b_joinPair : ∀ (p : Fin 4) (lo up : Fin 8) (s : State), but 137216 (joinPair p lo up s) = but 137216 s := fun p lo up s => but_le (by decide) (joinPair_but p lo up s)
  have b_splitPair : ∀ (p : Fin 4) (lo up : Fin 8) (s : State), but 137216 (splitPair p lo up s) = but 137216 s := fun p lo up s => but_le (by decide) (splitPair_but p lo up s)
  unfold cmdPairSet; simp only [ite_but, itec_but, checked_but, b_joinPair, b_splitPair, ite_self]
theorem setScale_but (n : Fin 12) (v : Nat) (s : State) : but 2048 (setScale n v s) = but 2048 s := by
  have b_updChan : ∀ (n : Fin 12) (f : Chan → Chan) (s : State), but 2048 (updChan n f s) = but 2048 s := fun n f s => but_le (by decide) (updChan_but n f s)
  have b_applyScale : ∀ (n : Fin 12) (s : State), but 2048 (applyScale n s) = but 2048 s := fun n s => but_le (by decide) (applyScale_but n s)
  unfold setScale; simp only [ite_but, b_updChan, b_applyScale, ite_self]
theorem cmdSenseScale_but (a : Args) (s : State) : but 2048 ((cmdSenseScale a s).st) = but 2048 s := by
  have b_setScale : ∀ (n : Fin 12) (v : Nat) (s : State), but 2048 (setScale n v s) = but 2048 s := fun n v s => but_le (by decide) (setScale_but n v s)
  unfold cmdSenseScale; simp only [checked_but, b_setScale]

/-! ### MirrorOps.lean -/

theorem onEffChange_but (old new : Sync) (s : State) : but 33556232 (onEffChange old new s) = but 33556232 s := by
  have b_deviceCancel : ∀ (reason : Nat) (pendingToo : Bool) (s : State), but 33556232 (deviceCancel reason pendingToo s) = but 33556232 s := fun reason pendingToo s => but_le (by decide) (deviceCancel_but reason pendingToo s)
  have b_applyPermission : ∀ (s : State), but 33556232 (applyPermission s) = but 33556232 s := fun s => but_le (by decide) (applyPermission_but s)
  have b_windowsCheck : ∀ (s : State), but 33556232 (windowsCheck s) = but 33556232 s := fun s => but_le (by decide) (windowsCheck_but s)
  have b_resetAverages : ∀ (s : State), but 33556232 (resetAverages s) = but 33556232 s := fun s => but_le (by decide) (resetAverages_but s)
  unfold onEffChange; simp only [ite_but, b_deviceCancel, b_applyPermission, b_windowsCheck, b_resetAverages, ite_self]
theorem syncRec_but (cause : Nat) (old new : Sync) (s : State) : but 33556224 (syncRec cause old new s) = but 33556224 s := by
  have b_setInt : ∀ (b : Nat) (s : State), but 33556224 (setInt b s) = but 33556224 s := fun b s => but_le (by decide) (setInt_but b s)
  have b_pushRec : ∀ (ty src flags : Nat) (w2 w3 : Word) (s : State), but 33556224 (pushRec ty src flags w2 w3 s) = but 33556224 s := fun ty src flags w2 w3 s => but_le (by decide) (pushRec_but ty src flags w2 w3 s)
  unfold syncRec; simp only [ite_but, b_setInt, b_pushRec, ite_self]
theorem updMir_but (f : Mirror → Mirror) (s : State) : but 2097152 (updMir f s) = but 2097152 s := rfl
theorem noteEff_but (s : State) : but 2097152 (noteEff s) = but 2097152 s := rfl
theorem reportEff_but (cause : Nat) (s : State) : but 35653384 (reportEff cause s) = but 35653384 s := by
  have b_noteEff : ∀ (s : State), but 35653384 (noteEff s) = but 35653384 s := fun s => but_le (by decide) (noteEff_but s)
  have b_onEffChange : ∀ (old new : Sync) (s : State), but 35653384 (onEffChange old new s) = but 35653384 s := fun old new s => but_le (by decide) (onEffChange_but old new s)
  have b_syncRec : ∀ (cause : Nat) (old new : Sync) (s : State), but 35653384 (syncRec cause old new s) = but 35653384 s := fun cause old new s => but_le (by decide) (syncRec_but cause old new s)
  unfold reportEff; simp only [ite_but, b_noteEff, b_onEffChange, b_syncRec, ite_self]
theorem ringLost_but (cause : Nat) (s : State) : but 35653384 (ringLost cause s) = but 35653384 s := by
  have b_retakeRefs : ∀ (s : State), but 35653384 (retakeRefs s) = but 35653384 s := fun s => but_le (by decide) (retakeRefs_but s)
  have b_reportEff : ∀ (cause : Nat) (s : State), but 35653384 (reportEff cause s) = but 35653384 s := fun cause s => but_le (by decide) (reportEff_but cause s)
  have b_updMir : ∀ (f : Mirror → Mirror) (s : State), but 35653384 (updMir f s) = but 35653384 s := fun f s => but_le (by decide) (updMir_but f s)
  unfold ringLost; simp only [b_retakeRefs, b_reportEff, b_updMir]
theorem ringTaken_but (cause : Nat) (s : State) : but 35653384 (ringTaken cause s) = but 35653384 s := by
  have b_retakeRefs : ∀ (s : State), but 35653384 (retakeRefs s) = but 35653384 s := fun s => but_le (by decide) (retakeRefs_but s)
  have b_reportEff : ∀ (cause : Nat) (s : State), but 35653384 (reportEff cause s) = but 35653384 s := fun cause s => but_le (by decide) (reportEff_but cause s)
  have b_updMir : ∀ (f : Mirror → Mirror) (s : State), but 35653384 (updMir f s) = but 35653384 s := fun f s => but_le (by decide) (updMir_but f s)
  unfold ringTaken; simp only [b_retakeRefs, b_reportEff, b_updMir]
theorem mirrorDown_but (why : Word) (s : State) : but 36701960 (mirrorDown why s) = but 36701960 s := by
  have b_updMir : ∀ (f : Mirror → Mirror) (s : State), but 36701960 (updMir f s) = but 36701960 s := fun f s => but_le (by decide) (updMir_but f s)
  have b_ringLost : ∀ (cause : Nat) (s : State), but 36701960 (ringLost cause s) = but 36701960 s := fun cause s => but_le (by decide) (ringLost_but cause s)
  have b_raise : ∀ (src ch : Nat) (det : Word) (s : State), but 36701960 (raise src ch det s) = but 36701960 s := fun src ch det s => but_le (by decide) (raise_but src ch det s)
  unfold mirrorDown; simp only [ite_but, b_updMir, b_ringLost, b_raise, ite_self]
theorem mirrorCheck_but (s : State) : but 36701960 (mirrorCheck s) = but 36701960 s := by
  have b_updMir : ∀ (f : Mirror → Mirror) (s : State), but 36701960 (updMir f s) = but 36701960 s := fun f s => but_le (by decide) (updMir_but f s)
  have b_ringTaken : ∀ (cause : Nat) (s : State), but 36701960 (ringTaken cause s) = but 36701960 s := fun cause s => but_le (by decide) (ringTaken_but cause s)
  have b_raise : ∀ (src ch : Nat) (det : Word) (s : State), but 36701960 (raise src ch det s) = but 36701960 s := fun src ch det s => but_le (by decide) (raise_but src ch det s)
  unfold mirrorCheck; simp only [ite_but, b_updMir, b_ringTaken, b_raise, ite_self]
theorem checkConfig_but (s : State) : but 36701960 (checkConfig s) = but 36701960 s := by
  have b_updMir : ∀ (f : Mirror → Mirror) (s : State), but 36701960 (updMir f s) = but 36701960 s := fun f s => but_le (by decide) (updMir_but f s)
  have b_mirrorCheck : ∀ (s : State), but 36701960 (mirrorCheck s) = but 36701960 s := fun s => but_le (by decide) (mirrorCheck_but s)
  have b_mirrorDown : ∀ (why : Word) (s : State), but 36701960 (mirrorDown why s) = but 36701960 s := fun why s => but_le (by decide) (mirrorDown_but why s)
  unfold checkConfig; simp only [ite_but, b_updMir, b_mirrorCheck, b_mirrorDown, ite_self]
theorem sendRecord_but (syn first : Bool) (stamp : Tb) (p h : Nat) (s : State) : but 2097152 (sendRecord syn first stamp p h s) = but 2097152 s := by
  have b_queueOut : ∀ (rank : Nat) (f : Frame) (stamp : Option Tb) (s : State), but 2097152 (queueOut rank f stamp s) = but 2097152 s := fun rank f stamp s => but_le (by decide) (queueOut_but rank f stamp s)
  unfold sendRecord; simp only [ite_but, b_queueOut, ite_self]
theorem sendState_but (s : State) : but 2097152 (sendState s) = but 2097152 s := by
  have b_queueOut : ∀ (rank : Nat) (f : Frame) (stamp : Option Tb) (s : State), but 2097152 (queueOut rank f stamp s) = but 2097152 s := fun rank f stamp s => but_le (by decide) (queueOut_but rank f stamp s)
  unfold sendState; simp only [ite_but, b_queueOut, ite_self]
theorem sendConfig_but (s : State) : but 2097152 (sendConfig s) = but 2097152 s := by
  have b_queueOut : ∀ (rank : Nat) (f : Frame) (stamp : Option Tb) (s : State), but 2097152 (queueOut rank f stamp s) = but 2097152 s := fun rank f stamp s => but_le (by decide) (queueOut_but rank f stamp s)
  unfold sendConfig; simp only [ite_but, b_queueOut, ite_self]

/-! ### ClkOps.lean -/

theorem updClk_but (f : Clk → Clk) (s : State) : but 2 (updClk f s) = but 2 s := rfl
theorem updSys_but (f : Sys → Sys) (s : State) : but 1 (updSys f s) = but 1 s := rfl
theorem clkRow_but (M : Nat) (f : State → State) (s : State) (hM : 34603008 ||| M = M) (hf : ∀ t, but M (f t) = but M t) : but M (clkRow f s) = but M s := by
  have b_newInstant : ∀ (s : State), but M (newInstant s) = but M s := fun s => but_le2 (by decide) hM (newInstant_but s)
  have b_setIntIf : ∀ (c : Bool) (b : Nat) (s : State), but M (setIntIf c b s) = but M s := fun c b s => but_le2 (by decide) hM (setIntIf_but c b s)
  unfold clkRow; simp only [ite_but, b_newInstant, b_setIntIf, hf, ite_self]
theorem enterHeld_but (s : State) : but 3 (enterHeld s) = but 3 s := rfl
theorem sourceLost_but (rck : Bool) (s : State) : but 1048579 (sourceLost rck s) = but 1048579 s := by
  have b_raise : ∀ (src ch : Nat) (det : Word) (s : State), but 1048579 (raise src ch det s) = but 1048579 s := fun src ch det s => but_le (by decide) (raise_but src ch det s)
  have b_updClk : ∀ (f : Clk → Clk) (s : State), but 1048579 (updClk f s) = but 1048579 s := fun f s => but_le (by decide) (updClk_but f s)
  have b_enterHeld : ∀ (s : State), but 1048579 (enterHeld s) = but 1048579 s := fun s => but_le (by decide) (enterHeld_but s)
  unfold sourceLost; simp only [ite_but, b_raise, b_updClk, b_enterHeld, ite_self]
theorem fcoLost_but (s : State) : but 1048579 (fcoLost s) = but 1048579 s := by
  have b_updClk : ∀ (f : Clk → Clk) (s : State), but 1048579 (updClk f s) = but 1048579 s := fun f s => but_le (by decide) (updClk_but f s)
  have b_sourceLost : ∀ (rck : Bool) (s : State), but 1048579 (sourceLost rck s) = but 1048579 s := fun rck s => but_le (by decide) (sourceLost_but rck s)
  unfold fcoLost; simp only [b_updClk, b_sourceLost]
theorem rckLost_but (s : State) : but 1048579 (rckLost s) = but 1048579 s := by
  have b_updClk : ∀ (f : Clk → Clk) (s : State), but 1048579 (updClk f s) = but 1048579 s := fun f s => but_le (by decide) (updClk_but f s)
  have b_sourceLost : ∀ (rck : Bool) (s : State), but 1048579 (sourceLost rck s) = but 1048579 s := fun rck s => but_le (by decide) (sourceLost_but rck s)
  unfold rckLost; simp only [ite_but, b_updClk, b_sourceLost, ite_self]
theorem aocFalls_but (s : State) : but 1048579 (aocFalls s) = but 1048579 s := by
  have b_latchWake : ∀ (code : Nat) (s : State), but 1048579 (latchWake code s) = but 1048579 s := fun code s => but_le (by decide) (latchWake_but code s)
  have b_updClk : ∀ (f : Clk → Clk) (s : State), but 1048579 (updClk f s) = but 1048579 s := fun f s => but_le (by decide) (updClk_but f s)
  have b_raise : ∀ (src ch : Nat) (det : Word) (s : State), but 1048579 (raise src ch det s) = but 1048579 s := fun src ch det s => but_le (by decide) (raise_but src ch det s)
  unfold aocFalls; simp only [ite_but, b_latchWake, b_updClk, b_raise, ite_self]
theorem takeSource_but (rck : Bool) (s : State) : but 36701963 (takeSource rck s) = but 36701963 s := by
  have b_updClk : ∀ (f : Clk → Clk) (s : State), but 36701963 (updClk f s) = but 36701963 s := fun f s => but_le (by decide) (updClk_but f s)
  have b_mirrorDown : ∀ (why : Word) (s : State), but 36701963 (mirrorDown why s) = but 36701963 s := fun why s => but_le (by decide) (mirrorDown_but why s)
  have b_mirrorCheck : ∀ (s : State), but 36701963 (mirrorCheck s) = but 36701963 s := fun s => but_le (by decide) (mirrorCheck_but s)
  have lit : ∀ (t : State) (y_sys : Sys), but 36701963 { t with sys := y_sys } = but 36701963 t := fun _ _ => rfl
  unfold takeSource; simp only [ite_but, lit, b_updClk, b_mirrorDown, b_mirrorCheck, ite_self]

/-! ### StoreOps.lean -/

theorem setBank_but (b : Bool) (m : List Host.Cell) (s : State) : but 4194304 (setBank b m s) = but 4194304 s := by
  have lit : ∀ (t : State) (y_store : Store), but 4194304 { t with store := y_store } = but 4194304 t := fun _ _ => rfl
  unfold setBank; simp only [ite_but, lit, ite_self]
theorem shadowPut_but (addr : Nat) (bs : List Byte) (s : State) : but 4194304 (shadowPut addr bs s) = but 4194304 s := by
  have lit : ∀ (t : State) (y_store : Store), but 4194304 { t with store := y_store } = but 4194304 t := fun _ _ => rfl
  unfold shadowPut; simp only [ite_but, lit, ite_self]
theorem countEvent_but (src : Nat) (s : State) : but 4194304 (countEvent src s) = but 4194304 s := by
  have lit : ∀ (t : State) (y_store : Store), but 4194304 { t with store := y_store } = but 4194304 t := fun _ _ => rfl
  unfold countEvent; simp only [ite_but, lit, ite_self]
theorem applyHeld_but (s : State) : but 4194304 (applyHeld s) = but 4194304 s := rfl
theorem shadowGeom_but (s : State) : but 4194304 (shadowGeom s) = but 4194304 s := by
  have b_shadowPut : ∀ (addr : Nat) (bs : List Byte) (s : State), but 4194304 (shadowPut addr bs s) = but 4194304 s := fun addr bs s => but_le (by decide) (shadowPut_but addr bs s)
  unfold shadowGeom; simp only [b_shadowPut]
theorem shadowTherm_but (s : State) : but 4194304 (shadowTherm s) = but 4194304 s := by
  have b_shadowPut : ∀ (addr : Nat) (bs : List Byte) (s : State), but 4194304 (shadowPut addr bs s) = but 4194304 s := fun addr bs s => but_le (by decide) (shadowPut_but addr bs s)
  unfold shadowTherm; simp only [b_shadowPut]
theorem shadowSev_but (s : State) : but 4194304 (shadowSev s) = but 4194304 s := by
  have b_shadowPut : ∀ (addr : Nat) (bs : List Byte) (s : State), but 4194304 (shadowPut addr bs s) = but 4194304 s := fun addr bs s => but_le (by decide) (shadowPut_but addr bs s)
  unfold shadowSev; simp only [b_shadowPut]
theorem startCommit_but (c : CommitCause) (s : State) : but 4194304 (startCommit c s) = but 4194304 s := by
  have b_setBank : ∀ (b : Bool) (m : List Host.Cell) (s : State), but 4194304 (setBank b m s) = but 4194304 s := fun b m s => but_le (by decide) (setBank_but b m s)
  have lit : ∀ (t : State) (y_store : Store), but 4194304 { t with store := y_store } = but 4194304 t := fun _ _ => rfl
  unfold startCommit; simp only [lit, b_setBank]
theorem cutCommit_but (s : State) : but 1077936128 (cutCommit s) = but 1077936128 s := by
  have b_setBank : ∀ (b : Bool) (m : List Host.Cell) (s : State), but 1077936128 (setBank b m s) = but 1077936128 s := fun b m s => but_le (by decide) (setBank_but b m s)
  have lit : ∀ (t : State) (y_free : Nat), but 1077936128 { t with free := y_free } = but 1077936128 t := fun _ _ => rfl
  unfold cutCommit; (repeat' split) <;> first | rfl | simp only [lit, b_setBank]
theorem requestCommit_but (c : CommitCause) (s : State) : but 4194304 (requestCommit c s) = but 4194304 s := by
  have b_startCommit : ∀ (c : CommitCause) (s : State), but 4194304 (startCommit c s) = but 4194304 s := fun c s => but_le (by decide) (startCommit_but c s)
  have lit : ∀ (t : State) (y_store : Store), but 4194304 { t with store := y_store } = but 4194304 t := fun _ _ => rfl
  unfold requestCommit; simp only [ite_but, lit, b_startCommit, ite_self]

/-! ### Faults.lean -/

theorem updFlt_but (f : Flt → Flt) (s : State) : but 1048576 (updFlt f s) = but 1048576 s := rfl
theorem emitHalt_but (s : State) : but 268435456 (emitHalt s) = but 268435456 s := rfl
theorem enterSafe_but (src : Nat) (bySelf : Bool) (det : Word) (batch : Nat) (s : State) : but 292691201 (enterSafe src bySelf det batch s) = but 292691201 s := by
  have b_updFlt : ∀ (f : Flt → Flt) (s : State), but 292691201 (updFlt f s) = but 292691201 s := fun f s => but_le (by decide) (updFlt_but f s)
  have b_safeCancel : ∀ (batch : Nat) (s : State), but 292691201 (safeCancel batch s) = but 292691201 s := fun batch s => but_le (by decide) (safeCancel_but batch s)
  have b_containAll : ∀ (s : State), but 292691201 (containAll s) = but 292691201 s := fun s => but_le (by decide) (containAll_but s)
  have b_emitHalt : ∀ (s : State), but 292691201 (emitHalt s) = but 292691201 s := fun s => but_le (by decide) (emitHalt_but s)
  have b_queueFault : ∀ (src cls ch sev : Nat) (safe : Bool) (det : Word) (s : State), but 292691201 (queueFault src cls ch sev safe det s) = but 292691201 s := fun src cls ch sev safe det s => but_le (by decide) (queueFault_but src cls ch sev safe det s)
  have b_cpsSafe : ∀ (s : State), but 292691201 (cpsSafe s) = but 292691201 s := fun s => but_le (by decide) (cpsSafe_but s)
  have b_requestCommit : ∀ (c : CommitCause) (s : State), but 292691201 (requestCommit c s) = but 292691201 s := fun c s => but_le (by decide) (requestCommit_but c s)
  have lit : ∀ (t : State) (y_sys : Sys) (y_dbg : Dbg), but 292691201 { t with sys := y_sys, dbg := y_dbg } = but 292691201 t := fun _ _ _ => rfl
  unfold enterSafe; simp only [ite_but, lit, b_updFlt, b_safeCancel, b_containAll, b_emitHalt, b_queueFault, b_cpsSafe, b_requestCommit, ite_self]
theorem pushHist_but (w0 : Word) (s : State) : but 1050368 ((pushHist w0 s).2) = but 1050368 s := by
  have b_takeSeq : ∀ (rank : Nat) (s : State), but 1050368 ((takeSeq rank s).2) = but 1050368 s := fun rank s => but_le (by decide) (takeSeq_but rank s)
  have b_updFlt : ∀ (f : Flt → Flt) (s : State), but 1050368 (updFlt f s) = but 1050368 s := fun f s => but_le (by decide) (updFlt_but f s)
  unfold pushHist; simp only [b_takeSeq, b_updFlt]
theorem openOrMerge_but (e : FEvent) (sev cls : Nat) (q : Word) (s : State) : but 1048576 (openOrMerge e sev cls q s) = but 1048576 s := by
  have b_updFlt : ∀ (f : Flt → Flt) (s : State), but 1048576 (updFlt f s) = but 1048576 s := fun f s => but_le (by decide) (updFlt_but f s)
  unfold openOrMerge; (repeat' split) <;> first | rfl | simp only [ite_but, itep_but, itec_but, b_updFlt, ite_self, implies_true]
theorem recordEvent_but (e : FEvent) (sev : Nat) (s : State) : but 36701952 (recordEvent e sev s) = but 36701952 s := by
  have b_pushHist : ∀ (w0 : Word) (s : State), but 36701952 ((pushHist w0 s).2) = but 36701952 s := fun w0 s => but_le (by decide) (pushHist_but w0 s)
  have b_openOrMerge : ∀ (e : FEvent) (sev cls : Nat) (q : Word) (s : State), but 36701952 (openOrMerge e sev cls q s) = but 36701952 s := fun e sev cls q s => but_le (by decide) (openOrMerge_but e sev cls q s)
  have b_queueFault : ∀ (src cls ch sev : Nat) (safe : Bool) (det : Word) (s : State), but 36701952 (queueFault src cls ch sev safe det s) = but 36701952 s := fun src cls ch sev safe det s => but_le (by decide) (queueFault_but src cls ch sev safe det s)
  have b_setIntIf : ∀ (c : Bool) (b : Nat) (s : State), but 36701952 (setIntIf c b s) = but 36701952 s := fun c b s => but_le (by decide) (setIntIf_but c b s)
  unfold recordEvent; simp only [ite_but, b_pushHist, b_openOrMerge, b_queueFault, b_setIntIf, ite_self]
theorem countSrc_but (src : Nat) (s : State) : but 5242880 (countSrc src s) = but 5242880 s := by
  have b_countEvent : ∀ (src : Nat) (s : State), but 5242880 (countEvent src s) = but 5242880 s := fun src s => but_le (by decide) (countEvent_but src s)
  have b_updFlt : ∀ (f : Flt → Flt) (s : State), but 5242880 (updFlt f s) = but 5242880 s := fun f s => but_le (by decide) (updFlt_but f s)
  unfold countSrc; simp only [b_countEvent, b_updFlt]
theorem applyEvent_but (e : FEvent) (s : State) : but 326246145 (applyEvent e s) = but 326246145 s := by
  have b_countSrc : ∀ (src : Nat) (s : State), but 326246145 (countSrc src s) = but 326246145 s := fun src s => but_le (by decide) (countSrc_but src s)
  have b_recordEvent : ∀ (e : FEvent) (sev : Nat) (s : State), but 326246145 (recordEvent e sev s) = but 326246145 s := fun e sev s => but_le (by decide) (recordEvent_but e sev s)
  have b_containCh : ∀ (n : Fin 12) (s : State), but 326246145 (containCh n s) = but 326246145 s := fun n s => but_le (by decide) (containCh_but n s)
  have b_enterSafe : ∀ (src : Nat) (bySelf : Bool) (det : Word) (batch : Nat) (s : State), but 326246145 (enterSafe src bySelf det batch s) = but 326246145 s := fun src bySelf det batch s => but_le (by decide) (enterSafe_but src bySelf det batch s)
  have b_windowsCheck : ∀ (s : State), but 326246145 (windowsCheck s) = but 326246145 s := fun s => but_le (by decide) (windowsCheck_but s)
  unfold applyEvent; simp only [ite_but, b_countSrc, b_recordEvent, foldSt_but, b_containCh, b_enterSafe, b_windowsCheck, ite_self, implies_true]
theorem opFaultApply_but (s : State) : but 326246145 (opFaultApply s) = but 326246145 s := by
  have b_flushBulk : ∀ (s : State), but 326246145 (flushBulk s) = but 326246145 s := fun s => but_le (by decide) (flushBulk_but s)
  have b_applyEvent : ∀ (e : FEvent) (s : State), but 326246145 (applyEvent e s) = but 326246145 s := fun e s => but_le (by decide) (applyEvent_but e s)
  have b_updFlt : ∀ (f : Flt → Flt) (s : State), but 326246145 (updFlt f s) = but 326246145 s := fun f s => but_le (by decide) (updFlt_but f s)
  unfold opFaultApply; (repeat' split) <;> first | rfl | simp only [b_flushBulk, b_applyEvent, b_updFlt]
theorem ackOpen_but (s : State) : but 1048576 (ackOpen s) = but 1048576 s := by
  have b_updFlt : ∀ (f : Flt → Flt) (s : State), but 1048576 (updFlt f s) = but 1048576 s := fun f s => but_le (by decide) (updFlt_but f s)
  unfold ackOpen; (repeat' split) <;> first | rfl | simp only [ite_but, itep_but, itec_but, b_updFlt, ite_self, implies_true]
theorem forgetClass_but (n : Fin 12) (s : State) : but 65536 (forgetClass n s) = but 65536 s := by
  have b_updDiag : ∀ (n : Fin 8) (f : DiagCh → DiagCh) (s : State), but 65536 (updDiag n f s) = but 65536 s := fun n f s => but_le (by decide) (updDiag_but n f s)
  unfold forgetClass; (repeat' split) <;> first | rfl | simp only [ite_but, itep_but, itec_but, b_updDiag, ite_self, implies_true]
theorem liftOne_but (n : Fin 12) (s : State) : but 202752 (liftOne n s) = but 202752 s := by
  have b_leaveContained : ∀ (n : Fin 12) (s : State), but 202752 (leaveContained n s) = but 202752 s := fun n s => but_le (by decide) (leaveContained_but n s)
  have b_forgetClass : ∀ (n : Fin 12) (s : State), but 202752 (forgetClass n s) = but 202752 s := fun n s => but_le (by decide) (forgetClass_but n s)
  have b_updChan : ∀ (n : Fin 12) (f : Chan → Chan) (s : State), but 202752 (updChan n f s) = but 202752 s := fun n f s => but_le (by decide) (updChan_but n f s)
  unfold liftOne; simp only [b_leaveContained, b_forgetClass, b_updChan]
theorem liftBefore_but (n : Fin 12) (s : State) : but 65536 (liftBefore n s) = but 65536 s := by
  have b_forgetClass : ∀ (n : Fin 12) (s : State), but 65536 (forgetClass n s) = but 65536 s := fun n s => but_le (by decide) (forgetClass_but n s)
  unfold liftBefore; simp only [ite_but, b_forgetClass, ite_self]
theorem liftCh_but (n : Fin 12) (s : State) : but 202752 (liftCh n s) = but 202752 s := by
  have b_liftBefore : ∀ (n : Fin 12) (s : State), but 202752 (liftBefore n s) = but 202752 s := fun n s => but_le (by decide) (liftBefore_but n s)
  have b_liftOne : ∀ (n : Fin 12) (s : State), but 202752 (liftOne n s) = but 202752 s := fun n s => but_le (by decide) (liftOne_but n s)
  unfold liftCh; simp only [ite_but, b_liftBefore, b_liftOne, ite_self]
theorem lift_but (mask : BitVec 12) (s : State) : but 202752 (lift mask s) = but 202752 s := by
  have b_liftCh : ∀ (n : Fin 12) (s : State), but 202752 (liftCh n s) = but 202752 s := fun n s => but_le (by decide) (liftCh_but n s)
  unfold lift; simp only [foldSt_but, b_liftCh, implies_true]
theorem clearHist_but (s : State) : but 1048576 (clearHist s) = but 1048576 s := rfl
theorem clearSelf_but (s : State) : but 1048576 (clearSelf s) = but 1048576 s := by
  have b_updFlt : ∀ (f : Flt → Flt) (s : State), but 1048576 (updFlt f s) = but 1048576 s := fun f s => but_le (by decide) (updFlt_but f s)
  unfold clearSelf; simp only [ite_but, b_updFlt, ite_self]
theorem writeFltack_but (w : Word) (s : State) : but 1251328 (writeFltack w s) = but 1251328 s := by
  have b_ackOpen : ∀ (s : State), but 1251328 (ackOpen s) = but 1251328 s := fun s => but_le (by decide) (ackOpen_but s)
  have b_lift : ∀ (mask : BitVec 12) (s : State), but 1251328 (lift mask s) = but 1251328 s := fun mask s => but_le (by decide) (lift_but mask s)
  have b_clearHist : ∀ (s : State), but 1251328 (clearHist s) = but 1251328 s := fun s => but_le (by decide) (clearHist_but s)
  have b_clearSelf : ∀ (s : State), but 1251328 (clearSelf s) = but 1251328 s := fun s => but_le (by decide) (clearSelf_but s)
  unfold writeFltack; simp only [ite_but, b_ackOpen, b_lift, b_clearHist, b_clearSelf, ite_self]
theorem fltackDo_but (M : Nat) (f : State → State) (s : State) (hf : ∀ t, but M (f t) = but M t) : but M (fltackDo f s) = but M s := by
  unfold fltackDo; simp only [ite_but, hf, ite_self]
theorem readFlthist_but (s : State) : but 1048576 ((readFlthist s).2) = but 1048576 s := by
  have b_updFlt : ∀ (f : Flt → Flt) (s : State), but 1048576 (updFlt f s) = but 1048576 s := fun f s => but_le (by decide) (updFlt_but f s)
  unfold readFlthist; dsimp only; (repeat' split) <;> first | rfl | simp only [ite_but, itep_but, itec_but, b_updFlt, ite_self, implies_true]
theorem readFltstat_but (s : State) : but 1048576 ((readFltstat s).2) = but 1048576 s := rfl
theorem readOsum_but (p : Path) (s : State) : but 1048576 ((readOsum p s).2) = but 1048576 s := by
  have b_updFlt : ∀ (f : Flt → Flt) (s : State), but 1048576 (updFlt f s) = but 1048576 s := fun f s => but_le (by decide) (updFlt_but f s)
  unfold readOsum; (repeat' split) <;> first | rfl | simp only [ite_but, itep_but, itec_but, b_updFlt, ite_self, implies_true]
theorem readFsrc_but (p : Path) (off : Nat) (s : State) : but 1048576 ((readFsrc p off s).2) = but 1048576 s := by
  have b_readOsum : ∀ (p : Path) (s : State), but 1048576 ((readOsum p s).2) = but 1048576 s := fun p s => but_le (by decide) (readOsum_but p s)
  unfold readFsrc; simp only [itep_but, b_readOsum, ite_self]
theorem cmdFsrcSet_but (a : Args) (s : State) : but 5242880 ((cmdFsrcSet a s).st) = but 5242880 s := by
  have b_shadowSev : ∀ (s : State), but 5242880 (shadowSev s) = but 5242880 s := fun s => but_le (by decide) (shadowSev_but s)
  have b_updFlt : ∀ (f : Flt → Flt) (s : State), but 5242880 (updFlt f s) = but 5242880 s := fun f s => but_le (by decide) (updFlt_but f s)
  unfold cmdFsrcSet; simp only [checked_but, b_shadowSev, b_updFlt]
theorem cmdFltRead_but (a : Args) (s : State) : but 1048576 ((cmdFltRead a s).st) = but 1048576 s := by
  have b_updFlt : ∀ (f : Flt → Flt) (s : State), but 1048576 (updFlt f s) = but 1048576 s := fun f s => but_le (by decide) (updFlt_but f s)
  have b_badArg : ∀ (s : State), but 1048576 ((badArg s).st) = but 1048576 s := fun s => but_le (by decide) (badArg_but s)
  unfold cmdFltRead; (repeat' split) <;> first | rfl | simp only [checked_but, b_updFlt]

/-! ### Thermal.lean -/

theorem thEvents_but (n : Fin 8) (old new : ThCh) (s : State) : but 34603008 (thEvents n old new s) = but 34603008 s := by
  have b_raise : ∀ (src ch : Nat) (det : Word) (s : State), but 34603008 (raise src ch det s) = but 34603008 s := fun src ch det s => but_le (by decide) (raise_but src ch det s)
  have b_setIntIf : ∀ (c : Bool) (b : Nat) (s : State), but 34603008 (setIntIf c b s) = but 34603008 s := fun c b s => but_le (by decide) (setIntIf_but c b s)
  unfold thEvents; simp only [ite_but, b_raise, b_setIntIf, ite_self]
theorem dieCheck_but (s : State) : but 1310720 (dieCheck s) = but 1310720 s := by
  have b_raise : ∀ (src ch : Nat) (det : Word) (s : State), but 1310720 (raise src ch det s) = but 1310720 s := fun src ch det s => but_le (by decide) (raise_but src ch det s)
  have lit : ∀ (t : State) (y_therm : Therm), but 1310720 { t with therm := y_therm } = but 1310720 t := fun _ _ => rfl
  unfold dieCheck; simp only [ite_but, lit, b_raise, ite_self]
theorem opDie_but (k : Fin 4) (r : Int) (s : State) : but 1310720 (opDie k r s) = but 1310720 s := by
  have b_raise : ∀ (src ch : Nat) (det : Word) (s : State), but 1310720 (raise src ch det s) = but 1310720 s := fun src ch det s => but_le (by decide) (raise_but src ch det s)
  have b_dieCheck : ∀ (s : State), but 1310720 (dieCheck s) = but 1310720 s := fun s => but_le (by decide) (dieCheck_but s)
  have lit : ∀ (t : State) (y_therm : Therm), but 1310720 { t with therm := y_therm } = but 1310720 t := fun _ _ => rfl
  unfold opDie; simp only [ite_but, lit, b_raise, b_dieCheck, ite_self]
theorem opThermalTick_but (s : State) : but 39061504 (opThermalTick s) = but 39061504 s := by
  have b_thEvents : ∀ (n : Fin 8) (old new : ThCh) (s : State), but 39061504 (thEvents n old new s) = but 39061504 s := fun n old new s => but_le (by decide) (thEvents_but n old new s)
  have b_throttleMoved : ∀ (n : Fin 12) (s : State), but 39061504 (throttleMoved n s) = but 39061504 s := fun n s => but_le (by decide) (throttleMoved_but n s)
  have b_dieCheck : ∀ (s : State), but 39061504 (dieCheck s) = but 39061504 s := fun s => but_le (by decide) (dieCheck_but s)
  have b_shadowTherm : ∀ (s : State), but 39061504 (shadowTherm s) = but 39061504 s := fun s => but_le (by decide) (shadowTherm_but s)
  have lit : ∀ (t : State) (y_therm : Therm), but 39061504 { t with therm := y_therm } = but 39061504 t := fun _ _ => rfl
  unfold opThermalTick; simp only [ite_but, lit, foldSt_but, b_thEvents, b_throttleMoved, b_dieCheck, b_shadowTherm, ite_self, implies_true]
theorem thermFastReset_but (s : State) : but 262144 (thermFastReset s) = but 262144 s := rfl
theorem updTh_but (f : Fin 8 → ThCh → ThCh) (s : State) : but 262144 (updTh f s) = but 262144 s := rfl
theorem cmdThermSet_but (a : Args) (s : State) : but 262144 ((cmdThermSet a s).st) = but 262144 s := by
  have b_updTh : ∀ (f : Fin 8 → ThCh → ThCh) (s : State), but 262144 (updTh f s) = but 262144 s := fun f s => but_le (by decide) (updTh_but f s)
  have b_badArg : ∀ (s : State), but 262144 ((badArg s).st) = but 262144 s := fun s => but_le (by decide) (badArg_but s)
  have lit : ∀ (t : State) (y_therm : Therm), but 262144 { t with therm := y_therm } = but 262144 t := fun _ _ => rfl
  unfold cmdThermSet; simp only [itec_but, lit, checked_but, b_updTh, b_badArg, ite_self]
theorem readTw_but (p : Path) (n : Fin 8) (s : State) : but 262144 ((readTw p n s).2) = but 262144 s := by
  have b_updTh : ∀ (f : Fin 8 → ThCh → ThCh) (s : State), but 262144 (updTh f s) = but 262144 s := fun f s => but_le (by decide) (updTh_but f s)
  unfold readTw; (repeat' split) <;> first | rfl | simp only [ite_but, itep_but, itec_but, b_updTh, ite_self, implies_true]
theorem readTherm_but (p : Path) (off : Nat) (s : State) : but 262144 ((readTherm p off s).2) = but 262144 s := by
  have b_readTw : ∀ (p : Path) (n : Fin 8) (s : State), but 262144 ((readTw p n s).2) = but 262144 s := fun p n s => but_le (by decide) (readTw_but p n s)
  unfold readTherm; dsimp only; (repeat' split) <;> first | rfl | simp only [b_readTw]

/-! ### Timers.lean -/

theorem updTim_but (k : Fin 8) (f : Timer → Timer) (s : State) : but 524288 (updTim k f s) = but 524288 s := rfl
theorem timInt_but (k : Fin 8) (old : Timer) (s : State) : but 33554432 (timInt k old s) = but 33554432 s := by
  have b_setIntIf : ∀ (c : Bool) (b : Nat) (s : State), but 33554432 (setIntIf c b s) = but 33554432 s := fun c b s => but_le (by decide) (setIntIf_but c b s)
  unfold timInt; simp only [b_setIntIf]
theorem timDo_but (k : Fin 8) (m o : Bool) (f : Timer → Timer) (s : State) : but 34078720 (timDo k m o f s) = but 34078720 s := by
  have b_timInt : ∀ (k : Fin 8) (old : Timer) (s : State), but 34078720 (timInt k old s) = but 34078720 s := fun k old s => but_le (by decide) (timInt_but k old s)
  have b_updTim : ∀ (k : Fin 8) (f : Timer → Timer) (s : State), but 34078720 (updTim k f s) = but 34078720 s := fun k f s => but_le (by decide) (updTim_but k f s)
  unfold timDo; simp only [b_timInt, b_updTim]
theorem timStep_but (k : Fin 8) (s : State) : but 34078720 (timStep k s) = but 34078720 s := by
  have b_timDo : ∀ (k : Fin 8) (m o : Bool) (f : Timer → Timer) (s : State), but 34078720 (timDo k m o f s) = but 34078720 s := fun k m o f s => but_le (by decide) (timDo_but k m o f s)
  unfold timStep; simp only [b_timDo]
theorem writeTimctl_but (w : Word) (s : State) : but 34078720 (writeTimctl w s) = but 34078720 s := by
  have b_timStep : ∀ (k : Fin 8) (s : State), but 34078720 (timStep k s) = but 34078720 s := fun k s => but_le (by decide) (timStep_but k s)
  have b_setIntIf : ∀ (c : Bool) (b : Nat) (s : State), but 34078720 (setIntIf c b s) = but 34078720 s := fun c b s => but_le (by decide) (setIntIf_but c b s)
  have b_updTim : ∀ (k : Fin 8) (f : Timer → Timer) (s : State), but 34078720 (updTim k f s) = but 34078720 s := fun k f s => but_le (by decide) (updTim_but k f s)
  unfold writeTimctl; simp only [ite_but, b_timStep, b_setIntIf, b_updTim, ite_self]
theorem loadCount_but (hi : Word) (s : State) : but 524288 (loadCount hi s) = but 524288 s := rfl
theorem loadPreload_but (hi : Word) (s : State) : but 524288 (loadPreload hi s) = but 524288 s := rfl
theorem clearFlags_but (w : Word) (s : State) : but 524288 (clearFlags w s) = but 524288 s := rfl
theorem writeTim_but (a : Nat) (w : Word) (s : State) : but 34078720 (writeTim a w s) = but 34078720 s := by
  have b_writeTimctl : ∀ (w : Word) (s : State), but 34078720 (writeTimctl w s) = but 34078720 s := fun w s => but_le (by decide) (writeTimctl_but w s)
  have b_updTim : ∀ (k : Fin 8) (f : Timer → Timer) (s : State), but 34078720 (updTim k f s) = but 34078720 s := fun k f s => but_le (by decide) (updTim_but k f s)
  have b_loadCount : ∀ (hi : Word) (s : State), but 34078720 (loadCount hi s) = but 34078720 s := fun hi s => but_le (by decide) (loadCount_but hi s)
  have b_loadPreload : ∀ (hi : Word) (s : State), but 34078720 (loadPreload hi s) = but 34078720 s := fun hi s => but_le (by decide) (loadPreload_but hi s)
  have b_clearFlags : ∀ (w : Word) (s : State), but 34078720 (clearFlags w s) = but 34078720 s := fun w s => but_le (by decide) (clearFlags_but w s)
  have lit : ∀ (t : State) (y_tim : Tim), but 34078720 { t with tim := y_tim } = but 34078720 t := fun _ _ => rfl
  unfold writeTim; simp only [ite_but, lit, b_writeTimctl, b_updTim, b_loadCount, b_loadPreload, b_clearFlags, ite_self]
theorem timFastReset_but (s : State) : but 524288 (timFastReset s) = but 524288 s := rfl

/-! ### WheelOps.lean -/

theorem updWheel_but (f : Wheel → Wheel) (s : State) : but 4 (updWheel f s) = but 4 s := rfl
theorem openNow_but (s : State) : but 4 (openNow s) = but 4 s := rfl
theorem enterSync_but (new : Sync) (s : State) : but 148 (enterSync new s) = but 148 s := by
  have b_learnLost : ∀ (s : State), but 148 (learnLost s) = but 148 s := fun s => but_le (by decide) (learnLost_but s)
  have b_updWheel : ∀ (f : Wheel → Wheel) (s : State), but 148 (updWheel f s) = but 148 s := fun f s => but_le (by decide) (updWheel_but f s)
  have b_openNow : ∀ (s : State), but 148 (openNow s) = but 148 s := fun s => but_le (by decide) (openNow_but s)
  have b_learnSpoil : ∀ (s : State), but 148 (learnSpoil s) = but 148 s := fun s => but_le (by decide) (learnSpoil_but s)
  have lit : ∀ (t : State) (y_wheel : Wheel) (y_pred : Pred), but 148 { t with wheel := y_wheel, pred := y_pred } = but 148 t := fun _ _ _ => rfl
  unfold enterSync; (repeat' split) <;> first | rfl | simp only [ite_but, itep_but, itec_but, lit, b_learnLost, b_updWheel, b_openNow, b_learnSpoil, ite_self, implies_true]
theorem legacyLoss_but (s : State) : but 536870912 (legacyLoss s) = but 536870912 s := rfl
theorem afterSync_but (old new : Sync) (eff : Sync) (s : State) : but 572524296 (afterSync old new eff s) = but 572524296 s := by
  have b_noteEff : ∀ (s : State), but 572524296 (noteEff s) = but 572524296 s := fun s => but_le (by decide) (noteEff_but s)
  have b_onEffChange : ∀ (old new : Sync) (s : State), but 572524296 (onEffChange old new s) = but 572524296 s := fun old new s => but_le (by decide) (onEffChange_but old new s)
  have b_sendState : ∀ (s : State), but 572524296 (sendState s) = but 572524296 s := fun s => but_le (by decide) (sendState_but s)
  have b_legacyLoss : ∀ (s : State), but 572524296 (legacyLoss s) = but 572524296 s := fun s => but_le (by decide) (legacyLoss_but s)
  unfold afterSync; simp only [ite_but, b_noteEff, b_onEffChange, b_sendState, b_legacyLoss, ite_self]
theorem changeSync_but (new : Sync) (cause : Nat) (s : State) : but 573573020 (changeSync new cause s) = but 573573020 s := by
  have b_enterSync : ∀ (new : Sync) (s : State), but 573573020 (enterSync new s) = but 573573020 s := fun new s => but_le (by decide) (enterSync_but new s)
  have b_updWheel : ∀ (f : Wheel → Wheel) (s : State), but 573573020 (updWheel f s) = but 573573020 s := fun f s => but_le (by decide) (updWheel_but f s)
  have b_syncRec : ∀ (cause : Nat) (old new : Sync) (s : State), but 573573020 (syncRec cause old new s) = but 573573020 s := fun cause old new s => but_le (by decide) (syncRec_but cause old new s)
  have b_raise : ∀ (src ch : Nat) (det : Word) (s : State), but 573573020 (raise src ch det s) = but 573573020 s := fun src ch det s => but_le (by decide) (raise_but src ch det s)
  have b_afterSync : ∀ (old new : Sync) (eff : Sync) (s : State), but 573573020 (afterSync old new eff s) = but 573573020 s := fun old new eff s => but_le (by decide) (afterSync_but old new eff s)
  unfold changeSync; simp only [ite_but, b_enterSync, b_updWheel, b_syncRec, b_raise, b_afterSync, ite_self]
theorem input_but (code : Nat) (s : State) : but 573573020 (input code s) = but 573573020 s := by
  have b_changeSync : ∀ (new : Sync) (cause : Nat) (s : State), but 573573020 (changeSync new cause s) = but 573573020 s := fun new cause s => but_le (by decide) (changeSync_but new cause s)
  unfold input; simp only [b_changeSync]
theorem inputBad_but (s : State) : but 4 (inputBad s) = but 4 s := by
  have b_updWheel : ∀ (f : Wheel → Wheel) (s : State), but 4 (updWheel f s) = but 4 s := fun f s => but_le (by decide) (updWheel_but f s)
  unfold inputBad; simp only [ite_but, b_updWheel, ite_self]
theorem inputTooth_but (s : State) : but 573573020 (inputTooth s) = but 573573020 s := by
  have b_updWheel : ∀ (f : Wheel → Wheel) (s : State), but 573573020 (updWheel f s) = but 573573020 s := fun f s => but_le (by decide) (updWheel_but f s)
  have b_changeSync : ∀ (new : Sync) (cause : Nat) (s : State), but 573573020 (changeSync new cause s) = but 573573020 s := fun new cause s => but_le (by decide) (changeSync_but new cause s)
  unfold inputTooth; (repeat' split) <;> first | rfl | simp only [ite_but, b_updWheel, b_changeSync, ite_self]
theorem resolveHalf_but (h : Nat) (s : State) : but 20 (resolveHalf h s) = but 20 s := rfl
theorem inputGap_but (s : State) : but 573573020 (inputGap s) = but 573573020 s := by
  have b_updWheel : ∀ (f : Wheel → Wheel) (s : State), but 573573020 (updWheel f s) = but 573573020 s := fun f s => but_le (by decide) (updWheel_but f s)
  have b_changeSync : ∀ (new : Sync) (cause : Nat) (s : State), but 573573020 (changeSync new cause s) = but 573573020 s := fun new cause s => but_le (by decide) (changeSync_but new cause s)
  have b_resolveHalf : ∀ (h : Nat) (s : State), but 573573020 (resolveHalf h s) = but 573573020 s := fun h s => but_le (by decide) (resolveHalf_but h s)
  have b_raise : ∀ (src ch : Nat) (det : Word) (s : State), but 573573020 (raise src ch det s) = but 573573020 s := fun src ch det s => but_le (by decide) (raise_but src ch det s)
  unfold inputGap; simp only [ite_but, b_updWheel, b_changeSync, b_resolveHalf, b_raise, ite_self]
theorem reverseInd_but (s : State) : but 1048580 (reverseInd s) = but 1048580 s := by
  have b_raise : ∀ (src ch : Nat) (det : Word) (s : State), but 1048580 (raise src ch det s) = but 1048580 s := fun src ch det s => but_le (by decide) (raise_but src ch det s)
  have b_updWheel : ∀ (f : Wheel → Wheel) (s : State), but 1048580 (updWheel f s) = but 1048580 s := fun f s => but_le (by decide) (updWheel_but f s)
  unfold reverseInd; simp only [b_raise, b_updWheel]
theorem speedInput_but (s : State) : but 573573020 (speedInput s) = but 573573020 s := by
  have b_input : ∀ (code : Nat) (s : State), but 573573020 (input code s) = but 573573020 s := fun code s => but_le (by decide) (input_but code s)
  have b_raise : ∀ (src ch : Nat) (det : Word) (s : State), but 573573020 (raise src ch det s) = but 573573020 s := fun src ch det s => but_le (by decide) (raise_but src ch det s)
  unfold speedInput; simp only [b_input, b_raise]
theorem reverseTest_but (g : Nat) (s : State) : but 573573020 (reverseTest g s) = but 573573020 s := by
  have b_speedInput : ∀ (s : State), but 573573020 (speedInput s) = but 573573020 s := fun s => but_le (by decide) (speedInput_but s)
  unfold reverseTest; simp only [ite_but, b_speedInput, ite_self]
theorem reverseCode_but (s : State) : but 573573020 (reverseCode s) = but 573573020 s := by
  have b_reverseTest : ∀ (g : Nat) (s : State), but 573573020 (reverseTest g s) = but 573573020 s := fun g s => but_le (by decide) (reverseTest_but g s)
  have b_reverseInd : ∀ (s : State), but 573573020 (reverseInd s) = but 573573020 s := fun s => but_le (by decide) (reverseInd_but s)
  have b_updWheel : ∀ (f : Wheel → Wheel) (s : State), but 573573020 (updWheel f s) = but 573573020 s := fun f s => but_le (by decide) (updWheel_but f s)
  have b_input : ∀ (code : Nat) (s : State), but 573573020 (input code s) = but 573573020 s := fun code s => but_le (by decide) (input_but code s)
  unfold reverseCode; simp only [ite_but, b_reverseTest, b_reverseInd, b_updWheel, b_input, ite_self]
theorem retakeO2_but (s : State) : but 16 (retakeO2 s) = but 16 s := rfl
theorem swapGeom_but (s : State) : but 4194448 (swapGeom s) = but 4194448 s := by
  have b_retakeO2 : ∀ (s : State), but 4194448 (retakeO2 s) = but 4194448 s := fun s => but_le (by decide) (retakeO2_but s)
  have b_shadowGeom : ∀ (s : State), but 4194448 (shadowGeom s) = but 4194448 s := fun s => but_le (by decide) (shadowGeom_but s)
  have lit : ∀ (t : State) (y_geom : Geom), but 4194448 { t with geom := y_geom } = but 4194448 t := fun _ _ => rfl
  unfold swapGeom; simp only [ite_but, lit, b_retakeO2, b_shadowGeom, ite_self]
theorem learnAt_but (stamp : Tb) (p : Nat) (s : State) : but 4194448 (learnAt stamp p s) = but 4194448 s := by
  have b_learnRev : ∀ (stamp : Tb) (s : State), but 4194448 (learnRev stamp s) = but 4194448 s := fun stamp s => but_le (by decide) (learnRev_but stamp s)
  have b_swapGeom : ∀ (s : State), but 4194448 (swapGeom s) = but 4194448 s := fun s => but_le (by decide) (swapGeom_but s)
  have b_learnTooth : ∀ (stamp : Tb) (p : Nat) (s : State), but 4194448 (learnTooth stamp p s) = but 4194448 s := fun stamp p s => but_le (by decide) (learnTooth_but stamp p s)
  unfold learnAt; simp only [ite_but, b_learnRev, b_swapGeom, b_learnTooth, ite_self]
theorem recordTooth_but (syn : Bool) (stamp : Tb) (p : Nat) (s : State) : but 2097152 (recordTooth syn stamp p s) = but 2097152 s := by
  have b_sendRecord : ∀ (syn first : Bool) (stamp : Tb) (p h : Nat) (s : State), but 2097152 (sendRecord syn first stamp p h s) = but 2097152 s := fun syn first stamp p h s => but_le (by decide) (sendRecord_but syn first stamp p h s)
  have b_sendState : ∀ (s : State), but 2097152 (sendState s) = but 2097152 s := fun s => but_le (by decide) (sendState_but s)
  unfold recordTooth; simp only [ite_but, b_sendRecord, b_sendState, ite_self]
theorem moveTo_but (stamp : Tb) (per p : Nat) (s : State) : but 4 (moveTo stamp per p s) = but 4 s := rfl
theorem startPred_but (stamp : Tb) (per p : Nat) (s : State) : but 2097268 (startPred stamp per p s) = but 2097268 s := by
  have b_updWheel : ∀ (f : Wheel → Wheel) (s : State), but 2097268 (updWheel f s) = but 2097268 s := fun f s => but_le (by decide) (updWheel_but f s)
  have b_moveTo : ∀ (stamp : Tb) (per p : Nat) (s : State), but 2097268 (moveTo stamp per p s) = but 2097268 s := fun stamp per p s => but_le (by decide) (moveTo_but stamp per p s)
  have b_beginPred : ∀ (p : Pred) (s : State), but 2097268 (beginPred p s) = but 2097268 s := fun p s => but_le (by decide) (beginPred_but p s)
  have b_sendRecord : ∀ (syn first : Bool) (stamp : Tb) (p h : Nat) (s : State), but 2097268 (sendRecord syn first stamp p h s) = but 2097268 s := fun syn first stamp p h s => but_le (by decide) (sendRecord_but syn first stamp p h s)
  have lit : ∀ (t : State) (y_spd : Option Nat), but 2097268 { t with spd := y_spd } = but 2097268 t := fun _ _ => rfl
  unfold startPred; simp only [lit, b_updWheel, b_moveTo, b_beginPred, b_sendRecord]
theorem acceptUpdate_but (stamp : Tb) (per p : Nat) (s : State) : but 40896500 (acceptUpdate stamp per p s) = but 40896500 s := by
  have b_moveTo : ∀ (stamp : Tb) (per p : Nat) (s : State), but 40896500 (moveTo stamp per p s) = but 40896500 s := fun stamp per p s => but_le (by decide) (moveTo_but stamp per p s)
  have b_noteResidual : ∀ (p h : Nat) (res : Int) (s : State), but 40896500 (noteResidual p h res s) = but 40896500 s := fun p h res s => but_le (by decide) (noteResidual_but p h res s)
  have b_setPred : ∀ (p : Pred) (s : State), but 40896500 (setPred p s) = but 40896500 s := fun p s => but_le (by decide) (setPred_but p s)
  have b_learnAt : ∀ (stamp : Tb) (p : Nat) (s : State), but 40896500 (learnAt stamp p s) = but 40896500 s := fun stamp p s => but_le (by decide) (learnAt_but stamp p s)
  have b_recordTooth : ∀ (syn : Bool) (stamp : Tb) (p : Nat) (s : State), but 40896500 (recordTooth syn stamp p s) = but 40896500 s := fun syn stamp p s => but_le (by decide) (recordTooth_but syn stamp p s)
  have lit : ∀ (t : State) (y_spd : Option Nat), but 40896500 { t with spd := y_spd } = but 40896500 t := fun _ _ => rfl
  unfold acceptUpdate; simp only [ite_but, lit, b_moveTo, b_noteResidual, b_setPred, b_learnAt, b_recordTooth, ite_self]
theorem synthUpdate_but (p : Nat) (s : State) : but 2097332 (synthUpdate p s) = but 2097332 s := by
  have b_moveTo : ∀ (stamp : Tb) (per p : Nat) (s : State), but 2097332 (moveTo stamp per p s) = but 2097332 s := fun stamp per p s => but_le (by decide) (moveTo_but stamp per p s)
  have b_updWheel : ∀ (f : Wheel → Wheel) (s : State), but 2097332 (updWheel f s) = but 2097332 s := fun f s => but_le (by decide) (updWheel_but f s)
  have b_setPred : ∀ (p : Pred) (s : State), but 2097332 (setPred p s) = but 2097332 s := fun p s => but_le (by decide) (setPred_but p s)
  have b_recordTooth : ∀ (syn : Bool) (stamp : Tb) (p : Nat) (s : State), but 2097332 (recordTooth syn stamp p s) = but 2097332 s := fun syn stamp p s => but_le (by decide) (recordTooth_but syn stamp p s)
  have b_learnLost : ∀ (s : State), but 2097332 (learnLost s) = but 2097332 s := fun s => but_le (by decide) (learnLost_but s)
  unfold synthUpdate; simp only [ite_but, b_moveTo, b_updWheel, b_setPred, b_recordTooth, b_learnLost, ite_self]
theorem badTooth_but (p : Nat) (s : State) : but 537919620 (badTooth p s) = but 537919620 s := by
  have b_learnSpoil : ∀ (s : State), but 537919620 (learnSpoil s) = but 537919620 s := fun s => but_le (by decide) (learnSpoil_but s)
  have b_raise : ∀ (src ch : Nat) (det : Word) (s : State), but 537919620 (raise src ch det s) = but 537919620 s := fun src ch det s => but_le (by decide) (raise_but src ch det s)
  have b_updWheel : ∀ (f : Wheel → Wheel) (s : State), but 537919620 (updWheel f s) = but 537919620 s := fun f s => but_le (by decide) (updWheel_but f s)
  have b_noteLeg : ∀ (b : Nat) (s : State), but 537919620 (noteLeg b s) = but 537919620 s := fun b s => but_le (by decide) (noteLeg_but b s)
  have lit : ∀ (t : State) (y_leg : Leg), but 537919620 { t with leg := y_leg } = but 537919620 t := fun _ _ => rfl
  unfold badTooth; simp only [ite_but, lit, b_learnSpoil, b_raise, b_updWheel, b_noteLeg, ite_self]
theorem gapFound_but (stamp : Tb) (per : Nat) (fine : Bool) (s : State) : but 573573116 (gapFound stamp per fine s) = but 573573116 s := by
  have b_updWheel : ∀ (f : Wheel → Wheel) (s : State), but 573573116 (updWheel f s) = but 573573116 s := fun f s => but_le (by decide) (updWheel_but f s)
  have b_beginPred : ∀ (p : Pred) (s : State), but 573573116 (beginPred p s) = but 573573116 s := fun p s => but_le (by decide) (beginPred_but p s)
  have b_learnLost : ∀ (s : State), but 573573116 (learnLost s) = but 573573116 s := fun s => but_le (by decide) (learnLost_but s)
  have b_changeSync : ∀ (new : Sync) (cause : Nat) (s : State), but 573573116 (changeSync new cause s) = but 573573116 s := fun new cause s => but_le (by decide) (changeSync_but new cause s)
  have b_sendRecord : ∀ (syn first : Bool) (stamp : Tb) (p h : Nat) (s : State), but 573573116 (sendRecord syn first stamp p h s) = but 573573116 s := fun syn first stamp p h s => but_le (by decide) (sendRecord_but syn first stamp p h s)
  have lit : ∀ (t : State) (y_spd : Option Nat), but 573573116 { t with spd := y_spd } = but 573573116 t := fun _ _ => rfl
  unfold gapFound; simp only [ite_but, lit, b_updWheel, b_beginPred, b_learnLost, b_changeSync, b_sendRecord, ite_self]
theorem searchPace_but (per : Nat) (s : State) : but 64 (searchPace per s) = but 64 s := by
  have lit : ∀ (t : State) (y_spd : Option Nat), but 64 { t with spd := y_spd } = but 64 t := fun _ _ => rfl
  unfold searchPace; simp only [ite_but, lit, ite_self]
theorem searchEdge_but (stamp : Tb) (fine : Bool) (s : State) : but 573573116 (searchEdge stamp fine s) = but 573573116 s := by
  have b_searchPace : ∀ (per : Nat) (s : State), but 573573116 (searchPace per s) = but 573573116 s := fun per s => but_le (by decide) (searchPace_but per s)
  have b_speedInput : ∀ (s : State), but 573573116 (speedInput s) = but 573573116 s := fun s => but_le (by decide) (speedInput_but s)
  have b_updWheel : ∀ (f : Wheel → Wheel) (s : State), but 573573116 (updWheel f s) = but 573573116 s := fun f s => but_le (by decide) (updWheel_but f s)
  have b_gapFound : ∀ (stamp : Tb) (per : Nat) (fine : Bool) (s : State), but 573573116 (gapFound stamp per fine s) = but 573573116 s := fun stamp per fine s => but_le (by decide) (gapFound_but stamp per fine s)
  unfold searchEdge; (repeat' split) <;> first | rfl | simp only [ite_but, b_searchPace, b_speedInput, b_updWheel, b_gapFound, ite_self]
theorem earlyEdge_but (p : Nat) (s : State) : but 573573020 (earlyEdge p s) = but 573573020 s := by
  have b_badTooth : ∀ (p : Nat) (s : State), but 573573020 (badTooth p s) = but 573573020 s := fun p s => but_le (by decide) (badTooth_but p s)
  have b_input : ∀ (code : Nat) (s : State), but 573573020 (input code s) = but 573573020 s := fun code s => but_le (by decide) (input_but code s)
  have b_inputBad : ∀ (s : State), but 573573020 (inputBad s) = but 573573020 s := fun s => but_le (by decide) (inputBad_but s)
  unfold earlyEdge; simp only [ite_but, b_badTooth, b_input, b_inputBad, ite_self]
theorem legacyCam_but (s : State) : but 573573020 (legacyCam s) = but 573573020 s := by
  have b_changeSync : ∀ (new : Sync) (cause : Nat) (s : State), but 573573020 (changeSync new cause s) = but 573573020 s := fun new cause s => but_le (by decide) (changeSync_but new cause s)
  have b_resolveHalf : ∀ (h : Nat) (s : State), but 573573020 (resolveHalf h s) = but 573573020 s := fun h s => but_le (by decide) (resolveHalf_but h s)
  have b_input : ∀ (code : Nat) (s : State), but 573573020 (input code s) = but 573573020 s := fun code s => but_le (by decide) (input_but code s)
  unfold legacyCam; simp only [ite_but, b_changeSync, b_resolveHalf, b_input, ite_self]
theorem gapTest_but (per : Nat) (s : State) : but 573573020 (gapTest per s) = but 573573020 s := by
  have b_inputGap : ∀ (s : State), but 573573020 (inputGap s) = but 573573020 s := fun s => but_le (by decide) (inputGap_but s)
  have b_input : ∀ (code : Nat) (s : State), but 573573020 (input code s) = but 573573020 s := fun code s => but_le (by decide) (input_but code s)
  have b_reverseInd : ∀ (s : State), but 573573020 (reverseInd s) = but 573573020 s := fun s => but_le (by decide) (reverseInd_but s)
  unfold gapTest; simp only [ite_but, b_inputGap, b_input, b_reverseInd, ite_self]
theorem acceptTooth_but (stamp : Tb) (per p : Nat) (s : State) : but 577767420 (acceptTooth stamp per p s) = but 577767420 s := by
  have b_updWheel : ∀ (f : Wheel → Wheel) (s : State), but 577767420 (updWheel f s) = but 577767420 s := fun f s => but_le (by decide) (updWheel_but f s)
  have b_speedInput : ∀ (s : State), but 577767420 (speedInput s) = but 577767420 s := fun s => but_le (by decide) (speedInput_but s)
  have b_gapTest : ∀ (per : Nat) (s : State), but 577767420 (gapTest per s) = but 577767420 s := fun per s => but_le (by decide) (gapTest_but per s)
  have b_inputTooth : ∀ (s : State), but 577767420 (inputTooth s) = but 577767420 s := fun s => but_le (by decide) (inputTooth_but s)
  have b_legacyCam : ∀ (s : State), but 577767420 (legacyCam s) = but 577767420 s := fun s => but_le (by decide) (legacyCam_but s)
  have b_acceptUpdate : ∀ (stamp : Tb) (per p : Nat) (s : State), but 577767420 (acceptUpdate stamp per p s) = but 577767420 s := fun stamp per p s => but_le (by decide) (acceptUpdate_but stamp per p s)
  unfold acceptTooth; simp only [ite_but, b_updWheel, b_speedInput, b_gapTest, b_inputTooth, b_legacyCam, b_acceptUpdate, ite_self]
theorem bareEdge_but (stamp : Tb) (s : State) : but 573573116 (bareEdge stamp s) = but 573573116 s := by
  have b_updWheel : ∀ (f : Wheel → Wheel) (s : State), but 573573116 (updWheel f s) = but 573573116 s := fun f s => but_le (by decide) (updWheel_but f s)
  have b_speedInput : ∀ (s : State), but 573573116 (speedInput s) = but 573573116 s := fun s => but_le (by decide) (speedInput_but s)
  have b_startPred : ∀ (stamp : Tb) (per p : Nat) (s : State), but 573573116 (startPred stamp per p s) = but 573573116 s := fun stamp per p s => but_le (by decide) (startPred_but stamp per p s)
  unfold bareEdge; dsimp only; (repeat' split) <;> first | rfl | simp only [b_updWheel, b_speedInput, b_startPred]
theorem trackEdge_but (stamp : Tb) (s : State) : but 577767420 (trackEdge stamp s) = but 577767420 s := by
  have b_bareEdge : ∀ (stamp : Tb) (s : State), but 577767420 (bareEdge stamp s) = but 577767420 s := fun stamp s => but_le (by decide) (bareEdge_but stamp s)
  have b_updWheel : ∀ (f : Wheel → Wheel) (s : State), but 577767420 (updWheel f s) = but 577767420 s := fun f s => but_le (by decide) (updWheel_but f s)
  have b_earlyEdge : ∀ (p : Nat) (s : State), but 577767420 (earlyEdge p s) = but 577767420 s := fun p s => but_le (by decide) (earlyEdge_but p s)
  have b_acceptTooth : ∀ (stamp : Tb) (per p : Nat) (s : State), but 577767420 (acceptTooth stamp per p s) = but 577767420 s := fun stamp per p s => but_le (by decide) (acceptTooth_but stamp per p s)
  unfold trackEdge; simp only [ite_but, b_bareEdge, b_updWheel, b_earlyEdge, b_acceptTooth, ite_self]
theorem reverseEdge_but (stamp : Tb) (s : State) : but 573573020 (reverseEdge stamp s) = but 573573020 s := by
  have b_updWheel : ∀ (f : Wheel → Wheel) (s : State), but 573573020 (updWheel f s) = but 573573020 s := fun f s => but_le (by decide) (updWheel_but f s)
  have b_speedInput : ∀ (s : State), but 573573020 (speedInput s) = but 573573020 s := fun s => but_le (by decide) (speedInput_but s)
  unfold reverseEdge; simp only [ite_but, b_updWheel, b_speedInput, ite_self]
theorem leaveReverse_but (stamp : Tb) (p : Nat) (s : State) : but 577767420 (leaveReverse stamp p s) = but 577767420 s := by
  have b_inputTooth : ∀ (s : State), but 577767420 (inputTooth s) = but 577767420 s := fun s => but_le (by decide) (inputTooth_but s)
  have b_updWheel : ∀ (f : Wheel → Wheel) (s : State), but 577767420 (updWheel f s) = but 577767420 s := fun f s => but_le (by decide) (updWheel_but f s)
  have b_openNow : ∀ (s : State), but 577767420 (openNow s) = but 577767420 s := fun s => but_le (by decide) (openNow_but s)
  have b_startPred : ∀ (stamp : Tb) (per p : Nat) (s : State), but 577767420 (startPred stamp per p s) = but 577767420 s := fun stamp per p s => but_le (by decide) (startPred_but stamp per p s)
  have b_acceptUpdate : ∀ (stamp : Tb) (per p : Nat) (s : State), but 577767420 (acceptUpdate stamp per p s) = but 577767420 s := fun stamp per p s => but_le (by decide) (acceptUpdate_but stamp per p s)
  unfold leaveReverse; simp only [ite_but, b_inputTooth, b_updWheel, b_openNow, b_startPred, b_acceptUpdate, ite_self]
theorem forwardCode_but (stamp : Tb) (s : State) : but 577767420 (forwardCode stamp s) = but 577767420 s := by
  have b_reverseTest : ∀ (g : Nat) (s : State), but 577767420 (reverseTest g s) = but 577767420 s := fun g s => but_le (by decide) (reverseTest_but g s)
  have b_leaveReverse : ∀ (stamp : Tb) (p : Nat) (s : State), but 577767420 (leaveReverse stamp p s) = but 577767420 s := fun stamp p s => but_le (by decide) (leaveReverse_but stamp p s)
  unfold forwardCode; simp only [ite_but, b_reverseTest, b_leaveReverse, ite_self]
theorem fastEdge_but (stamp : Tb) (s : State) : but 4 (fastEdge stamp s) = but 4 s := rfl
theorem judgeEdge_but (stamp : Tb) (fine : Bool) (s : State) : but 577767420 (judgeEdge stamp fine s) = but 577767420 s := by
  have b_searchEdge : ∀ (stamp : Tb) (fine : Bool) (s : State), but 577767420 (searchEdge stamp fine s) = but 577767420 s := fun stamp fine s => but_le (by decide) (searchEdge_but stamp fine s)
  have b_reverseEdge : ∀ (stamp : Tb) (s : State), but 577767420 (reverseEdge stamp s) = but 577767420 s := fun stamp s => but_le (by decide) (reverseEdge_but stamp s)
  have b_trackEdge : ∀ (stamp : Tb) (s : State), but 577767420 (trackEdge stamp s) = but 577767420 s := fun stamp s => but_le (by decide) (trackEdge_but stamp s)
  unfold judgeEdge; (repeat' split) <;> first | rfl | simp only [b_searchEdge, b_reverseEdge, b_trackEdge]
theorem unmeasuredEdge_but (pulse : Tb × Nat) (stamp : Tb) (fine : Bool) (s : State) : but 577767420 (unmeasuredEdge pulse stamp fine s) = but 577767420 s := by
  have b_fastEdge : ∀ (stamp : Tb) (s : State), but 577767420 (fastEdge stamp s) = but 577767420 s := fun stamp s => but_le (by decide) (fastEdge_but stamp s)
  have b_forwardCode : ∀ (stamp : Tb) (s : State), but 577767420 (forwardCode stamp s) = but 577767420 s := fun stamp s => but_le (by decide) (forwardCode_but stamp s)
  have b_speedInput : ∀ (s : State), but 577767420 (speedInput s) = but 577767420 s := fun s => but_le (by decide) (speedInput_but s)
  have b_judgeEdge : ∀ (stamp : Tb) (fine : Bool) (s : State), but 577767420 (judgeEdge stamp fine s) = but 577767420 s := fun stamp fine s => but_le (by decide) (judgeEdge_but stamp fine s)
  have b_reverseCode : ∀ (s : State), but 577767420 (reverseCode s) = but 577767420 s := fun s => but_le (by decide) (reverseCode_but s)
  have b_raise : ∀ (src ch : Nat) (det : Word) (s : State), but 577767420 (raise src ch det s) = but 577767420 s := fun src ch det s => but_le (by decide) (raise_but src ch det s)
  unfold unmeasuredEdge; simp only [ite_but, b_fastEdge, b_forwardCode, b_speedInput, b_judgeEdge, b_reverseCode, b_raise, ite_self]
theorem takePolicy_but (s : State) : but 33556228 (takePolicy s) = but 33556228 s := by
  have b_applyPermission : ∀ (s : State), but 33556228 (applyPermission s) = but 33556228 s := fun s => but_le (by decide) (applyPermission_but s)
  have b_updWheel : ∀ (f : Wheel → Wheel) (s : State), but 33556228 (updWheel f s) = but 33556228 s := fun f s => but_le (by decide) (updWheel_but f s)
  unfold takePolicy; (repeat' split) <;> simp [b_applyPermission, b_updWheel]
theorem noteEdge_but (stamp : Tb) (s : State) : but 33556228 (noteEdge stamp s) = but 33556228 s := by
  have b_updWheel : ∀ (f : Wheel → Wheel) (s : State), but 33556228 (updWheel f s) = but 33556228 s := fun f s => but_le (by decide) (updWheel_but f s)
  have b_takePolicy : ∀ (s : State), but 33556228 (takePolicy s) = but 33556228 s := fun s => but_le (by decide) (takePolicy_but s)
  unfold noteEdge; dsimp only; (repeat' split) <;> first | rfl | simp only [b_updWheel, b_takePolicy]
theorem toothEdge_but (stamp : Tb) (fine : Bool) (s : State) : but 577767420 (toothEdge stamp fine s) = but 577767420 s := by
  have b_noteEdge : ∀ (stamp : Tb) (s : State), but 577767420 (noteEdge stamp s) = but 577767420 s := fun stamp s => but_le (by decide) (noteEdge_but stamp s)
  have b_unmeasuredEdge : ∀ (pulse : Tb × Nat) (stamp : Tb) (fine : Bool) (s : State), but 577767420 (unmeasuredEdge pulse stamp fine s) = but 577767420 s := fun pulse stamp fine s => but_le (by decide) (unmeasuredEdge_but pulse stamp fine s)
  have b_judgeEdge : ∀ (stamp : Tb) (fine : Bool) (s : State), but 577767420 (judgeEdge stamp fine s) = but 577767420 s := fun stamp fine s => but_le (by decide) (judgeEdge_but stamp fine s)
  have b_updWheel : ∀ (f : Wheel → Wheel) (s : State), but 577767420 (updWheel f s) = but 577767420 s := fun f s => but_le (by decide) (updWheel_but f s)
  unfold toothEdge; dsimp only; (repeat' split) <;> first | rfl | simp only [b_noteEdge, b_unmeasuredEdge, b_judgeEdge, b_updWheel]
theorem opLate_but (s : State) : but 573573052 (opLate s) = but 573573052 s := by
  have b_badTooth : ∀ (p : Nat) (s : State), but 573573052 (badTooth p s) = but 573573052 s := fun p s => but_le (by decide) (badTooth_but p s)
  have b_input : ∀ (code : Nat) (s : State), but 573573052 (input code s) = but 573573052 s := fun code s => but_le (by decide) (input_but code s)
  have b_synthUpdate : ∀ (p : Nat) (s : State), but 573573052 (synthUpdate p s) = but 573573052 s := fun p s => but_le (by decide) (synthUpdate_but p s)
  have b_inputBad : ∀ (s : State), but 573573052 (inputBad s) = but 573573052 s := fun s => but_le (by decide) (inputBad_but s)
  unfold opLate; simp only [ite_but, b_badTooth, b_input, b_synthUpdate, b_inputBad, ite_self]
theorem camResolve_but (cam : Cam) (rise : Bool) (t : Tb) (s : State) : but 573573020 (camResolve cam rise t s) = but 573573020 s := by
  have b_updWheel : ∀ (f : Wheel → Wheel) (s : State), but 573573020 (updWheel f s) = but 573573020 s := fun f s => but_le (by decide) (updWheel_but f s)
  have b_changeSync : ∀ (new : Sync) (cause : Nat) (s : State), but 573573020 (changeSync new cause s) = but 573573020 s := fun new cause s => but_le (by decide) (changeSync_but new cause s)
  have b_resolveHalf : ∀ (h : Nat) (s : State), but 573573020 (resolveHalf h s) = but 573573020 s := fun h s => but_le (by decide) (resolveHalf_but h s)
  unfold camResolve; simp only [ite_but, b_updWheel, b_changeSync, b_resolveHalf, ite_self]
theorem camConsistent_but (cam : Cam) (rise : Bool) (t : Tb) (s : State) : but 573573020 (camConsistent cam rise t s) = but 573573020 s := by
  have b_updWheel : ∀ (f : Wheel → Wheel) (s : State), but 573573020 (updWheel f s) = but 573573020 s := fun f s => but_le (by decide) (updWheel_but f s)
  have b_input : ∀ (code : Nat) (s : State), but 573573020 (input code s) = but 573573020 s := fun code s => but_le (by decide) (input_but code s)
  have b_raise : ∀ (src ch : Nat) (det : Word) (s : State), but 573573020 (raise src ch det s) = but 573573020 s := fun src ch det s => but_le (by decide) (raise_but src ch det s)
  unfold camConsistent; simp only [ite_but, b_updWheel, b_input, b_raise, ite_self]
theorem limpAdvance_but (cam : Cam) (idx per : Nat) (t : Tb) (s : State) : but 116 (limpAdvance cam idx per t s) = but 116 s := rfl
theorem limpTry_but (cam : Cam) (s : State) : but 573573116 (limpTry cam s) = but 573573116 s := by
  have b_changeSync : ∀ (new : Sync) (cause : Nat) (s : State), but 573573116 (changeSync new cause s) = but 573573116 s := fun new cause s => but_le (by decide) (changeSync_but new cause s)
  have b_limpAdvance : ∀ (cam : Cam) (idx per : Nat) (t : Tb) (s : State), but 573573116 (limpAdvance cam idx per t s) = but 573573116 s := fun cam idx per t s => but_le (by decide) (limpAdvance_but cam idx per t s)
  unfold limpTry; dsimp only; (repeat' split) <;> first | rfl | simp only [b_changeSync, b_limpAdvance]
theorem limpSearch_but (cam : Cam) (rise : Bool) (t : Tb) (s : State) : but 573573116 (limpSearch cam rise t s) = but 573573116 s := by
  have b_limpTry : ∀ (cam : Cam) (s : State), but 573573116 (limpTry cam s) = but 573573116 s := fun cam s => but_le (by decide) (limpTry_but cam s)
  have b_updWheel : ∀ (f : Wheel → Wheel) (s : State), but 573573116 (updWheel f s) = but 573573116 s := fun f s => but_le (by decide) (updWheel_but f s)
  unfold limpSearch; simp only [b_limpTry, b_updWheel]
theorem opStall_but (s : State) : but 573573116 (opStall s) = but 573573116 s := by
  have b_input : ∀ (code : Nat) (s : State), but 573573116 (input code s) = but 573573116 s := fun code s => but_le (by decide) (input_but code s)
  have b_updWheel : ∀ (f : Wheel → Wheel) (s : State), but 573573116 (updWheel f s) = but 573573116 s := fun f s => but_le (by decide) (updWheel_but f s)
  have b_limpTry : ∀ (cam : Cam) (s : State), but 573573116 (limpTry cam s) = but 573573116 s := fun cam s => but_le (by decide) (limpTry_but cam s)
  unfold opStall; dsimp only; (repeat' split) <;> first | rfl | simp only [b_input, b_updWheel, b_limpTry]
theorem limpEdge_but (cam : Cam) (t : Tb) (s : State) : but 573573116 (limpEdge cam t s) = but 573573116 s := by
  have b_input : ∀ (code : Nat) (s : State), but 573573116 (input code s) = but 573573116 s := fun code s => but_le (by decide) (input_but code s)
  have b_raise : ∀ (src ch : Nat) (det : Word) (s : State), but 573573116 (raise src ch det s) = but 573573116 s := fun src ch det s => but_le (by decide) (raise_but src ch det s)
  have b_limpAdvance : ∀ (cam : Cam) (idx per : Nat) (t : Tb) (s : State), but 573573116 (limpAdvance cam idx per t s) = but 573573116 s := fun cam idx per t s => but_le (by decide) (limpAdvance_but cam idx per t s)
  unfold limpEdge; simp only [ite_but, b_input, b_raise, b_limpAdvance, ite_self]
theorem syncCamEdge_but (cam : Cam) (rise : Bool) (t : Tb) (fine : Bool) (s : State) : but 573573116 (syncCamEdge cam rise t fine s) = but 573573116 s := by
  have b_camResolve : ∀ (cam : Cam) (rise : Bool) (t : Tb) (s : State), but 573573116 (camResolve cam rise t s) = but 573573116 s := fun cam rise t s => but_le (by decide) (camResolve_but cam rise t s)
  have b_camConsistent : ∀ (cam : Cam) (rise : Bool) (t : Tb) (s : State), but 573573116 (camConsistent cam rise t s) = but 573573116 s := fun cam rise t s => but_le (by decide) (camConsistent_but cam rise t s)
  have b_limpSearch : ∀ (cam : Cam) (rise : Bool) (t : Tb) (s : State), but 573573116 (limpSearch cam rise t s) = but 573573116 s := fun cam rise t s => but_le (by decide) (limpSearch_but cam rise t s)
  have b_limpEdge : ∀ (cam : Cam) (t : Tb) (s : State), but 573573116 (limpEdge cam t s) = but 573573116 s := fun cam t s => but_le (by decide) (limpEdge_but cam t s)
  unfold syncCamEdge; (repeat' split) <;> first | rfl | simp only [b_camResolve, b_camConsistent, b_limpSearch, b_limpEdge]
theorem camEdge_but (c : Fin 4) (rise : Bool) (t : Tb) (fine : Bool) (s : State) : but 1647314940 (camEdge c rise t fine s) = but 1647314940 s := by
  have b_measureEdge : ∀ (c : Fin 4) (rise : Bool) (t : Tb) (s : State), but 1647314940 (measureEdge c rise t s) = but 1647314940 s := fun c rise t s => but_le (by decide) (measureEdge_but c rise t s)
  have b_syncCamEdge : ∀ (cam : Cam) (rise : Bool) (t : Tb) (fine : Bool) (s : State), but 1647314940 (syncCamEdge cam rise t fine s) = but 1647314940 s := fun cam rise t fine s => but_le (by decide) (syncCamEdge_but cam rise t fine s)
  unfold camEdge; simp only [ite_but, b_measureEdge, b_syncCamEdge, ite_self]
theorem opClose_but (i : Fin 16) (s : State) : but 573573020 (opClose i s) = but 573573020 s := by
  have b_updWheel : ∀ (f : Wheel → Wheel) (s : State), but 573573020 (updWheel f s) = but 573573020 s := fun f s => but_le (by decide) (updWheel_but f s)
  have b_input : ∀ (code : Nat) (s : State), but 573573020 (input code s) = but 573573020 s := fun code s => but_le (by decide) (input_but code s)
  have b_raise : ∀ (src ch : Nat) (det : Word) (s : State), but 573573020 (raise src ch det s) = but 573573020 s := fun src ch det s => but_le (by decide) (raise_but src ch det s)
  unfold opClose; simp only [ite_but, b_updWheel, b_input, b_raise, ite_self]
theorem clearSearch_but (s : State) : but 4 (clearSearch s) = but 4 s := rfl
theorem decoderReset_but (s : State) : but 573573020 (decoderReset s) = but 573573020 s := by
  have b_clearSearch : ∀ (s : State), but 573573020 (clearSearch s) = but 573573020 s := fun s => but_le (by decide) (clearSearch_but s)
  have b_input : ∀ (code : Nat) (s : State), but 573573020 (input code s) = but 573573020 s := fun code s => but_le (by decide) (input_but code s)
  unfold decoderReset; simp only [b_clearSearch, b_input]

/-! ### Wheel.lean -/

theorem crankPin_but (lvl : Bool) (stamp : Tb) (s : State) : but 134217728 ((crankPin lvl stamp s).2) = but 134217728 s := by
  have lit : ∀ (t : State) (y_pins : Pins), but 134217728 { t with pins := y_pins } = but 134217728 t := fun _ _ => rfl
  unfold crankPin; simp only [lit]
theorem crankLoop_but (lvl : Bool) (stamp : Tb) (s : State) : but 268435456 ((crankLoop lvl stamp s).2) = but 268435456 s := rfl
theorem crankIn_but (tooth : Bool) (stamp : Tb) (s : State) : but 402653184 ((crankIn tooth stamp s).2) = but 402653184 s := by
  have b_crankLoop : ∀ (lvl : Bool) (stamp : Tb) (s : State), but 402653184 ((crankLoop lvl stamp s).2) = but 402653184 s := fun lvl stamp s => but_le (by decide) (crankLoop_but lvl stamp s)
  have b_crankPin : ∀ (lvl : Bool) (stamp : Tb) (s : State), but 402653184 ((crankPin lvl stamp s).2) = but 402653184 s := fun lvl stamp s => but_le (by decide) (crankPin_but lvl stamp s)
  unfold crankIn; simp only [itep_but, b_crankLoop, b_crankPin, ite_self]
theorem countCoarse_but (s : State) : but 1 ((countCoarse s).2) = but 1 s := by
  have lit : ∀ (t : State) (y_sys : Sys), but 1 { t with sys := y_sys } = but 1 t := fun _ _ => rfl
  unfold countCoarse; simp only [itep_but, lit, ite_self]
theorem takeTooth_but (stamp : Tb) (s : State) : but 577767421 (takeTooth stamp s) = but 577767421 s := by
  have b_countCoarse : ∀ (s : State), but 577767421 ((countCoarse s).2) = but 577767421 s := fun s => but_le (by decide) (countCoarse_but s)
  have b_toothEdge : ∀ (stamp : Tb) (fine : Bool) (s : State), but 577767421 (toothEdge stamp fine s) = but 577767421 s := fun stamp fine s => but_le (by decide) (toothEdge_but stamp fine s)
  unfold takeTooth; simp only [b_countCoarse, b_toothEdge]
theorem opCode_but (stamp : Tb) (s : State) : but 577767420 (opCode stamp s) = but 577767420 s := by
  have b_updWheel : ∀ (f : Wheel → Wheel) (s : State), but 577767420 (updWheel f s) = but 577767420 s := fun f s => but_le (by decide) (updWheel_but f s)
  have b_reverseCode : ∀ (s : State), but 577767420 (reverseCode s) = but 577767420 s := fun s => but_le (by decide) (reverseCode_but s)
  have b_forwardCode : ∀ (stamp : Tb) (s : State), but 577767420 (forwardCode stamp s) = but 577767420 s := fun stamp s => but_le (by decide) (forwardCode_but stamp s)
  unfold opCode; (repeat' split) <;> first | rfl | simp only [ite_but, b_updWheel, b_reverseCode, b_forwardCode, ite_self]
theorem crankEdge_but (e : Bool × Tb) (s : State) : but 577767421 (crankEdge e s) = but 577767421 s := by
  have b_takeTooth : ∀ (stamp : Tb) (s : State), but 577767421 (takeTooth stamp s) = but 577767421 s := fun stamp s => but_le (by decide) (takeTooth_but stamp s)
  have b_opCode : ∀ (stamp : Tb) (s : State), but 577767421 (opCode stamp s) = but 577767421 s := fun stamp s => but_le (by decide) (opCode_but stamp s)
  unfold crankEdge; simp only [ite_but, b_takeTooth, b_opCode, ite_self]
theorem crankCaptured_but (stamp : Tb) (s : State) : but 711985149 (crankCaptured stamp s) = but 711985149 s := by
  have b_takeTooth : ∀ (stamp : Tb) (s : State), but 711985149 (takeTooth stamp s) = but 711985149 s := fun stamp s => but_le (by decide) (takeTooth_but stamp s)
  have lit : ∀ (t : State) (y_pins : Pins), but 711985149 { t with pins := y_pins } = but 711985149 t := fun _ _ => rfl
  unfold crankCaptured; simp only [ite_but, lit, b_takeTooth, ite_self]
theorem crankRow_but (tooth : Bool) (stamp : Tb) (s : State) : but 980420605 (crankRow tooth stamp s) = but 980420605 s := by
  have b_crankCaptured : ∀ (stamp : Tb) (s : State), but 980420605 (crankCaptured stamp s) = but 980420605 s := fun stamp s => but_le (by decide) (crankCaptured_but stamp s)
  have b_crankIn : ∀ (tooth : Bool) (stamp : Tb) (s : State), but 980420605 ((crankIn tooth stamp s).2) = but 980420605 s := fun tooth stamp s => but_le (by decide) (crankIn_but tooth stamp s)
  have b_crankEdge : ∀ (e : Bool × Tb) (s : State), but 980420605 (crankEdge e s) = but 980420605 s := fun e s => but_le (by decide) (crankEdge_but e s)
  unfold crankRow; simp only [ite_but, b_crankCaptured, b_crankIn, foldSt_but, b_crankEdge, ite_self, implies_true]
theorem camPin_but (c : Fin 4) (rise : Bool) (stamp : Tb) (s : State) : but 134217728 ((camPin c rise stamp s).2) = but 134217728 s := rfl
theorem camLoop_but (c : Nat) (rise : Bool) (stamp : Tb) (s : State) : but 268435456 ((camLoop c rise stamp s).2) = but 268435456 s := rfl
theorem camIn_but (c : Fin 4) (rise : Bool) (stamp : Tb) (s : State) : but 402653184 ((camIn c rise stamp s).2) = but 402653184 s := by
  have b_camLoop : ∀ (c : Nat) (rise : Bool) (stamp : Tb) (s : State), but 402653184 ((camLoop c rise stamp s).2) = but 402653184 s := fun c rise stamp s => but_le (by decide) (camLoop_but c rise stamp s)
  have b_camPin : ∀ (c : Fin 4) (rise : Bool) (stamp : Tb) (s : State), but 402653184 ((camPin c rise stamp s).2) = but 402653184 s := fun c rise stamp s => but_le (by decide) (camPin_but c rise stamp s)
  unfold camIn; simp only [itep_but, b_camLoop, b_camPin, ite_self]
theorem takeCam_but (c : Fin 4) (rise : Bool) (t : Tb) (s : State) : but 1647314941 (takeCam c rise t s) = but 1647314941 s := by
  have b_camEdge : ∀ (c : Fin 4) (rise : Bool) (t : Tb) (fine : Bool) (s : State), but 1647314941 (camEdge c rise t fine s) = but 1647314941 s := fun c rise t fine s => but_le (by decide) (camEdge_but c rise t fine s)
  have lit : ∀ (t : State) (y_sys : Sys), but 1647314941 { t with sys := y_sys } = but 1647314941 t := fun _ _ => rfl
  unfold takeCam; simp only [ite_but, lit, b_camEdge, ite_self]
theorem camCaptured_but (c : Fin 4) (rise : Bool) (stamp : Tb) (s : State) : but 1781532669 (camCaptured c rise stamp s) = but 1781532669 s := by
  have b_takeCam : ∀ (c : Fin 4) (rise : Bool) (t : Tb) (s : State), but 1781532669 (takeCam c rise t s) = but 1781532669 s := fun c rise t s => but_le (by decide) (takeCam_but c rise t s)
  have lit : ∀ (t : State) (y_pins : Pins), but 1781532669 { t with pins := y_pins } = but 1781532669 t := fun _ _ => rfl
  unfold camCaptured; simp only [ite_but, lit, b_takeCam, ite_self]
theorem camRow_but (c : Fin 4) (rise : Bool) (stamp : Tb) (s : State) : but 2049968125 (camRow c rise stamp s) = but 2049968125 s := by
  have b_camCaptured : ∀ (c : Fin 4) (rise : Bool) (stamp : Tb) (s : State), but 2049968125 (camCaptured c rise stamp s) = but 2049968125 s := fun c rise stamp s => but_le (by decide) (camCaptured_but c rise stamp s)
  have b_camIn : ∀ (c : Fin 4) (rise : Bool) (stamp : Tb) (s : State), but 2049968125 ((camIn c rise stamp s).2) = but 2049968125 s := fun c rise stamp s => but_le (by decide) (camIn_but c rise stamp s)
  have b_takeCam : ∀ (c : Fin 4) (rise : Bool) (t : Tb) (s : State), but 2049968125 (takeCam c rise t s) = but 2049968125 s := fun c rise t s => but_le (by decide) (takeCam_but c rise t s)
  unfold camRow; simp only [ite_but, b_camCaptured, b_camIn, foldSt_but, b_takeCam, ite_self, implies_true]
theorem wheelTable_but (c : WheelCfg) (s : State) : but 4194432 (wheelTable c s) = but 4194432 s := by
  have b_shadowGeom : ∀ (s : State), but 4194432 (shadowGeom s) = but 4194432 s := fun s => but_le (by decide) (shadowGeom_but s)
  have lit : ∀ (t : State) (y_geom : Geom), but 4194432 { t with geom := y_geom } = but 4194432 t := fun _ _ => rfl
  unfold wheelTable; simp only [ite_but, lit, b_shadowGeom, ite_self]
theorem applyWheel_but (a : Args) (s : State) : but 577767388 (applyWheel a s) = but 577767388 s := by
  have b_clearSearch : ∀ (s : State), but 577767388 (clearSearch s) = but 577767388 s := fun s => but_le (by decide) (clearSearch_but s)
  have b_input : ∀ (code : Nat) (s : State), but 577767388 (input code s) = but 577767388 s := fun code s => but_le (by decide) (input_but code s)
  have b_wheelTable : ∀ (c : WheelCfg) (s : State), but 577767388 (wheelTable c s) = but 577767388 s := fun c s => but_le (by decide) (wheelTable_but c s)
  have b_updMir : ∀ (f : Mirror → Mirror) (s : State), but 577767388 (updMir f s) = but 577767388 s := fun f s => but_le (by decide) (updMir_but f s)
  have lit : ∀ (t : State) (y_wheel : Wheel) (y_cams : Vector Cam 4) (y_spd : Option Nat), but 577767388 { t with wheel := y_wheel, cams := y_cams, spd := y_spd } = but 577767388 t := fun _ _ _ _ => rfl
  unfold applyWheel; simp only [ite_but, lit, b_clearSearch, b_input, b_wheelTable, b_updMir, ite_self]
theorem cmdWheelSet_but (a : Args) (s : State) : but 577767388 ((cmdWheelSet a s).st) = but 577767388 s := by
  have b_checkConfig : ∀ (s : State), but 577767388 (checkConfig s) = but 577767388 s := fun s => but_le (by decide) (checkConfig_but s)
  have b_sendConfig : ∀ (s : State), but 577767388 (sendConfig s) = but 577767388 s := fun s => but_le (by decide) (sendConfig_but s)
  have b_applyWheel : ∀ (a : Args) (s : State), but 577767388 (applyWheel a s) = but 577767388 s := fun a s => but_le (by decide) (applyWheel_but a s)
  unfold cmdWheelSet; simp only [checked_but, b_checkConfig, b_sendConfig, b_applyWheel]
theorem cmdCamEdge_but (a : Args) (s : State) : but 8 ((cmdCamEdge a s).st) = but 8 s := by
  have lit : ∀ (t : State) (y_cams : Vector Cam 4), but 8 { t with cams := y_cams } = but 8 t := fun _ _ => rfl
  unfold cmdCamEdge; simp only [lit, checked_but]
theorem applyCam_but (a : Args) (s : State) : but 573573020 (applyCam a s) = but 573573020 s := by
  have b_input : ∀ (code : Nat) (s : State), but 573573020 (input code s) = but 573573020 s := fun code s => but_le (by decide) (input_but code s)
  have b_updWheel : ∀ (f : Wheel → Wheel) (s : State), but 573573020 (updWheel f s) = but 573573020 s := fun f s => but_le (by decide) (updWheel_but f s)
  have lit : ∀ (t : State) (y_cams : Vector Cam 4), but 573573020 { t with cams := y_cams } = but 573573020 t := fun _ _ => rfl
  unfold applyCam; simp only [ite_but, lit, b_input, b_updWheel, ite_self]
theorem cmdCamHeader_but (a : Args) (s : State) : but 573573020 ((cmdCamHeader a s).st) = but 573573020 s := by
  have b_applyCam : ∀ (a : Args) (s : State), but 573573020 (applyCam a s) = but 573573020 s := fun a s => but_le (by decide) (applyCam_but a s)
  unfold cmdCamHeader; simp only [ite_but, checked_but, b_applyCam, ite_self]
theorem cmdCamSet_but (a : Args) (s : State) : but 573573020 ((cmdCamSet a s).st) = but 573573020 s := by
  have b_cmdCamHeader : ∀ (a : Args) (s : State), but 573573020 ((cmdCamHeader a s).st) = but 573573020 s := fun a s => but_le (by decide) (cmdCamHeader_but a s)
  have b_cmdCamEdge : ∀ (a : Args) (s : State), but 573573020 ((cmdCamEdge a s).st) = but 573573020 s := fun a s => but_le (by decide) (cmdCamEdge_but a s)
  unfold cmdCamSet; simp only [itec_but, b_cmdCamHeader, b_cmdCamEdge, ite_self]
theorem applyPolicy_but (a : Args) (s : State) : but 573573020 (applyPolicy a s) = but 573573020 s := by
  have b_updWheel : ∀ (f : Wheel → Wheel) (s : State), but 573573020 (updWheel f s) = but 573573020 s := fun f s => but_le (by decide) (updWheel_but f s)
  have b_input : ∀ (code : Nat) (s : State), but 573573020 (input code s) = but 573573020 s := fun code s => but_le (by decide) (input_but code s)
  unfold applyPolicy; simp only [ite_but, b_updWheel, b_input, ite_self]
theorem cmdSyncPolicy_but (a : Args) (s : State) : but 573573020 ((cmdSyncPolicy a s).st) = but 573573020 s := by
  have b_applyPolicy : ∀ (a : Args) (s : State), but 573573020 (applyPolicy a s) = but 573573020 s := fun a s => but_le (by decide) (applyPolicy_but a s)
  unfold cmdSyncPolicy; simp only [checked_but, b_applyPolicy]
theorem applyDir_but (a : Args) (s : State) : but 573573020 (applyDir a s) = but 573573020 s := by
  have b_updWheel : ∀ (f : Wheel → Wheel) (s : State), but 573573020 (updWheel f s) = but 573573020 s := fun f s => but_le (by decide) (updWheel_but f s)
  have b_input : ∀ (code : Nat) (s : State), but 573573020 (input code s) = but 573573020 s := fun code s => but_le (by decide) (input_but code s)
  unfold applyDir; simp only [b_updWheel, b_input]
theorem cmdDirSet_but (a : Args) (s : State) : but 573573020 ((cmdDirSet a s).st) = but 573573020 s := by
  have b_applyDir : ∀ (a : Args) (s : State), but 573573020 (applyDir a s) = but 573573020 s := fun a s => but_le (by decide) (applyDir_but a s)
  unfold cmdDirSet; simp only [checked_but, b_applyDir]
theorem applyLearn_but (a : Args) (s : State) : but 132 (applyLearn a s) = but 132 s := by
  have lit : ∀ (t : State) (y_wheel : Wheel) (y_geom : Geom), but 132 { t with wheel := y_wheel, geom := y_geom } = but 132 t := fun _ _ _ => rfl
  unfold applyLearn; simp only [lit]
theorem cmdLearnCtl_but (a : Args) (s : State) : but 132 ((cmdLearnCtl a s).st) = but 132 s := by
  have b_applyLearn : ∀ (a : Args) (s : State), but 132 (applyLearn a s) = but 132 s := fun a s => but_le (by decide) (applyLearn_but a s)
  unfold cmdLearnCtl; simp only [checked_but, b_applyLearn]

/-! ### Link.lean -/

theorem updLink_but (f : Link → Link) (s : State) : but 2097152 (updLink f s) = but 2097152 s := rfl
theorem leaveRing_but (s : State) : but 102760448 (leaveRing s) = but 102760448 s := by
  have b_updLink : ∀ (f : Link → Link) (s : State), but 102760448 (updLink f s) = but 102760448 s := fun f s => but_le (by decide) (updLink_but f s)
  have b_endIf : ∀ (code : Byte) (status q0 q1 : Nat) (s : State), but 102760448 (endIf code status q0 q1 s) = but 102760448 s := fun code status q0 q1 s => but_le (by decide) (endIf_but code status q0 q1 s)
  unfold leaveRing; simp only [ite_but, b_updLink, b_endIf, ite_self]
theorem sendNow_but (dst : Nat) (o : OutFrame) (s : State) : but 2097152 (sendNow dst o s) = but 2097152 s := rfl
theorem sendCommit_but (dst : Nat) (o : OutFrame) (s : State) : but 102760448 (sendCommit dst o s) = but 102760448 s := by
  have b_updLink : ∀ (f : Link → Link) (s : State), but 102760448 (updLink f s) = but 102760448 s := fun f s => but_le (by decide) (updLink_but f s)
  have b_endIf : ∀ (code : Byte) (status q0 q1 : Nat) (s : State), but 102760448 (endIf code status q0 q1 s) = but 102760448 s := fun code status q0 q1 s => but_le (by decide) (endIf_but code status q0 q1 s)
  have b_sendNow : ∀ (dst : Nat) (o : OutFrame) (s : State), but 102760448 (sendNow dst o s) = but 102760448 s := fun dst o s => but_le (by decide) (sendNow_but dst o s)
  unfold sendCommit; simp only [ite_but, b_updLink, b_endIf, b_sendNow, ite_self]
theorem sendWaiting_but (s : State) : but 102760448 (sendWaiting s) = but 102760448 s := by
  have b_sendCommit : ∀ (dst : Nat) (o : OutFrame) (s : State), but 102760448 (sendCommit dst o s) = but 102760448 s := fun dst o s => but_le (by decide) (sendCommit_but dst o s)
  unfold sendWaiting; (repeat' split) <;> first | rfl | simp only [b_sendCommit]
theorem restoreCredits_but (s : State) : but 102760448 (restoreCredits s) = but 102760448 s := by
  have b_sendWaiting : ∀ (s : State), but 102760448 (sendWaiting s) = but 102760448 s := fun s => but_le (by decide) (sendWaiting_but s)
  have b_updLink : ∀ (f : Link → Link) (s : State), but 102760448 (updLink f s) = but 102760448 s := fun f s => but_le (by decide) (updLink_but f s)
  unfold restoreCredits; simp only [b_sendWaiting, b_updLink]
theorem enumerate_but (s : State) : but 2097152 (enumerate s) = but 2097152 s := rfl
theorem enumerated_but (size delay : Nat) (s : State) : but 102760448 (enumerated size delay s) = but 102760448 s := by
  have b_updLink : ∀ (f : Link → Link) (s : State), but 102760448 (updLink f s) = but 102760448 s := fun f s => but_le (by decide) (updLink_but f s)
  have b_endIf : ∀ (code : Byte) (status q0 q1 : Nat) (s : State), but 102760448 (endIf code status q0 q1 s) = but 102760448 s := fun code status q0 q1 s => but_le (by decide) (endIf_but code status q0 q1 s)
  have b_sendConfig : ∀ (s : State), but 102760448 (sendConfig s) = but 102760448 s := fun s => but_le (by decide) (sendConfig_but s)
  have b_restoreCredits : ∀ (s : State), but 102760448 (restoreCredits s) = but 102760448 s := fun s => but_le (by decide) (restoreCredits_but s)
  unfold enumerated; simp only [b_updLink, b_endIf, b_sendConfig, b_restoreCredits]
theorem opLock_but (s : State) : but 2097154 (opLock s) = but 2097154 s := by
  have b_updClk : ∀ (f : Clk → Clk) (s : State), but 2097154 (updClk f s) = but 2097154 s := fun f s => but_le (by decide) (updClk_but f s)
  have b_updLink : ∀ (f : Link → Link) (s : State), but 2097154 (updLink f s) = but 2097154 s := fun f s => but_le (by decide) (updLink_but f s)
  have b_enumerate : ∀ (s : State), but 2097154 (enumerate s) = but 2097154 s := fun s => but_le (by decide) (enumerate_but s)
  unfold opLock; simp only [ite_but, b_updClk, b_updLink, b_enumerate, ite_self]
theorem opUnlock_but (s : State) : but 2097154 (opUnlock s) = but 2097154 s := by
  have b_updLink : ∀ (f : Link → Link) (s : State), but 2097154 (updLink f s) = but 2097154 s := fun f s => but_le (by decide) (updLink_but f s)
  have b_updClk : ∀ (f : Clk → Clk) (s : State), but 2097154 (updClk f s) = but 2097154 s := fun f s => but_le (by decide) (updClk_but f s)
  unfold opUnlock; simp only [ite_but, b_updLink, b_updClk, ite_self]
theorem opBreak_but (up : Bool) (s : State) : but 103810827 (opBreak up s) = but 103810827 s := by
  have b_raise : ∀ (src ch : Nat) (det : Word) (s : State), but 103810827 (raise src ch det s) = but 103810827 s := fun src ch det s => but_le (by decide) (raise_but src ch det s)
  have b_updLink : ∀ (f : Link → Link) (s : State), but 103810827 (updLink f s) = but 103810827 s := fun f s => but_le (by decide) (updLink_but f s)
  have b_mirrorDown : ∀ (why : Word) (s : State), but 103810827 (mirrorDown why s) = but 103810827 s := fun why s => but_le (by decide) (mirrorDown_but why s)
  have b_updMir : ∀ (f : Mirror → Mirror) (s : State), but 103810827 (updMir f s) = but 103810827 s := fun f s => but_le (by decide) (updMir_but f s)
  have b_rckLost : ∀ (s : State), but 103810827 (rckLost s) = but 103810827 s := fun s => but_le (by decide) (rckLost_but s)
  have b_leaveRing : ∀ (s : State), but 103810827 (leaveRing s) = but 103810827 s := fun s => but_le (by decide) (leaveRing_but s)
  unfold opBreak; simp only [ite_but, b_raise, b_updLink, b_mirrorDown, b_updMir, b_rckLost, b_leaveRing, ite_self]
theorem opForward_but (rx : RxSlot) (s : State) : but 2097152 (opForward rx s) = but 2097152 s := rfl
theorem inject_but (s : State) : but 2097152 (inject s) = but 2097152 s := by
  have b_updLink : ∀ (f : Link → Link) (s : State), but 2097152 (updLink f s) = but 2097152 s := fun f s => but_le (by decide) (updLink_but f s)
  unfold inject; (repeat' split) <;> first | rfl | simp only [ite_but, itep_but, itec_but, b_updLink, ite_self, implies_true]
theorem opTransmit_but (rx : RxSlot) (s : State) : but 2097152 (opTransmit rx s) = but 2097152 s := by
  have b_updLink : ∀ (f : Link → Link) (s : State), but 2097152 (updLink f s) = but 2097152 s := fun f s => but_le (by decide) (updLink_but f s)
  unfold opTransmit; dsimp only; (repeat' split) <;> first | rfl | simp only [ite_but, itep_but, itec_but, b_updLink, ite_self, implies_true]
theorem opFrameError_but (rx : RxSlot) (s : State) : but 3145728 (opFrameError rx s) = but 3145728 s := by
  have b_raise : ∀ (src ch : Nat) (det : Word) (s : State), but 3145728 (raise src ch det s) = but 3145728 s := fun src ch det s => but_le (by decide) (raise_but src ch det s)
  have b_updLink : ∀ (f : Link → Link) (s : State), but 3145728 (updLink f s) = but 3145728 s := fun f s => but_le (by decide) (updLink_but f s)
  unfold opFrameError; (repeat' split) <;> first | rfl | simp only [b_raise, b_updLink]
theorem masterState_but (x : Sync) (s : State) : but 35653384 (masterState x s) = but 35653384 s := by
  have b_updMir : ∀ (f : Mirror → Mirror) (s : State), but 35653384 (updMir f s) = but 35653384 s := fun f s => but_le (by decide) (updMir_but f s)
  have b_reportEff : ∀ (cause : Nat) (s : State), but 35653384 (reportEff cause s) = but 35653384 s := fun cause s => but_le (by decide) (reportEff_but cause s)
  have b_ringLost : ∀ (cause : Nat) (s : State), but 35653384 (ringLost cause s) = but 35653384 s := fun cause s => but_le (by decide) (ringLost_but cause s)
  have b_ringTaken : ∀ (cause : Nat) (s : State), but 35653384 (ringTaken cause s) = but 35653384 s := fun cause s => but_le (by decide) (ringTaken_but cause s)
  unfold masterState; simp only [ite_but, b_updMir, b_reportEff, b_ringLost, b_ringTaken, ite_self]
theorem mirrorUpdate_but (f g : Frame) (trx : Tb) (s : State) : but 2097216 (mirrorUpdate f g trx s) = but 2097216 s := rfl
theorem opRecord_but (f g : Frame) (trx : Tb) (s : State) : but 36702024 (opRecord f g trx s) = but 36702024 s := by
  have b_mirrorDown : ∀ (why : Word) (s : State), but 36702024 (mirrorDown why s) = but 36702024 s := fun why s => but_le (by decide) (mirrorDown_but why s)
  have b_updMir : ∀ (f : Mirror → Mirror) (s : State), but 36702024 (updMir f s) = but 36702024 s := fun f s => but_le (by decide) (updMir_but f s)
  have b_mirrorUpdate : ∀ (f g : Frame) (trx : Tb) (s : State), but 36702024 (mirrorUpdate f g trx s) = but 36702024 s := fun f g trx s => but_le (by decide) (mirrorUpdate_but f g trx s)
  have b_mirrorCheck : ∀ (s : State), but 36702024 (mirrorCheck s) = but 36702024 s := fun s => but_le (by decide) (mirrorCheck_but s)
  have b_masterState : ∀ (x : Sync) (s : State), but 36702024 (masterState x s) = but 36702024 s := fun x s => but_le (by decide) (masterState_but x s)
  unfold opRecord; simp only [ite_but, b_mirrorDown, b_updMir, b_mirrorUpdate, b_mirrorCheck, b_masterState, ite_self]
theorem opState2_but (f : Frame) (s : State) : but 36701960 (opState2 f s) = but 36701960 s := by
  have b_updMir : ∀ (f : Mirror → Mirror) (s : State), but 36701960 (updMir f s) = but 36701960 s := fun f s => but_le (by decide) (updMir_but f s)
  have b_setCyc : ∀ (c : Word) (s : State), but 36701960 (setCyc c s) = but 36701960 s := fun c s => but_le (by decide) (setCyc_but c s)
  have b_mirrorCheck : ∀ (s : State), but 36701960 (mirrorCheck s) = but 36701960 s := fun s => but_le (by decide) (mirrorCheck_but s)
  have b_masterState : ∀ (x : Sync) (s : State), but 36701960 (masterState x s) = but 36701960 s := fun x s => but_le (by decide) (masterState_but x s)
  unfold opState2; simp only [b_updMir, b_setCyc, b_mirrorCheck, b_masterState]
theorem mirrorSynth_but (s : State) : but 2097152 (mirrorSynth s) = but 2097152 s := rfl
theorem opMissing_but (s : State) : but 36701960 (opMissing s) = but 36701960 s := by
  have b_updMir : ∀ (f : Mirror → Mirror) (s : State), but 36701960 (updMir f s) = but 36701960 s := fun f s => but_le (by decide) (updMir_but f s)
  have b_mirrorDown : ∀ (why : Word) (s : State), but 36701960 (mirrorDown why s) = but 36701960 s := fun why s => but_le (by decide) (mirrorDown_but why s)
  have b_mirrorSynth : ∀ (s : State), but 36701960 (mirrorSynth s) = but 36701960 s := fun s => but_le (by decide) (mirrorSynth_but s)
  unfold opMissing; simp only [ite_but, b_updMir, b_mirrorDown, b_mirrorSynth, ite_self]
theorem mirrorTick_but (s : State) : but 35653384 (mirrorTick s) = but 35653384 s := by
  have b_updMir : ∀ (f : Mirror → Mirror) (s : State), but 35653384 (updMir f s) = but 35653384 s := fun f s => but_le (by decide) (updMir_but f s)
  have b_ringTaken : ∀ (cause : Nat) (s : State), but 35653384 (ringTaken cause s) = but 35653384 s := fun cause s => but_le (by decide) (ringTaken_but cause s)
  unfold mirrorTick; simp only [ite_but, b_updMir, b_ringTaken, ite_self]
theorem storeMsg_but (m : RxMsg) (s : State) : but 35651584 (storeMsg m s) = but 35651584 s := by
  have b_setInt : ∀ (b : Nat) (s : State), but 35651584 (setInt b s) = but 35651584 s := fun b s => but_le (by decide) (setInt_but b s)
  have b_updLink : ∀ (f : Link → Link) (s : State), but 35651584 (updLink f s) = but 35651584 s := fun f s => but_le (by decide) (updLink_but f s)
  unfold storeMsg; simp only [ite_but, b_setInt, b_updLink, ite_self]
theorem opCredit_but (src n : Nat) (s : State) : but 102760448 (opCredit src n s) = but 102760448 s := by
  have b_sendWaiting : ∀ (s : State), but 102760448 (sendWaiting s) = but 102760448 s := fun s => but_le (by decide) (sendWaiting_but s)
  have b_updLink : ∀ (f : Link → Link) (s : State), but 102760448 (updLink f s) = but 102760448 s := fun f s => but_le (by decide) (updLink_but f s)
  unfold opCredit; simp only [b_sendWaiting, b_updLink]
theorem joinAtFollower_but (p : BitVec 32) (s : State) : but 1177550848 (joinAtFollower p s) = but 1177550848 s := by
  have b_raise : ∀ (src ch : Nat) (det : Word) (s : State), but 1177550848 (raise src ch det s) = but 1177550848 s := fun src ch det s => but_le (by decide) (raise_but src ch det s)
  have b_restoreCredits : ∀ (s : State), but 1177550848 (restoreCredits s) = but 1177550848 s := fun s => but_le (by decide) (restoreCredits_but s)
  have b_updLink : ∀ (f : Link → Link) (s : State), but 1177550848 (updLink f s) = but 1177550848 s := fun f s => but_le (by decide) (updLink_but f s)
  have lit : ∀ (t : State) (y_free : Nat), but 1177550848 { t with free := y_free } = but 1177550848 t := fun _ _ => rfl
  unfold joinAtFollower; simp only [ite_but, lit, b_raise, b_restoreCredits, b_updLink, ite_self]
theorem joinAtMaster_but (p : BitVec 32) (delay : Nat) (s : State) : but 103809024 (joinAtMaster p delay s) = but 103809024 s := by
  have b_enumerated : ∀ (size delay : Nat) (s : State), but 103809024 (enumerated size delay s) = but 103809024 s := fun size delay s => but_le (by decide) (enumerated_but size delay s)
  have b_raise : ∀ (src ch : Nat) (det : Word) (s : State), but 103809024 (raise src ch det s) = but 103809024 s := fun src ch det s => but_le (by decide) (raise_but src ch det s)
  unfold joinAtMaster; simp only [ite_but, b_enumerated, b_raise, ite_self]
theorem linkOff_but (s : State) : but 103810824 (linkOff s) = but 103810824 s := by
  have b_mirrorDown : ∀ (why : Word) (s : State), but 103810824 (mirrorDown why s) = but 103810824 s := fun why s => but_le (by decide) (mirrorDown_but why s)
  have b_leaveRing : ∀ (s : State), but 103810824 (leaveRing s) = but 103810824 s := fun s => but_le (by decide) (leaveRing_but s)
  have b_updLink : ∀ (f : Link → Link) (s : State), but 103810824 (updLink f s) = but 103810824 s := fun f s => but_le (by decide) (updLink_but f s)
  have b_enumerated : ∀ (size delay : Nat) (s : State), but 103810824 (enumerated size delay s) = but 103810824 s := fun size delay s => but_le (by decide) (enumerated_but size delay s)
  have b_reportEff : ∀ (cause : Nat) (s : State), but 103810824 (reportEff cause s) = but 103810824 s := fun cause s => but_le (by decide) (reportEff_but cause s)
  unfold linkOff; simp only [ite_but, b_mirrorDown, b_leaveRing, b_updLink, b_reportEff, ite_self]
theorem roleEnds_but (s : State) : but 103810827 (roleEnds s) = but 103810827 s := by
  have b_rckLost : ∀ (s : State), but 103810827 (rckLost s) = but 103810827 s := fun s => but_le (by decide) (rckLost_but s)
  have b_updClk : ∀ (f : Clk → Clk) (s : State), but 103810827 (updClk f s) = but 103810827 s := fun f s => but_le (by decide) (updClk_but f s)
  have b_linkOff : ∀ (s : State), but 103810827 (linkOff s) = but 103810827 s := fun s => but_le (by decide) (linkOff_but s)
  unfold roleEnds; simp only [b_rckLost, b_updClk, b_linkOff]
theorem takeRole_but (st : LState) (a : Args) (s : State) : but 2097152 (takeRole st a s) = but 2097152 s := rfl
theorem cmdLinkRole_but (a : Args) (s : State) : but 103810827 ((cmdLinkRole a s).st) = but 103810827 s := by
  have b_badArg : ∀ (s : State), but 103810827 ((badArg s).st) = but 103810827 s := fun s => but_le (by decide) (badArg_but s)
  have b_roleEnds : ∀ (s : State), but 103810827 (roleEnds s) = but 103810827 s := fun s => but_le (by decide) (roleEnds_but s)
  have b_takeRole : ∀ (st : LState) (a : Args) (s : State), but 103810827 (takeRole st a s) = but 103810827 s := fun st a s => but_le (by decide) (takeRole_but st a s)
  unfold cmdLinkRole; (repeat' split) <;> first | rfl | simp only [b_roleEnds]
theorem cmdLinkJoin_but (_a : Args) (s : State) : but 102760448 ((cmdLinkJoin _a s).st) = but 102760448 s := by
  have b_enumerate : ∀ (s : State), but 102760448 (enumerate s) = but 102760448 s := fun s => but_le (by decide) (enumerate_but s)
  have b_leaveRing : ∀ (s : State), but 102760448 (leaveRing s) = but 102760448 s := fun s => but_le (by decide) (leaveRing_but s)
  have b_updLink : ∀ (f : Link → Link) (s : State), but 102760448 (updLink f s) = but 102760448 s := fun f s => but_le (by decide) (updLink_but f s)
  unfold cmdLinkJoin; (repeat' split) <;> first | rfl | simp only [b_leaveRing, b_updLink]
theorem cmdSend_but (rank : Nat) (f : Frame) (dst : Nat) (nowait : Bool) (s : State) : but 2097152 ((cmdSend rank f dst nowait s).st) = but 2097152 s := by
  have b_checkFail : ∀ (k : Nat) (s : State), but 2097152 ((checkFail k s).st) = but 2097152 s := fun k s => but_le (by decide) (checkFail_but k s)
  have b_sendNow : ∀ (dst : Nat) (o : OutFrame) (s : State), but 2097152 (sendNow dst o s) = but 2097152 s := fun dst o s => but_le (by decide) (sendNow_but dst o s)
  have b_updLink : ∀ (f : Link → Link) (s : State), but 2097152 (updLink f s) = but 2097152 s := fun f s => but_le (by decide) (updLink_but f s)
  unfold cmdSend; simp only [itec_but, b_checkFail, b_sendNow, b_updLink, ite_self]
theorem cmdRecv_but (s : State) : but 2097152 ((cmdRecv s).st) = but 2097152 s := by
  have b_updLink : ∀ (f : Link → Link) (s : State), but 2097152 (updLink f s) = but 2097152 s := fun f s => but_le (by decide) (updLink_but f s)
  have b_queueOut : ∀ (rank : Nat) (f : Frame) (stamp : Option Tb) (s : State), but 2097152 (queueOut rank f stamp s) = but 2097152 s := fun rank f stamp s => but_le (by decide) (queueOut_but rank f stamp s)
  unfold cmdRecv; (repeat' split) <;> first | rfl | simp only [ite_but, b_updLink, b_queueOut, ite_self]
theorem cmdLinkSend_but (a : Args) (s : State) : but 2097152 ((cmdLinkSend a s).st) = but 2097152 s := by
  have b_badArg : ∀ (s : State), but 2097152 ((badArg s).st) = but 2097152 s := fun s => but_le (by decide) (badArg_but s)
  have b_cmdSend : ∀ (rank : Nat) (f : Frame) (dst : Nat) (nowait : Bool) (s : State), but 2097152 ((cmdSend rank f dst nowait s).st) = but 2097152 s := fun rank f dst nowait s => but_le (by decide) (cmdSend_but rank f dst nowait s)
  have b_cmdRecv : ∀ (s : State), but 2097152 ((cmdRecv s).st) = but 2097152 s := fun s => but_le (by decide) (cmdRecv_but s)
  unfold cmdLinkSend; (repeat' split) <;> first | rfl | simp only [b_cmdSend, b_cmdRecv]

/-! ### Clocks.lean -/

theorem fclkRestart_but (s : State) : but 786435 (fclkRestart s) = but 786435 s := rfl
theorem opFcoJudged_but (s : State) : but 786435 (opFcoJudged s) = but 786435 s := by
  have b_updClk : ∀ (f : Clk → Clk) (s : State), but 786435 (updClk f s) = but 786435 s := fun f s => but_le (by decide) (updClk_but f s)
  have b_fclkRestart : ∀ (s : State), but 786435 (fclkRestart s) = but 786435 s := fun s => but_le (by decide) (fclkRestart_but s)
  unfold opFcoJudged; simp only [ite_but, b_updClk, b_fclkRestart, ite_self]
theorem opHoldoverEnd_but (s : State) : but 2 (opHoldoverEnd s) = but 2 s := rfl
theorem opFll_but (count : Nat) (s : State) : but 1048578 (opFll count s) = but 1048578 s := by
  have b_updClk : ∀ (f : Clk → Clk) (s : State), but 1048578 (updClk f s) = but 1048578 s := fun f s => but_le (by decide) (updClk_but f s)
  have b_raise : ∀ (src ch : Nat) (det : Word) (s : State), but 1048578 (raise src ch det s) = but 1048578 s := fun src ch det s => but_le (by decide) (raise_but src ch det s)
  unfold opFll; simp only [ite_but, b_updClk, b_raise, ite_self]
theorem opStopDetect_but (s : State) : but 1048579 (opStopDetect s) = but 1048579 s := by
  have b_updSys : ∀ (f : Sys → Sys) (s : State), but 1048579 (updSys f s) = but 1048579 s := fun f s => but_le (by decide) (updSys_but f s)
  have b_updClk : ∀ (f : Clk → Clk) (s : State), but 1048579 (updClk f s) = but 1048579 s := fun f s => but_le (by decide) (updClk_but f s)
  have b_fcoLost : ∀ (s : State), but 1048579 (fcoLost s) = but 1048579 s := fun s => but_le (by decide) (fcoLost_but s)
  unfold opStopDetect; simp only [ite_but, b_updSys, b_updClk, b_fcoLost, ite_self]
theorem startEscape_but (held : Bool) (stopLrc : Nat) (s : State) : but 1048579 (startEscape held stopLrc s) = but 1048579 s := by
  have b_raiseC : ∀ (src ch : Nat) (det : Word) (carried : Bool) (s : State), but 1048579 (raiseC src ch det carried s) = but 1048579 s := fun src ch det carried s => but_le (by decide) (raiseC_but src ch det carried s)
  have b_updClk : ∀ (f : Clk → Clk) (s : State), but 1048579 (updClk f s) = but 1048579 s := fun f s => but_le (by decide) (updClk_but f s)
  have b_enterHeld : ∀ (s : State), but 1048579 (enterHeld s) = but 1048579 s := fun s => but_le (by decide) (enterHeld_but s)
  unfold startEscape; dsimp only; (repeat' split) <;> first | rfl | simp only [b_raiseC, b_updClk, b_enterHeld]
theorem drainFaults_but (n : Nat) (s : State) : but 326246145 (drainFaults n s) = but 326246145 s := by
  induction n generalizing s with
  | zero => rfl
  | succ n ih => rw [drainFaults, ih]; exact but_le (by decide) (opFaultApply_but s)
theorem fastReset_but (s : State) : but 788496286 (fastReset s) = but 788496286 s := by
  have b_deviceCancel : ∀ (reason : Nat) (pendingToo : Bool) (s : State), but 788496286 (deviceCancel reason pendingToo s) = but 788496286 s := fun reason pendingToo s => but_le (by decide) (deviceCancel_but reason pendingToo s)
  have b_bulkRec : ∀ (reason n armed : Nat) (s : State), but 788496286 (bulkRec reason n armed s) = but 788496286 s := fun reason n armed s => but_le (by decide) (bulkRec_but reason n armed s)
  have b_decoderReset : ∀ (s : State), but 788496286 (decoderReset s) = but 788496286 s := fun s => but_le (by decide) (decoderReset_but s)
  have b_timFastReset : ∀ (s : State), but 788496286 (timFastReset s) = but 788496286 s := fun s => but_le (by decide) (timFastReset_but s)
  have b_thermFastReset : ∀ (s : State), but 788496286 (thermFastReset s) = but 788496286 s := fun s => but_le (by decide) (thermFastReset_but s)
  have b_cpsFastReset : ∀ (s : State), but 788496286 (cpsFastReset s) = but 788496286 s := fun s => but_le (by decide) (cpsFastReset_but s)
  have b_outputsDown : ∀ (s : State), but 788496286 (outputsDown s) = but 788496286 s := fun s => but_le (by decide) (outputsDown_but s)
  have b_updClk : ∀ (f : Clk → Clk) (s : State), but 788496286 (updClk f s) = but 788496286 s := fun f s => but_le (by decide) (updClk_but f s)
  have b_cutCore : ∀ (s : State), but 788496286 (cutCore s) = but 788496286 s := fun s => but_le (by decide) (cutCore_but s)
  have lit : ∀ (t : State) (y_sched : Sched) (y_rpt : Rpt) (y_chan : Vector Chan 12) (y_lines : Vector Line 8) (y_cdat : Line), but 788496286 { t with sched := y_sched, rpt := y_rpt, chan := y_chan, lines := y_lines, cdat := y_cdat } = but 788496286 t := fun _ _ _ _ _ _ => rfl
  unfold fastReset; simp only [lit, b_bulkRec, b_decoderReset, b_timFastReset, b_thermFastReset, b_cpsFastReset, b_outputsDown, b_updClk, b_cutCore]
theorem endEscape_but (dA : Nat) (err : Fin 3) (s : State) : but 1073708959 (endEscape dA err s) = but 1073708959 s := by
  have b_updClk : ∀ (f : Clk → Clk) (s : State), but 1073708959 (updClk f s) = but 1073708959 s := fun f s => but_le (by decide) (updClk_but f s)
  have b_takeSource : ∀ (rck : Bool) (s : State), but 1073708959 (takeSource rck s) = but 1073708959 s := fun rck s => but_le (by decide) (takeSource_but rck s)
  have b_fastReset : ∀ (s : State), but 1073708959 (fastReset s) = but 1073708959 s := fun s => but_le (by decide) (fastReset_but s)
  have b_drainFaults : ∀ (n : Nat) (s : State), but 1073708959 (drainFaults n s) = but 1073708959 s := fun n s => but_le (by decide) (drainFaults_but n s)
  unfold endEscape; simp only [b_updClk, b_takeSource, b_fastReset, b_drainFaults]
theorem opDrift_but (count : Nat) (s : State) : but 1048578 (opDrift count s) = but 1048578 s := by
  have b_raise : ∀ (src ch : Nat) (det : Word) (s : State), but 1048578 (raise src ch det s) = but 1048578 s := fun src ch det s => but_le (by decide) (raise_but src ch det s)
  have b_updClk : ∀ (f : Clk → Clk) (s : State), but 1048578 (updClk f s) = but 1048578 s := fun f s => but_le (by decide) (updClk_but f s)
  unfold opDrift; simp only [ite_but, b_raise, b_updClk, ite_self]
theorem writeClkctl_but (w : Word) (s : State) : but 2 (writeClkctl w s) = but 2 s := by
  have b_updClk : ∀ (f : Clk → Clk) (s : State), but 2 (updClk f s) = but 2 s := fun f s => but_le (by decide) (updClk_but f s)
  unfold writeClkctl; simp only [ite_but, b_updClk, ite_self]
theorem clkctlDo_but (w : Word) (s : State) : but 34603010 (clkctlDo w s) = but 34603010 s := by
  have b_writeClkctl : ∀ (w : Word) (s : State), but 34603010 (writeClkctl w s) = but 34603010 s := fun w s => but_le (by decide) (writeClkctl_but w s)
  unfold clkctlDo; (repeat' split) <;> simp [clkRow_but, b_writeClkctl]
theorem readClkstat_but (s : State) : but 2 ((readClkstat s).2) = but 2 s := by
  have b_updClk : ∀ (f : Clk → Clk) (s : State), but 2 (updClk f s) = but 2 s := fun f s => but_le (by decide) (updClk_but f s)
  unfold readClkstat; simp only [ite_but, b_updClk, ite_self]
theorem gateOff_but (b : Fin 7) (s : State) : but 2 (gateOff b s) = but 2 s := rfl
theorem writeGateen_but (w : Word) (s : State) : but 2 (writeGateen w s) = but 2 s := by
  have b_updClk : ∀ (f : Clk → Clk) (s : State), but 2 (updClk f s) = but 2 s := fun f s => but_le (by decide) (updClk_but f s)
  have b_gateOff : ∀ (b : Fin 7) (s : State), but 2 (gateOff b s) = but 2 s := fun b s => but_le (by decide) (gateOff_but b s)
  unfold writeGateen; simp only [b_updClk, foldSt_but, b_gateOff, implies_true]
theorem writeFmctl_but (w : Word) (s : State) : but 2 (writeFmctl w s) = but 2 s := rfl
theorem opFmDone_but (count : Nat) (s : State) : but 2 (opFmDone count s) = but 2 s := rfl

/-! ### Security.lean -/

theorem updSec_but (f : Sec → Sec) (s : State) : but 8388608 (updSec f s) = but 8388608 s := rfl
theorem updDbg_but (f : Dbg → Dbg) (s : State) : but 16777216 (updDbg f s) = but 16777216 s := rfl
theorem advanceEnds_but (s : State) : but 25165824 (advanceEnds s) = but 25165824 s := rfl
theorem deriveLc_but (s : State) : but 8388608 (deriveLc s) = but 8388608 s := rfl
theorem sealed_but (s : State) : but 127926272 (sealed s) = but 127926272 s := by
  have b_endIf : ∀ (code : Byte) (status q0 q1 : Nat) (s : State), but 127926272 (endIf code status q0 q1 s) = but 127926272 s := fun code status q0 q1 s => but_le (by decide) (endIf_but code status q0 q1 s)
  have b_advanceEnds : ∀ (s : State), but 127926272 (advanceEnds s) = but 127926272 s := fun s => but_le (by decide) (advanceEnds_but s)
  have b_deriveLc : ∀ (s : State), but 127926272 (deriveLc s) = but 127926272 s := fun s => but_le (by decide) (deriveLc_but s)
  have b_updSec : ∀ (f : Sec → Sec) (s : State), but 127926272 (updSec f s) = but 127926272 s := fun f s => but_le (by decide) (updSec_but f s)
  unfold sealed; simp only [b_endIf, b_advanceEnds, b_deriveLc, b_updSec]
theorem opKeyWrite_but (s : State) : but 127926272 (opKeyWrite s) = but 127926272 s := by
  have b_endIf : ∀ (code : Byte) (status q0 q1 : Nat) (s : State), but 127926272 (endIf code status q0 q1 s) = but 127926272 s := fun code status q0 q1 s => but_le (by decide) (endIf_but code status q0 q1 s)
  have b_deriveLc : ∀ (s : State), but 127926272 (deriveLc s) = but 127926272 s := fun s => but_le (by decide) (deriveLc_but s)
  have b_updSec : ∀ (f : Sec → Sec) (s : State), but 127926272 (updSec f s) = but 127926272 s := fun f s => but_le (by decide) (updSec_but f s)
  have b_advanceEnds : ∀ (s : State), but 127926272 (advanceEnds s) = but 127926272 s := fun s => but_le (by decide) (advanceEnds_but s)
  have b_sealed : ∀ (s : State), but 127926272 (sealed s) = but 127926272 s := fun s => but_le (by decide) (sealed_but s)
  unfold opKeyWrite; (repeat' split) <;> simp [b_endIf, b_deriveLc, b_updSec, b_advanceEnds, b_sealed]
theorem advanceKey_but (a : Args) (s : State) : but 8388608 ((advanceKey a s).st) = but 8388608 s := by
  have b_updSec : ∀ (f : Sec → Sec) (s : State), but 8388608 (updSec f s) = but 8388608 s := fun f s => but_le (by decide) (updSec_but f s)
  unfold advanceKey; simp only [checked_but, b_updSec]
theorem advanceStep_but (a : Args) (s : State) : but 8388608 ((advanceStep a s).st) = but 8388608 s := by
  have b_updSec : ∀ (f : Sec → Sec) (s : State), but 8388608 (updSec f s) = but 8388608 s := fun f s => but_le (by decide) (updSec_but f s)
  unfold advanceStep; simp only [checked_but, b_updSec]
theorem cmdAdvance_but (a : Args) (s : State) : but 127926272 ((cmdAdvance a s).st) = but 127926272 s := by
  have b_opKeyWrite : ∀ (s : State), but 127926272 (opKeyWrite s) = but 127926272 s := fun s => but_le (by decide) (opKeyWrite_but s)
  have b_advanceStep : ∀ (a : Args) (s : State), but 127926272 ((advanceStep a s).st) = but 127926272 s := fun a s => but_le (by decide) (advanceStep_but a s)
  have b_advanceKey : ∀ (a : Args) (s : State), but 127926272 ((advanceKey a s).st) = but 127926272 s := fun a s => but_le (by decide) (advanceKey_but a s)
  unfold cmdAdvance; dsimp only; (repeat' split) <;> first | rfl | simp only [b_opKeyWrite, b_advanceStep, b_advanceKey]
theorem writeProt_but (p : Path) (off : Nat) (w : Word) (s : State) : but 9437184 (writeProt p off w s) = but 9437184 s := by
  have b_updSec : ∀ (f : Sec → Sec) (s : State), but 9437184 (updSec f s) = but 9437184 s := fun f s => but_le (by decide) (updSec_but f s)
  have b_deny : ∀ (p : Path) (kind id : Nat) (s : State), but 9437184 (deny p kind id s) = but 9437184 s := fun p kind id s => but_le (by decide) (deny_but p kind id s)
  unfold writeProt; simp only [ite_but, b_updSec, b_deny, ite_self]
theorem drawChallenge_but (s : State) : but 1082130432 (drawChallenge s) = but 1082130432 s := rfl
theorem cmdChallenge_but (a : Args) (s : State) : but 1082130432 ((cmdChallenge a s).st) = but 1082130432 s := by
  have b_drawChallenge : ∀ (s : State), but 1082130432 (drawChallenge s) = but 1082130432 s := fun s => but_le (by decide) (drawChallenge_but s)
  unfold cmdChallenge; dsimp only; (repeat' split) <;> first | rfl | simp only [checked_but, b_drawChallenge]
theorem startCheck_but (answer : BitVec 128) (dbg cmd : Bool) (s : State) : but 8388608 (startCheck answer dbg cmd s) = but 8388608 s := by
  have b_updSec : ∀ (f : Sec → Sec) (s : State), but 8388608 (updSec f s) = but 8388608 s := fun f s => but_le (by decide) (updSec_but f s)
  unfold startCheck; (repeat' split) <;> first | rfl | simp only [ite_but, itep_but, itec_but, b_updSec, ite_self, implies_true]
theorem cmdAnswer_but (a : Args) (s : State) : but 8388608 ((cmdAnswer a s).st) = but 8388608 s := by
  have b_updSec : ∀ (f : Sec → Sec) (s : State), but 8388608 (updSec f s) = but 8388608 s := fun f s => but_le (by decide) (updSec_but f s)
  have b_startCheck : ∀ (answer : BitVec 128) (dbg cmd : Bool) (s : State), but 8388608 (startCheck answer dbg cmd s) = but 8388608 s := fun answer dbg cmd s => but_le (by decide) (startCheck_but answer dbg cmd s)
  unfold cmdAnswer; (repeat' split) <;> first | rfl | simp only [b_startCheck]
theorem opCheckEnd_but (s : State) : but 112197632 (opCheckEnd s) = but 112197632 s := by
  have b_updSec : ∀ (f : Sec → Sec) (s : State), but 112197632 (updSec f s) = but 112197632 s := fun f s => but_le (by decide) (updSec_but f s)
  have b_raise : ∀ (src ch : Nat) (det : Word) (s : State), but 112197632 (raise src ch det s) = but 112197632 s := fun src ch det s => but_le (by decide) (raise_but src ch det s)
  have b_endIf : ∀ (code : Byte) (status q0 q1 : Nat) (s : State), but 112197632 (endIf code status q0 q1 s) = but 112197632 s := fun code status q0 q1 s => but_le (by decide) (endIf_but code status q0 q1 s)
  unfold opCheckEnd; (repeat' split) <;> first | rfl | simp only [ite_but, b_updSec, b_raise, b_endIf, ite_self]

/-! ### Resume.lean -/

theorem applySections_but (r : Reader) (s : State) : but 1310848 (applySections r s) = but 1310848 s := by
  have lit : ∀ (t : State) (y_geom : Geom) (y_therm : Therm) (y_flt : Flt), but 1310848 { t with geom := y_geom, therm := y_therm, flt := y_flt } = but 1310848 t := fun _ _ _ _ => rfl
  unfold applySections; simp only [lit]
theorem applyResume_but (r : Reader) (s : State) : but 465036 (applyResume r s) = but 465036 s := rfl

/-! ### TripDiag.lean -/

theorem tripInTest_but (s : State) : but 34668544 (tripInTest s) = but 34668544 s := by
  have b_verdict : ∀ (n : Fin 8) (on : Bool) (need v : Nat) (s : State), but 34668544 (verdict n on need v s) = but 34668544 s := fun n on need v s => but_le (by decide) (verdict_but n on need v s)
  have lit : ∀ (t : State) (y_diag : Diag), but 34668544 { t with diag := y_diag } = but 34668544 t := fun _ _ => rfl
  unfold tripInTest; (repeat' split) <;> first | rfl | simp only [lit, foldSt_but, b_verdict, implies_true]
theorem tripPin_but (lvl : Bool) (s : State) : but 134348800 (tripPin lvl s) = but 134348800 s := rfl
theorem tickInputs_but (s : State) : but 134348800 (tickInputs s) = but 134348800 s := rfl
theorem opTripAssert_but (s : State) : but 169023488 (opTripAssert s) = but 169023488 s := by
  have b_tripPin : ∀ (lvl : Bool) (s : State), but 169023488 (tripPin lvl s) = but 169023488 s := fun lvl s => but_le (by decide) (tripPin_but lvl s)
  have b_tripInTest : ∀ (s : State), but 169023488 (tripInTest s) = but 169023488 s := fun s => but_le (by decide) (tripInTest_but s)
  have b_raise : ∀ (src ch : Nat) (det : Word) (s : State), but 169023488 (raise src ch det s) = but 169023488 s := fun src ch det s => but_le (by decide) (raise_but src ch det s)
  have b_latchGroups : ∀ (src : Nat) (gs : List (Fin 4)) (s : State), but 169023488 (latchGroups src gs s) = but 169023488 s := fun src gs s => but_le (by decide) (latchGroups_but src gs s)
  have lit : ∀ (t : State) (y_trip : Trip), but 169023488 { t with trip := y_trip } = but 169023488 t := fun _ _ => rfl
  unfold opTripAssert; simp only [ite_but, lit, b_tripPin, b_tripInTest, b_raise, b_latchGroups, ite_self]
theorem opDeferralEnd_but (g : Fin 4) (s : State) : but 168957952 (opDeferralEnd g s) = but 168957952 s := by
  have b_latchGroups : ∀ (src : Nat) (gs : List (Fin 4)) (s : State), but 168957952 (latchGroups src gs s) = but 168957952 s := fun src gs s => but_le (by decide) (latchGroups_but src gs s)
  have lit : ∀ (t : State) (y_trip : Trip), but 168957952 { t with trip := y_trip } = but 168957952 t := fun _ _ => rfl
  unfold opDeferralEnd; simp only [ite_but, lit, b_latchGroups, ite_self]
theorem oeTrip_but (s : State) : but 168957952 (oeTrip s) = but 168957952 s := by
  have b_latchGroups : ∀ (src : Nat) (gs : List (Fin 4)) (s : State), but 168957952 (latchGroups src gs s) = but 168957952 s := fun src gs s => but_le (by decide) (latchGroups_but src gs s)
  unfold oeTrip; simp only [ite_but, b_latchGroups, ite_self]
theorem cmdTripClear_but (a : Args) (s : State) : but 137216 ((cmdTripClear a s).st) = but 137216 s := by
  have b_badArg : ∀ (s : State), but 137216 ((badArg s).st) = but 137216 s := fun s => but_le (by decide) (badArg_but s)
  have b_release : ∀ (n : Fin 12) (s : State), but 137216 (release n s) = but 137216 s := fun n s => but_le (by decide) (release_but n s)
  have lit : ∀ (t : State) (y_trip : Trip), but 137216 { t with trip := y_trip } = but 137216 t := fun _ _ => rfl
  unfold cmdTripClear; simp only [itec_but, lit, b_badArg, foldSt_but, b_release, ite_self, implies_true]
theorem diagChan_but (a : Args) (s : State) : but 65536 ((diagChan a s).st) = but 65536 s := by
  have b_updDiag : ∀ (n : Fin 8) (f : DiagCh → DiagCh) (s : State), but 65536 (updDiag n f s) = but 65536 s := fun n f s => but_le (by decide) (updDiag_but n f s)
  unfold diagChan; simp only [checked_but, b_updDiag]
theorem diagTrip_but (a : Args) (s : State) : but 131072 ((diagTrip a s).st) = but 131072 s := by
  have lit : ∀ (t : State) (y_trip : Trip), but 131072 { t with trip := y_trip } = but 131072 t := fun _ _ => rfl
  unfold diagTrip; simp only [lit, checked_but]
theorem dropPulse_but (s : State) : but 2048 (dropPulse s) = but 2048 s := by
  have b_setDrv : ∀ (n : Fin 12) (lvl : Bool) (s : State), but 2048 (setDrv n lvl s) = but 2048 s := fun n lvl s => but_le (by decide) (setDrv_but n lvl s)
  unfold dropPulse; (repeat' split) <;> first | rfl | simp only [b_setDrv]
theorem diagTest_but (a : Args) (s : State) : but 67584 ((diagTest a s).st) = but 67584 s := by
  have b_badArg : ∀ (s : State), but 67584 ((badArg s).st) = but 67584 s := fun s => but_le (by decide) (badArg_but s)
  have b_dropPulse : ∀ (s : State), but 67584 (dropPulse s) = but 67584 s := fun s => but_le (by decide) (dropPulse_but s)
  have lit : ∀ (t : State) (y_diag : Diag), but 67584 { t with diag := y_diag } = but 67584 t := fun _ _ => rfl
  unfold diagTest; simp only [itec_but, lit, b_badArg, b_dropPulse, ite_self]
theorem cmdDiagRun_but (a : Args) (s : State) : but 198656 ((cmdDiagRun a s).st) = but 198656 s := by
  have b_diagChan : ∀ (a : Args) (s : State), but 198656 ((diagChan a s).st) = but 198656 s := fun a s => but_le (by decide) (diagChan_but a s)
  have b_diagTrip : ∀ (a : Args) (s : State), but 198656 ((diagTrip a s).st) = but 198656 s := fun a s => but_le (by decide) (diagTrip_but a s)
  have b_diagTest : ∀ (a : Args) (s : State), but 198656 ((diagTest a s).st) = but 198656 s := fun a s => but_le (by decide) (diagTest_but a s)
  have b_badArg : ∀ (s : State), but 198656 ((badArg s).st) = but 198656 s := fun s => but_le (by decide) (badArg_but s)
  unfold cmdDiagRun; (repeat' split) <;> first | rfl | simp only [b_diagChan, b_diagTrip, b_diagTest]
theorem testStart_but (before s : State) : but 102825984 (testStart before s) = but 102825984 s := by
  have b_testFrom : ∀ (k n : Nat) (s : State), but 102825984 (testFrom k n s) = but 102825984 s := fun k n s => but_le (by decide) (testFrom_but k n s)
  unfold testStart; simp only [ite_but, b_testFrom, ite_self]
theorem opTestPulse_but (t : DTest) (s : State) : but 67584 (opTestPulse t s) = but 67584 s := by
  have b_setDrv : ∀ (n : Fin 12) (lvl : Bool) (s : State), but 67584 (setDrv n lvl s) = but 67584 s := fun n lvl s => but_le (by decide) (setDrv_but n lvl s)
  have lit : ∀ (t : State) (y_diag : Diag), but 67584 { t with diag := y_diag } = but 67584 t := fun _ _ => rfl
  unfold opTestPulse; simp only [ite_but, lit, b_setDrv, ite_self]

/-! ### Power.lean -/

theorem settleKey_but (s : State) : but 1082130432 (settleKey s) = but 1082130432 s := by
  have b_updSec : ∀ (f : Sec → Sec) (s : State), but 1082130432 (updSec f s) = but 1082130432 s := fun f s => but_le (by decide) (updSec_but f s)
  have lit : ∀ (t : State) (y_free : Nat), but 1082130432 { t with free := y_free } = but 1082130432 t := fun _ _ => rfl
  unfold settleKey; (repeat' split) <;> first | rfl | simp only [ite_but, lit, b_updSec, ite_self]
theorem oeOnOp_but (s : State) : but 168957953 (oeOnOp s) = but 168957953 s := by
  have b_oeTrip : ∀ (s : State), but 168957953 (oeTrip s) = but 168957953 s := fun s => but_le (by decide) (oeTrip_but s)
  have b_updSys : ∀ (f : Sys → Sys) (s : State), but 168957953 (updSys f s) = but 168957953 s := fun f s => but_le (by decide) (updSys_but f s)
  unfold oeOnOp; simp only [ite_but, b_oeTrip, b_updSys, ite_self]
theorem oeOffOp_but (s : State) : but 134421505 (oeOffOp s) = but 134421505 s := by
  have b_windowsCheck : ∀ (s : State), but 134421505 (windowsCheck s) = but 134421505 s := fun s => but_le (by decide) (windowsCheck_but s)
  have b_outputsDown : ∀ (s : State), but 134421505 (outputsDown s) = but 134421505 s := fun s => but_le (by decide) (outputsDown_but s)
  have b_updSys : ∀ (f : Sys → Sys) (s : State), but 134421505 (updSys f s) = but 134421505 s := fun f s => but_le (by decide) (updSys_but f s)
  unfold oeOffOp; simp only [ite_but, b_windowsCheck, b_outputsDown, b_updSys, ite_self]
theorem opB0End_but (ref : RefEdge) (s : State) : but 3 (opB0End ref s) = but 3 s := rfl
theorem opBanksRead_but (s : State) : but 4194305 (opBanksRead s) = but 4194305 s := rfl
theorem applyRecord_but (s : State) : but 13893760 (applyRecord s) = but 13893760 s := by
  have b_deriveLc : ∀ (s : State), but 13893760 (deriveLc s) = but 13893760 s := fun s => but_le (by decide) (deriveLc_but s)
  have b_updSec : ∀ (f : Sec → Sec) (s : State), but 13893760 (updSec f s) = but 13893760 s := fun f s => but_le (by decide) (updSec_but f s)
  have b_applySections : ∀ (r : Reader) (s : State), but 13893760 (applySections r s) = but 13893760 s := fun r s => but_le (by decide) (applySections_but r s)
  have lit : ∀ (t : State) (y_store : Store), but 13893760 { t with store := y_store } = but 13893760 t := fun _ _ => rfl
  unfold applyRecord; simp only [ite_but, lit, b_deriveLc, b_updSec, b_applySections, ite_self]
theorem applyBankEvent_but (s : State) : but 5242880 (applyBankEvent s) = but 5242880 s := by
  have b_raise : ∀ (src ch : Nat) (det : Word) (s : State), but 5242880 (raise src ch det s) = but 5242880 s := fun src ch det s => but_le (by decide) (raise_but src ch det s)
  have lit : ∀ (t : State) (y_store : Store), but 5242880 { t with store := y_store } = but 5242880 t := fun _ _ => rfl
  unfold applyBankEvent; (repeat' split) <;> first | rfl | simp only [lit, b_raise]
theorem wakeInts_but (woke : Bool) (s : State) : but 33554432 (wakeInts woke s) = but 33554432 s := by
  have b_setInt : ∀ (b : Nat) (s : State), but 33554432 (setInt b s) = but 33554432 s := fun b s => but_le (by decide) (setInt_but b s)
  have lit : ∀ (t : State) (y_bus : Bus), but 33554432 { t with bus := y_bus } = but 33554432 t := fun _ _ => rfl
  unfold wakeInts; simp only [ite_but, lit, b_setInt, ite_self]
theorem opRecordApplied_but (s : State) : but 133634189 (opRecordApplied s) = but 133634189 s := by
  have ha : but 133634189 (applyRecord s) = but 133634189 s := but_le (by decide) (applyRecord_but s)
  have he : ∀ (s : State), but 133634189 (applyBankEvent s) = but 133634189 s := fun s => but_le (by decide) (applyBankEvent_but s)
  have hw : ∀ (b : Bool) (s : State), but 133634189 (wakeInts b s) = but 133634189 s := fun b s => but_le (by decide) (wakeInts_but b s)
  have hc : ∀ (f : Sec → Sec) (s : State), but 133634189 (updSec f s) = but 133634189 s := fun f s => but_le (by decide) (updSec_but f s)
  have hp : ∀ (r : Reader) (s : State), but 133634189 (applyResume r s) = but 133634189 s := fun r s => but_le (by decide) (applyResume_but r s)
  have hy : ∀ (f : Sys → Sys) (s : State), but 133634189 (updSys f s) = but 133634189 s := fun f s => but_le (by decide) (updSys_but f s)
  have hs : ∀ (a : Nat) (b : List Byte) (s : State), but 133634189 (shadowPut a b s) = but 133634189 s := fun a b s => but_le (by decide) (shadowPut_but a b s)
  have hd : ∀ (s : State), but 133634189 (dieCheck s) = but 133634189 s := fun s => but_le (by decide) (dieCheck_but s)
  unfold opRecordApplied
  extract_lets resume woke r t u
  have hu : but 133634189 t = but 133634189 s := (hw _ _).trans ((he _).trans ha)
  split
  · simp only [u, hd, hy, hs, hc, hp, hu]
  · simp only [hd, hy, hu]
theorem cmdBootDone_but (_a : Args) (s : State) : but 12582913 ((cmdBootDone _a s).st) = but 12582913 s := by
  have b_updSys : ∀ (f : Sys → Sys) (s : State), but 12582913 (updSys f s) = but 12582913 s := fun f s => but_le (by decide) (updSys_but f s)
  have b_updSec : ∀ (f : Sec → Sec) (s : State), but 12582913 (updSec f s) = but 12582913 s := fun f s => but_le (by decide) (updSec_but f s)
  have b_shadowPut : ∀ (addr : Nat) (bs : List Byte) (s : State), but 12582913 (shadowPut addr bs s) = but 12582913 s := fun addr bs s => but_le (by decide) (shadowPut_but addr bs s)
  unfold cmdBootDone; simp only [ite_but, b_updSys, b_updSec, checked_but, b_shadowPut, ite_self]
theorem cmdIdent_but (a : Args) (s : State) : but 0 ((cmdIdent a s).st) = but 0 s := by
  unfold cmdIdent; simp only [checked_but]
theorem requestEnds_but (s : State) : but 128976650 (requestEnds s) = but 128976650 s := by
  have b_updDbg : ∀ (f : Dbg → Dbg) (s : State), but 128976650 (updDbg f s) = but 128976650 s := fun f s => but_le (by decide) (updDbg_but f s)
  have b_updSec : ∀ (f : Sec → Sec) (s : State), but 128976650 (updSec f s) = but 128976650 s := fun f s => but_le (by decide) (updSec_but f s)
  have b_linkOff : ∀ (s : State), but 128976650 (linkOff s) = but 128976650 s := fun s => but_le (by decide) (linkOff_but s)
  have b_updClk : ∀ (f : Clk → Clk) (s : State), but 128976650 (updClk f s) = but 128976650 s := fun f s => but_le (by decide) (updClk_but f s)
  unfold requestEnds; simp only [b_updDbg, b_updSec, b_linkOff, b_updClk]
theorem enterStop_but (s : State) : but 129238795 (enterStop s) = but 129238795 s := by
  have b_thermFastReset : ∀ (s : State), but 129238795 (thermFastReset s) = but 129238795 s := fun s => but_le (by decide) (thermFastReset_but s)
  have b_requestEnds : ∀ (s : State), but 129238795 (requestEnds s) = but 129238795 s := fun s => but_le (by decide) (requestEnds_but s)
  have b_updClk : ∀ (f : Clk → Clk) (s : State), but 129238795 (updClk f s) = but 129238795 s := fun f s => but_le (by decide) (updClk_but f s)
  have b_updSys : ∀ (f : Sys → Sys) (s : State), but 129238795 (updSys f s) = but 129238795 s := fun f s => but_le (by decide) (updSys_but f s)
  have lit : ∀ (t : State) (y_bus : Bus), but 129238795 { t with bus := y_bus } = but 129238795 t := fun _ _ => rfl
  unfold enterStop; simp only [lit, b_thermFastReset, b_requestEnds, b_updClk, b_updSys]
theorem startStandby_but (s : State) : but 267591435 (startStandby s) = but 267591435 s := by
  have b_updClk : ∀ (f : Clk → Clk) (s : State), but 267591435 (updClk f s) = but 267591435 s := fun f s => but_le (by decide) (updClk_but f s)
  have b_requestEnds : ∀ (s : State), but 267591435 (requestEnds s) = but 267591435 s := fun s => but_le (by decide) (requestEnds_but s)
  have b_windowsCheck : ∀ (s : State), but 267591435 (windowsCheck s) = but 267591435 s := fun s => but_le (by decide) (windowsCheck_but s)
  have b_outputsDown : ∀ (s : State), but 267591435 (outputsDown s) = but 267591435 s := fun s => but_le (by decide) (outputsDown_but s)
  have b_updSys : ∀ (f : Sys → Sys) (s : State), but 267591435 (updSys f s) = but 267591435 s := fun f s => but_le (by decide) (updSys_but f s)
  have b_requestCommit : ∀ (c : CommitCause) (s : State), but 267591435 (requestCommit c s) = but 267591435 s := fun c s => but_le (by decide) (requestCommit_but c s)
  have b_shadowPut : ∀ (addr : Nat) (bs : List Byte) (s : State), but 267591435 (shadowPut addr bs s) = but 267591435 s := fun addr bs s => but_le (by decide) (shadowPut_but addr bs s)
  unfold startStandby; simp only [b_updClk, b_requestEnds, b_windowsCheck, b_outputsDown, b_updSys, b_requestCommit, b_shadowPut]
theorem writePwrctl_but (w : Word) (s : State) : but 267853579 (writePwrctl w s) = but 267853579 s := by
  have hy : ∀ (f : Sys → Sys) (s : State), but 267853579 (updSys f s) = but 267853579 s := fun f s => but_le (by decide) (updSys_but f s)
  have h1 : ∀ (s : State), but 267853579 (enterStop s) = but 267853579 s := fun s => but_le (by decide) (enterStop_but s)
  have h2 : ∀ (s : State), but 267853579 (startStandby s) = but 267853579 s := fun s => but_le (by decide) (startStandby_but s)
  unfold writePwrctl
  extract_lets u req
  have hu : but 267853579 u = but 267853579 s := hy _ s
  split
  · split
    · split
      · rw [h1, hu]
      · rw [h2, hu]
    · rw [hy, hu]
  · exact hu
theorem pwrctlDo_but (w : Word) (s : State) : but 267853579 (pwrctlDo w s) = but 267853579 s := by
  unfold pwrctlDo
  split
  · exact clkRow_but 267853579 _ s (by decide) fun t => writePwrctl_but w t
  · rfl
theorem keepAnchor_but (M : Nat) (err : Fin 3) (f : State → State) (s : State) (hM : 2 ||| M = M) (hf : ∀ t, but M (f t) = but M t) : but M (keepAnchor err f s) = but M s := by
  have b_updClk : ∀ (f : Clk → Clk) (s : State), but M (updClk f s) = but M s := fun f s => but_le2 (by decide) hM (updClk_but f s)
  unfold keepAnchor; simp only [ite_but, b_updClk, hf, ite_self]
theorem feedEdge_but (e : CapEdge) (s : State) : but 1651509245 (feedEdge e s) = but 1651509245 s := by
  have b_takeTooth : ∀ (stamp : Tb) (s : State), but 1651509245 (takeTooth stamp s) = but 1651509245 s := fun stamp s => but_le (by decide) (takeTooth_but stamp s)
  have b_camEdge : ∀ (c : Fin 4) (rise : Bool) (t : Tb) (fine : Bool) (s : State), but 1651509245 (camEdge c rise t fine s) = but 1651509245 s := fun c rise t fine s => but_le (by decide) (camEdge_but c rise t fine s)
  unfold feedEdge; (repeat' split) <;> first | rfl | simp only [b_takeTooth, b_camEdge]
theorem wakeStop_but (code : Nat) (dbg : Bool) (ref : RefEdge) (s : State) : but 1668810751 (wakeStop code dbg ref s) = but 1668810751 s := by
  have b_updClk : ∀ (f : Clk → Clk) (s : State), but 1668810751 (updClk f s) = but 1668810751 s := fun f s => but_le (by decide) (updClk_but f s)
  have b_updSys : ∀ (f : Sys → Sys) (s : State), but 1668810751 (updSys f s) = but 1668810751 s := fun f s => but_le (by decide) (updSys_but f s)
  have b_updDbg : ∀ (f : Dbg → Dbg) (s : State), but 1668810751 (updDbg f s) = but 1668810751 s := fun f s => but_le (by decide) (updDbg_but f s)
  have b_setInt : ∀ (b : Nat) (s : State), but 1668810751 (setInt b s) = but 1668810751 s := fun b s => but_le (by decide) (setInt_but b s)
  have b_decoderReset : ∀ (s : State), but 1668810751 (decoderReset s) = but 1668810751 s := fun s => but_le (by decide) (decoderReset_but s)
  have b_timFastReset : ∀ (s : State), but 1668810751 (timFastReset s) = but 1668810751 s := fun s => but_le (by decide) (timFastReset_but s)
  have b_feedEdge : ∀ (e : CapEdge) (s : State), but 1668810751 (feedEdge e s) = but 1668810751 s := fun e s => but_le (by decide) (feedEdge_but e s)
  unfold wakeStop; simp only [b_updClk, b_updSys, b_updDbg, b_setInt, b_decoderReset, b_timFastReset, foldSt_but, b_feedEdge, implies_true]
theorem wakeStandby_but (code : Nat) (dbg : Bool) (s : State) : but 16777219 (wakeStandby code dbg s) = but 16777219 s := rfl
theorem standbyWake_but (code : Nat) (dbg : Bool) (s : State) : but 16777219 (standbyWake code dbg s) = but 16777219 s := by
  have b_wakeStandby : ∀ (code : Nat) (dbg : Bool) (s : State), but 16777219 (wakeStandby code dbg s) = but 16777219 s := fun code dbg s => but_le (by decide) (wakeStandby_but code dbg s)
  have b_latchWake : ∀ (code : Nat) (s : State), but 16777219 (latchWake code s) = but 16777219 s := fun code s => but_le (by decide) (latchWake_but code s)
  have b_updSys : ∀ (f : Sys → Sys) (s : State), but 16777219 (updSys f s) = but 16777219 s := fun f s => but_le (by decide) (updSys_but f s)
  unfold standbyWake; simp only [ite_but, b_wakeStandby, b_latchWake, b_updSys, ite_self]
theorem stopWake_but (code : Nat) (dbg : Bool) (ref : RefEdge) (s : State) : but 1668810751 (stopWake code dbg ref s) = but 1668810751 s := by
  have b_wakeStop : ∀ (code : Nat) (dbg : Bool) (ref : RefEdge) (s : State), but 1668810751 (wakeStop code dbg ref s) = but 1668810751 s := fun code dbg ref s => but_le (by decide) (wakeStop_but code dbg ref s)
  unfold stopWake; (repeat' split) <;> simp [clkRow_but, b_wakeStop]
theorem standbyAbandoned_but (s : State) : but 16777217 (standbyAbandoned s) = but 16777217 s := rfl
theorem edgePin_but (src : EdgeSrc) (rise : Bool) (s : State) : but 134217728 (edgePin src rise s) = but 134217728 s := by
  have lit : ∀ (t : State) (y_pins : Pins), but 134217728 { t with pins := y_pins } = but 134217728 t := fun _ _ => rfl
  unfold edgePin; (repeat' split) <;> first | rfl | simp only [ite_but, itep_but, itec_but, lit, ite_self, implies_true]
theorem edgeWakes_but (src : EdgeSrc) (rise : Bool) (s : State) : but 1 (edgeWakes src rise s) = but 1 s := by
  have b_askWake : ∀ (code : Nat) (s : State), but 1 (askWake code s) = but 1 s := fun code s => but_le (by decide) (askWake_but code s)
  unfold edgeWakes; (repeat' split) <;> first | rfl | simp only [ite_but, itep_but, itec_but, b_askWake, ite_self, implies_true]
theorem opCapture_but (src : EdgeSrc) (rise : Bool) (dA : Nat) (err : Fin 3) (s : State) : but 1651509245 (opCapture src rise dA err s) = but 1651509245 s := by
  have b_updSys : ∀ (f : Sys → Sys) (s : State), but 1651509245 (updSys f s) = but 1651509245 s := fun f s => but_le (by decide) (updSys_but f s)
  have b_feedEdge : ∀ (e : CapEdge) (s : State), but 1651509245 (feedEdge e s) = but 1651509245 s := fun e s => but_le (by decide) (feedEdge_but e s)
  unfold opCapture; simp only [ite_but, b_updSys, b_feedEdge, ite_self]
theorem wakeNow_but (code : Nat) (s : State) : but 1668810751 (wakeNow code s) = but 1668810751 s := by
  have b_standbyWake : ∀ (code : Nat) (dbg : Bool) (s : State), but 1668810751 (standbyWake code dbg s) = but 1668810751 s := fun code dbg s => but_le (by decide) (standbyWake_but code dbg s)
  have b_stopWake : ∀ (code : Nat) (dbg : Bool) (ref : RefEdge) (s : State), but 1668810751 (stopWake code dbg ref s) = but 1668810751 s := fun code dbg ref s => but_le (by decide) (stopWake_but code dbg ref s)
  unfold wakeNow; simp only [ite_but, b_standbyWake, b_stopWake, ite_self]
theorem askedWake_but (s : State) : but 1668810751 (askedWake s) = but 1668810751 s := by
  have b_stopWake : ∀ (code : Nat) (dbg : Bool) (ref : RefEdge) (s : State), but 1668810751 (stopWake code dbg ref s) = but 1668810751 s := fun code dbg ref s => but_le (by decide) (stopWake_but code dbg ref s)
  have b_wakeNow : ∀ (code : Nat) (s : State), but 1668810751 (wakeNow code s) = but 1668810751 s := fun code s => but_le (by decide) (wakeNow_but code s)
  unfold askedWake; (repeat' split) <;> first | rfl | simp only [b_stopWake, b_wakeNow]
theorem opAocLoss_but (s : State) : but 1668810751 (opAocLoss s) = but 1668810751 s := by
  have b_aocFalls : ∀ (s : State), but 1668810751 (aocFalls s) = but 1668810751 s := fun s => but_le (by decide) (aocFalls_but s)
  have b_wakeNow : ∀ (code : Nat) (s : State), but 1668810751 (wakeNow code s) = but 1668810751 s := fun code s => but_le (by decide) (wakeNow_but code s)
  have b_raise : ∀ (src ch : Nat) (det : Word) (s : State), but 1668810751 (raise src ch det s) = but 1668810751 s := fun src ch det s => but_le (by decide) (raise_but src ch det s)
  unfold opAocLoss; simp only [ite_but, b_aocFalls, b_wakeNow, b_raise, ite_self]
theorem opGross_but (count : Nat) (s : State) : but 1668810751 (opGross count s) = but 1668810751 s := by
  have b_raise : ∀ (src ch : Nat) (det : Word) (s : State), but 1668810751 (raise src ch det s) = but 1668810751 s := fun src ch det s => but_le (by decide) (raise_but src ch det s)
  have b_aocFalls : ∀ (s : State), but 1668810751 (aocFalls s) = but 1668810751 s := fun s => but_le (by decide) (aocFalls_but s)
  have b_wakeNow : ∀ (code : Nat) (s : State), but 1668810751 (wakeNow code s) = but 1668810751 s := fun code s => but_le (by decide) (wakeNow_but code s)
  unfold opGross; simp only [ite_but, b_raise, b_aocFalls, b_wakeNow, ite_self]
theorem opPfail_but (s : State) : but 1668810751 (opPfail s) = but 1668810751 s := by
  have b_updSys : ∀ (f : Sys → Sys) (s : State), but 1668810751 (updSys f s) = but 1668810751 s := fun f s => but_le (by decide) (updSys_but f s)
  have b_requestCommit : ∀ (c : CommitCause) (s : State), but 1668810751 (requestCommit c s) = but 1668810751 s := fun c s => but_le (by decide) (requestCommit_but c s)
  have b_wakeNow : ∀ (code : Nat) (s : State), but 1668810751 (wakeNow code s) = but 1668810751 s := fun code s => but_le (by decide) (wakeNow_but code s)
  unfold opPfail; simp only [ite_but, b_updSys, b_requestCommit, b_wakeNow, ite_self]

/-! ### Store.lean -/

theorem updStore_but (f : Store → Store) (s : State) : but 4194304 (updStore f s) = but 4194304 s := rfl
theorem commitMoves_but (s : State) : but 1077936128 (commitMoves s) = but 1077936128 s := by
  have b_updStore : ∀ (f : Store → Store) (s : State), but 1077936128 (updStore f s) = but 1077936128 s := fun f s => but_le (by decide) (updStore_but f s)
  have lit : ∀ (t : State) (y_free : Nat), but 1077936128 { t with free := y_free } = but 1077936128 t := fun _ _ => rfl
  unfold commitMoves; (repeat' split) <;> first | rfl | simp only [ite_but, itep_but, itec_but, lit, b_updStore, ite_self, implies_true]
theorem yieldTo_but (s : State) : but 1077936128 (yieldTo s) = but 1077936128 s := by
  have b_updStore : ∀ (f : Store → Store) (s : State), but 1077936128 (updStore f s) = but 1077936128 s := fun f s => but_le (by decide) (updStore_but f s)
  have b_commitMoves : ∀ (s : State), but 1077936128 (commitMoves s) = but 1077936128 s := fun s => but_le (by decide) (commitMoves_but s)
  unfold yieldTo; simp only [ite_but, b_updStore, b_commitMoves, ite_self]
theorem cmdStoreRead_but (a : Args) (s : State) : but 1077936128 ((cmdStoreRead a s).st) = but 1077936128 s := by
  have b_yieldTo : ∀ (s : State), but 1077936128 (yieldTo s) = but 1077936128 s := fun s => but_le (by decide) (yieldTo_but s)
  unfold cmdStoreRead; simp only [itec_but, checked_but, b_yieldTo, ite_self]
theorem opReadComplete_but (s : State) : but 1180696576 (opReadComplete s) = but 1180696576 s := by
  have b_yieldTo : ∀ (s : State), but 1180696576 (yieldTo s) = but 1180696576 s := fun s => but_le (by decide) (yieldTo_but s)
  have b_endIf : ∀ (code : Byte) (status q0 q1 : Nat) (s : State), but 1180696576 (endIf code status q0 q1 s) = but 1180696576 s := fun code status q0 q1 s => but_le (by decide) (endIf_but code status q0 q1 s)
  have b_updStore : ∀ (f : Store → Store) (s : State), but 1180696576 (updStore f s) = but 1180696576 s := fun f s => but_le (by decide) (updStore_but f s)
  unfold opReadComplete; (repeat' split) <;> first | rfl | simp only [b_yieldTo, b_endIf, b_updStore]
theorem clearShadow_but (s : State) : but 4194304 (clearShadow s) = but 4194304 s := by
  have b_updStore : ∀ (f : Store → Store) (s : State), but 4194304 (updStore f s) = but 4194304 s := fun f s => but_le (by decide) (updStore_but f s)
  unfold clearShadow; simp only [ite_but, b_updStore, ite_self]
theorem cmdCommit_but (a : Args) (s : State) : but 4194304 ((cmdCommit a s).st) = but 4194304 s := by
  have b_badArg : ∀ (s : State), but 4194304 ((badArg s).st) = but 4194304 s := fun s => but_le (by decide) (badArg_but s)
  have b_requestCommit : ∀ (c : CommitCause) (s : State), but 4194304 (requestCommit c s) = but 4194304 s := fun c s => but_le (by decide) (requestCommit_but c s)
  have b_clearShadow : ∀ (s : State), but 4194304 (clearShadow s) = but 4194304 s := fun s => but_le (by decide) (clearShadow_but s)
  unfold cmdCommit; simp only [itec_but, b_badArg, b_requestCommit, b_clearShadow, ite_self]
theorem hostEnds_but (c : CommitCause) (status q0 q1 : Nat) (s : State) : but 102760448 (hostEnds c status q0 q1 s) = but 102760448 s := by
  have b_endIf : ∀ (code : Byte) (status q0 q1 : Nat) (s : State), but 102760448 (endIf code status q0 q1 s) = but 102760448 s := fun code status q0 q1 s => but_le (by decide) (endIf_but code status q0 q1 s)
  unfold hostEnds; (repeat' split) <;> first | rfl | simp only [b_endIf]
theorem judgeQueue_but (cs : List CommitCause) (s : State) : but 106954752 (judgeQueue cs s) = but 106954752 s := by
  induction cs generalizing s with
  | nil => rfl
  | cons c cs ih =>
    unfold judgeQueue
    split
    · exact (but_le (by decide) (startCommit_but c _)).trans rfl
    · rw [ih]; exact but_le (by decide) (hostEnds_but c stClean 0 0 s)
theorem commitOver_but (s : State) : but 106954752 (commitOver s) = but 106954752 s := by
  have b_applyHeld : ∀ (s : State), but 106954752 (applyHeld s) = but 106954752 s := fun s => but_le (by decide) (applyHeld_but s)
  have b_updStore : ∀ (f : Store → Store) (s : State), but 106954752 (updStore f s) = but 106954752 s := fun f s => but_le (by decide) (updStore_but f s)
  have b_judgeQueue : ∀ (cs : List CommitCause) (s : State), but 106954752 (judgeQueue cs s) = but 106954752 s := fun cs s => but_le (by decide) (judgeQueue_but cs s)
  unfold commitOver; simp only [b_applyHeld, b_updStore, b_judgeQueue]
theorem causeEnds_but (c : Commit) (ok : Bool) (s : State) : but 124780545 (causeEnds c ok s) = but 124780545 s := by
  have b_raise : ∀ (src ch : Nat) (det : Word) (s : State), but 124780545 (raise src ch det s) = but 124780545 s := fun src ch det s => but_le (by decide) (raise_but src ch det s)
  have b_updStore : ∀ (f : Store → Store) (s : State), but 124780545 (updStore f s) = but 124780545 s := fun f s => but_le (by decide) (updStore_but f s)
  have b_standbyAbandoned : ∀ (s : State), but 124780545 (standbyAbandoned s) = but 124780545 s := fun s => but_le (by decide) (standbyAbandoned_but s)
  have b_hostEnds : ∀ (c : CommitCause) (status q0 q1 : Nat) (s : State), but 124780545 (hostEnds c status q0 q1 s) = but 124780545 s := fun c status q0 q1 s => but_le (by decide) (hostEnds_but c status q0 q1 s)
  unfold causeEnds; (repeat' split) <;> first | rfl | simp only [b_raise, b_updStore, b_hostEnds]
theorem commitGood_but (c : Commit) (s : State) : but 4194304 (commitGood c s) = but 4194304 s := by
  have b_setBank : ∀ (b : Bool) (m : List Host.Cell) (s : State), but 4194304 (setBank b m s) = but 4194304 s := fun b m s => but_le (by decide) (setBank_but b m s)
  have b_updStore : ∀ (f : Store → Store) (s : State), but 4194304 (updStore f s) = but 4194304 s := fun f s => but_le (by decide) (updStore_but f s)
  unfold commitGood; simp only [b_setBank, b_updStore]
theorem commitBad_but (c : Commit) (s : State) : but 1078984704 (commitBad c s) = but 1078984704 s := by
  have b_setBank : ∀ (b : Bool) (m : List Host.Cell) (s : State), but 1078984704 (setBank b m s) = but 1078984704 s := fun b m s => but_le (by decide) (setBank_but b m s)
  have b_raise : ∀ (src ch : Nat) (det : Word) (s : State), but 1078984704 (raise src ch det s) = but 1078984704 s := fun src ch det s => but_le (by decide) (raise_but src ch det s)
  have b_updStore : ∀ (f : Store → Store) (s : State), but 1078984704 (updStore f s) = but 1078984704 s := fun f s => but_le (by decide) (updStore_but f s)
  have lit : ∀ (t : State) (y_free : Nat), but 1078984704 { t with free := y_free } = but 1078984704 t := fun _ _ => rfl
  unfold commitBad; simp only [lit, b_setBank, b_raise, b_updStore]

/-! ### Emitter.lean -/

theorem updEmit_but (f : Emit → Emit) (s : State) : but 268435456 (updEmit f s) = but 268435456 s := rfl
theorem emitCamToggle_but (c : Fin 3) (i : Nat) (s : State) : but 1915750397 (emitCamToggle c i s) = but 1915750397 s := by
  have b_updEmit : ∀ (f : Emit → Emit) (s : State), but 1915750397 (updEmit f s) = but 1915750397 s := fun f s => but_le (by decide) (updEmit_but f s)
  have b_camLoop : ∀ (c : Nat) (rise : Bool) (stamp : Tb) (s : State), but 1915750397 ((camLoop c rise stamp s).2) = but 1915750397 s := fun c rise stamp s => but_le (by decide) (camLoop_but c rise stamp s)
  have b_takeCam : ∀ (c : Fin 4) (rise : Bool) (t : Tb) (s : State), but 1915750397 (takeCam c rise t s) = but 1915750397 s := fun c rise t s => but_le (by decide) (takeCam_but c rise t s)
  unfold emitCamToggle; simp only [ite_but, b_updEmit, b_camLoop, foldSt_but, b_takeCam, ite_self, implies_true]
theorem opCamEdge_but (c : Fin 3) (s : State) : but 1915750397 (opCamEdge c s) = but 1915750397 s := by
  have b_emitCamToggle : ∀ (c : Fin 3) (i : Nat) (s : State), but 1915750397 (emitCamToggle c i s) = but 1915750397 s := fun c i s => but_le (by decide) (emitCamToggle_but c i s)
  unfold opCamEdge; (repeat' split) <;> first | rfl | simp only [b_emitCamToggle]
theorem restCams_but (s : State) : but 1915750397 (restCams s) = but 1915750397 s := by
  have b_opCamEdge : ∀ (c : Fin 3) (s : State), but 1915750397 (opCamEdge c s) = but 1915750397 s := fun c s => but_le (by decide) (opCamEdge_but c s)
  unfold restCams; simp only [foldSt_but, b_opCamEdge, implies_true]
theorem opEmitStep_but (s : State) : but 4219158527 (opEmitStep s) = but 4219158527 s := by
  have b_restCams : ∀ (s : State), but 4219158527 (restCams s) = but 4219158527 s := fun s => but_le (by decide) (restCams_but s)
  have b_updEmit : ∀ (f : Emit → Emit) (s : State), but 4219158527 (updEmit f s) = but 4219158527 s := fun f s => but_le (by decide) (updEmit_but f s)
  unfold opEmitStep; simp only [b_restCams, b_updEmit]
theorem emitSwitch_but (s : State) : but 573573020 (emitSwitch s) = but 573573020 s := by
  have b_clearSearch : ∀ (s : State), but 573573020 (clearSearch s) = but 573573020 s := fun s => but_le (by decide) (clearSearch_but s)
  have b_input : ∀ (code : Nat) (s : State), but 573573020 (input code s) = but 573573020 s := fun code s => but_le (by decide) (input_but code s)
  unfold emitSwitch; simp only [b_clearSearch, b_input]
theorem emitStart_but (a : Args) (s : State) : but 4219158527 (emitStart a s) = but 4219158527 s := rfl
theorem cmdEmitStart_but (a : Args) (s : State) : but 4219158527 ((cmdEmitStart a s).st) = but 4219158527 s := by
  have b_checkFail : ∀ (k : Nat) (s : State), but 4219158527 ((checkFail k s).st) = but 4219158527 s := fun k s => but_le (by decide) (checkFail_but k s)
  have b_updEmit : ∀ (f : Emit → Emit) (s : State), but 4219158527 (updEmit f s) = but 4219158527 s := fun f s => but_le (by decide) (updEmit_but f s)
  have b_badArg : ∀ (s : State), but 4219158527 ((badArg s).st) = but 4219158527 s := fun s => but_le (by decide) (badArg_but s)
  have b_emitSwitch : ∀ (s : State), but 4219158527 (emitSwitch s) = but 4219158527 s := fun s => but_le (by decide) (emitSwitch_but s)
  have b_emitStart : ∀ (a : Args) (s : State), but 4219158527 (emitStart a s) = but 4219158527 s := fun a s => but_le (by decide) (emitStart_but a s)
  unfold cmdEmitStart; dsimp only; (repeat' split) <;> first | rfl | simp only [b_emitSwitch, b_emitStart]
theorem cmdEmitStop_but (_a : Args) (s : State) : but 842008476 ((cmdEmitStop _a s).st) = but 842008476 s := by
  have b_emitSwitch : ∀ (s : State), but 842008476 (emitSwitch s) = but 842008476 s := fun s => but_le (by decide) (emitSwitch_but s)
  have b_emitHalt : ∀ (s : State), but 842008476 (emitHalt s) = but 842008476 s := fun s => but_le (by decide) (emitHalt_but s)
  unfold cmdEmitStop; simp only [b_emitSwitch, b_emitHalt]
theorem writeEmit_but (p : Path) (off : Nat) (w : Word) (s : State) : but 269484032 (writeEmit p off w s) = but 269484032 s := by
  have b_deny : ∀ (p : Path) (kind id : Nat) (s : State), but 269484032 (deny p kind id s) = but 269484032 s := fun p kind id s => but_le (by decide) (deny_but p kind id s)
  have b_updEmit : ∀ (f : Emit → Emit) (s : State), but 269484032 (updEmit f s) = but 269484032 s := fun f s => but_le (by decide) (updEmit_but f s)
  unfold writeEmit; simp only [ite_but, b_deny, b_updEmit, ite_self]

/-! ### Legacy.lean -/

theorem updLeg_but (f : Leg → Leg) (s : State) : but 536870912 (updLeg f s) = but 536870912 s := rfl
theorem updLCh_but (n : Fin 8) (f : LChan → LChan) (s : State) : but 536870912 (updLCh n f s) = but 536870912 s := rfl
theorem legDo_but (M : Nat) (f : State → State) (s : State) (hf : ∀ t, but M (f t) = but M t) : but M (legDo f s) = but M s := by
  unfold legDo; simp only [ite_but, hf, ite_self]
theorem legRead_but (M : Nat) (f : State → Word × State) (s : State) (hM : 33554432 ||| M = M) (hf : ∀ t, but M ((f t).2) = but M t) : but M (legRead f s) = but M s := by
  unfold legRead
  split
  · exact readIf_but M _ f s hM hf
  · rfl
theorem lBoost_but (s : State) : but 536870912 (lBoost s) = but 536870912 s := by
  have b_updLeg : ∀ (f : Leg → Leg) (s : State), but 536870912 (updLeg f s) = but 536870912 s := fun f s => but_le (by decide) (updLeg_but f s)
  unfold lBoost; simp only [ite_but, b_updLeg, ite_self]
theorem lStart_but (n : Fin 8) (prof : Nat) (s : State) : but 536870912 (lStart n prof s) = but 536870912 s := by
  have b_lBoost : ∀ (s : State), but 536870912 (lBoost s) = but 536870912 s := fun s => but_le (by decide) (lBoost_but s)
  have b_updLCh : ∀ (n : Fin 8) (f : LChan → LChan) (s : State), but 536870912 (updLCh n f s) = but 536870912 s := fun n f s => but_le (by decide) (updLCh_but n f s)
  unfold lStart; simp only [b_lBoost, b_updLCh]
theorem lIdle_but (n : Fin 8) (s : State) : but 536870912 (lIdle n s) = but 536870912 s := by
  have b_lBoost : ∀ (s : State), but 536870912 (lBoost s) = but 536870912 s := fun s => but_le (by decide) (lBoost_but s)
  have b_updLCh : ∀ (n : Fin 8) (f : LChan → LChan) (s : State), but 536870912 (updLCh n f s) = but 536870912 s := fun n f s => but_le (by decide) (updLCh_but n f s)
  unfold lIdle; simp only [b_lBoost, b_updLCh]
theorem lAction_but (n : Fin 8) (act prof : Nat) (s : State) : but 536870912 (lAction n act prof s) = but 536870912 s := by
  have b_lStart : ∀ (n : Fin 8) (prof : Nat) (s : State), but 536870912 (lStart n prof s) = but 536870912 s := fun n prof s => but_le (by decide) (lStart_but n prof s)
  have b_lIdle : ∀ (n : Fin 8) (s : State), but 536870912 (lIdle n s) = but 536870912 s := fun n s => but_le (by decide) (lIdle_but n s)
  have b_updLCh : ∀ (n : Fin 8) (f : LChan → LChan) (s : State), but 536870912 (updLCh n f s) = but 536870912 s := fun n f s => but_le (by decide) (updLCh_but n f s)
  unfold lAction; (repeat' split) <;> first | rfl | simp only [ite_but, b_lStart, b_lIdle, b_updLCh, ite_self]
theorem lAllIdle_but (s : State) : but 536870912 (lAllIdle s) = but 536870912 s := by
  have b_lBoost : ∀ (s : State), but 536870912 (lBoost s) = but 536870912 s := fun s => but_le (by decide) (lBoost_but s)
  have b_updLeg : ∀ (f : Leg → Leg) (s : State), but 536870912 (updLeg f s) = but 536870912 s := fun f s => but_le (by decide) (updLeg_but f s)
  unfold lAllIdle; simp only [b_lBoost, b_updLeg]
theorem opLPhase_but (n : Fin 8) (s : State) : but 536870912 (opLPhase n s) = but 536870912 s := by
  have b_lBoost : ∀ (s : State), but 536870912 (lBoost s) = but 536870912 s := fun s => but_le (by decide) (lBoost_but s)
  have b_updLCh : ∀ (n : Fin 8) (f : LChan → LChan) (s : State), but 536870912 (updLCh n f s) = but 536870912 s := fun n f s => but_le (by decide) (updLCh_but n f s)
  unfold opLPhase; (repeat' split) <;> first | rfl | simp only [b_lBoost, b_updLCh]
theorem updLSlot_but (i : Fin 16) (f : LSlot → LSlot) (s : State) : but 536870912 (updLSlot i f s) = but 536870912 s := rfl
theorem lCancel_but (s : State) : but 536870912 (lCancel s) = but 536870912 s := rfl
theorem lArm_but (act : Nat) (s : State) : but 536870912 (lArm act s) = but 536870912 s := by
  have b_updLeg : ∀ (f : Leg → Leg) (s : State), but 536870912 (updLeg f s) = but 536870912 s := fun f s => but_le (by decide) (updLeg_but f s)
  have b_updLSlot : ∀ (i : Fin 16) (f : LSlot → LSlot) (s : State), but 536870912 (updLSlot i f s) = but 536870912 s := fun i f s => but_le (by decide) (updLSlot_but i f s)
  unfold lArm; simp only [ite_but, b_updLeg, b_updLSlot, ite_self]
theorem writeLevcmd_but (v : Byte) (s : State) : but 536870912 (writeLevcmd v s) = but 536870912 s := by
  have b_lCancel : ∀ (s : State), but 536870912 (lCancel s) = but 536870912 s := fun s => but_le (by decide) (lCancel_but s)
  have b_lArm : ∀ (act : Nat) (s : State), but 536870912 (lArm act s) = but 536870912 s := fun act s => but_le (by decide) (lArm_but act s)
  unfold writeLevcmd; simp only [ite_but, b_lCancel, b_lArm, ite_self]
theorem opLFire_but (i : Fin 16) (s : State) : but 536870912 (opLFire i s) = but 536870912 s := by
  have b_updLSlot : ∀ (i : Fin 16) (f : LSlot → LSlot) (s : State), but 536870912 (updLSlot i f s) = but 536870912 s := fun i f s => but_le (by decide) (updLSlot_but i f s)
  have b_lAction : ∀ (n : Fin 8) (act prof : Nat) (s : State), but 536870912 (lAction n act prof s) = but 536870912 s := fun n act prof s => but_le (by decide) (lAction_but n act prof s)
  unfold opLFire; simp only [ite_but, b_updLSlot, b_lAction, ite_self]
theorem legRestart_but (s : State) : but 573573020 (legRestart s) = but 573573020 s := by
  have b_updWheel : ∀ (f : Wheel → Wheel) (s : State), but 573573020 (updWheel f s) = but 573573020 s := fun f s => but_le (by decide) (updWheel_but f s)
  have b_clearSearch : ∀ (s : State), but 573573020 (clearSearch s) = but 573573020 s := fun s => but_le (by decide) (clearSearch_but s)
  have b_input : ∀ (code : Nat) (s : State), but 573573020 (input code s) = but 573573020 s := fun code s => but_le (by decide) (input_but code s)
  unfold legRestart; simp only [b_updWheel, b_clearSearch, b_input]
theorem writeLctl_but (v : Byte) (s : State) : but 573573020 (writeLctl v s) = but 573573020 s := by
  have b_lAllIdle : ∀ (s : State), but 573573020 (lAllIdle s) = but 573573020 s := fun s => but_le (by decide) (lAllIdle_but s)
  have b_legRestart : ∀ (s : State), but 573573020 (legRestart s) = but 573573020 s := fun s => but_le (by decide) (legRestart_but s)
  have b_updLeg : ∀ (f : Leg → Leg) (s : State), but 573573020 (updLeg f s) = but 573573020 s := fun f s => but_le (by decide) (updLeg_but f s)
  unfold writeLctl; simp only [ite_but, b_lAllIdle, b_legRestart, b_updLeg, ite_self]
theorem writeLwheel_but (v : Byte) (s : State) : but 573573020 (writeLwheel v s) = but 573573020 s := by
  have b_legRestart : ∀ (s : State), but 573573020 (legRestart s) = but 573573020 s := fun s => but_le (by decide) (legRestart_but s)
  have b_updLeg : ∀ (f : Leg → Leg) (s : State), but 573573020 (updLeg f s) = but 573573020 s := fun f s => but_le (by decide) (updLeg_but f s)
  have b_updWheel : ∀ (f : Wheel → Wheel) (s : State), but 573573020 (updWheel f s) = but 573573020 s := fun f s => but_le (by decide) (updWheel_but f s)
  have lit : ∀ (t : State) (y_wheel : Wheel), but 573573020 { t with wheel := y_wheel } = but 573573020 t := fun _ _ => rfl
  unfold writeLwheel; (repeat' split) <;> first | rfl | simp only [ite_but, b_legRestart, b_updLeg, b_updWheel, ite_self]
theorem writeLouten_but (v : Byte) (s : State) : but 536870912 (writeLouten v s) = but 536870912 s := by
  have b_lBoost : ∀ (s : State), but 536870912 (lBoost s) = but 536870912 s := fun s => but_le (by decide) (lBoost_but s)
  have b_updLeg : ∀ (f : Leg → Leg) (s : State), but 536870912 (updLeg f s) = but 536870912 s := fun f s => but_le (by decide) (updLeg_but f s)
  unfold writeLouten; simp only [b_lBoost, b_updLeg]
theorem readLangl_but (s : State) : but 536870912 ((readLangl s).2) = but 536870912 s := rfl
theorem readLperl_but (s : State) : but 536870912 ((readLperl s).2) = but 536870912 s := rfl
theorem stepByte_but (s : State) : but 536870912 (stepByte s) = but 536870912 s := rfl
theorem readLprofdat_but (s : State) : but 536870912 ((readLprofdat s).2) = but 536870912 s := rfl
theorem writeLprofdat_but (v : Byte) (s : State) : but 536870912 (writeLprofdat v s) = but 536870912 s := rfl
theorem opLTrip_but (s : State) : but 537001984 (opLTrip s) = but 537001984 s := by
  have b_lAllIdle : ∀ (s : State), but 537001984 (lAllIdle s) = but 537001984 s := fun s => but_le (by decide) (lAllIdle_but s)
  have b_noteLeg : ∀ (b : Nat) (s : State), but 537001984 (noteLeg b s) = but 537001984 s := fun b s => but_le (by decide) (noteLeg_but b s)
  have b_updLeg : ∀ (f : Leg → Leg) (s : State), but 537001984 (updLeg f s) = but 537001984 s := fun f s => but_le (by decide) (updLeg_but f s)
  have lit : ∀ (t : State) (y_trip : Trip), but 537001984 { t with trip := y_trip } = but 537001984 t := fun _ _ => rfl
  unfold opLTrip; simp only [b_lAllIdle, b_noteLeg, b_updLeg]
theorem writeLdiag_but (v : Byte) (s : State) : but 536870912 (writeLdiag v s) = but 536870912 s := by
  have b_updLeg : ∀ (f : Leg → Leg) (s : State), but 536870912 (updLeg f s) = but 536870912 s := fun f s => but_le (by decide) (updLeg_but f s)
  unfold writeLdiag; simp only [ite_but, b_updLeg, ite_self]
theorem updLTim_but (k : Fin 2) (f : LTimer → LTimer) (s : State) : but 536870912 (updLTim k f s) = but 536870912 s := rfl
theorem lTimStep_but (k : Fin 2) (s : State) : but 537395200 (lTimStep k s) = but 537395200 s := by
  have b_noteLeg : ∀ (b : Nat) (s : State), but 537395200 (noteLeg b s) = but 537395200 s := fun b s => but_le (by decide) (noteLeg_but b s)
  have b_updLeg : ∀ (f : Leg → Leg) (s : State), but 537395200 (updLeg f s) = but 537395200 s := fun f s => but_le (by decide) (updLeg_but f s)
  have b_updLTim : ∀ (k : Fin 2) (f : LTimer → LTimer) (s : State), but 537395200 (updLTim k f s) = but 537395200 s := fun k f s => but_le (by decide) (updLTim_but k f s)
  have lit : ∀ (t : State) (y_tim : Tim), but 537395200 { t with tim := y_tim } = but 537395200 t := fun _ _ => rfl
  unfold lTimStep; simp only [ite_but, b_noteLeg, b_updLeg, b_updLTim, ite_self]
theorem lLoadCount_but (hi : Byte) (s : State) : but 536870912 (lLoadCount hi s) = but 536870912 s := rfl
theorem lLoadCompare_but (hi : Byte) (s : State) : but 536870912 (lLoadCompare hi s) = but 536870912 s := rfl
theorem writeLstat_but (w : Byte) (s : State) : but 537526272 (writeLstat w s) = but 537526272 s := rfl
theorem writeLegA_but (a : Nat) (v : Byte) (s : State) : but 574228380 (writeLegA a v s) = but 574228380 s := by
  have b_writeLctl : ∀ (v : Byte) (s : State), but 574228380 (writeLctl v s) = but 574228380 s := fun v s => but_le (by decide) (writeLctl_but v s)
  have b_writeLstat : ∀ (w : Byte) (s : State), but 574228380 (writeLstat w s) = but 574228380 s := fun w s => but_le (by decide) (writeLstat_but w s)
  have b_updLeg : ∀ (f : Leg → Leg) (s : State), but 574228380 (updLeg f s) = but 574228380 s := fun f s => but_le (by decide) (updLeg_but f s)
  have b_writeLwheel : ∀ (v : Byte) (s : State), but 574228380 (writeLwheel v s) = but 574228380 s := fun v s => but_le (by decide) (writeLwheel_but v s)
  have b_writeLevcmd : ∀ (v : Byte) (s : State), but 574228380 (writeLevcmd v s) = but 574228380 s := fun v s => but_le (by decide) (writeLevcmd_but v s)
  have b_writeLprofdat : ∀ (v : Byte) (s : State), but 574228380 (writeLprofdat v s) = but 574228380 s := fun v s => but_le (by decide) (writeLprofdat_but v s)
  unfold writeLegA; (repeat' split) <;> first | rfl | simp only [b_writeLctl, b_writeLwheel, b_writeLevcmd]
theorem writeLegacy_but (a : Nat) (v : Byte) (s : State) : but 574228380 (writeLegacy a v s) = but 574228380 s := by
  have b_writeLouten : ∀ (v : Byte) (s : State), but 574228380 (writeLouten v s) = but 574228380 s := fun v s => but_le (by decide) (writeLouten_but v s)
  have b_writeLdiag : ∀ (v : Byte) (s : State), but 574228380 (writeLdiag v s) = but 574228380 s := fun v s => but_le (by decide) (writeLdiag_but v s)
  have b_updLeg : ∀ (f : Leg → Leg) (s : State), but 574228380 (updLeg f s) = but 574228380 s := fun f s => but_le (by decide) (updLeg_but f s)
  have b_updLTim : ∀ (k : Fin 2) (f : LTimer → LTimer) (s : State), but 574228380 (updLTim k f s) = but 574228380 s := fun k f s => but_le (by decide) (updLTim_but k f s)
  have b_lLoadCount : ∀ (hi : Byte) (s : State), but 574228380 (lLoadCount hi s) = but 574228380 s := fun hi s => but_le (by decide) (lLoadCount_but hi s)
  have b_lLoadCompare : ∀ (hi : Byte) (s : State), but 574228380 (lLoadCompare hi s) = but 574228380 s := fun hi s => but_le (by decide) (lLoadCompare_but hi s)
  have b_writeLegA : ∀ (a : Nat) (v : Byte) (s : State), but 574228380 (writeLegA a v s) = but 574228380 s := fun a v s => but_le (by decide) (writeLegA_but a v s)
  unfold writeLegacy; (repeat' split) <;> first | rfl | simp only [b_writeLouten, b_writeLdiag, b_writeLegA]

/-! ### HostBus.lean -/

theorem readWin_but (p : Path) (space off : Nat) (s : State) : but 34899200 ((readWin p space off s).2) = but 34899200 s := by
  have b_readBrass : ∀ (off : Nat) (s : State), but 34899200 ((readBrass off s).2) = but 34899200 s := fun off s => but_le (by decide) (readBrass_but off s)
  have b_readFsrc : ∀ (p : Path) (off : Nat) (s : State), but 34899200 ((readFsrc p off s).2) = but 34899200 s := fun p off s => but_le (by decide) (readFsrc_but p off s)
  have b_readTherm : ∀ (p : Path) (off : Nat) (s : State), but 34899200 ((readTherm p off s).2) = but 34899200 s := fun p off s => but_le (by decide) (readTherm_but p off s)
  have b_readCpc : ∀ (off : Nat) (s : State), but 34899200 ((readCpc off s).2) = but 34899200 s := fun off s => but_le (by decide) (readCpc_but off s)
  unfold readWin; (repeat' split) <;> simp [gatedWindow_but, b_readBrass, b_readFsrc, b_readTherm, b_readCpc]
theorem gatedWinWrite_but (M : Nat) (b : Blk) (space : Nat) (f : State → State) (s : State) (hM : 1048576 ||| M = M) (hf : ∀ t, but M (f t) = but M t) : but M (gatedWinWrite b space f s) = but M s := by
  have b_gateEvent : ∀ (b : Blk) (win : Bool) (id : Nat) (s : State), but M (gateEvent b win id s) = but M s := fun b win id s => but_le2 (by decide) hM (gateEvent_but b win id s)
  unfold gatedWinWrite; simp only [ite_but, b_gateEvent, hf, ite_self]
theorem writeWin_but (p : Path) (space off : Nat) (w : Word) (s : State) : but 311428872 (writeWin p space off w s) = but 311428872 s := by
  have b_hostSlotWrite : ∀ (p : Path) (off : Nat) (w : Word) (s : State), but 311428872 (hostSlotWrite p off w s) = but 311428872 s := fun p off w s => but_le (by decide) (hostSlotWrite_but p off w s)
  have b_hostCpcWrite : ∀ (p : Path) (off : Nat) (v : Word) (s : State), but 311428872 (hostCpcWrite p off v s) = but 311428872 s := fun p off v s => but_le (by decide) (hostCpcWrite_but p off v s)
  have b_writeProt : ∀ (p : Path) (off : Nat) (w : Word) (s : State), but 311428872 (writeProt p off w s) = but 311428872 s := fun p off w s => but_le (by decide) (writeProt_but p off w s)
  have b_writeEmit : ∀ (p : Path) (off : Nat) (w : Word) (s : State), but 311428872 (writeEmit p off w s) = but 311428872 s := fun p off w s => but_le (by decide) (writeEmit_but p off w s)
  unfold writeWin; (repeat' split) <;> simp [b_hostSlotWrite, gatedWinWrite_but, b_hostCpcWrite, b_writeProt, b_writeEmit]
theorem readWindat_but (p : Path) (s : State) : but 34899200 ((readWindat p s).2) = but 34899200 s := by
  have b_readWin : ∀ (p : Path) (space off : Nat) (s : State), but 34899200 ((readWin p space off s).2) = but 34899200 s := fun p space off s => but_le (by decide) (readWin_but p space off s)
  have b_stepWinadr : ∀ (p : Path) (s : State), but 34899200 (stepWinadr p s) = but 34899200 s := fun p s => but_le (by decide) (stepWinadr_but p s)
  unfold readWindat; simp only [b_readWin, b_stepWinadr]
theorem writeWindat_but (p : Path) (w : Word) (s : State) : but 311428872 (writeWindat p w s) = but 311428872 s := by
  have b_stepWinadr : ∀ (p : Path) (s : State), but 311428872 (stepWinadr p s) = but 311428872 s := fun p s => but_le (by decide) (stepWinadr_but p s)
  have b_writeWin : ∀ (p : Path) (space off : Nat) (w : Word) (s : State), but 311428872 (writeWin p space off w s) = but 311428872 s := fun p space off w s => but_le (by decide) (writeWin_but p space off w s)
  unfold writeWindat; simp only [b_stepWinadr, b_writeWin]
theorem readTb0_but (p : Path) (s : State) : but 33554432 ((readTb0 p s).2) = but 33554432 s := by
  have lit : ∀ (t : State) (y_bus : Bus), but 33554432 { t with bus := y_bus } = but 33554432 t := fun _ _ => rfl
  unfold readTb0; (repeat' split) <;> first | rfl | simp only [ite_but, itep_but, itec_but, lit, ite_self, implies_true]
theorem readActive_but (p : Path) (a : Nat) (s : State) : but 34899714 ((readActive p a s).2) = but 34899714 s := by
  have b_readClkstat : ∀ (s : State), but 34899714 ((readClkstat s).2) = but 34899714 s := fun s => but_le (by decide) (readClkstat_but s)
  have b_readWindat : ∀ (p : Path) (s : State), but 34899714 ((readWindat p s).2) = but 34899714 s := fun p s => but_le (by decide) (readWindat_but p s)
  have b_readAngleL : ∀ (p : Path) (s : State), but 34899714 ((readAngleL p s).2) = but 34899714 s := fun p s => but_le (by decide) (readAngleL_but p s)
  have b_readTb0 : ∀ (p : Path) (s : State), but 34899714 ((readTb0 p s).2) = but 34899714 s := fun p s => but_le (by decide) (readTb0_but p s)
  have b_readRptstat : ∀ (s : State), but 34899714 ((readRptstat s).2) = but 34899714 s := fun s => but_le (by decide) (readRptstat_but s)
  have b_readRptdat : ∀ (s : State), but 34899714 ((readRptdat s).2) = but 34899714 s := fun s => but_le (by decide) (readRptdat_but s)
  have b_readFltstat : ∀ (s : State), but 34899714 ((readFltstat s).2) = but 34899714 s := fun s => but_le (by decide) (readFltstat_but s)
  have b_readFlthist : ∀ (s : State), but 34899714 ((readFlthist s).2) = but 34899714 s := fun s => but_le (by decide) (readFlthist_but s)
  unfold readActive; (repeat' split) <;> simp [b_readClkstat, gatedRead_but, b_readWindat, b_readAngleL, b_readTb0, b_readRptstat, b_readRptdat, b_readFltstat, b_readFlthist]
theorem readReg_but (p : Path) (a : Nat) (s : State) : but 34899714 ((readReg p a s).2) = but 34899714 s := by
  have b_readActive : ∀ (p : Path) (a : Nat) (s : State), but 34899714 ((readActive p a s).2) = but 34899714 s := fun p a s => but_le (by decide) (readActive_but p a s)
  unfold readReg; (repeat' split) <;> first | rfl | simp only [b_readActive]
theorem clearInts_but (w : Word) (s : State) : but 33554432 (clearInts w s) = but 33554432 s := rfl
theorem writePointer_but (p : Path) (f : Bus → Bus) (s : State) : but 33554432 (writePointer p f s) = but 33554432 s := by
  have lit : ∀ (t : State) (y_bus : Bus), but 33554432 { t with bus := y_bus } = but 33554432 t := fun _ _ => rfl
  unfold writePointer; (repeat' split) <;> first | rfl | simp only [ite_but, itep_but, itec_but, lit, ite_self, implies_true]
theorem opInterrupted_but (s : State) : but 106954752 (opInterrupted s) = but 106954752 s := by
  have b_endCmd : ∀ (status q0 q1 : Nat) (s : State), but 106954752 (endCmd status q0 q1 s) = but 106954752 s := fun status q0 q1 s => but_le (by decide) (endCmd_but status q0 q1 s)
  have lit : ∀ (t : State) (y_link : Link) (y_store : Store), but 106954752 { t with link := y_link, store := y_store } = but 106954752 t := fun _ _ _ => rfl
  unfold opInterrupted; simp only [lit, b_endCmd]

/-! ### Debug.lean -/

theorem opLineReset_but (s : State) : but 16777216 (opLineReset s) = but 16777216 s := by
  have b_updDbg : ∀ (f : Dbg → Dbg) (s : State), but 16777216 (updDbg f s) = but 16777216 s := fun f s => but_le (by decide) (updDbg_but f s)
  have lit : ∀ (t : State) (y_dbg : Dbg), but 16777216 { t with dbg := y_dbg } = but 16777216 t := fun _ _ => rfl
  unfold opLineReset; simp only [ite_but, lit, b_updDbg, ite_self]
theorem resume_but (s : State) : but 119605248 (resume s) = but 119605248 s := by
  have b_sendWaiting : ∀ (s : State), but 119605248 (sendWaiting s) = but 119605248 s := fun s => but_le (by decide) (sendWaiting_but s)
  have b_testResume : ∀ (s : State), but 119605248 (testResume s) = but 119605248 s := fun s => but_le (by decide) (testResume_but s)
  have b_endReady : ∀ (s : State), but 119605248 (endReady s) = but 119605248 s := fun s => but_le (by decide) (endReady_but s)
  have b_updDbg : ∀ (f : Dbg → Dbg) (s : State), but 119605248 (updDbg f s) = but 119605248 s := fun f s => but_le (by decide) (updDbg_but f s)
  unfold resume; simp only [b_sendWaiting, b_testResume, b_endReady, b_updDbg]
theorem opDetach_but (s : State) : but 119605248 (opDetach s) = but 119605248 s := by
  have b_resume : ∀ (s : State), but 119605248 (resume s) = but 119605248 s := fun s => but_le (by decide) (resume_but s)
  have b_updDbg : ∀ (f : Dbg → Dbg) (s : State), but 119605248 (updDbg f s) = but 119605248 s := fun f s => but_le (by decide) (updDbg_but f s)
  unfold opDetach; simp only [b_resume, b_updDbg]
theorem ack_but (k : Nat) (s : State) : but 16777216 (ack k s) = but 16777216 s := rfl
theorem dbgDeny_but (a : Nat) (s : State) : but 17825792 (dbgDeny a s) = but 17825792 s := by
  have b_ack : ∀ (k : Nat) (s : State), but 17825792 (ack k s) = but 17825792 s := fun k s => but_le (by decide) (ack_but k s)
  have b_deny : ∀ (p : Path) (kind id : Nat) (s : State), but 17825792 (deny p kind id s) = but 17825792 s := fun p kind id s => but_le (by decide) (deny_but p kind id s)
  unfold dbgDeny; simp only [ite_but, b_ack, b_deny, ite_self]
theorem txn_but (M : Nat) (a : Nat) (errOk ok : Bool) (f : State → State) (s : State) (hM : 17825792 ||| M = M) (hf : ∀ t, but M (f t) = but M t) : but M (txn a errOk ok f s) = but M s := by
  have b_ack : ∀ (k : Nat) (s : State), but M (ack k s) = but M s := fun k s => but_le2 (by decide) hM (ack_but k s)
  have b_dbgDeny : ∀ (a : Nat) (s : State), but M (dbgDeny a s) = but M s := fun a s => but_le2 (by decide) hM (dbgDeny_but a s)
  unfold txn; simp only [ite_but, b_ack, b_dbgDeny, hf, ite_self]
theorem dctl_but (M : Nat) (ok : Bool) (f : State → State) (s : State) (hM : 17825792 ||| M = M) (hf : ∀ t, but M (f t) = but M t) : but M (dctl ok f s) = but M s :=
  txn_but M 7 true ok f s hM hf
theorem opHalt_but (on : Bool) (s : State) : but 119605248 (opHalt on s) = but 119605248 s := by
  have b_updDbg : ∀ (f : Dbg → Dbg) (s : State), but 119605248 (updDbg f s) = but 119605248 s := fun f s => but_le (by decide) (updDbg_but f s)
  have b_resume : ∀ (s : State), but 119605248 (resume s) = but 119605248 s := fun s => but_le (by decide) (resume_but s)
  unfold opHalt; simp only [ite_but, b_updDbg, b_resume, ite_self]
theorem opPtest_but (on : Bool) (s : State) : but 120588043 (opPtest on s) = but 120588043 s := by
  have b_updDbg : ∀ (f : Dbg → Dbg) (s : State), but 120588043 (updDbg f s) = but 120588043 s := fun f s => but_le (by decide) (updDbg_but f s)
  have b_roleEnds : ∀ (s : State), but 120588043 (roleEnds s) = but 120588043 s := fun s => but_le (by decide) (roleEnds_but s)
  have b_ack : ∀ (k : Nat) (s : State), but 120588043 (ack k s) = but 120588043 s := fun k s => but_le (by decide) (ack_but k s)
  unfold opPtest; simp only [ite_but, b_updDbg, b_roleEnds, b_ack, ite_self]
theorem opWake_but (ref : RefEdge) (s : State) : but 16777219 (opWake ref s) = but 16777219 s := by
  have b_askWake : ∀ (code : Nat) (s : State), but 16777219 (askWake code s) = but 16777219 s := fun code s => but_le (by decide) (askWake_but code s)
  have b_updSys : ∀ (f : Sys → Sys) (s : State), but 16777219 (updSys f s) = but 16777219 s := fun f s => but_le (by decide) (updSys_but f s)
  have b_standbyWake : ∀ (code : Nat) (dbg : Bool) (s : State), but 16777219 (standbyWake code dbg s) = but 16777219 s := fun code dbg s => but_le (by decide) (standbyWake_but code dbg s)
  unfold opWake; simp only [ite_but, b_askWake, b_updSys, b_standbyWake, ite_self]
theorem opChal_but (s : State) : but 1098907648 (opChal s) = but 1098907648 s := by
  have b_updDbg : ∀ (f : Dbg → Dbg) (s : State), but 1098907648 (updDbg f s) = but 1098907648 s := fun f s => but_le (by decide) (updDbg_but f s)
  have b_drawChallenge : ∀ (s : State), but 1098907648 (drawChallenge s) = but 1098907648 s := fun s => but_le (by decide) (drawChallenge_but s)
  unfold opChal; simp only [ite_but, b_updDbg, b_drawChallenge, ite_self]
theorem readDchal_but (s : State) : but 16777216 ((readDchal s).2) = but 16777216 s := rfl
theorem probeRead_but (M : Nat) (f : State → Word × State) (s : State) (hM : 33554432 ||| M = M) (hf : ∀ t, but M ((f t).2) = but M t) : but M (probeRead f s) = but M s := by
  have b_putData : ∀ (w : Word) (s : State), but M (putData w s) = but M s := fun w s => but_le2 (by decide) hM (putData_but w s)
  unfold probeRead; simp only [b_putData, hf]
theorem writeDans_but (w : Word) (s : State) : but 25165824 (writeDans w s) = but 25165824 s := by
  have b_updDbg : ∀ (f : Dbg → Dbg) (s : State), but 25165824 (updDbg f s) = but 25165824 s := fun f s => but_le (by decide) (updDbg_but f s)
  have b_startCheck : ∀ (answer : BitVec 128) (dbg cmd : Bool) (s : State), but 25165824 (startCheck answer dbg cmd s) = but 25165824 s := fun answer dbg cmd s => but_le (by decide) (startCheck_but answer dbg cmd s)
  unfold writeDans; simp only [ite_but, b_updDbg, b_startCheck, ite_self]
theorem writeDpin_but (w : Word) (s : State) : but 16777216 (writeDpin w s) = but 16777216 s := rfl
theorem windowUse_but (M : Nat) (f : Nat → Nat → State → Word × State) (s : State) (hM : 16777216 ||| M = M) (hf : ∀ x0 x1 t, but M ((f x0 x1 t).2) = but M t) : but M ((windowUse f s).2) = but M s := by
  have b_updDbg : ∀ (f : Dbg → Dbg) (s : State), but M (updDbg f s) = but M s := fun f s => but_le2 (by decide) hM (updDbg_but f s)
  unfold windowUse; simp only [itep_but, b_updDbg, hf, ite_self]
theorem readDbg_but (a : Nat) (s : State) : but 51676416 ((readDbg a s).2) = but 51676416 s := by
  have b_readWin : ∀ (p : Path) (space off : Nat) (s : State), but 51676416 ((readWin p space off s).2) = but 51676416 s := fun p space off s => but_le (by decide) (readWin_but p space off s)
  have b_readDchal : ∀ (s : State), but 51676416 ((readDchal s).2) = but 51676416 s := fun s => but_le (by decide) (readDchal_but s)
  unfold readDbg; (repeat' split) <;> simp [windowUse_but, b_readWin, b_readDchal]
theorem withParity_but (M : Nat) (parity : Bool) (f : State → State) (s : State) (hM : 16777216 ||| M = M) (hf : ∀ t, but M (f t) = but M t) : but M (withParity parity f s) = but M s := by
  have b_updDbg : ∀ (f : Dbg → Dbg) (s : State), but M (updDbg f s) = but M s := fun f s => but_le2 (by decide) hM (updDbg_but f s)
  unfold withParity; simp only [ite_but, b_updDbg, hf, ite_self]
theorem orWait_but (M : Nat) (ok : Bool) (s : State) (f : State → State) (hM : 16777216 ||| M = M) (hf : ∀ t, but M (f t) = but M t) : but M (orWait ok s f) = but M s := by
  have b_ack : ∀ (k : Nat) (s : State), but M (ack k s) = but M s := fun k s => but_le2 (by decide) hM (ack_but k s)
  unfold orWait; simp only [ite_but, b_ack, hf, ite_self]

/-! ### Tick.lean -/

theorem tickClock_but (s : State) : but 1048578 (tickClock s) = but 1048578 s := rfl
theorem tickPins_but (lv : OutLevels) (s : State) : but 134420480 (tickPins lv s) = but 134420480 s := by
  have b_tripAll : ∀ (s : State), but 134420480 (tripAll s) = but 134420480 s := fun s => but_le (by decide) (tripAll_but s)
  have b_tickInputs : ∀ (s : State), but 134420480 (tickInputs s) = but 134420480 s := fun s => but_le (by decide) (tickInputs_but s)
  have b_pinEdges : ∀ (s : State), but 134420480 (pinEdges s) = but 134420480 s := fun s => but_le (by decide) (pinEdges_but s)
  have b_shiftOuts : ∀ (lv : OutLevels) (s : State), but 134420480 (shiftOuts lv s) = but 134420480 s := fun lv s => but_le (by decide) (shiftOuts_but lv s)
  unfold tickPins; simp only [b_tripAll, b_tickInputs, b_pinEdges, b_shiftOuts]
theorem tickAngles_but (s : State) : but 260 (tickAngles s) = but 260 s := rfl
theorem tickWindows_but (s : State) : but 1024 (tickWindows s) = but 1024 s := by
  have b_windowsCheck : ∀ (s : State), but 1024 (windowsCheck s) = but 1024 s := fun s => but_le (by decide) (windowsCheck_but s)
  have lit : ∀ (t : State) (y_cpc : Cpc), but 1024 { t with cpc := y_cpc } = but 1024 t := fun _ _ => rfl
  unfold tickWindows; simp only [lit, b_windowsCheck]
theorem tickTimers_but (s : State) : but 524288 (tickTimers s) = but 524288 s := by
  have lit : ∀ (t : State) (y_tim : Tim), but 524288 { t with tim := y_tim } = but 524288 t := fun _ _ => rfl
  unfold tickTimers; simp only [ite_but, lit, ite_self]
theorem tickEmit_but (s : State) : but 268435456 (tickEmit s) = but 268435456 s := by
  have lit : ∀ (t : State) (y_emit : Emit), but 268435456 { t with emit := y_emit } = but 268435456 t := fun _ _ => rfl
  unfold tickEmit; simp only [ite_but, lit, ite_self]
theorem tickLegacy_but (s : State) : but 536870912 (tickLegacy s) = but 536870912 s := by
  have b_updLeg : ∀ (f : Leg → Leg) (s : State), but 536870912 (updLeg f s) = but 536870912 s := fun f s => but_le (by decide) (updLeg_but f s)
  unfold tickLegacy; simp only [ite_but, b_updLeg, ite_self]

/-! ### Step.lean -/

theorem State.withFetchWord_but (s : State) (nbits w : Nat) : but 2147483648 (State.withFetchWord s nbits w) = but 2147483648 s := rfl

end Sys2Proof.Machine
end

