-- ==== Sys2Proof/Laws/Mailbox.lean ====
section
/-! SUPPORT. What a mailbox command row does when the mailbox is free: the command runs, passes the checks of R431
and is answered (R417, R429, R431). -/

namespace Sys2Proof.Machine

/-- In RUN the fall of CS# does nothing besides the access (R355). -/
theorem csFalls_run {s : State} (h : s.sys.pwr = .run) : csFalls s = s := by
  unfold csFalls
  rw [h]
  split <;> rfl

/-- In RUN a row of the host bus is its access (R355). -/
theorem hostRow_run {s : State} (i : Instr) (f : State → State) (h : s.sys.pwr = .run) (hv : s.sys.vddioa = true) : hostRow i f s = f s := by
  unfold hostRow rdyHeld
  rw [csFalls_run h, h, hv]
  simp

/-- In RUN a command row is a command for the mailbox (R355). -/
theorem mboxRow_run {s : State} (code : Byte) (op : Args → State → CmdRes) (a : Args) (h : s.sys.pwr = .run) :
    mboxRow code op a s = mboxTake code op a s := by
  unfold mboxRow rdyHeld
  rw [csFalls_run h, h]
  simp

/-- A submission of the host on a free mailbox starts (R417, R429). -/
theorem hostSubmit_free (code : Byte) (a : Args) (s : State) (h : mboxFree s = true) : hostSubmit code a s = started code a s := by
  simp only [mboxFree, Bool.and_eq_true, Bool.not_eq_true', Option.isNone_iff_eq_none] at h
  obtain ⟨⟨⟨⟨⟨⟨⟨hu, hv⟩, hc⟩, hb⟩, hr⟩, _⟩, _⟩, _⟩ := h
  have hp : s.sys.pwr = .run := by
    unfold coreOn at hc
    simp only [Bool.and_eq_true, beq_iff_eq] at hc
    exact hc.2
  have hc' : coreOn { s with mbox := { s.mbox with args := a } } = true := hc
  unfold hostSubmit
  rw [if_neg (by simp [hu, hv]), if_neg (by simp [hb])]
  unfold submit started
  dsimp only
  rw [if_neg (by simp [hb, hp]), if_pos (by rw [hc', hr]; rfl)]
  rfl

/-- The command that has just started is served. -/
theorem mboxServe_started (code : Byte) (op : Args → State → CmdRes) (a : Args) (s : State) (h : mboxFree s = true) :
    mboxServe code op a (started code a s) = serve ⟨.host, code, a⟩ op (started code a s) := by
  simp only [mboxFree, Bool.and_eq_true, Bool.not_eq_true'] at h
  obtain ⟨⟨⟨⟨⟨⟨_, hc⟩, _⟩, _⟩, _⟩, hk⟩, hx⟩ := h
  have hc' : coreOn (started code a s) = true := hc
  have hs : mboxServes code a (started code a s) = true := by simp [mboxServes, started, hk, hx]
  unfold mboxServe
  rw [hs, hc']
  rfl

/-- A free mailbox runs the row's command at once. -/
theorem mboxRow_free (code : Byte) (op : Args → State → CmdRes) (a : Args) (s : State) (h : mboxFree s = true) :
    mboxRow code op a s = serve ⟨.host, code, a⟩ op (started code a s) := by
  have h' := h
  simp only [mboxFree, Bool.and_eq_true, Bool.not_eq_true', Option.isNone_iff_eq_none] at h'
  obtain ⟨⟨⟨⟨⟨⟨⟨_, _⟩, hc⟩, _⟩, hr⟩, hw⟩, _⟩, _⟩ := h'
  have hp : s.sys.pwr = .run := by
    unfold coreOn at hc
    simp only [Bool.and_eq_true, beq_iff_eq] at hc
    exact hc.2
  rw [mboxRow_run code op a hp]
  unfold mboxTake
  rw [if_neg (by simp [mboxServes, hr]), if_neg (by simp [hw]), hostSubmit_free code a s h, mboxServe_started code op a s h]

/-- An admitted host command reaches its own checks (R431). -/
theorem guarded_admitted (code : Byte) (op : Args → State → CmdRes) (a : Args) (s : State) (h : admitted code a s = true) :
    guarded ⟨.host, code, a⟩ op s = op a s := by
  simp only [admitted, Bool.and_eq_true] at h
  obtain ⟨⟨⟨⟨⟨h1, h2⟩, h3⟩, h4⟩, h5⟩, h6⟩ := h
  have h1' : code.toNat ∈ assignedCodes := by simpa using h1
  have h3' : ¬ (decide (s.sys.boot < 5) && !decide (code.toNat ∈ bootCodes)) = true := by
    simp only [Bool.or_eq_true, decide_eq_true_eq, List.contains_iff_mem] at h3
    simp only [Bool.and_eq_true, decide_eq_true_eq, Bool.not_eq_true', decide_eq_false_iff_not, not_and, not_not]
    intro hb
    exact h3.resolve_left (by omega)
  have h4' : ¬ (s.flt.safe && !decide (code.toNat ∈ safeCodes)) = true := by
    simp only [Bool.or_eq_true, Bool.not_eq_true', List.contains_iff_mem] at h4
    simp only [Bool.and_eq_true, Bool.not_eq_true', decide_eq_false_iff_not, not_and, not_not]
    intro hs
    exact h4.resolve_left (by simp [hs])
  have h2' : ¬ (classOf code.toNat != 0 && !bit (vget s.sec.img 24 0) (classOf code.toNat)) = true := by
    simp only [Bool.or_eq_true, beq_iff_eq] at h2
    simp only [Bool.and_eq_true, bne_iff_ne, Bool.not_eq_true', ne_eq, not_and, Bool.not_eq_false]
    exact fun hc => h2.resolve_left hc
  unfold guarded
  dsimp only
  rw [if_neg (by simp), if_neg (by simp [h1'])]
  simp only [bne_self_eq_false, Bool.false_eq_true, if_false]
  rw [if_neg h2', if_neg h3', if_neg h4', if_neg (by simp [h5])]
  cases hb : blockOf code.toNat a with
  | none => rfl
  | some b =>
    simp only [hb] at h6
    simp [h6]

/-- Submission changes nothing that the checks read. -/
@[simp] theorem admitted_started (code code' : Byte) (a a' : Args) (s : State) : admitted code a (started code' a' s) = admitted code a s := rfl

/-- The end of the host command that runs. -/
theorem endCmd_host (code : Byte) (a : Args) (status q0 q1 : Nat) (s : State) (h : s.mbox.run = some ⟨.host, code, a⟩) :
    endCmd status q0 q1 s = setInt 11 { s with mbox := { s.mbox with run := none, committed := false, cut := false, ready := none, busy := false, done := true, status := BitVec.ofNat 8 status, res0 := w16 q0, res1 := w16 q1 } } := by
  unfold endCmd
  rw [h]

/-- It is an answer. -/
theorem endCmd_answered (code : Byte) (a : Args) (status q0 q1 : Nat) (s : State) (h : s.mbox.run = some ⟨.host, code, a⟩) :
    answered (endCmd status q0 q1 s) status q0 q1 := by
  rw [endCmd_host code a status q0 q1 s h]
  refine ⟨rfl, rfl, rfl, rfl, rfl, rfl, ?_⟩
  simp [setInt, bit, w16]

/-- An admitted command on a free mailbox that needs no hardware ends at once with its own results. -/
theorem mboxRow_ends (code : Byte) (op : Args → State → CmdRes) (a : Args) (s : State) (hf : mboxFree s = true) (ha : admitted code a s = true)
    (hd : (op a (started code a s)).done = true) :
    mboxRow code op a s = endCmd (op a (started code a s)).status (op a (started code a s)).q0 (op a (started code a s)).q1 (op a (started code a s)).st := by
  rw [mboxRow_free code op a s hf]
  unfold serve
  rw [guarded_admitted code op a _ (by simpa using ha)]
  simp only [hd, if_true]

/-- An admitted command on a free mailbox that waits for hardware is past its commit cycle. -/
theorem mboxRow_waits (code : Byte) (op : Args → State → CmdRes) (a : Args) (s : State) (hf : mboxFree s = true) (ha : admitted code a s = true)
    (hd : (op a (started code a s)).done = false) :
    mboxRow code op a s = { (op a (started code a s)).st with mbox := { (op a (started code a s)).st.mbox with committed := true } } := by
  rw [mboxRow_free code op a s hf]
  unfold serve
  rw [guarded_admitted code op a _ (by simpa using ha)]
  simp [hd]

/-- Every numbered check holds. -/
theorem firstFail_none (cs : List Bool) (h : cs.all id = true) : firstFail cs = none := by
  have hi : cs.findIdx (fun c => !c) = cs.length := by
    rw [List.findIdx_eq_length]
    intro x hx
    simp only [List.all_eq_true, id_eq] at h
    simp [h x hx]
  unfold firstFail
  simp [hi]

/-- The command's effect, once its arguments and its checks hold (R431). -/
theorem checked_ok (argsOk : Bool) (checks : List Bool) (s : State) (eff : CmdRes) (ha : argsOk = true) (hc : checks.all id = true) :
    checked argsOk checks s eff = eff := by
  unfold checked
  rw [ha, firstFail_none checks hc]
  rfl

end Sys2Proof.Machine
end

