-- ==== Sys2Proof/Laws/Memory.lean ====
section
/-! SUPPORT. Laws of the addressed memories: what a read gives after a write, and that every write keeps the
canonical form (R360 to R369). -/

namespace Sys2Proof.Machine

/-! ### Reads after writes -/

/-- A byte that lies below every entry reads as an unlisted one. -/
theorem cellGet_below (d : Byte) (a lo : Nat) (m : List Host.Cell) (h : cellsFrom d lo m = true) (ha : a < lo) : cellGet d a m = d := by
  induction m generalizing lo with
  | nil => rfl
  | cons c m ih =>
    obtain ⟨b, w⟩ := c
    simp only [cellsFrom, Bool.and_eq_true, decide_eq_true_eq] at h
    simp only [cellGet]
    rw [if_neg (by omega)]
    exact ih (b + 1) h.2 (by omega)

/-- A byte reads as written, and every other byte as before. -/
theorem cellGet_cellPut (d : Byte) (a b lo : Nat) (v : Byte) (m : List Host.Cell) (h : cellsFrom d lo m = true) :
    cellGet d b (cellPut d a v m) = if b = a then v else cellGet d b m := by
  induction m generalizing lo with
  | nil =>
    simp only [cellPut]
    split
    · rename_i hv; simp [cellGet, hv]
    · simp [cellGet]
  | cons c m ih =>
    obtain ⟨x, w⟩ := c
    simp only [cellsFrom, Bool.and_eq_true, decide_eq_true_eq] at h
    obtain ⟨⟨_, _⟩, h3⟩ := h
    have hb : ∀ y, y < x + 1 → cellGet d y m = d := fun y hy => cellGet_below d y (x + 1) m h3 hy
    simp only [cellPut]
    split
    · rename_i hax
      split
      · rename_i hv
        split
        · rename_i hba
          subst hba
          simp only [cellGet]
          rw [if_neg (by omega), hb b (by omega), hv]
        · rfl
      · simp [cellGet]
    · split
      · rename_i _ hax
        subst hax
        split
        · rename_i hv
          split
          · rename_i hba; subst hba; rw [hb b (by omega), hv]
          · rename_i hba; simp [cellGet, hba]
        · by_cases hba : b = a <;> simp [cellGet, hba]
      · rename_i h1 h2
        simp only [cellGet]
        split
        · rename_i hbx
          subst hbx
          rw [if_neg (by omega)]
        · exact ih (x + 1) h3

/-! ### The canonical form -/

/-- A lower bound may be lowered. -/
theorem cellsFrom_mono (d : Byte) (lo lo' : Nat) (m : List Host.Cell) (h : cellsFrom d lo m = true) (hl : lo' ≤ lo) : cellsFrom d lo' m = true := by
  cases m with
  | nil => rfl
  | cons c m =>
    obtain ⟨x, w⟩ := c
    simp only [cellsFrom, Bool.and_eq_true, decide_eq_true_eq] at h ⊢
    exact ⟨⟨by omega, h.1.2⟩, h.2⟩

/-- A write of one byte keeps the canonical form. -/
theorem cellPut_wf (d : Byte) (a lo : Nat) (v : Byte) (m : List Host.Cell) (h : cellsFrom d lo m = true) (ha : lo ≤ a) : cellsFrom d lo (cellPut d a v m) = true := by
  induction m generalizing lo with
  | nil =>
    simp only [cellPut]
    split
    · rfl
    · rename_i hv; simp [cellsFrom, ha, hv]
  | cons c m ih =>
    obtain ⟨x, w⟩ := c
    have h' := h
    simp only [cellsFrom, Bool.and_eq_true, decide_eq_true_eq] at h
    obtain ⟨⟨h1, h2⟩, h3⟩ := h
    simp only [cellPut]
    split
    · split
      · exact h'
      · rename_i hax hv
        simp only [cellsFrom, Bool.and_eq_true, decide_eq_true_eq]
        exact ⟨⟨ha, by simpa using hv⟩, ⟨by omega, h2⟩, h3⟩
    · split
      · rename_i hax
        subst hax
        split
        · exact cellsFrom_mono d (a + 1) lo m h3 (by omega)
        · rename_i hv
          simp only [cellsFrom, Bool.and_eq_true, decide_eq_true_eq]
          exact ⟨⟨ha, by simpa using hv⟩, h3⟩
      · simp only [cellsFrom, Bool.and_eq_true, decide_eq_true_eq]
        exact ⟨⟨h1, h2⟩, ih (x + 1) h3 (by omega)⟩

/-- A write of several bytes keeps the canonical form. -/
theorem cellPuts_wf (d : Byte) (a : Nat) (vs : List Byte) (m : List Host.Cell) (h : cellsFrom d 0 m = true) : cellsFrom d 0 (cellPuts d a vs m) = true := by
  induction vs generalizing a m with
  | nil => exact h
  | cons v vs ih => exact ih (a + 1) (cellPut d a v m) (cellPut_wf d a 0 v m h (by omega))

/-- A write of several bytes leaves every byte outside them as it was. -/
theorem cellGet_cellPuts (d : Byte) (a b : Nat) (vs : List Byte) (m : List Host.Cell) (h : cellsFrom d 0 m = true) (hb : b < a ∨ a + vs.length ≤ b) :
    cellGet d b (cellPuts d a vs m) = cellGet d b m := by
  induction vs generalizing a m with
  | nil => rfl
  | cons v vs ih =>
    simp only [List.length_cons] at hb
    rw [cellPuts, ih (a + 1) _ (cellPut_wf d a 0 v m h (by omega)) (by omega), cellGet_cellPut d a b 0 v m h, if_neg (by omega)]

end Sys2Proof.Machine
end

