-- ==== Sys2Proof/Laws/State.lean ====
section
/-! SUPPORT. What each update of one block of the state leaves in each field: its new value in the block's field, the old one in
every other (for the store and the queue of commands see also Laws/Store.lean and Laws/Queue.lean). -/

namespace Sys2Proof.Machine

/-! ### updSys -/

@[simp] theorem updSys_sys (f : Sys → Sys) (s : State) : (updSys f s).sys = f s.sys := rfl
@[simp] theorem updSys_clk (f : Sys → Sys) (s : State) : (updSys f s).clk = s.clk := rfl
@[simp] theorem updSys_wheel (f : Sys → Sys) (s : State) : (updSys f s).wheel = s.wheel := rfl
@[simp] theorem updSys_cams (f : Sys → Sys) (s : State) : (updSys f s).cams = s.cams := rfl
@[simp] theorem updSys_pred (f : Sys → Sys) (s : State) : (updSys f s).pred = s.pred := rfl
@[simp] theorem updSys_predPrev (f : Sys → Sys) (s : State) : (updSys f s).predPrev = s.predPrev := rfl
@[simp] theorem updSys_spd (f : Sys → Sys) (s : State) : (updSys f s).spd = s.spd := rfl
@[simp] theorem updSys_geom (f : Sys → Sys) (s : State) : (updSys f s).geom = s.geom := rfl
@[simp] theorem updSys_sched (f : Sys → Sys) (s : State) : (updSys f s).sched = s.sched := rfl
@[simp] theorem updSys_rpt (f : Sys → Sys) (s : State) : (updSys f s).rpt = s.rpt := rfl
@[simp] theorem updSys_cpc (f : Sys → Sys) (s : State) : (updSys f s).cpc = s.cpc := rfl
@[simp] theorem updSys_chan (f : Sys → Sys) (s : State) : (updSys f s).chan = s.chan := rfl
@[simp] theorem updSys_chs (f : Sys → Sys) (s : State) : (updSys f s).chs = s.chs := rfl
@[simp] theorem updSys_lines (f : Sys → Sys) (s : State) : (updSys f s).lines = s.lines := rfl
@[simp] theorem updSys_cdat (f : Sys → Sys) (s : State) : (updSys f s).cdat = s.cdat := rfl
@[simp] theorem updSys_brass (f : Sys → Sys) (s : State) : (updSys f s).brass = s.brass := rfl
@[simp] theorem updSys_diag (f : Sys → Sys) (s : State) : (updSys f s).diag = s.diag := rfl
@[simp] theorem updSys_trip (f : Sys → Sys) (s : State) : (updSys f s).trip = s.trip := rfl
@[simp] theorem updSys_therm (f : Sys → Sys) (s : State) : (updSys f s).therm = s.therm := rfl
@[simp] theorem updSys_tim (f : Sys → Sys) (s : State) : (updSys f s).tim = s.tim := rfl
@[simp] theorem updSys_flt (f : Sys → Sys) (s : State) : (updSys f s).flt = s.flt := rfl
@[simp] theorem updSys_link (f : Sys → Sys) (s : State) : (updSys f s).link = s.link := rfl
@[simp] theorem updSys_sec (f : Sys → Sys) (s : State) : (updSys f s).sec = s.sec := rfl
@[simp] theorem updSys_dbg (f : Sys → Sys) (s : State) : (updSys f s).dbg = s.dbg := rfl
@[simp] theorem updSys_bus (f : Sys → Sys) (s : State) : (updSys f s).bus = s.bus := rfl
@[simp] theorem updSys_mbox (f : Sys → Sys) (s : State) : (updSys f s).mbox = s.mbox := rfl
@[simp] theorem updSys_pins (f : Sys → Sys) (s : State) : (updSys f s).pins = s.pins := rfl
@[simp] theorem updSys_emit (f : Sys → Sys) (s : State) : (updSys f s).emit = s.emit := rfl
@[simp] theorem updSys_leg (f : Sys → Sys) (s : State) : (updSys f s).leg = s.leg := rfl
@[simp] theorem updSys_free (f : Sys → Sys) (s : State) : (updSys f s).free = s.free := rfl

/-! ### updClk -/

@[simp] theorem updClk_sys (f : Clk → Clk) (s : State) : (updClk f s).sys = s.sys := rfl
@[simp] theorem updClk_clk (f : Clk → Clk) (s : State) : (updClk f s).clk = f s.clk := rfl
@[simp] theorem updClk_wheel (f : Clk → Clk) (s : State) : (updClk f s).wheel = s.wheel := rfl
@[simp] theorem updClk_cams (f : Clk → Clk) (s : State) : (updClk f s).cams = s.cams := rfl
@[simp] theorem updClk_pred (f : Clk → Clk) (s : State) : (updClk f s).pred = s.pred := rfl
@[simp] theorem updClk_predPrev (f : Clk → Clk) (s : State) : (updClk f s).predPrev = s.predPrev := rfl
@[simp] theorem updClk_spd (f : Clk → Clk) (s : State) : (updClk f s).spd = s.spd := rfl
@[simp] theorem updClk_geom (f : Clk → Clk) (s : State) : (updClk f s).geom = s.geom := rfl
@[simp] theorem updClk_sched (f : Clk → Clk) (s : State) : (updClk f s).sched = s.sched := rfl
@[simp] theorem updClk_rpt (f : Clk → Clk) (s : State) : (updClk f s).rpt = s.rpt := rfl
@[simp] theorem updClk_cpc (f : Clk → Clk) (s : State) : (updClk f s).cpc = s.cpc := rfl
@[simp] theorem updClk_chan (f : Clk → Clk) (s : State) : (updClk f s).chan = s.chan := rfl
@[simp] theorem updClk_chs (f : Clk → Clk) (s : State) : (updClk f s).chs = s.chs := rfl
@[simp] theorem updClk_lines (f : Clk → Clk) (s : State) : (updClk f s).lines = s.lines := rfl
@[simp] theorem updClk_cdat (f : Clk → Clk) (s : State) : (updClk f s).cdat = s.cdat := rfl
@[simp] theorem updClk_brass (f : Clk → Clk) (s : State) : (updClk f s).brass = s.brass := rfl
@[simp] theorem updClk_diag (f : Clk → Clk) (s : State) : (updClk f s).diag = s.diag := rfl
@[simp] theorem updClk_trip (f : Clk → Clk) (s : State) : (updClk f s).trip = s.trip := rfl
@[simp] theorem updClk_therm (f : Clk → Clk) (s : State) : (updClk f s).therm = s.therm := rfl
@[simp] theorem updClk_tim (f : Clk → Clk) (s : State) : (updClk f s).tim = s.tim := rfl
@[simp] theorem updClk_flt (f : Clk → Clk) (s : State) : (updClk f s).flt = s.flt := rfl
@[simp] theorem updClk_link (f : Clk → Clk) (s : State) : (updClk f s).link = s.link := rfl
@[simp] theorem updClk_sec (f : Clk → Clk) (s : State) : (updClk f s).sec = s.sec := rfl
@[simp] theorem updClk_dbg (f : Clk → Clk) (s : State) : (updClk f s).dbg = s.dbg := rfl
@[simp] theorem updClk_bus (f : Clk → Clk) (s : State) : (updClk f s).bus = s.bus := rfl
@[simp] theorem updClk_mbox (f : Clk → Clk) (s : State) : (updClk f s).mbox = s.mbox := rfl
@[simp] theorem updClk_pins (f : Clk → Clk) (s : State) : (updClk f s).pins = s.pins := rfl
@[simp] theorem updClk_emit (f : Clk → Clk) (s : State) : (updClk f s).emit = s.emit := rfl
@[simp] theorem updClk_leg (f : Clk → Clk) (s : State) : (updClk f s).leg = s.leg := rfl
@[simp] theorem updClk_free (f : Clk → Clk) (s : State) : (updClk f s).free = s.free := rfl

/-! ### updWheel -/

@[simp] theorem updWheel_sys (f : Wheel → Wheel) (s : State) : (updWheel f s).sys = s.sys := rfl
@[simp] theorem updWheel_clk (f : Wheel → Wheel) (s : State) : (updWheel f s).clk = s.clk := rfl
@[simp] theorem updWheel_wheel (f : Wheel → Wheel) (s : State) : (updWheel f s).wheel = f s.wheel := rfl
@[simp] theorem updWheel_cams (f : Wheel → Wheel) (s : State) : (updWheel f s).cams = s.cams := rfl
@[simp] theorem updWheel_pred (f : Wheel → Wheel) (s : State) : (updWheel f s).pred = s.pred := rfl
@[simp] theorem updWheel_predPrev (f : Wheel → Wheel) (s : State) : (updWheel f s).predPrev = s.predPrev := rfl
@[simp] theorem updWheel_spd (f : Wheel → Wheel) (s : State) : (updWheel f s).spd = s.spd := rfl
@[simp] theorem updWheel_geom (f : Wheel → Wheel) (s : State) : (updWheel f s).geom = s.geom := rfl
@[simp] theorem updWheel_sched (f : Wheel → Wheel) (s : State) : (updWheel f s).sched = s.sched := rfl
@[simp] theorem updWheel_rpt (f : Wheel → Wheel) (s : State) : (updWheel f s).rpt = s.rpt := rfl
@[simp] theorem updWheel_cpc (f : Wheel → Wheel) (s : State) : (updWheel f s).cpc = s.cpc := rfl
@[simp] theorem updWheel_chan (f : Wheel → Wheel) (s : State) : (updWheel f s).chan = s.chan := rfl
@[simp] theorem updWheel_chs (f : Wheel → Wheel) (s : State) : (updWheel f s).chs = s.chs := rfl
@[simp] theorem updWheel_lines (f : Wheel → Wheel) (s : State) : (updWheel f s).lines = s.lines := rfl
@[simp] theorem updWheel_cdat (f : Wheel → Wheel) (s : State) : (updWheel f s).cdat = s.cdat := rfl
@[simp] theorem updWheel_brass (f : Wheel → Wheel) (s : State) : (updWheel f s).brass = s.brass := rfl
@[simp] theorem updWheel_diag (f : Wheel → Wheel) (s : State) : (updWheel f s).diag = s.diag := rfl
@[simp] theorem updWheel_trip (f : Wheel → Wheel) (s : State) : (updWheel f s).trip = s.trip := rfl
@[simp] theorem updWheel_therm (f : Wheel → Wheel) (s : State) : (updWheel f s).therm = s.therm := rfl
@[simp] theorem updWheel_tim (f : Wheel → Wheel) (s : State) : (updWheel f s).tim = s.tim := rfl
@[simp] theorem updWheel_flt (f : Wheel → Wheel) (s : State) : (updWheel f s).flt = s.flt := rfl
@[simp] theorem updWheel_link (f : Wheel → Wheel) (s : State) : (updWheel f s).link = s.link := rfl
@[simp] theorem updWheel_sec (f : Wheel → Wheel) (s : State) : (updWheel f s).sec = s.sec := rfl
@[simp] theorem updWheel_dbg (f : Wheel → Wheel) (s : State) : (updWheel f s).dbg = s.dbg := rfl
@[simp] theorem updWheel_bus (f : Wheel → Wheel) (s : State) : (updWheel f s).bus = s.bus := rfl
@[simp] theorem updWheel_mbox (f : Wheel → Wheel) (s : State) : (updWheel f s).mbox = s.mbox := rfl
@[simp] theorem updWheel_pins (f : Wheel → Wheel) (s : State) : (updWheel f s).pins = s.pins := rfl
@[simp] theorem updWheel_emit (f : Wheel → Wheel) (s : State) : (updWheel f s).emit = s.emit := rfl
@[simp] theorem updWheel_leg (f : Wheel → Wheel) (s : State) : (updWheel f s).leg = s.leg := rfl
@[simp] theorem updWheel_free (f : Wheel → Wheel) (s : State) : (updWheel f s).free = s.free := rfl

/-! ### updSlot -/

@[simp] theorem updSlot_sys (i : Fin 64) (f : Slot → Slot) (s : State) : (updSlot i f s).sys = s.sys := rfl
@[simp] theorem updSlot_clk (i : Fin 64) (f : Slot → Slot) (s : State) : (updSlot i f s).clk = s.clk := rfl
@[simp] theorem updSlot_wheel (i : Fin 64) (f : Slot → Slot) (s : State) : (updSlot i f s).wheel = s.wheel := rfl
@[simp] theorem updSlot_cams (i : Fin 64) (f : Slot → Slot) (s : State) : (updSlot i f s).cams = s.cams := rfl
@[simp] theorem updSlot_pred (i : Fin 64) (f : Slot → Slot) (s : State) : (updSlot i f s).pred = s.pred := rfl
@[simp] theorem updSlot_predPrev (i : Fin 64) (f : Slot → Slot) (s : State) : (updSlot i f s).predPrev = s.predPrev := rfl
@[simp] theorem updSlot_spd (i : Fin 64) (f : Slot → Slot) (s : State) : (updSlot i f s).spd = s.spd := rfl
@[simp] theorem updSlot_geom (i : Fin 64) (f : Slot → Slot) (s : State) : (updSlot i f s).geom = s.geom := rfl
@[simp] theorem updSlot_sched (i : Fin 64) (f : Slot → Slot) (s : State) : (updSlot i f s).sched = { s.sched with slots := vupd s.sched.slots i f } := rfl
@[simp] theorem updSlot_rpt (i : Fin 64) (f : Slot → Slot) (s : State) : (updSlot i f s).rpt = s.rpt := rfl
@[simp] theorem updSlot_cpc (i : Fin 64) (f : Slot → Slot) (s : State) : (updSlot i f s).cpc = s.cpc := rfl
@[simp] theorem updSlot_chan (i : Fin 64) (f : Slot → Slot) (s : State) : (updSlot i f s).chan = s.chan := rfl
@[simp] theorem updSlot_chs (i : Fin 64) (f : Slot → Slot) (s : State) : (updSlot i f s).chs = s.chs := rfl
@[simp] theorem updSlot_lines (i : Fin 64) (f : Slot → Slot) (s : State) : (updSlot i f s).lines = s.lines := rfl
@[simp] theorem updSlot_cdat (i : Fin 64) (f : Slot → Slot) (s : State) : (updSlot i f s).cdat = s.cdat := rfl
@[simp] theorem updSlot_brass (i : Fin 64) (f : Slot → Slot) (s : State) : (updSlot i f s).brass = s.brass := rfl
@[simp] theorem updSlot_diag (i : Fin 64) (f : Slot → Slot) (s : State) : (updSlot i f s).diag = s.diag := rfl
@[simp] theorem updSlot_trip (i : Fin 64) (f : Slot → Slot) (s : State) : (updSlot i f s).trip = s.trip := rfl
@[simp] theorem updSlot_therm (i : Fin 64) (f : Slot → Slot) (s : State) : (updSlot i f s).therm = s.therm := rfl
@[simp] theorem updSlot_tim (i : Fin 64) (f : Slot → Slot) (s : State) : (updSlot i f s).tim = s.tim := rfl
@[simp] theorem updSlot_flt (i : Fin 64) (f : Slot → Slot) (s : State) : (updSlot i f s).flt = s.flt := rfl
@[simp] theorem updSlot_link (i : Fin 64) (f : Slot → Slot) (s : State) : (updSlot i f s).link = s.link := rfl
@[simp] theorem updSlot_sec (i : Fin 64) (f : Slot → Slot) (s : State) : (updSlot i f s).sec = s.sec := rfl
@[simp] theorem updSlot_dbg (i : Fin 64) (f : Slot → Slot) (s : State) : (updSlot i f s).dbg = s.dbg := rfl
@[simp] theorem updSlot_bus (i : Fin 64) (f : Slot → Slot) (s : State) : (updSlot i f s).bus = s.bus := rfl
@[simp] theorem updSlot_mbox (i : Fin 64) (f : Slot → Slot) (s : State) : (updSlot i f s).mbox = s.mbox := rfl
@[simp] theorem updSlot_pins (i : Fin 64) (f : Slot → Slot) (s : State) : (updSlot i f s).pins = s.pins := rfl
@[simp] theorem updSlot_emit (i : Fin 64) (f : Slot → Slot) (s : State) : (updSlot i f s).emit = s.emit := rfl
@[simp] theorem updSlot_leg (i : Fin 64) (f : Slot → Slot) (s : State) : (updSlot i f s).leg = s.leg := rfl
@[simp] theorem updSlot_free (i : Fin 64) (f : Slot → Slot) (s : State) : (updSlot i f s).free = s.free := rfl

/-! ### updCpc -/

@[simp] theorem updCpc_sys (c : Fin 4) (f : CpcCam → CpcCam) (s : State) : (updCpc c f s).sys = s.sys := rfl
@[simp] theorem updCpc_clk (c : Fin 4) (f : CpcCam → CpcCam) (s : State) : (updCpc c f s).clk = s.clk := rfl
@[simp] theorem updCpc_wheel (c : Fin 4) (f : CpcCam → CpcCam) (s : State) : (updCpc c f s).wheel = s.wheel := rfl
@[simp] theorem updCpc_cams (c : Fin 4) (f : CpcCam → CpcCam) (s : State) : (updCpc c f s).cams = s.cams := rfl
@[simp] theorem updCpc_pred (c : Fin 4) (f : CpcCam → CpcCam) (s : State) : (updCpc c f s).pred = s.pred := rfl
@[simp] theorem updCpc_predPrev (c : Fin 4) (f : CpcCam → CpcCam) (s : State) : (updCpc c f s).predPrev = s.predPrev := rfl
@[simp] theorem updCpc_spd (c : Fin 4) (f : CpcCam → CpcCam) (s : State) : (updCpc c f s).spd = s.spd := rfl
@[simp] theorem updCpc_geom (c : Fin 4) (f : CpcCam → CpcCam) (s : State) : (updCpc c f s).geom = s.geom := rfl
@[simp] theorem updCpc_sched (c : Fin 4) (f : CpcCam → CpcCam) (s : State) : (updCpc c f s).sched = s.sched := rfl
@[simp] theorem updCpc_rpt (c : Fin 4) (f : CpcCam → CpcCam) (s : State) : (updCpc c f s).rpt = s.rpt := rfl
@[simp] theorem updCpc_cpc (c : Fin 4) (f : CpcCam → CpcCam) (s : State) : (updCpc c f s).cpc = { s.cpc with cams := vupd s.cpc.cams c f } := rfl
@[simp] theorem updCpc_chan (c : Fin 4) (f : CpcCam → CpcCam) (s : State) : (updCpc c f s).chan = s.chan := rfl
@[simp] theorem updCpc_chs (c : Fin 4) (f : CpcCam → CpcCam) (s : State) : (updCpc c f s).chs = s.chs := rfl
@[simp] theorem updCpc_lines (c : Fin 4) (f : CpcCam → CpcCam) (s : State) : (updCpc c f s).lines = s.lines := rfl
@[simp] theorem updCpc_cdat (c : Fin 4) (f : CpcCam → CpcCam) (s : State) : (updCpc c f s).cdat = s.cdat := rfl
@[simp] theorem updCpc_brass (c : Fin 4) (f : CpcCam → CpcCam) (s : State) : (updCpc c f s).brass = s.brass := rfl
@[simp] theorem updCpc_diag (c : Fin 4) (f : CpcCam → CpcCam) (s : State) : (updCpc c f s).diag = s.diag := rfl
@[simp] theorem updCpc_trip (c : Fin 4) (f : CpcCam → CpcCam) (s : State) : (updCpc c f s).trip = s.trip := rfl
@[simp] theorem updCpc_therm (c : Fin 4) (f : CpcCam → CpcCam) (s : State) : (updCpc c f s).therm = s.therm := rfl
@[simp] theorem updCpc_tim (c : Fin 4) (f : CpcCam → CpcCam) (s : State) : (updCpc c f s).tim = s.tim := rfl
@[simp] theorem updCpc_flt (c : Fin 4) (f : CpcCam → CpcCam) (s : State) : (updCpc c f s).flt = s.flt := rfl
@[simp] theorem updCpc_link (c : Fin 4) (f : CpcCam → CpcCam) (s : State) : (updCpc c f s).link = s.link := rfl
@[simp] theorem updCpc_sec (c : Fin 4) (f : CpcCam → CpcCam) (s : State) : (updCpc c f s).sec = s.sec := rfl
@[simp] theorem updCpc_dbg (c : Fin 4) (f : CpcCam → CpcCam) (s : State) : (updCpc c f s).dbg = s.dbg := rfl
@[simp] theorem updCpc_bus (c : Fin 4) (f : CpcCam → CpcCam) (s : State) : (updCpc c f s).bus = s.bus := rfl
@[simp] theorem updCpc_mbox (c : Fin 4) (f : CpcCam → CpcCam) (s : State) : (updCpc c f s).mbox = s.mbox := rfl
@[simp] theorem updCpc_pins (c : Fin 4) (f : CpcCam → CpcCam) (s : State) : (updCpc c f s).pins = s.pins := rfl
@[simp] theorem updCpc_emit (c : Fin 4) (f : CpcCam → CpcCam) (s : State) : (updCpc c f s).emit = s.emit := rfl
@[simp] theorem updCpc_leg (c : Fin 4) (f : CpcCam → CpcCam) (s : State) : (updCpc c f s).leg = s.leg := rfl
@[simp] theorem updCpc_free (c : Fin 4) (f : CpcCam → CpcCam) (s : State) : (updCpc c f s).free = s.free := rfl

/-! ### updWin -/

@[simp] theorem updWin_sys (w : Fin 8) (f : Win → Win) (s : State) : (updWin w f s).sys = s.sys := rfl
@[simp] theorem updWin_clk (w : Fin 8) (f : Win → Win) (s : State) : (updWin w f s).clk = s.clk := rfl
@[simp] theorem updWin_wheel (w : Fin 8) (f : Win → Win) (s : State) : (updWin w f s).wheel = s.wheel := rfl
@[simp] theorem updWin_cams (w : Fin 8) (f : Win → Win) (s : State) : (updWin w f s).cams = s.cams := rfl
@[simp] theorem updWin_pred (w : Fin 8) (f : Win → Win) (s : State) : (updWin w f s).pred = s.pred := rfl
@[simp] theorem updWin_predPrev (w : Fin 8) (f : Win → Win) (s : State) : (updWin w f s).predPrev = s.predPrev := rfl
@[simp] theorem updWin_spd (w : Fin 8) (f : Win → Win) (s : State) : (updWin w f s).spd = s.spd := rfl
@[simp] theorem updWin_geom (w : Fin 8) (f : Win → Win) (s : State) : (updWin w f s).geom = s.geom := rfl
@[simp] theorem updWin_sched (w : Fin 8) (f : Win → Win) (s : State) : (updWin w f s).sched = s.sched := rfl
@[simp] theorem updWin_rpt (w : Fin 8) (f : Win → Win) (s : State) : (updWin w f s).rpt = s.rpt := rfl
@[simp] theorem updWin_cpc (w : Fin 8) (f : Win → Win) (s : State) : (updWin w f s).cpc = { s.cpc with wins := vupd s.cpc.wins w f } := rfl
@[simp] theorem updWin_chan (w : Fin 8) (f : Win → Win) (s : State) : (updWin w f s).chan = s.chan := rfl
@[simp] theorem updWin_chs (w : Fin 8) (f : Win → Win) (s : State) : (updWin w f s).chs = s.chs := rfl
@[simp] theorem updWin_lines (w : Fin 8) (f : Win → Win) (s : State) : (updWin w f s).lines = s.lines := rfl
@[simp] theorem updWin_cdat (w : Fin 8) (f : Win → Win) (s : State) : (updWin w f s).cdat = s.cdat := rfl
@[simp] theorem updWin_brass (w : Fin 8) (f : Win → Win) (s : State) : (updWin w f s).brass = s.brass := rfl
@[simp] theorem updWin_diag (w : Fin 8) (f : Win → Win) (s : State) : (updWin w f s).diag = s.diag := rfl
@[simp] theorem updWin_trip (w : Fin 8) (f : Win → Win) (s : State) : (updWin w f s).trip = s.trip := rfl
@[simp] theorem updWin_therm (w : Fin 8) (f : Win → Win) (s : State) : (updWin w f s).therm = s.therm := rfl
@[simp] theorem updWin_tim (w : Fin 8) (f : Win → Win) (s : State) : (updWin w f s).tim = s.tim := rfl
@[simp] theorem updWin_flt (w : Fin 8) (f : Win → Win) (s : State) : (updWin w f s).flt = s.flt := rfl
@[simp] theorem updWin_link (w : Fin 8) (f : Win → Win) (s : State) : (updWin w f s).link = s.link := rfl
@[simp] theorem updWin_sec (w : Fin 8) (f : Win → Win) (s : State) : (updWin w f s).sec = s.sec := rfl
@[simp] theorem updWin_dbg (w : Fin 8) (f : Win → Win) (s : State) : (updWin w f s).dbg = s.dbg := rfl
@[simp] theorem updWin_bus (w : Fin 8) (f : Win → Win) (s : State) : (updWin w f s).bus = s.bus := rfl
@[simp] theorem updWin_mbox (w : Fin 8) (f : Win → Win) (s : State) : (updWin w f s).mbox = s.mbox := rfl
@[simp] theorem updWin_pins (w : Fin 8) (f : Win → Win) (s : State) : (updWin w f s).pins = s.pins := rfl
@[simp] theorem updWin_emit (w : Fin 8) (f : Win → Win) (s : State) : (updWin w f s).emit = s.emit := rfl
@[simp] theorem updWin_leg (w : Fin 8) (f : Win → Win) (s : State) : (updWin w f s).leg = s.leg := rfl
@[simp] theorem updWin_free (w : Fin 8) (f : Win → Win) (s : State) : (updWin w f s).free = s.free := rfl

/-! ### updChan -/

@[simp] theorem updChan_sys (n : Fin 12) (f : Chan → Chan) (s : State) : (updChan n f s).sys = s.sys := rfl
@[simp] theorem updChan_clk (n : Fin 12) (f : Chan → Chan) (s : State) : (updChan n f s).clk = s.clk := rfl
@[simp] theorem updChan_wheel (n : Fin 12) (f : Chan → Chan) (s : State) : (updChan n f s).wheel = s.wheel := rfl
@[simp] theorem updChan_cams (n : Fin 12) (f : Chan → Chan) (s : State) : (updChan n f s).cams = s.cams := rfl
@[simp] theorem updChan_pred (n : Fin 12) (f : Chan → Chan) (s : State) : (updChan n f s).pred = s.pred := rfl
@[simp] theorem updChan_predPrev (n : Fin 12) (f : Chan → Chan) (s : State) : (updChan n f s).predPrev = s.predPrev := rfl
@[simp] theorem updChan_spd (n : Fin 12) (f : Chan → Chan) (s : State) : (updChan n f s).spd = s.spd := rfl
@[simp] theorem updChan_geom (n : Fin 12) (f : Chan → Chan) (s : State) : (updChan n f s).geom = s.geom := rfl
@[simp] theorem updChan_sched (n : Fin 12) (f : Chan → Chan) (s : State) : (updChan n f s).sched = s.sched := rfl
@[simp] theorem updChan_rpt (n : Fin 12) (f : Chan → Chan) (s : State) : (updChan n f s).rpt = s.rpt := rfl
@[simp] theorem updChan_cpc (n : Fin 12) (f : Chan → Chan) (s : State) : (updChan n f s).cpc = s.cpc := rfl
@[simp] theorem updChan_chan (n : Fin 12) (f : Chan → Chan) (s : State) : (updChan n f s).chan = vupd s.chan n f := rfl
@[simp] theorem updChan_chs (n : Fin 12) (f : Chan → Chan) (s : State) : (updChan n f s).chs = s.chs := rfl
@[simp] theorem updChan_lines (n : Fin 12) (f : Chan → Chan) (s : State) : (updChan n f s).lines = s.lines := rfl
@[simp] theorem updChan_cdat (n : Fin 12) (f : Chan → Chan) (s : State) : (updChan n f s).cdat = s.cdat := rfl
@[simp] theorem updChan_brass (n : Fin 12) (f : Chan → Chan) (s : State) : (updChan n f s).brass = s.brass := rfl
@[simp] theorem updChan_diag (n : Fin 12) (f : Chan → Chan) (s : State) : (updChan n f s).diag = s.diag := rfl
@[simp] theorem updChan_trip (n : Fin 12) (f : Chan → Chan) (s : State) : (updChan n f s).trip = s.trip := rfl
@[simp] theorem updChan_therm (n : Fin 12) (f : Chan → Chan) (s : State) : (updChan n f s).therm = s.therm := rfl
@[simp] theorem updChan_tim (n : Fin 12) (f : Chan → Chan) (s : State) : (updChan n f s).tim = s.tim := rfl
@[simp] theorem updChan_flt (n : Fin 12) (f : Chan → Chan) (s : State) : (updChan n f s).flt = s.flt := rfl
@[simp] theorem updChan_link (n : Fin 12) (f : Chan → Chan) (s : State) : (updChan n f s).link = s.link := rfl
@[simp] theorem updChan_sec (n : Fin 12) (f : Chan → Chan) (s : State) : (updChan n f s).sec = s.sec := rfl
@[simp] theorem updChan_dbg (n : Fin 12) (f : Chan → Chan) (s : State) : (updChan n f s).dbg = s.dbg := rfl
@[simp] theorem updChan_bus (n : Fin 12) (f : Chan → Chan) (s : State) : (updChan n f s).bus = s.bus := rfl
@[simp] theorem updChan_mbox (n : Fin 12) (f : Chan → Chan) (s : State) : (updChan n f s).mbox = s.mbox := rfl
@[simp] theorem updChan_pins (n : Fin 12) (f : Chan → Chan) (s : State) : (updChan n f s).pins = s.pins := rfl
@[simp] theorem updChan_emit (n : Fin 12) (f : Chan → Chan) (s : State) : (updChan n f s).emit = s.emit := rfl
@[simp] theorem updChan_leg (n : Fin 12) (f : Chan → Chan) (s : State) : (updChan n f s).leg = s.leg := rfl
@[simp] theorem updChan_free (n : Fin 12) (f : Chan → Chan) (s : State) : (updChan n f s).free = s.free := rfl

/-! ### updProg -/

@[simp] theorem updProg_sys (n : Fin 12) (f : Prog → Prog) (s : State) : (updProg n f s).sys = s.sys := rfl
@[simp] theorem updProg_clk (n : Fin 12) (f : Prog → Prog) (s : State) : (updProg n f s).clk = s.clk := rfl
@[simp] theorem updProg_wheel (n : Fin 12) (f : Prog → Prog) (s : State) : (updProg n f s).wheel = s.wheel := rfl
@[simp] theorem updProg_cams (n : Fin 12) (f : Prog → Prog) (s : State) : (updProg n f s).cams = s.cams := rfl
@[simp] theorem updProg_pred (n : Fin 12) (f : Prog → Prog) (s : State) : (updProg n f s).pred = s.pred := rfl
@[simp] theorem updProg_predPrev (n : Fin 12) (f : Prog → Prog) (s : State) : (updProg n f s).predPrev = s.predPrev := rfl
@[simp] theorem updProg_spd (n : Fin 12) (f : Prog → Prog) (s : State) : (updProg n f s).spd = s.spd := rfl
@[simp] theorem updProg_geom (n : Fin 12) (f : Prog → Prog) (s : State) : (updProg n f s).geom = s.geom := rfl
@[simp] theorem updProg_sched (n : Fin 12) (f : Prog → Prog) (s : State) : (updProg n f s).sched = s.sched := rfl
@[simp] theorem updProg_rpt (n : Fin 12) (f : Prog → Prog) (s : State) : (updProg n f s).rpt = s.rpt := rfl
@[simp] theorem updProg_cpc (n : Fin 12) (f : Prog → Prog) (s : State) : (updProg n f s).cpc = s.cpc := rfl
@[simp] theorem updProg_chan (n : Fin 12) (f : Prog → Prog) (s : State) : (updProg n f s).chan = vupd s.chan n fun c => { c with prog := f c.prog } := rfl
@[simp] theorem updProg_chs (n : Fin 12) (f : Prog → Prog) (s : State) : (updProg n f s).chs = s.chs := rfl
@[simp] theorem updProg_lines (n : Fin 12) (f : Prog → Prog) (s : State) : (updProg n f s).lines = s.lines := rfl
@[simp] theorem updProg_cdat (n : Fin 12) (f : Prog → Prog) (s : State) : (updProg n f s).cdat = s.cdat := rfl
@[simp] theorem updProg_brass (n : Fin 12) (f : Prog → Prog) (s : State) : (updProg n f s).brass = s.brass := rfl
@[simp] theorem updProg_diag (n : Fin 12) (f : Prog → Prog) (s : State) : (updProg n f s).diag = s.diag := rfl
@[simp] theorem updProg_trip (n : Fin 12) (f : Prog → Prog) (s : State) : (updProg n f s).trip = s.trip := rfl
@[simp] theorem updProg_therm (n : Fin 12) (f : Prog → Prog) (s : State) : (updProg n f s).therm = s.therm := rfl
@[simp] theorem updProg_tim (n : Fin 12) (f : Prog → Prog) (s : State) : (updProg n f s).tim = s.tim := rfl
@[simp] theorem updProg_flt (n : Fin 12) (f : Prog → Prog) (s : State) : (updProg n f s).flt = s.flt := rfl
@[simp] theorem updProg_link (n : Fin 12) (f : Prog → Prog) (s : State) : (updProg n f s).link = s.link := rfl
@[simp] theorem updProg_sec (n : Fin 12) (f : Prog → Prog) (s : State) : (updProg n f s).sec = s.sec := rfl
@[simp] theorem updProg_dbg (n : Fin 12) (f : Prog → Prog) (s : State) : (updProg n f s).dbg = s.dbg := rfl
@[simp] theorem updProg_bus (n : Fin 12) (f : Prog → Prog) (s : State) : (updProg n f s).bus = s.bus := rfl
@[simp] theorem updProg_mbox (n : Fin 12) (f : Prog → Prog) (s : State) : (updProg n f s).mbox = s.mbox := rfl
@[simp] theorem updProg_pins (n : Fin 12) (f : Prog → Prog) (s : State) : (updProg n f s).pins = s.pins := rfl
@[simp] theorem updProg_emit (n : Fin 12) (f : Prog → Prog) (s : State) : (updProg n f s).emit = s.emit := rfl
@[simp] theorem updProg_leg (n : Fin 12) (f : Prog → Prog) (s : State) : (updProg n f s).leg = s.leg := rfl
@[simp] theorem updProg_free (n : Fin 12) (f : Prog → Prog) (s : State) : (updProg n f s).free = s.free := rfl

/-! ### updLine -/

@[simp] theorem updLine_sys (n : Fin 8) (f : Line → Line) (s : State) : (updLine n f s).sys = s.sys := rfl
@[simp] theorem updLine_clk (n : Fin 8) (f : Line → Line) (s : State) : (updLine n f s).clk = s.clk := rfl
@[simp] theorem updLine_wheel (n : Fin 8) (f : Line → Line) (s : State) : (updLine n f s).wheel = s.wheel := rfl
@[simp] theorem updLine_cams (n : Fin 8) (f : Line → Line) (s : State) : (updLine n f s).cams = s.cams := rfl
@[simp] theorem updLine_pred (n : Fin 8) (f : Line → Line) (s : State) : (updLine n f s).pred = s.pred := rfl
@[simp] theorem updLine_predPrev (n : Fin 8) (f : Line → Line) (s : State) : (updLine n f s).predPrev = s.predPrev := rfl
@[simp] theorem updLine_spd (n : Fin 8) (f : Line → Line) (s : State) : (updLine n f s).spd = s.spd := rfl
@[simp] theorem updLine_geom (n : Fin 8) (f : Line → Line) (s : State) : (updLine n f s).geom = s.geom := rfl
@[simp] theorem updLine_sched (n : Fin 8) (f : Line → Line) (s : State) : (updLine n f s).sched = s.sched := rfl
@[simp] theorem updLine_rpt (n : Fin 8) (f : Line → Line) (s : State) : (updLine n f s).rpt = s.rpt := rfl
@[simp] theorem updLine_cpc (n : Fin 8) (f : Line → Line) (s : State) : (updLine n f s).cpc = s.cpc := rfl
@[simp] theorem updLine_chan (n : Fin 8) (f : Line → Line) (s : State) : (updLine n f s).chan = s.chan := rfl
@[simp] theorem updLine_chs (n : Fin 8) (f : Line → Line) (s : State) : (updLine n f s).chs = s.chs := rfl
@[simp] theorem updLine_lines (n : Fin 8) (f : Line → Line) (s : State) : (updLine n f s).lines = vupd s.lines n f := rfl
@[simp] theorem updLine_cdat (n : Fin 8) (f : Line → Line) (s : State) : (updLine n f s).cdat = s.cdat := rfl
@[simp] theorem updLine_brass (n : Fin 8) (f : Line → Line) (s : State) : (updLine n f s).brass = s.brass := rfl
@[simp] theorem updLine_diag (n : Fin 8) (f : Line → Line) (s : State) : (updLine n f s).diag = s.diag := rfl
@[simp] theorem updLine_trip (n : Fin 8) (f : Line → Line) (s : State) : (updLine n f s).trip = s.trip := rfl
@[simp] theorem updLine_therm (n : Fin 8) (f : Line → Line) (s : State) : (updLine n f s).therm = s.therm := rfl
@[simp] theorem updLine_tim (n : Fin 8) (f : Line → Line) (s : State) : (updLine n f s).tim = s.tim := rfl
@[simp] theorem updLine_flt (n : Fin 8) (f : Line → Line) (s : State) : (updLine n f s).flt = s.flt := rfl
@[simp] theorem updLine_link (n : Fin 8) (f : Line → Line) (s : State) : (updLine n f s).link = s.link := rfl
@[simp] theorem updLine_sec (n : Fin 8) (f : Line → Line) (s : State) : (updLine n f s).sec = s.sec := rfl
@[simp] theorem updLine_dbg (n : Fin 8) (f : Line → Line) (s : State) : (updLine n f s).dbg = s.dbg := rfl
@[simp] theorem updLine_bus (n : Fin 8) (f : Line → Line) (s : State) : (updLine n f s).bus = s.bus := rfl
@[simp] theorem updLine_mbox (n : Fin 8) (f : Line → Line) (s : State) : (updLine n f s).mbox = s.mbox := rfl
@[simp] theorem updLine_pins (n : Fin 8) (f : Line → Line) (s : State) : (updLine n f s).pins = s.pins := rfl
@[simp] theorem updLine_emit (n : Fin 8) (f : Line → Line) (s : State) : (updLine n f s).emit = s.emit := rfl
@[simp] theorem updLine_leg (n : Fin 8) (f : Line → Line) (s : State) : (updLine n f s).leg = s.leg := rfl
@[simp] theorem updLine_free (n : Fin 8) (f : Line → Line) (s : State) : (updLine n f s).free = s.free := rfl

/-! ### updDiag -/

@[simp] theorem updDiag_sys (n : Fin 8) (f : DiagCh → DiagCh) (s : State) : (updDiag n f s).sys = s.sys := rfl
@[simp] theorem updDiag_clk (n : Fin 8) (f : DiagCh → DiagCh) (s : State) : (updDiag n f s).clk = s.clk := rfl
@[simp] theorem updDiag_wheel (n : Fin 8) (f : DiagCh → DiagCh) (s : State) : (updDiag n f s).wheel = s.wheel := rfl
@[simp] theorem updDiag_cams (n : Fin 8) (f : DiagCh → DiagCh) (s : State) : (updDiag n f s).cams = s.cams := rfl
@[simp] theorem updDiag_pred (n : Fin 8) (f : DiagCh → DiagCh) (s : State) : (updDiag n f s).pred = s.pred := rfl
@[simp] theorem updDiag_predPrev (n : Fin 8) (f : DiagCh → DiagCh) (s : State) : (updDiag n f s).predPrev = s.predPrev := rfl
@[simp] theorem updDiag_spd (n : Fin 8) (f : DiagCh → DiagCh) (s : State) : (updDiag n f s).spd = s.spd := rfl
@[simp] theorem updDiag_geom (n : Fin 8) (f : DiagCh → DiagCh) (s : State) : (updDiag n f s).geom = s.geom := rfl
@[simp] theorem updDiag_sched (n : Fin 8) (f : DiagCh → DiagCh) (s : State) : (updDiag n f s).sched = s.sched := rfl
@[simp] theorem updDiag_rpt (n : Fin 8) (f : DiagCh → DiagCh) (s : State) : (updDiag n f s).rpt = s.rpt := rfl
@[simp] theorem updDiag_cpc (n : Fin 8) (f : DiagCh → DiagCh) (s : State) : (updDiag n f s).cpc = s.cpc := rfl
@[simp] theorem updDiag_chan (n : Fin 8) (f : DiagCh → DiagCh) (s : State) : (updDiag n f s).chan = s.chan := rfl
@[simp] theorem updDiag_chs (n : Fin 8) (f : DiagCh → DiagCh) (s : State) : (updDiag n f s).chs = s.chs := rfl
@[simp] theorem updDiag_lines (n : Fin 8) (f : DiagCh → DiagCh) (s : State) : (updDiag n f s).lines = s.lines := rfl
@[simp] theorem updDiag_cdat (n : Fin 8) (f : DiagCh → DiagCh) (s : State) : (updDiag n f s).cdat = s.cdat := rfl
@[simp] theorem updDiag_brass (n : Fin 8) (f : DiagCh → DiagCh) (s : State) : (updDiag n f s).brass = s.brass := rfl
@[simp] theorem updDiag_diag (n : Fin 8) (f : DiagCh → DiagCh) (s : State) : (updDiag n f s).diag = { s.diag with ch := vupd s.diag.ch n f } := rfl
@[simp] theorem updDiag_trip (n : Fin 8) (f : DiagCh → DiagCh) (s : State) : (updDiag n f s).trip = s.trip := rfl
@[simp] theorem updDiag_therm (n : Fin 8) (f : DiagCh → DiagCh) (s : State) : (updDiag n f s).therm = s.therm := rfl
@[simp] theorem updDiag_tim (n : Fin 8) (f : DiagCh → DiagCh) (s : State) : (updDiag n f s).tim = s.tim := rfl
@[simp] theorem updDiag_flt (n : Fin 8) (f : DiagCh → DiagCh) (s : State) : (updDiag n f s).flt = s.flt := rfl
@[simp] theorem updDiag_link (n : Fin 8) (f : DiagCh → DiagCh) (s : State) : (updDiag n f s).link = s.link := rfl
@[simp] theorem updDiag_sec (n : Fin 8) (f : DiagCh → DiagCh) (s : State) : (updDiag n f s).sec = s.sec := rfl
@[simp] theorem updDiag_dbg (n : Fin 8) (f : DiagCh → DiagCh) (s : State) : (updDiag n f s).dbg = s.dbg := rfl
@[simp] theorem updDiag_bus (n : Fin 8) (f : DiagCh → DiagCh) (s : State) : (updDiag n f s).bus = s.bus := rfl
@[simp] theorem updDiag_mbox (n : Fin 8) (f : DiagCh → DiagCh) (s : State) : (updDiag n f s).mbox = s.mbox := rfl
@[simp] theorem updDiag_pins (n : Fin 8) (f : DiagCh → DiagCh) (s : State) : (updDiag n f s).pins = s.pins := rfl
@[simp] theorem updDiag_emit (n : Fin 8) (f : DiagCh → DiagCh) (s : State) : (updDiag n f s).emit = s.emit := rfl
@[simp] theorem updDiag_leg (n : Fin 8) (f : DiagCh → DiagCh) (s : State) : (updDiag n f s).leg = s.leg := rfl
@[simp] theorem updDiag_free (n : Fin 8) (f : DiagCh → DiagCh) (s : State) : (updDiag n f s).free = s.free := rfl

/-! ### updTh -/

@[simp] theorem updTh_sys (f : Fin 8 → ThCh → ThCh) (s : State) : (updTh f s).sys = s.sys := rfl
@[simp] theorem updTh_clk (f : Fin 8 → ThCh → ThCh) (s : State) : (updTh f s).clk = s.clk := rfl
@[simp] theorem updTh_wheel (f : Fin 8 → ThCh → ThCh) (s : State) : (updTh f s).wheel = s.wheel := rfl
@[simp] theorem updTh_cams (f : Fin 8 → ThCh → ThCh) (s : State) : (updTh f s).cams = s.cams := rfl
@[simp] theorem updTh_pred (f : Fin 8 → ThCh → ThCh) (s : State) : (updTh f s).pred = s.pred := rfl
@[simp] theorem updTh_predPrev (f : Fin 8 → ThCh → ThCh) (s : State) : (updTh f s).predPrev = s.predPrev := rfl
@[simp] theorem updTh_spd (f : Fin 8 → ThCh → ThCh) (s : State) : (updTh f s).spd = s.spd := rfl
@[simp] theorem updTh_geom (f : Fin 8 → ThCh → ThCh) (s : State) : (updTh f s).geom = s.geom := rfl
@[simp] theorem updTh_sched (f : Fin 8 → ThCh → ThCh) (s : State) : (updTh f s).sched = s.sched := rfl
@[simp] theorem updTh_rpt (f : Fin 8 → ThCh → ThCh) (s : State) : (updTh f s).rpt = s.rpt := rfl
@[simp] theorem updTh_cpc (f : Fin 8 → ThCh → ThCh) (s : State) : (updTh f s).cpc = s.cpc := rfl
@[simp] theorem updTh_chan (f : Fin 8 → ThCh → ThCh) (s : State) : (updTh f s).chan = s.chan := rfl
@[simp] theorem updTh_chs (f : Fin 8 → ThCh → ThCh) (s : State) : (updTh f s).chs = s.chs := rfl
@[simp] theorem updTh_lines (f : Fin 8 → ThCh → ThCh) (s : State) : (updTh f s).lines = s.lines := rfl
@[simp] theorem updTh_cdat (f : Fin 8 → ThCh → ThCh) (s : State) : (updTh f s).cdat = s.cdat := rfl
@[simp] theorem updTh_brass (f : Fin 8 → ThCh → ThCh) (s : State) : (updTh f s).brass = s.brass := rfl
@[simp] theorem updTh_diag (f : Fin 8 → ThCh → ThCh) (s : State) : (updTh f s).diag = s.diag := rfl
@[simp] theorem updTh_trip (f : Fin 8 → ThCh → ThCh) (s : State) : (updTh f s).trip = s.trip := rfl
@[simp] theorem updTh_therm (f : Fin 8 → ThCh → ThCh) (s : State) : (updTh f s).therm = { s.therm with ch := vmapi f s.therm.ch } := rfl
@[simp] theorem updTh_tim (f : Fin 8 → ThCh → ThCh) (s : State) : (updTh f s).tim = s.tim := rfl
@[simp] theorem updTh_flt (f : Fin 8 → ThCh → ThCh) (s : State) : (updTh f s).flt = s.flt := rfl
@[simp] theorem updTh_link (f : Fin 8 → ThCh → ThCh) (s : State) : (updTh f s).link = s.link := rfl
@[simp] theorem updTh_sec (f : Fin 8 → ThCh → ThCh) (s : State) : (updTh f s).sec = s.sec := rfl
@[simp] theorem updTh_dbg (f : Fin 8 → ThCh → ThCh) (s : State) : (updTh f s).dbg = s.dbg := rfl
@[simp] theorem updTh_bus (f : Fin 8 → ThCh → ThCh) (s : State) : (updTh f s).bus = s.bus := rfl
@[simp] theorem updTh_mbox (f : Fin 8 → ThCh → ThCh) (s : State) : (updTh f s).mbox = s.mbox := rfl
@[simp] theorem updTh_pins (f : Fin 8 → ThCh → ThCh) (s : State) : (updTh f s).pins = s.pins := rfl
@[simp] theorem updTh_emit (f : Fin 8 → ThCh → ThCh) (s : State) : (updTh f s).emit = s.emit := rfl
@[simp] theorem updTh_leg (f : Fin 8 → ThCh → ThCh) (s : State) : (updTh f s).leg = s.leg := rfl
@[simp] theorem updTh_free (f : Fin 8 → ThCh → ThCh) (s : State) : (updTh f s).free = s.free := rfl

/-! ### updTim -/

@[simp] theorem updTim_sys (k : Fin 8) (f : Timer → Timer) (s : State) : (updTim k f s).sys = s.sys := rfl
@[simp] theorem updTim_clk (k : Fin 8) (f : Timer → Timer) (s : State) : (updTim k f s).clk = s.clk := rfl
@[simp] theorem updTim_wheel (k : Fin 8) (f : Timer → Timer) (s : State) : (updTim k f s).wheel = s.wheel := rfl
@[simp] theorem updTim_cams (k : Fin 8) (f : Timer → Timer) (s : State) : (updTim k f s).cams = s.cams := rfl
@[simp] theorem updTim_pred (k : Fin 8) (f : Timer → Timer) (s : State) : (updTim k f s).pred = s.pred := rfl
@[simp] theorem updTim_predPrev (k : Fin 8) (f : Timer → Timer) (s : State) : (updTim k f s).predPrev = s.predPrev := rfl
@[simp] theorem updTim_spd (k : Fin 8) (f : Timer → Timer) (s : State) : (updTim k f s).spd = s.spd := rfl
@[simp] theorem updTim_geom (k : Fin 8) (f : Timer → Timer) (s : State) : (updTim k f s).geom = s.geom := rfl
@[simp] theorem updTim_sched (k : Fin 8) (f : Timer → Timer) (s : State) : (updTim k f s).sched = s.sched := rfl
@[simp] theorem updTim_rpt (k : Fin 8) (f : Timer → Timer) (s : State) : (updTim k f s).rpt = s.rpt := rfl
@[simp] theorem updTim_cpc (k : Fin 8) (f : Timer → Timer) (s : State) : (updTim k f s).cpc = s.cpc := rfl
@[simp] theorem updTim_chan (k : Fin 8) (f : Timer → Timer) (s : State) : (updTim k f s).chan = s.chan := rfl
@[simp] theorem updTim_chs (k : Fin 8) (f : Timer → Timer) (s : State) : (updTim k f s).chs = s.chs := rfl
@[simp] theorem updTim_lines (k : Fin 8) (f : Timer → Timer) (s : State) : (updTim k f s).lines = s.lines := rfl
@[simp] theorem updTim_cdat (k : Fin 8) (f : Timer → Timer) (s : State) : (updTim k f s).cdat = s.cdat := rfl
@[simp] theorem updTim_brass (k : Fin 8) (f : Timer → Timer) (s : State) : (updTim k f s).brass = s.brass := rfl
@[simp] theorem updTim_diag (k : Fin 8) (f : Timer → Timer) (s : State) : (updTim k f s).diag = s.diag := rfl
@[simp] theorem updTim_trip (k : Fin 8) (f : Timer → Timer) (s : State) : (updTim k f s).trip = s.trip := rfl
@[simp] theorem updTim_therm (k : Fin 8) (f : Timer → Timer) (s : State) : (updTim k f s).therm = s.therm := rfl
@[simp] theorem updTim_tim (k : Fin 8) (f : Timer → Timer) (s : State) : (updTim k f s).tim = { s.tim with t := vupd s.tim.t k f } := rfl
@[simp] theorem updTim_flt (k : Fin 8) (f : Timer → Timer) (s : State) : (updTim k f s).flt = s.flt := rfl
@[simp] theorem updTim_link (k : Fin 8) (f : Timer → Timer) (s : State) : (updTim k f s).link = s.link := rfl
@[simp] theorem updTim_sec (k : Fin 8) (f : Timer → Timer) (s : State) : (updTim k f s).sec = s.sec := rfl
@[simp] theorem updTim_dbg (k : Fin 8) (f : Timer → Timer) (s : State) : (updTim k f s).dbg = s.dbg := rfl
@[simp] theorem updTim_bus (k : Fin 8) (f : Timer → Timer) (s : State) : (updTim k f s).bus = s.bus := rfl
@[simp] theorem updTim_mbox (k : Fin 8) (f : Timer → Timer) (s : State) : (updTim k f s).mbox = s.mbox := rfl
@[simp] theorem updTim_pins (k : Fin 8) (f : Timer → Timer) (s : State) : (updTim k f s).pins = s.pins := rfl
@[simp] theorem updTim_emit (k : Fin 8) (f : Timer → Timer) (s : State) : (updTim k f s).emit = s.emit := rfl
@[simp] theorem updTim_leg (k : Fin 8) (f : Timer → Timer) (s : State) : (updTim k f s).leg = s.leg := rfl
@[simp] theorem updTim_free (k : Fin 8) (f : Timer → Timer) (s : State) : (updTim k f s).free = s.free := rfl

/-! ### updFlt -/

@[simp] theorem updFlt_sys (f : Flt → Flt) (s : State) : (updFlt f s).sys = s.sys := rfl
@[simp] theorem updFlt_clk (f : Flt → Flt) (s : State) : (updFlt f s).clk = s.clk := rfl
@[simp] theorem updFlt_wheel (f : Flt → Flt) (s : State) : (updFlt f s).wheel = s.wheel := rfl
@[simp] theorem updFlt_cams (f : Flt → Flt) (s : State) : (updFlt f s).cams = s.cams := rfl
@[simp] theorem updFlt_pred (f : Flt → Flt) (s : State) : (updFlt f s).pred = s.pred := rfl
@[simp] theorem updFlt_predPrev (f : Flt → Flt) (s : State) : (updFlt f s).predPrev = s.predPrev := rfl
@[simp] theorem updFlt_spd (f : Flt → Flt) (s : State) : (updFlt f s).spd = s.spd := rfl
@[simp] theorem updFlt_geom (f : Flt → Flt) (s : State) : (updFlt f s).geom = s.geom := rfl
@[simp] theorem updFlt_sched (f : Flt → Flt) (s : State) : (updFlt f s).sched = s.sched := rfl
@[simp] theorem updFlt_rpt (f : Flt → Flt) (s : State) : (updFlt f s).rpt = s.rpt := rfl
@[simp] theorem updFlt_cpc (f : Flt → Flt) (s : State) : (updFlt f s).cpc = s.cpc := rfl
@[simp] theorem updFlt_chan (f : Flt → Flt) (s : State) : (updFlt f s).chan = s.chan := rfl
@[simp] theorem updFlt_chs (f : Flt → Flt) (s : State) : (updFlt f s).chs = s.chs := rfl
@[simp] theorem updFlt_lines (f : Flt → Flt) (s : State) : (updFlt f s).lines = s.lines := rfl
@[simp] theorem updFlt_cdat (f : Flt → Flt) (s : State) : (updFlt f s).cdat = s.cdat := rfl
@[simp] theorem updFlt_brass (f : Flt → Flt) (s : State) : (updFlt f s).brass = s.brass := rfl
@[simp] theorem updFlt_diag (f : Flt → Flt) (s : State) : (updFlt f s).diag = s.diag := rfl
@[simp] theorem updFlt_trip (f : Flt → Flt) (s : State) : (updFlt f s).trip = s.trip := rfl
@[simp] theorem updFlt_therm (f : Flt → Flt) (s : State) : (updFlt f s).therm = s.therm := rfl
@[simp] theorem updFlt_tim (f : Flt → Flt) (s : State) : (updFlt f s).tim = s.tim := rfl
@[simp] theorem updFlt_flt (f : Flt → Flt) (s : State) : (updFlt f s).flt = f s.flt := rfl
@[simp] theorem updFlt_link (f : Flt → Flt) (s : State) : (updFlt f s).link = s.link := rfl
@[simp] theorem updFlt_sec (f : Flt → Flt) (s : State) : (updFlt f s).sec = s.sec := rfl
@[simp] theorem updFlt_dbg (f : Flt → Flt) (s : State) : (updFlt f s).dbg = s.dbg := rfl
@[simp] theorem updFlt_bus (f : Flt → Flt) (s : State) : (updFlt f s).bus = s.bus := rfl
@[simp] theorem updFlt_mbox (f : Flt → Flt) (s : State) : (updFlt f s).mbox = s.mbox := rfl
@[simp] theorem updFlt_pins (f : Flt → Flt) (s : State) : (updFlt f s).pins = s.pins := rfl
@[simp] theorem updFlt_emit (f : Flt → Flt) (s : State) : (updFlt f s).emit = s.emit := rfl
@[simp] theorem updFlt_leg (f : Flt → Flt) (s : State) : (updFlt f s).leg = s.leg := rfl
@[simp] theorem updFlt_free (f : Flt → Flt) (s : State) : (updFlt f s).free = s.free := rfl

/-! ### updLink -/

@[simp] theorem updLink_sys (f : Link → Link) (s : State) : (updLink f s).sys = s.sys := rfl
@[simp] theorem updLink_clk (f : Link → Link) (s : State) : (updLink f s).clk = s.clk := rfl
@[simp] theorem updLink_wheel (f : Link → Link) (s : State) : (updLink f s).wheel = s.wheel := rfl
@[simp] theorem updLink_cams (f : Link → Link) (s : State) : (updLink f s).cams = s.cams := rfl
@[simp] theorem updLink_pred (f : Link → Link) (s : State) : (updLink f s).pred = s.pred := rfl
@[simp] theorem updLink_predPrev (f : Link → Link) (s : State) : (updLink f s).predPrev = s.predPrev := rfl
@[simp] theorem updLink_spd (f : Link → Link) (s : State) : (updLink f s).spd = s.spd := rfl
@[simp] theorem updLink_geom (f : Link → Link) (s : State) : (updLink f s).geom = s.geom := rfl
@[simp] theorem updLink_sched (f : Link → Link) (s : State) : (updLink f s).sched = s.sched := rfl
@[simp] theorem updLink_rpt (f : Link → Link) (s : State) : (updLink f s).rpt = s.rpt := rfl
@[simp] theorem updLink_cpc (f : Link → Link) (s : State) : (updLink f s).cpc = s.cpc := rfl
@[simp] theorem updLink_chan (f : Link → Link) (s : State) : (updLink f s).chan = s.chan := rfl
@[simp] theorem updLink_chs (f : Link → Link) (s : State) : (updLink f s).chs = s.chs := rfl
@[simp] theorem updLink_lines (f : Link → Link) (s : State) : (updLink f s).lines = s.lines := rfl
@[simp] theorem updLink_cdat (f : Link → Link) (s : State) : (updLink f s).cdat = s.cdat := rfl
@[simp] theorem updLink_brass (f : Link → Link) (s : State) : (updLink f s).brass = s.brass := rfl
@[simp] theorem updLink_diag (f : Link → Link) (s : State) : (updLink f s).diag = s.diag := rfl
@[simp] theorem updLink_trip (f : Link → Link) (s : State) : (updLink f s).trip = s.trip := rfl
@[simp] theorem updLink_therm (f : Link → Link) (s : State) : (updLink f s).therm = s.therm := rfl
@[simp] theorem updLink_tim (f : Link → Link) (s : State) : (updLink f s).tim = s.tim := rfl
@[simp] theorem updLink_flt (f : Link → Link) (s : State) : (updLink f s).flt = s.flt := rfl
@[simp] theorem updLink_link (f : Link → Link) (s : State) : (updLink f s).link = f s.link := rfl
@[simp] theorem updLink_sec (f : Link → Link) (s : State) : (updLink f s).sec = s.sec := rfl
@[simp] theorem updLink_dbg (f : Link → Link) (s : State) : (updLink f s).dbg = s.dbg := rfl
@[simp] theorem updLink_bus (f : Link → Link) (s : State) : (updLink f s).bus = s.bus := rfl
@[simp] theorem updLink_mbox (f : Link → Link) (s : State) : (updLink f s).mbox = s.mbox := rfl
@[simp] theorem updLink_pins (f : Link → Link) (s : State) : (updLink f s).pins = s.pins := rfl
@[simp] theorem updLink_emit (f : Link → Link) (s : State) : (updLink f s).emit = s.emit := rfl
@[simp] theorem updLink_leg (f : Link → Link) (s : State) : (updLink f s).leg = s.leg := rfl
@[simp] theorem updLink_free (f : Link → Link) (s : State) : (updLink f s).free = s.free := rfl

/-! ### updMir -/

@[simp] theorem updMir_sys (f : Mirror → Mirror) (s : State) : (updMir f s).sys = s.sys := rfl
@[simp] theorem updMir_clk (f : Mirror → Mirror) (s : State) : (updMir f s).clk = s.clk := rfl
@[simp] theorem updMir_wheel (f : Mirror → Mirror) (s : State) : (updMir f s).wheel = s.wheel := rfl
@[simp] theorem updMir_cams (f : Mirror → Mirror) (s : State) : (updMir f s).cams = s.cams := rfl
@[simp] theorem updMir_pred (f : Mirror → Mirror) (s : State) : (updMir f s).pred = s.pred := rfl
@[simp] theorem updMir_predPrev (f : Mirror → Mirror) (s : State) : (updMir f s).predPrev = s.predPrev := rfl
@[simp] theorem updMir_spd (f : Mirror → Mirror) (s : State) : (updMir f s).spd = s.spd := rfl
@[simp] theorem updMir_geom (f : Mirror → Mirror) (s : State) : (updMir f s).geom = s.geom := rfl
@[simp] theorem updMir_sched (f : Mirror → Mirror) (s : State) : (updMir f s).sched = s.sched := rfl
@[simp] theorem updMir_rpt (f : Mirror → Mirror) (s : State) : (updMir f s).rpt = s.rpt := rfl
@[simp] theorem updMir_cpc (f : Mirror → Mirror) (s : State) : (updMir f s).cpc = s.cpc := rfl
@[simp] theorem updMir_chan (f : Mirror → Mirror) (s : State) : (updMir f s).chan = s.chan := rfl
@[simp] theorem updMir_chs (f : Mirror → Mirror) (s : State) : (updMir f s).chs = s.chs := rfl
@[simp] theorem updMir_lines (f : Mirror → Mirror) (s : State) : (updMir f s).lines = s.lines := rfl
@[simp] theorem updMir_cdat (f : Mirror → Mirror) (s : State) : (updMir f s).cdat = s.cdat := rfl
@[simp] theorem updMir_brass (f : Mirror → Mirror) (s : State) : (updMir f s).brass = s.brass := rfl
@[simp] theorem updMir_diag (f : Mirror → Mirror) (s : State) : (updMir f s).diag = s.diag := rfl
@[simp] theorem updMir_trip (f : Mirror → Mirror) (s : State) : (updMir f s).trip = s.trip := rfl
@[simp] theorem updMir_therm (f : Mirror → Mirror) (s : State) : (updMir f s).therm = s.therm := rfl
@[simp] theorem updMir_tim (f : Mirror → Mirror) (s : State) : (updMir f s).tim = s.tim := rfl
@[simp] theorem updMir_flt (f : Mirror → Mirror) (s : State) : (updMir f s).flt = s.flt := rfl
@[simp] theorem updMir_link (f : Mirror → Mirror) (s : State) : (updMir f s).link = { s.link with mir := f s.link.mir } := rfl
@[simp] theorem updMir_sec (f : Mirror → Mirror) (s : State) : (updMir f s).sec = s.sec := rfl
@[simp] theorem updMir_dbg (f : Mirror → Mirror) (s : State) : (updMir f s).dbg = s.dbg := rfl
@[simp] theorem updMir_bus (f : Mirror → Mirror) (s : State) : (updMir f s).bus = s.bus := rfl
@[simp] theorem updMir_mbox (f : Mirror → Mirror) (s : State) : (updMir f s).mbox = s.mbox := rfl
@[simp] theorem updMir_pins (f : Mirror → Mirror) (s : State) : (updMir f s).pins = s.pins := rfl
@[simp] theorem updMir_emit (f : Mirror → Mirror) (s : State) : (updMir f s).emit = s.emit := rfl
@[simp] theorem updMir_leg (f : Mirror → Mirror) (s : State) : (updMir f s).leg = s.leg := rfl
@[simp] theorem updMir_free (f : Mirror → Mirror) (s : State) : (updMir f s).free = s.free := rfl

/-! ### updStore -/

@[simp] theorem updStore_sys (f : Store → Store) (s : State) : (updStore f s).sys = s.sys := rfl
@[simp] theorem updStore_clk (f : Store → Store) (s : State) : (updStore f s).clk = s.clk := rfl
@[simp] theorem updStore_wheel (f : Store → Store) (s : State) : (updStore f s).wheel = s.wheel := rfl
@[simp] theorem updStore_cams (f : Store → Store) (s : State) : (updStore f s).cams = s.cams := rfl
@[simp] theorem updStore_pred (f : Store → Store) (s : State) : (updStore f s).pred = s.pred := rfl
@[simp] theorem updStore_predPrev (f : Store → Store) (s : State) : (updStore f s).predPrev = s.predPrev := rfl
@[simp] theorem updStore_spd (f : Store → Store) (s : State) : (updStore f s).spd = s.spd := rfl
@[simp] theorem updStore_geom (f : Store → Store) (s : State) : (updStore f s).geom = s.geom := rfl
@[simp] theorem updStore_sched (f : Store → Store) (s : State) : (updStore f s).sched = s.sched := rfl
@[simp] theorem updStore_rpt (f : Store → Store) (s : State) : (updStore f s).rpt = s.rpt := rfl
@[simp] theorem updStore_cpc (f : Store → Store) (s : State) : (updStore f s).cpc = s.cpc := rfl
@[simp] theorem updStore_chan (f : Store → Store) (s : State) : (updStore f s).chan = s.chan := rfl
@[simp] theorem updStore_chs (f : Store → Store) (s : State) : (updStore f s).chs = s.chs := rfl
@[simp] theorem updStore_lines (f : Store → Store) (s : State) : (updStore f s).lines = s.lines := rfl
@[simp] theorem updStore_cdat (f : Store → Store) (s : State) : (updStore f s).cdat = s.cdat := rfl
@[simp] theorem updStore_brass (f : Store → Store) (s : State) : (updStore f s).brass = s.brass := rfl
@[simp] theorem updStore_diag (f : Store → Store) (s : State) : (updStore f s).diag = s.diag := rfl
@[simp] theorem updStore_trip (f : Store → Store) (s : State) : (updStore f s).trip = s.trip := rfl
@[simp] theorem updStore_therm (f : Store → Store) (s : State) : (updStore f s).therm = s.therm := rfl
@[simp] theorem updStore_tim (f : Store → Store) (s : State) : (updStore f s).tim = s.tim := rfl
@[simp] theorem updStore_flt (f : Store → Store) (s : State) : (updStore f s).flt = s.flt := rfl
@[simp] theorem updStore_link (f : Store → Store) (s : State) : (updStore f s).link = s.link := rfl
@[simp] theorem updStore_sec (f : Store → Store) (s : State) : (updStore f s).sec = s.sec := rfl
@[simp] theorem updStore_dbg (f : Store → Store) (s : State) : (updStore f s).dbg = s.dbg := rfl
@[simp] theorem updStore_bus (f : Store → Store) (s : State) : (updStore f s).bus = s.bus := rfl
@[simp] theorem updStore_mbox (f : Store → Store) (s : State) : (updStore f s).mbox = s.mbox := rfl
@[simp] theorem updStore_pins (f : Store → Store) (s : State) : (updStore f s).pins = s.pins := rfl
@[simp] theorem updStore_emit (f : Store → Store) (s : State) : (updStore f s).emit = s.emit := rfl
@[simp] theorem updStore_leg (f : Store → Store) (s : State) : (updStore f s).leg = s.leg := rfl
@[simp] theorem updStore_free (f : Store → Store) (s : State) : (updStore f s).free = s.free := rfl

/-! ### updSec -/

@[simp] theorem updSec_sys (f : Sec → Sec) (s : State) : (updSec f s).sys = s.sys := rfl
@[simp] theorem updSec_clk (f : Sec → Sec) (s : State) : (updSec f s).clk = s.clk := rfl
@[simp] theorem updSec_wheel (f : Sec → Sec) (s : State) : (updSec f s).wheel = s.wheel := rfl
@[simp] theorem updSec_cams (f : Sec → Sec) (s : State) : (updSec f s).cams = s.cams := rfl
@[simp] theorem updSec_pred (f : Sec → Sec) (s : State) : (updSec f s).pred = s.pred := rfl
@[simp] theorem updSec_predPrev (f : Sec → Sec) (s : State) : (updSec f s).predPrev = s.predPrev := rfl
@[simp] theorem updSec_spd (f : Sec → Sec) (s : State) : (updSec f s).spd = s.spd := rfl
@[simp] theorem updSec_geom (f : Sec → Sec) (s : State) : (updSec f s).geom = s.geom := rfl
@[simp] theorem updSec_sched (f : Sec → Sec) (s : State) : (updSec f s).sched = s.sched := rfl
@[simp] theorem updSec_rpt (f : Sec → Sec) (s : State) : (updSec f s).rpt = s.rpt := rfl
@[simp] theorem updSec_cpc (f : Sec → Sec) (s : State) : (updSec f s).cpc = s.cpc := rfl
@[simp] theorem updSec_chan (f : Sec → Sec) (s : State) : (updSec f s).chan = s.chan := rfl
@[simp] theorem updSec_chs (f : Sec → Sec) (s : State) : (updSec f s).chs = s.chs := rfl
@[simp] theorem updSec_lines (f : Sec → Sec) (s : State) : (updSec f s).lines = s.lines := rfl
@[simp] theorem updSec_cdat (f : Sec → Sec) (s : State) : (updSec f s).cdat = s.cdat := rfl
@[simp] theorem updSec_brass (f : Sec → Sec) (s : State) : (updSec f s).brass = s.brass := rfl
@[simp] theorem updSec_diag (f : Sec → Sec) (s : State) : (updSec f s).diag = s.diag := rfl
@[simp] theorem updSec_trip (f : Sec → Sec) (s : State) : (updSec f s).trip = s.trip := rfl
@[simp] theorem updSec_therm (f : Sec → Sec) (s : State) : (updSec f s).therm = s.therm := rfl
@[simp] theorem updSec_tim (f : Sec → Sec) (s : State) : (updSec f s).tim = s.tim := rfl
@[simp] theorem updSec_flt (f : Sec → Sec) (s : State) : (updSec f s).flt = s.flt := rfl
@[simp] theorem updSec_link (f : Sec → Sec) (s : State) : (updSec f s).link = s.link := rfl
@[simp] theorem updSec_sec (f : Sec → Sec) (s : State) : (updSec f s).sec = f s.sec := rfl
@[simp] theorem updSec_dbg (f : Sec → Sec) (s : State) : (updSec f s).dbg = s.dbg := rfl
@[simp] theorem updSec_bus (f : Sec → Sec) (s : State) : (updSec f s).bus = s.bus := rfl
@[simp] theorem updSec_mbox (f : Sec → Sec) (s : State) : (updSec f s).mbox = s.mbox := rfl
@[simp] theorem updSec_pins (f : Sec → Sec) (s : State) : (updSec f s).pins = s.pins := rfl
@[simp] theorem updSec_emit (f : Sec → Sec) (s : State) : (updSec f s).emit = s.emit := rfl
@[simp] theorem updSec_leg (f : Sec → Sec) (s : State) : (updSec f s).leg = s.leg := rfl
@[simp] theorem updSec_free (f : Sec → Sec) (s : State) : (updSec f s).free = s.free := rfl

/-! ### updDbg -/

@[simp] theorem updDbg_sys (f : Dbg → Dbg) (s : State) : (updDbg f s).sys = s.sys := rfl
@[simp] theorem updDbg_clk (f : Dbg → Dbg) (s : State) : (updDbg f s).clk = s.clk := rfl
@[simp] theorem updDbg_wheel (f : Dbg → Dbg) (s : State) : (updDbg f s).wheel = s.wheel := rfl
@[simp] theorem updDbg_cams (f : Dbg → Dbg) (s : State) : (updDbg f s).cams = s.cams := rfl
@[simp] theorem updDbg_pred (f : Dbg → Dbg) (s : State) : (updDbg f s).pred = s.pred := rfl
@[simp] theorem updDbg_predPrev (f : Dbg → Dbg) (s : State) : (updDbg f s).predPrev = s.predPrev := rfl
@[simp] theorem updDbg_spd (f : Dbg → Dbg) (s : State) : (updDbg f s).spd = s.spd := rfl
@[simp] theorem updDbg_geom (f : Dbg → Dbg) (s : State) : (updDbg f s).geom = s.geom := rfl
@[simp] theorem updDbg_sched (f : Dbg → Dbg) (s : State) : (updDbg f s).sched = s.sched := rfl
@[simp] theorem updDbg_rpt (f : Dbg → Dbg) (s : State) : (updDbg f s).rpt = s.rpt := rfl
@[simp] theorem updDbg_cpc (f : Dbg → Dbg) (s : State) : (updDbg f s).cpc = s.cpc := rfl
@[simp] theorem updDbg_chan (f : Dbg → Dbg) (s : State) : (updDbg f s).chan = s.chan := rfl
@[simp] theorem updDbg_chs (f : Dbg → Dbg) (s : State) : (updDbg f s).chs = s.chs := rfl
@[simp] theorem updDbg_lines (f : Dbg → Dbg) (s : State) : (updDbg f s).lines = s.lines := rfl
@[simp] theorem updDbg_cdat (f : Dbg → Dbg) (s : State) : (updDbg f s).cdat = s.cdat := rfl
@[simp] theorem updDbg_brass (f : Dbg → Dbg) (s : State) : (updDbg f s).brass = s.brass := rfl
@[simp] theorem updDbg_diag (f : Dbg → Dbg) (s : State) : (updDbg f s).diag = s.diag := rfl
@[simp] theorem updDbg_trip (f : Dbg → Dbg) (s : State) : (updDbg f s).trip = s.trip := rfl
@[simp] theorem updDbg_therm (f : Dbg → Dbg) (s : State) : (updDbg f s).therm = s.therm := rfl
@[simp] theorem updDbg_tim (f : Dbg → Dbg) (s : State) : (updDbg f s).tim = s.tim := rfl
@[simp] theorem updDbg_flt (f : Dbg → Dbg) (s : State) : (updDbg f s).flt = s.flt := rfl
@[simp] theorem updDbg_link (f : Dbg → Dbg) (s : State) : (updDbg f s).link = s.link := rfl
@[simp] theorem updDbg_sec (f : Dbg → Dbg) (s : State) : (updDbg f s).sec = s.sec := rfl
@[simp] theorem updDbg_dbg (f : Dbg → Dbg) (s : State) : (updDbg f s).dbg = f s.dbg := rfl
@[simp] theorem updDbg_bus (f : Dbg → Dbg) (s : State) : (updDbg f s).bus = s.bus := rfl
@[simp] theorem updDbg_mbox (f : Dbg → Dbg) (s : State) : (updDbg f s).mbox = s.mbox := rfl
@[simp] theorem updDbg_pins (f : Dbg → Dbg) (s : State) : (updDbg f s).pins = s.pins := rfl
@[simp] theorem updDbg_emit (f : Dbg → Dbg) (s : State) : (updDbg f s).emit = s.emit := rfl
@[simp] theorem updDbg_leg (f : Dbg → Dbg) (s : State) : (updDbg f s).leg = s.leg := rfl
@[simp] theorem updDbg_free (f : Dbg → Dbg) (s : State) : (updDbg f s).free = s.free := rfl

/-! ### updEmit -/

@[simp] theorem updEmit_sys (f : Emit → Emit) (s : State) : (updEmit f s).sys = s.sys := rfl
@[simp] theorem updEmit_clk (f : Emit → Emit) (s : State) : (updEmit f s).clk = s.clk := rfl
@[simp] theorem updEmit_wheel (f : Emit → Emit) (s : State) : (updEmit f s).wheel = s.wheel := rfl
@[simp] theorem updEmit_cams (f : Emit → Emit) (s : State) : (updEmit f s).cams = s.cams := rfl
@[simp] theorem updEmit_pred (f : Emit → Emit) (s : State) : (updEmit f s).pred = s.pred := rfl
@[simp] theorem updEmit_predPrev (f : Emit → Emit) (s : State) : (updEmit f s).predPrev = s.predPrev := rfl
@[simp] theorem updEmit_spd (f : Emit → Emit) (s : State) : (updEmit f s).spd = s.spd := rfl
@[simp] theorem updEmit_geom (f : Emit → Emit) (s : State) : (updEmit f s).geom = s.geom := rfl
@[simp] theorem updEmit_sched (f : Emit → Emit) (s : State) : (updEmit f s).sched = s.sched := rfl
@[simp] theorem updEmit_rpt (f : Emit → Emit) (s : State) : (updEmit f s).rpt = s.rpt := rfl
@[simp] theorem updEmit_cpc (f : Emit → Emit) (s : State) : (updEmit f s).cpc = s.cpc := rfl
@[simp] theorem updEmit_chan (f : Emit → Emit) (s : State) : (updEmit f s).chan = s.chan := rfl
@[simp] theorem updEmit_chs (f : Emit → Emit) (s : State) : (updEmit f s).chs = s.chs := rfl
@[simp] theorem updEmit_lines (f : Emit → Emit) (s : State) : (updEmit f s).lines = s.lines := rfl
@[simp] theorem updEmit_cdat (f : Emit → Emit) (s : State) : (updEmit f s).cdat = s.cdat := rfl
@[simp] theorem updEmit_brass (f : Emit → Emit) (s : State) : (updEmit f s).brass = s.brass := rfl
@[simp] theorem updEmit_diag (f : Emit → Emit) (s : State) : (updEmit f s).diag = s.diag := rfl
@[simp] theorem updEmit_trip (f : Emit → Emit) (s : State) : (updEmit f s).trip = s.trip := rfl
@[simp] theorem updEmit_therm (f : Emit → Emit) (s : State) : (updEmit f s).therm = s.therm := rfl
@[simp] theorem updEmit_tim (f : Emit → Emit) (s : State) : (updEmit f s).tim = s.tim := rfl
@[simp] theorem updEmit_flt (f : Emit → Emit) (s : State) : (updEmit f s).flt = s.flt := rfl
@[simp] theorem updEmit_link (f : Emit → Emit) (s : State) : (updEmit f s).link = s.link := rfl
@[simp] theorem updEmit_sec (f : Emit → Emit) (s : State) : (updEmit f s).sec = s.sec := rfl
@[simp] theorem updEmit_dbg (f : Emit → Emit) (s : State) : (updEmit f s).dbg = s.dbg := rfl
@[simp] theorem updEmit_bus (f : Emit → Emit) (s : State) : (updEmit f s).bus = s.bus := rfl
@[simp] theorem updEmit_mbox (f : Emit → Emit) (s : State) : (updEmit f s).mbox = s.mbox := rfl
@[simp] theorem updEmit_pins (f : Emit → Emit) (s : State) : (updEmit f s).pins = s.pins := rfl
@[simp] theorem updEmit_emit (f : Emit → Emit) (s : State) : (updEmit f s).emit = f s.emit := rfl
@[simp] theorem updEmit_leg (f : Emit → Emit) (s : State) : (updEmit f s).leg = s.leg := rfl
@[simp] theorem updEmit_free (f : Emit → Emit) (s : State) : (updEmit f s).free = s.free := rfl

/-! ### updLeg -/

@[simp] theorem updLeg_sys (f : Leg → Leg) (s : State) : (updLeg f s).sys = s.sys := rfl
@[simp] theorem updLeg_clk (f : Leg → Leg) (s : State) : (updLeg f s).clk = s.clk := rfl
@[simp] theorem updLeg_wheel (f : Leg → Leg) (s : State) : (updLeg f s).wheel = s.wheel := rfl
@[simp] theorem updLeg_cams (f : Leg → Leg) (s : State) : (updLeg f s).cams = s.cams := rfl
@[simp] theorem updLeg_pred (f : Leg → Leg) (s : State) : (updLeg f s).pred = s.pred := rfl
@[simp] theorem updLeg_predPrev (f : Leg → Leg) (s : State) : (updLeg f s).predPrev = s.predPrev := rfl
@[simp] theorem updLeg_spd (f : Leg → Leg) (s : State) : (updLeg f s).spd = s.spd := rfl
@[simp] theorem updLeg_geom (f : Leg → Leg) (s : State) : (updLeg f s).geom = s.geom := rfl
@[simp] theorem updLeg_sched (f : Leg → Leg) (s : State) : (updLeg f s).sched = s.sched := rfl
@[simp] theorem updLeg_rpt (f : Leg → Leg) (s : State) : (updLeg f s).rpt = s.rpt := rfl
@[simp] theorem updLeg_cpc (f : Leg → Leg) (s : State) : (updLeg f s).cpc = s.cpc := rfl
@[simp] theorem updLeg_chan (f : Leg → Leg) (s : State) : (updLeg f s).chan = s.chan := rfl
@[simp] theorem updLeg_chs (f : Leg → Leg) (s : State) : (updLeg f s).chs = s.chs := rfl
@[simp] theorem updLeg_lines (f : Leg → Leg) (s : State) : (updLeg f s).lines = s.lines := rfl
@[simp] theorem updLeg_cdat (f : Leg → Leg) (s : State) : (updLeg f s).cdat = s.cdat := rfl
@[simp] theorem updLeg_brass (f : Leg → Leg) (s : State) : (updLeg f s).brass = s.brass := rfl
@[simp] theorem updLeg_diag (f : Leg → Leg) (s : State) : (updLeg f s).diag = s.diag := rfl
@[simp] theorem updLeg_trip (f : Leg → Leg) (s : State) : (updLeg f s).trip = s.trip := rfl
@[simp] theorem updLeg_therm (f : Leg → Leg) (s : State) : (updLeg f s).therm = s.therm := rfl
@[simp] theorem updLeg_tim (f : Leg → Leg) (s : State) : (updLeg f s).tim = s.tim := rfl
@[simp] theorem updLeg_flt (f : Leg → Leg) (s : State) : (updLeg f s).flt = s.flt := rfl
@[simp] theorem updLeg_link (f : Leg → Leg) (s : State) : (updLeg f s).link = s.link := rfl
@[simp] theorem updLeg_sec (f : Leg → Leg) (s : State) : (updLeg f s).sec = s.sec := rfl
@[simp] theorem updLeg_dbg (f : Leg → Leg) (s : State) : (updLeg f s).dbg = s.dbg := rfl
@[simp] theorem updLeg_bus (f : Leg → Leg) (s : State) : (updLeg f s).bus = s.bus := rfl
@[simp] theorem updLeg_mbox (f : Leg → Leg) (s : State) : (updLeg f s).mbox = s.mbox := rfl
@[simp] theorem updLeg_pins (f : Leg → Leg) (s : State) : (updLeg f s).pins = s.pins := rfl
@[simp] theorem updLeg_emit (f : Leg → Leg) (s : State) : (updLeg f s).emit = s.emit := rfl
@[simp] theorem updLeg_leg (f : Leg → Leg) (s : State) : (updLeg f s).leg = f s.leg := rfl
@[simp] theorem updLeg_free (f : Leg → Leg) (s : State) : (updLeg f s).free = s.free := rfl

/-! ### updLCh -/

@[simp] theorem updLCh_sys (n : Fin 8) (f : LChan → LChan) (s : State) : (updLCh n f s).sys = s.sys := rfl
@[simp] theorem updLCh_clk (n : Fin 8) (f : LChan → LChan) (s : State) : (updLCh n f s).clk = s.clk := rfl
@[simp] theorem updLCh_wheel (n : Fin 8) (f : LChan → LChan) (s : State) : (updLCh n f s).wheel = s.wheel := rfl
@[simp] theorem updLCh_cams (n : Fin 8) (f : LChan → LChan) (s : State) : (updLCh n f s).cams = s.cams := rfl
@[simp] theorem updLCh_pred (n : Fin 8) (f : LChan → LChan) (s : State) : (updLCh n f s).pred = s.pred := rfl
@[simp] theorem updLCh_predPrev (n : Fin 8) (f : LChan → LChan) (s : State) : (updLCh n f s).predPrev = s.predPrev := rfl
@[simp] theorem updLCh_spd (n : Fin 8) (f : LChan → LChan) (s : State) : (updLCh n f s).spd = s.spd := rfl
@[simp] theorem updLCh_geom (n : Fin 8) (f : LChan → LChan) (s : State) : (updLCh n f s).geom = s.geom := rfl
@[simp] theorem updLCh_sched (n : Fin 8) (f : LChan → LChan) (s : State) : (updLCh n f s).sched = s.sched := rfl
@[simp] theorem updLCh_rpt (n : Fin 8) (f : LChan → LChan) (s : State) : (updLCh n f s).rpt = s.rpt := rfl
@[simp] theorem updLCh_cpc (n : Fin 8) (f : LChan → LChan) (s : State) : (updLCh n f s).cpc = s.cpc := rfl
@[simp] theorem updLCh_chan (n : Fin 8) (f : LChan → LChan) (s : State) : (updLCh n f s).chan = s.chan := rfl
@[simp] theorem updLCh_chs (n : Fin 8) (f : LChan → LChan) (s : State) : (updLCh n f s).chs = s.chs := rfl
@[simp] theorem updLCh_lines (n : Fin 8) (f : LChan → LChan) (s : State) : (updLCh n f s).lines = s.lines := rfl
@[simp] theorem updLCh_cdat (n : Fin 8) (f : LChan → LChan) (s : State) : (updLCh n f s).cdat = s.cdat := rfl
@[simp] theorem updLCh_brass (n : Fin 8) (f : LChan → LChan) (s : State) : (updLCh n f s).brass = s.brass := rfl
@[simp] theorem updLCh_diag (n : Fin 8) (f : LChan → LChan) (s : State) : (updLCh n f s).diag = s.diag := rfl
@[simp] theorem updLCh_trip (n : Fin 8) (f : LChan → LChan) (s : State) : (updLCh n f s).trip = s.trip := rfl
@[simp] theorem updLCh_therm (n : Fin 8) (f : LChan → LChan) (s : State) : (updLCh n f s).therm = s.therm := rfl
@[simp] theorem updLCh_tim (n : Fin 8) (f : LChan → LChan) (s : State) : (updLCh n f s).tim = s.tim := rfl
@[simp] theorem updLCh_flt (n : Fin 8) (f : LChan → LChan) (s : State) : (updLCh n f s).flt = s.flt := rfl
@[simp] theorem updLCh_link (n : Fin 8) (f : LChan → LChan) (s : State) : (updLCh n f s).link = s.link := rfl
@[simp] theorem updLCh_sec (n : Fin 8) (f : LChan → LChan) (s : State) : (updLCh n f s).sec = s.sec := rfl
@[simp] theorem updLCh_dbg (n : Fin 8) (f : LChan → LChan) (s : State) : (updLCh n f s).dbg = s.dbg := rfl
@[simp] theorem updLCh_bus (n : Fin 8) (f : LChan → LChan) (s : State) : (updLCh n f s).bus = s.bus := rfl
@[simp] theorem updLCh_mbox (n : Fin 8) (f : LChan → LChan) (s : State) : (updLCh n f s).mbox = s.mbox := rfl
@[simp] theorem updLCh_pins (n : Fin 8) (f : LChan → LChan) (s : State) : (updLCh n f s).pins = s.pins := rfl
@[simp] theorem updLCh_emit (n : Fin 8) (f : LChan → LChan) (s : State) : (updLCh n f s).emit = s.emit := rfl
@[simp] theorem updLCh_leg (n : Fin 8) (f : LChan → LChan) (s : State) : (updLCh n f s).leg = { s.leg with ch := vupd s.leg.ch n f } := rfl
@[simp] theorem updLCh_free (n : Fin 8) (f : LChan → LChan) (s : State) : (updLCh n f s).free = s.free := rfl

/-! ### updLSlot -/

@[simp] theorem updLSlot_sys (i : Fin 16) (f : LSlot → LSlot) (s : State) : (updLSlot i f s).sys = s.sys := rfl
@[simp] theorem updLSlot_clk (i : Fin 16) (f : LSlot → LSlot) (s : State) : (updLSlot i f s).clk = s.clk := rfl
@[simp] theorem updLSlot_wheel (i : Fin 16) (f : LSlot → LSlot) (s : State) : (updLSlot i f s).wheel = s.wheel := rfl
@[simp] theorem updLSlot_cams (i : Fin 16) (f : LSlot → LSlot) (s : State) : (updLSlot i f s).cams = s.cams := rfl
@[simp] theorem updLSlot_pred (i : Fin 16) (f : LSlot → LSlot) (s : State) : (updLSlot i f s).pred = s.pred := rfl
@[simp] theorem updLSlot_predPrev (i : Fin 16) (f : LSlot → LSlot) (s : State) : (updLSlot i f s).predPrev = s.predPrev := rfl
@[simp] theorem updLSlot_spd (i : Fin 16) (f : LSlot → LSlot) (s : State) : (updLSlot i f s).spd = s.spd := rfl
@[simp] theorem updLSlot_geom (i : Fin 16) (f : LSlot → LSlot) (s : State) : (updLSlot i f s).geom = s.geom := rfl
@[simp] theorem updLSlot_sched (i : Fin 16) (f : LSlot → LSlot) (s : State) : (updLSlot i f s).sched = s.sched := rfl
@[simp] theorem updLSlot_rpt (i : Fin 16) (f : LSlot → LSlot) (s : State) : (updLSlot i f s).rpt = s.rpt := rfl
@[simp] theorem updLSlot_cpc (i : Fin 16) (f : LSlot → LSlot) (s : State) : (updLSlot i f s).cpc = s.cpc := rfl
@[simp] theorem updLSlot_chan (i : Fin 16) (f : LSlot → LSlot) (s : State) : (updLSlot i f s).chan = s.chan := rfl
@[simp] theorem updLSlot_chs (i : Fin 16) (f : LSlot → LSlot) (s : State) : (updLSlot i f s).chs = s.chs := rfl
@[simp] theorem updLSlot_lines (i : Fin 16) (f : LSlot → LSlot) (s : State) : (updLSlot i f s).lines = s.lines := rfl
@[simp] theorem updLSlot_cdat (i : Fin 16) (f : LSlot → LSlot) (s : State) : (updLSlot i f s).cdat = s.cdat := rfl
@[simp] theorem updLSlot_brass (i : Fin 16) (f : LSlot → LSlot) (s : State) : (updLSlot i f s).brass = s.brass := rfl
@[simp] theorem updLSlot_diag (i : Fin 16) (f : LSlot → LSlot) (s : State) : (updLSlot i f s).diag = s.diag := rfl
@[simp] theorem updLSlot_trip (i : Fin 16) (f : LSlot → LSlot) (s : State) : (updLSlot i f s).trip = s.trip := rfl
@[simp] theorem updLSlot_therm (i : Fin 16) (f : LSlot → LSlot) (s : State) : (updLSlot i f s).therm = s.therm := rfl
@[simp] theorem updLSlot_tim (i : Fin 16) (f : LSlot → LSlot) (s : State) : (updLSlot i f s).tim = s.tim := rfl
@[simp] theorem updLSlot_flt (i : Fin 16) (f : LSlot → LSlot) (s : State) : (updLSlot i f s).flt = s.flt := rfl
@[simp] theorem updLSlot_link (i : Fin 16) (f : LSlot → LSlot) (s : State) : (updLSlot i f s).link = s.link := rfl
@[simp] theorem updLSlot_sec (i : Fin 16) (f : LSlot → LSlot) (s : State) : (updLSlot i f s).sec = s.sec := rfl
@[simp] theorem updLSlot_dbg (i : Fin 16) (f : LSlot → LSlot) (s : State) : (updLSlot i f s).dbg = s.dbg := rfl
@[simp] theorem updLSlot_bus (i : Fin 16) (f : LSlot → LSlot) (s : State) : (updLSlot i f s).bus = s.bus := rfl
@[simp] theorem updLSlot_mbox (i : Fin 16) (f : LSlot → LSlot) (s : State) : (updLSlot i f s).mbox = s.mbox := rfl
@[simp] theorem updLSlot_pins (i : Fin 16) (f : LSlot → LSlot) (s : State) : (updLSlot i f s).pins = s.pins := rfl
@[simp] theorem updLSlot_emit (i : Fin 16) (f : LSlot → LSlot) (s : State) : (updLSlot i f s).emit = s.emit := rfl
@[simp] theorem updLSlot_leg (i : Fin 16) (f : LSlot → LSlot) (s : State) : (updLSlot i f s).leg = { s.leg with slots := vupd s.leg.slots i f } := rfl
@[simp] theorem updLSlot_free (i : Fin 16) (f : LSlot → LSlot) (s : State) : (updLSlot i f s).free = s.free := rfl

/-! ### updLTim -/

@[simp] theorem updLTim_sys (k : Fin 2) (f : LTimer → LTimer) (s : State) : (updLTim k f s).sys = s.sys := rfl
@[simp] theorem updLTim_clk (k : Fin 2) (f : LTimer → LTimer) (s : State) : (updLTim k f s).clk = s.clk := rfl
@[simp] theorem updLTim_wheel (k : Fin 2) (f : LTimer → LTimer) (s : State) : (updLTim k f s).wheel = s.wheel := rfl
@[simp] theorem updLTim_cams (k : Fin 2) (f : LTimer → LTimer) (s : State) : (updLTim k f s).cams = s.cams := rfl
@[simp] theorem updLTim_pred (k : Fin 2) (f : LTimer → LTimer) (s : State) : (updLTim k f s).pred = s.pred := rfl
@[simp] theorem updLTim_predPrev (k : Fin 2) (f : LTimer → LTimer) (s : State) : (updLTim k f s).predPrev = s.predPrev := rfl
@[simp] theorem updLTim_spd (k : Fin 2) (f : LTimer → LTimer) (s : State) : (updLTim k f s).spd = s.spd := rfl
@[simp] theorem updLTim_geom (k : Fin 2) (f : LTimer → LTimer) (s : State) : (updLTim k f s).geom = s.geom := rfl
@[simp] theorem updLTim_sched (k : Fin 2) (f : LTimer → LTimer) (s : State) : (updLTim k f s).sched = s.sched := rfl
@[simp] theorem updLTim_rpt (k : Fin 2) (f : LTimer → LTimer) (s : State) : (updLTim k f s).rpt = s.rpt := rfl
@[simp] theorem updLTim_cpc (k : Fin 2) (f : LTimer → LTimer) (s : State) : (updLTim k f s).cpc = s.cpc := rfl
@[simp] theorem updLTim_chan (k : Fin 2) (f : LTimer → LTimer) (s : State) : (updLTim k f s).chan = s.chan := rfl
@[simp] theorem updLTim_chs (k : Fin 2) (f : LTimer → LTimer) (s : State) : (updLTim k f s).chs = s.chs := rfl
@[simp] theorem updLTim_lines (k : Fin 2) (f : LTimer → LTimer) (s : State) : (updLTim k f s).lines = s.lines := rfl
@[simp] theorem updLTim_cdat (k : Fin 2) (f : LTimer → LTimer) (s : State) : (updLTim k f s).cdat = s.cdat := rfl
@[simp] theorem updLTim_brass (k : Fin 2) (f : LTimer → LTimer) (s : State) : (updLTim k f s).brass = s.brass := rfl
@[simp] theorem updLTim_diag (k : Fin 2) (f : LTimer → LTimer) (s : State) : (updLTim k f s).diag = s.diag := rfl
@[simp] theorem updLTim_trip (k : Fin 2) (f : LTimer → LTimer) (s : State) : (updLTim k f s).trip = s.trip := rfl
@[simp] theorem updLTim_therm (k : Fin 2) (f : LTimer → LTimer) (s : State) : (updLTim k f s).therm = s.therm := rfl
@[simp] theorem updLTim_tim (k : Fin 2) (f : LTimer → LTimer) (s : State) : (updLTim k f s).tim = s.tim := rfl
@[simp] theorem updLTim_flt (k : Fin 2) (f : LTimer → LTimer) (s : State) : (updLTim k f s).flt = s.flt := rfl
@[simp] theorem updLTim_link (k : Fin 2) (f : LTimer → LTimer) (s : State) : (updLTim k f s).link = s.link := rfl
@[simp] theorem updLTim_sec (k : Fin 2) (f : LTimer → LTimer) (s : State) : (updLTim k f s).sec = s.sec := rfl
@[simp] theorem updLTim_dbg (k : Fin 2) (f : LTimer → LTimer) (s : State) : (updLTim k f s).dbg = s.dbg := rfl
@[simp] theorem updLTim_bus (k : Fin 2) (f : LTimer → LTimer) (s : State) : (updLTim k f s).bus = s.bus := rfl
@[simp] theorem updLTim_mbox (k : Fin 2) (f : LTimer → LTimer) (s : State) : (updLTim k f s).mbox = s.mbox := rfl
@[simp] theorem updLTim_pins (k : Fin 2) (f : LTimer → LTimer) (s : State) : (updLTim k f s).pins = s.pins := rfl
@[simp] theorem updLTim_emit (k : Fin 2) (f : LTimer → LTimer) (s : State) : (updLTim k f s).emit = s.emit := rfl
@[simp] theorem updLTim_leg (k : Fin 2) (f : LTimer → LTimer) (s : State) : (updLTim k f s).leg = { s.leg with timers := vupd s.leg.timers k f } := rfl
@[simp] theorem updLTim_free (k : Fin 2) (f : LTimer → LTimer) (s : State) : (updLTim k f s).free = s.free := rfl

/-! ### setInt -/

@[simp] theorem setInt_sys (b : Nat) (s : State) : (setInt b s).sys = s.sys := rfl
@[simp] theorem setInt_clk (b : Nat) (s : State) : (setInt b s).clk = s.clk := rfl
@[simp] theorem setInt_wheel (b : Nat) (s : State) : (setInt b s).wheel = s.wheel := rfl
@[simp] theorem setInt_cams (b : Nat) (s : State) : (setInt b s).cams = s.cams := rfl
@[simp] theorem setInt_pred (b : Nat) (s : State) : (setInt b s).pred = s.pred := rfl
@[simp] theorem setInt_predPrev (b : Nat) (s : State) : (setInt b s).predPrev = s.predPrev := rfl
@[simp] theorem setInt_spd (b : Nat) (s : State) : (setInt b s).spd = s.spd := rfl
@[simp] theorem setInt_geom (b : Nat) (s : State) : (setInt b s).geom = s.geom := rfl
@[simp] theorem setInt_sched (b : Nat) (s : State) : (setInt b s).sched = s.sched := rfl
@[simp] theorem setInt_rpt (b : Nat) (s : State) : (setInt b s).rpt = s.rpt := rfl
@[simp] theorem setInt_cpc (b : Nat) (s : State) : (setInt b s).cpc = s.cpc := rfl
@[simp] theorem setInt_chan (b : Nat) (s : State) : (setInt b s).chan = s.chan := rfl
@[simp] theorem setInt_chs (b : Nat) (s : State) : (setInt b s).chs = s.chs := rfl
@[simp] theorem setInt_lines (b : Nat) (s : State) : (setInt b s).lines = s.lines := rfl
@[simp] theorem setInt_cdat (b : Nat) (s : State) : (setInt b s).cdat = s.cdat := rfl
@[simp] theorem setInt_brass (b : Nat) (s : State) : (setInt b s).brass = s.brass := rfl
@[simp] theorem setInt_diag (b : Nat) (s : State) : (setInt b s).diag = s.diag := rfl
@[simp] theorem setInt_trip (b : Nat) (s : State) : (setInt b s).trip = s.trip := rfl
@[simp] theorem setInt_therm (b : Nat) (s : State) : (setInt b s).therm = s.therm := rfl
@[simp] theorem setInt_tim (b : Nat) (s : State) : (setInt b s).tim = s.tim := rfl
@[simp] theorem setInt_flt (b : Nat) (s : State) : (setInt b s).flt = s.flt := rfl
@[simp] theorem setInt_link (b : Nat) (s : State) : (setInt b s).link = s.link := rfl
@[simp] theorem setInt_sec (b : Nat) (s : State) : (setInt b s).sec = s.sec := rfl
@[simp] theorem setInt_dbg (b : Nat) (s : State) : (setInt b s).dbg = s.dbg := rfl
@[simp] theorem setInt_bus (b : Nat) (s : State) : (setInt b s).bus = { s.bus with intstat := s.bus.intstat ||| w16 (2 ^ b), fresh := freshInts s ||| w16 (2 ^ b), freshAt := s.clk.tb } := rfl
@[simp] theorem setInt_mbox (b : Nat) (s : State) : (setInt b s).mbox = s.mbox := rfl
@[simp] theorem setInt_pins (b : Nat) (s : State) : (setInt b s).pins = s.pins := rfl
@[simp] theorem setInt_emit (b : Nat) (s : State) : (setInt b s).emit = s.emit := rfl
@[simp] theorem setInt_leg (b : Nat) (s : State) : (setInt b s).leg = s.leg := rfl
@[simp] theorem setInt_free (b : Nat) (s : State) : (setInt b s).free = s.free := rfl

/-! ### noteLeg -/

@[simp] theorem noteLeg_sys (b : Nat) (s : State) : (noteLeg b s).sys = s.sys := rfl
@[simp] theorem noteLeg_clk (b : Nat) (s : State) : (noteLeg b s).clk = s.clk := rfl
@[simp] theorem noteLeg_wheel (b : Nat) (s : State) : (noteLeg b s).wheel = s.wheel := rfl
@[simp] theorem noteLeg_cams (b : Nat) (s : State) : (noteLeg b s).cams = s.cams := rfl
@[simp] theorem noteLeg_pred (b : Nat) (s : State) : (noteLeg b s).pred = s.pred := rfl
@[simp] theorem noteLeg_predPrev (b : Nat) (s : State) : (noteLeg b s).predPrev = s.predPrev := rfl
@[simp] theorem noteLeg_spd (b : Nat) (s : State) : (noteLeg b s).spd = s.spd := rfl
@[simp] theorem noteLeg_geom (b : Nat) (s : State) : (noteLeg b s).geom = s.geom := rfl
@[simp] theorem noteLeg_sched (b : Nat) (s : State) : (noteLeg b s).sched = s.sched := rfl
@[simp] theorem noteLeg_rpt (b : Nat) (s : State) : (noteLeg b s).rpt = s.rpt := rfl
@[simp] theorem noteLeg_cpc (b : Nat) (s : State) : (noteLeg b s).cpc = s.cpc := rfl
@[simp] theorem noteLeg_chan (b : Nat) (s : State) : (noteLeg b s).chan = s.chan := rfl
@[simp] theorem noteLeg_chs (b : Nat) (s : State) : (noteLeg b s).chs = s.chs := rfl
@[simp] theorem noteLeg_lines (b : Nat) (s : State) : (noteLeg b s).lines = s.lines := rfl
@[simp] theorem noteLeg_cdat (b : Nat) (s : State) : (noteLeg b s).cdat = s.cdat := rfl
@[simp] theorem noteLeg_brass (b : Nat) (s : State) : (noteLeg b s).brass = s.brass := rfl
@[simp] theorem noteLeg_diag (b : Nat) (s : State) : (noteLeg b s).diag = s.diag := rfl
@[simp] theorem noteLeg_trip (b : Nat) (s : State) : (noteLeg b s).trip = s.trip := rfl
@[simp] theorem noteLeg_therm (b : Nat) (s : State) : (noteLeg b s).therm = s.therm := rfl
@[simp] theorem noteLeg_tim (b : Nat) (s : State) : (noteLeg b s).tim = s.tim := rfl
@[simp] theorem noteLeg_flt (b : Nat) (s : State) : (noteLeg b s).flt = s.flt := rfl
@[simp] theorem noteLeg_link (b : Nat) (s : State) : (noteLeg b s).link = s.link := rfl
@[simp] theorem noteLeg_sec (b : Nat) (s : State) : (noteLeg b s).sec = s.sec := rfl
@[simp] theorem noteLeg_dbg (b : Nat) (s : State) : (noteLeg b s).dbg = s.dbg := rfl
@[simp] theorem noteLeg_bus (b : Nat) (s : State) : (noteLeg b s).bus = s.bus := rfl
@[simp] theorem noteLeg_mbox (b : Nat) (s : State) : (noteLeg b s).mbox = s.mbox := rfl
@[simp] theorem noteLeg_pins (b : Nat) (s : State) : (noteLeg b s).pins = s.pins := rfl
@[simp] theorem noteLeg_emit (b : Nat) (s : State) : (noteLeg b s).emit = s.emit := rfl
@[simp] theorem noteLeg_leg (b : Nat) (s : State) : (noteLeg b s).leg = { s.leg with fresh := freshLeg s ||| BitVec.ofNat 8 (2 ^ b), freshAt := s.clk.tb } := rfl
@[simp] theorem noteLeg_free (b : Nat) (s : State) : (noteLeg b s).free = s.free := rfl

/-! ### newInstant -/

@[simp] theorem newInstant_sys (s : State) : (newInstant s).sys = s.sys := rfl
@[simp] theorem newInstant_clk (s : State) : (newInstant s).clk = s.clk := rfl
@[simp] theorem newInstant_wheel (s : State) : (newInstant s).wheel = s.wheel := rfl
@[simp] theorem newInstant_cams (s : State) : (newInstant s).cams = s.cams := rfl
@[simp] theorem newInstant_pred (s : State) : (newInstant s).pred = s.pred := rfl
@[simp] theorem newInstant_predPrev (s : State) : (newInstant s).predPrev = s.predPrev := rfl
@[simp] theorem newInstant_spd (s : State) : (newInstant s).spd = s.spd := rfl
@[simp] theorem newInstant_geom (s : State) : (newInstant s).geom = s.geom := rfl
@[simp] theorem newInstant_sched (s : State) : (newInstant s).sched = s.sched := rfl
@[simp] theorem newInstant_rpt (s : State) : (newInstant s).rpt = s.rpt := rfl
@[simp] theorem newInstant_cpc (s : State) : (newInstant s).cpc = s.cpc := rfl
@[simp] theorem newInstant_chan (s : State) : (newInstant s).chan = s.chan := rfl
@[simp] theorem newInstant_chs (s : State) : (newInstant s).chs = s.chs := rfl
@[simp] theorem newInstant_lines (s : State) : (newInstant s).lines = s.lines := rfl
@[simp] theorem newInstant_cdat (s : State) : (newInstant s).cdat = s.cdat := rfl
@[simp] theorem newInstant_brass (s : State) : (newInstant s).brass = s.brass := rfl
@[simp] theorem newInstant_diag (s : State) : (newInstant s).diag = s.diag := rfl
@[simp] theorem newInstant_trip (s : State) : (newInstant s).trip = s.trip := rfl
@[simp] theorem newInstant_therm (s : State) : (newInstant s).therm = s.therm := rfl
@[simp] theorem newInstant_tim (s : State) : (newInstant s).tim = s.tim := rfl
@[simp] theorem newInstant_flt (s : State) : (newInstant s).flt = { s.flt with batch := s.flt.batch + 1 } := rfl
@[simp] theorem newInstant_link (s : State) : (newInstant s).link = s.link := rfl
@[simp] theorem newInstant_sec (s : State) : (newInstant s).sec = s.sec := rfl
@[simp] theorem newInstant_dbg (s : State) : (newInstant s).dbg = s.dbg := rfl
@[simp] theorem newInstant_bus (s : State) : (newInstant s).bus = s.bus := rfl
@[simp] theorem newInstant_mbox (s : State) : (newInstant s).mbox = s.mbox := rfl
@[simp] theorem newInstant_pins (s : State) : (newInstant s).pins = s.pins := rfl
@[simp] theorem newInstant_emit (s : State) : (newInstant s).emit = s.emit := rfl
@[simp] theorem newInstant_leg (s : State) : (newInstant s).leg = s.leg := rfl
@[simp] theorem newInstant_free (s : State) : (newInstant s).free = s.free := rfl

/-! ### putData -/

@[simp] theorem putData_sys (w : Word) (s : State) : (putData w s).sys = s.sys := rfl
@[simp] theorem putData_clk (w : Word) (s : State) : (putData w s).clk = s.clk := rfl
@[simp] theorem putData_wheel (w : Word) (s : State) : (putData w s).wheel = s.wheel := rfl
@[simp] theorem putData_cams (w : Word) (s : State) : (putData w s).cams = s.cams := rfl
@[simp] theorem putData_pred (w : Word) (s : State) : (putData w s).pred = s.pred := rfl
@[simp] theorem putData_predPrev (w : Word) (s : State) : (putData w s).predPrev = s.predPrev := rfl
@[simp] theorem putData_spd (w : Word) (s : State) : (putData w s).spd = s.spd := rfl
@[simp] theorem putData_geom (w : Word) (s : State) : (putData w s).geom = s.geom := rfl
@[simp] theorem putData_sched (w : Word) (s : State) : (putData w s).sched = s.sched := rfl
@[simp] theorem putData_rpt (w : Word) (s : State) : (putData w s).rpt = s.rpt := rfl
@[simp] theorem putData_cpc (w : Word) (s : State) : (putData w s).cpc = s.cpc := rfl
@[simp] theorem putData_chan (w : Word) (s : State) : (putData w s).chan = s.chan := rfl
@[simp] theorem putData_chs (w : Word) (s : State) : (putData w s).chs = s.chs := rfl
@[simp] theorem putData_lines (w : Word) (s : State) : (putData w s).lines = s.lines := rfl
@[simp] theorem putData_cdat (w : Word) (s : State) : (putData w s).cdat = s.cdat := rfl
@[simp] theorem putData_brass (w : Word) (s : State) : (putData w s).brass = s.brass := rfl
@[simp] theorem putData_diag (w : Word) (s : State) : (putData w s).diag = s.diag := rfl
@[simp] theorem putData_trip (w : Word) (s : State) : (putData w s).trip = s.trip := rfl
@[simp] theorem putData_therm (w : Word) (s : State) : (putData w s).therm = s.therm := rfl
@[simp] theorem putData_tim (w : Word) (s : State) : (putData w s).tim = s.tim := rfl
@[simp] theorem putData_flt (w : Word) (s : State) : (putData w s).flt = s.flt := rfl
@[simp] theorem putData_link (w : Word) (s : State) : (putData w s).link = s.link := rfl
@[simp] theorem putData_sec (w : Word) (s : State) : (putData w s).sec = s.sec := rfl
@[simp] theorem putData_dbg (w : Word) (s : State) : (putData w s).dbg = s.dbg := rfl
@[simp] theorem putData_bus (w : Word) (s : State) : (putData w s).bus = { s.bus with data := w } := rfl
@[simp] theorem putData_mbox (w : Word) (s : State) : (putData w s).mbox = s.mbox := rfl
@[simp] theorem putData_pins (w : Word) (s : State) : (putData w s).pins = s.pins := rfl
@[simp] theorem putData_emit (w : Word) (s : State) : (putData w s).emit = s.emit := rfl
@[simp] theorem putData_leg (w : Word) (s : State) : (putData w s).leg = s.leg := rfl
@[simp] theorem putData_free (w : Word) (s : State) : (putData w s).free = s.free := rfl

end Sys2Proof.Machine
end

