-- ==== Sys2Proof/Laws/Ops.lean ====
section
/-! SUPPORT. What each shared operation can do, said once: events, records, reads, free values, the mailbox, frames
of the link, and rows of the supervisor. -/

namespace Sys2Proof.Machine

/-! ### Vectors -/

/-- An updated element is the function of the old one. -/
@[simp] theorem vupd_same {α : Type} {n : Nat} (v : Vector α n) (i : Fin n) (f : α → α) : (vupd v i f)[i] = f v[i] := by
  simp [vupd]

/-- The other elements stay. -/
theorem vupd_other {α : Type} {n : Nat} (v : Vector α n) (i j : Fin n) (f : α → α) (h : i ≠ j) : (vupd v i f)[j] = v[j] := by
  simp only [vupd, Fin.getElem_fin]
  exact Vector.getElem_set_ne _ _ fun e => h (Fin.ext e)

/-! ### Events for the collector -/

/-- An inserted event waits. -/
theorem mem_insertEvent_self (e : FEvent) (l : List FEvent) : e ∈ insertEvent e l := by
  induction l with
  | nil => simp [insertEvent]
  | cons x xs ih => unfold insertEvent; split <;> simp [ih]

/-- After an insertion exactly the old events and the new one wait. -/
theorem mem_insertEvent (e x : FEvent) (l : List FEvent) : x ∈ insertEvent e l ↔ x = e ∨ x ∈ l := by
  induction l with
  | nil => simp [insertEvent]
  | cons y ys ih =>
    unfold insertEvent
    split
    · simp only [List.mem_cons, ih]
      constructor
      · rintro (h | h | h) <;> simp [h]
      · rintro (h | h | h) <;> simp [h]
    · simp

/-- An event of a native device waits behind those that are applied before it; nothing else changes. -/
theorem raiseC_native {s : State} (src ch : Nat) (det : Word) (c : Bool) (h : isNative s = true) :
    raiseC src ch det c s = { s with flt := { s.flt with queue := insertEvent ⟨s.flt.batch, src, ch, det, c⟩ s.flt.queue } } := by
  simp [raiseC, h]

/-- Legacy mode has no collector. -/
theorem raiseC_legacy {s : State} (src ch : Nat) (det : Word) (c : Bool) (h : isNative s = false) : raiseC src ch det c s = s := by
  simp [raiseC, h]

/-- The same for an event without containment of its own. -/
theorem raise_native {s : State} (src ch : Nat) (det : Word) (h : isNative s = true) :
    raise src ch det s = { s with flt := { s.flt with queue := insertEvent ⟨s.flt.batch, src, ch, det, false⟩ s.flt.queue } } :=
  raiseC_native src ch det false h

/-- An event changes the event queue at most. -/
theorem raiseC_changes (src ch : Nat) (det : Word) (c : Bool) (s : State) :
    ∃ q, raiseC src ch det c s = { s with flt := { s.flt with queue := q } } := by
  unfold raiseC
  split <;> exact ⟨_, rfl⟩

/-! ### Records -/

/-- The last record of its tick so far takes the next SEQ value and moves no other. -/
theorem takeSeq_last {s : State} {rank : Nat} (h : laterRecs rank s = 0) :
    takeSeq rank s = (s.sched.seq, { s with sched := { s.sched with seq := s.sched.seq + 1, ranks := (ranksNow s).filter (· ≤ rank) ++ rank :: (ranksNow s).filter (rank < ·), ranksAt := s.clk.tb } }) := by
  simp [takeSeq, makeRoom, h]

/-- A record that fits and that R112 puts behind those of its tick is appended with the next SEQ, and RPT is set. -/
theorem pushRec_room {s : State} (ty src flags : Nat) (w2 w3 : Word) (h : isNative s = true) (hl : laterRecs (recRank ty src flags) s = 0) (hr : s.rpt.fifo.length < 128) :
    ∃ rs, pushRec ty src flags w2 w3 s =
      setInt 0 { s with sched := { s.sched with seq := s.sched.seq + 1, ranks := rs, ranksAt := s.clk.tb }, rpt := { s.rpt with fifo := s.rpt.fifo ++ [⟨w16 (ty + 16 * src + 1024 * flags), s.sched.seq, w2, w3⟩] } } := by
  refine ⟨(ranksNow s).filter (· ≤ recRank ty src flags) ++ recRank ty src flags :: (ranksNow s).filter (recRank ty src flags < ·), ?_⟩
  simp only [pushRec, h, if_true, hl, takeSeq_last hl]
  simp [enterFifo, fifoAfter, hr]

/-- A full FIFO drops such a record and counts it; SEQ still advances. -/
theorem pushRec_full {s : State} (ty src flags : Nat) (w2 w3 : Word) (h : isNative s = true) (hl : laterRecs (recRank ty src flags) s = 0) (hr : ¬ s.rpt.fifo.length < 128) :
    ∃ rs, pushRec ty src flags w2 w3 s =
      dropRec ⟨w16 (ty + 16 * src + 1024 * flags), s.sched.seq, w2, w3⟩ { s with sched := { s.sched with seq := s.sched.seq + 1, ranks := rs, ranksAt := s.clk.tb } } := by
  refine ⟨(ranksNow s).filter (· ≤ recRank ty src flags) ++ recRank ty src flags :: (ranksNow s).filter (recRank ty src flags < ·), ?_⟩
  simp only [pushRec, h, if_true, hl, takeSeq_last hl]
  simp [enterFifo, fifoAfter, hr]

/-- A record touches the scheduler, the report FIFO, the converter FIFO and INTSTAT at most. -/
theorem pushRec_changes (ty src flags : Nat) (w2 w3 : Word) (s : State) :
    ∃ a b c d, pushRec ty src flags w2 w3 s = { s with sched := a, rpt := b, cpc := c, bus := d } := by
  have hm : ∀ k t, ∃ a b, makeRoom k t = { t with rpt := a, cpc := b } := fun k t => by
    unfold makeRoom
    split <;> exact ⟨_, _, rfl⟩
  have he : ∀ j r t, ∃ a b, enterFifo j r t = { t with rpt := a, bus := b } := fun j r t => by
    unfold enterFifo
    dsimp only
    (repeat' split) <;> exact ⟨_, _, rfl⟩
  unfold pushRec
  split
  · dsimp only [takeSeq]
    obtain ⟨a, b, hk⟩ := hm (laterRecs (recRank ty src flags) s) s
    rw [hk]
    obtain ⟨c, d, hj⟩ := he (fifoAfter (s.sched.seq - BitVec.ofNat 16 (laterRecs (recRank ty src flags) s)) (laterRecs (recRank ty src flags) s) a.fifo)
      ⟨w16 (ty + 16 * src + 1024 * flags), s.sched.seq - BitVec.ofNat 16 (laterRecs (recRank ty src flags) s), w2, w3⟩ _
    exact ⟨_, _, _, _, hj⟩
  · exact ⟨_, _, _, _, rfl⟩

/-! ### Reads, conditions and free values -/

/-- A read that is answered leaves its word and its side effect. -/
theorem readIf_answered {c : Bool} (f : State → Word × State) (s : State) (h : c = true) : readIf c f s = putData (f s).1 (f s).2 := by
  simp [readIf, h]

/-- A read that is not answered reads 0x0000 and has no side effect. -/
theorem readIf_silent {c : Bool} (f : State → Word × State) (s : State) (h : c = false) : readIf c f s = putData 0 s := by
  simp [readIf, h]

/-- A condition sets its own bit of INTSTAT and clears none. -/
theorem setInt_bit (b i : Nat) (s : State) (hb : b < 16) :
    (setInt b s).bus.intstat.getLsbD i = (s.bus.intstat.getLsbD i || decide (i = b)) := by
  have hx : ∀ (x y : Word) (k : Nat), (x ||| y).getLsbD k = (x.getLsbD k || y.getLsbD k) := fun x y k => BitVec.getLsbD_or
  have hp : w16 (2 ^ b) = BitVec.twoPow 16 b := by
    apply BitVec.eq_of_toNat_eq
    simp [w16, BitVec.toNat_twoPow]
  show (s.bus.intstat ||| w16 (2 ^ b)).getLsbD i = _
  rw [hx, hp, BitVec.getLsbD_twoPow]
  simp only [hb, decide_true, Bool.true_and]
  congr 1
  simp only [decide_eq_decide]
  exact eq_comm

/-- A conditional condition. -/
theorem setIntIf_changes (c : Bool) (b : Nat) (s : State) : ∃ i, setIntIf c b s = { s with bus := i } := by
  unfold setIntIf setInt
  split <;> exact ⟨_, rfl⟩

/-- A draw gives a free value and advances the counter alone. -/
theorem drawRandom_changes (s : State) : drawRandom s = (Config.random s.free, { s with free := s.free + 1 }) := rfl

/-! ### Rows of the supervisor -/

/-- A row of the supervisor: its effect, in a new instant while FCLK is stopped, and conditions of INTSTAT. -/
theorem clkRow_changes (f : State → State) (s : State) :
    ∃ i, clkRow f s = { f (if s.clk.fclkOn then s else newInstant s) with bus := i } := by
  unfold clkRow setIntIf setInt
  dsimp only
  split <;> split <;> exact ⟨_, rfl⟩

/-! ### The mailbox -/

/-- A command whose argument words carry a bit outside their fields is BADARG and has no effect. -/
theorem checked_badArg {argsOk : Bool} (checks : List Bool) (s : State) (eff : CmdRes) (h : argsOk = false) :
    checked argsOk checks s eff = badArg s := by
  simp [checked, h]

/-- A command that fails a numbered check has no effect. -/
theorem checked_fails {argsOk : Bool} (checks : List Bool) (s : State) (eff : CmdRes) (k : Nat) (h : argsOk = true)
    (hk : firstFail checks = some k) : checked argsOk checks s eff = checkFail k s := by
  simp [checked, h, hk]

/-- A submission changes the mailbox alone. -/
theorem submit_changes (p : Path) (code : Byte) (s : State) : ∃ m, submit p code s = { s with mbox := m } := by
  unfold submit
  dsimp only
  split
  · exact ⟨_, rfl⟩
  · split <;> exact ⟨_, rfl⟩

/-- An argument write changes the mailbox alone. -/
theorem writeArg_changes (n : Nat) (w : Word) (s : State) : ∃ m, writeArg n w s = { s with mbox := m } := by
  unfold writeArg
  dsimp only
  split <;> exact ⟨_, rfl⟩

/-- While a command is BUSY a submission and an argument write only set OVR. -/
theorem submit_busy {s : State} (p : Path) (code : Byte) (h : s.mbox.busy = true) : submit p code s = { s with mbox := { s.mbox with ovr := true } } := by
  simp [submit, h]

theorem writeArg_busy {s : State} (n : Nat) (w : Word) (h : s.mbox.busy = true) :
    writeArg n w s = { s with mbox := { s.mbox with ovr := true } } := by
  simp [writeArg, h]

/-- The start of the next command changes the mailbox alone. -/
theorem startNext_changes (s : State) : ∃ m, startNext s = { s with mbox := m } := by
  unfold startNext
  split
  · split <;> exact ⟨_, rfl⟩
  · exact ⟨_, rfl⟩

/-- The end of a command changes the mailbox, and INTSTAT or the frames that the link sends. -/
theorem endCmd_changes (status q0 q1 : Nat) (s : State) : ∃ m b l, endCmd status q0 q1 s = { s with mbox := m, bus := b, link := l } := by
  unfold endCmd
  split
  · exact ⟨_, _, _, rfl⟩
  · dsimp only
    split
    · exact ⟨_, _, _, rfl⟩
    · unfold replyTo queueOut
      split <;> exact ⟨_, _, _, rfl⟩

/-! ### Frames of the link -/

/-- After an insertion exactly the old frames and the new one wait. -/
theorem mem_insertOut (o x : OutFrame) (l : List OutFrame) : x ∈ insertOut o l ↔ x = o ∨ x ∈ l := by
  induction l with
  | nil => simp [insertOut]
  | cons y ys ih =>
    unfold insertOut
    split
    · simp only [List.mem_cons, ih]
      constructor
      · rintro (h | h | h) <;> simp [h]
      · rintro (h | h | h) <;> simp [h]
    · simp

/-- A local frame waits; nothing else changes. -/
theorem queueOut_waits (rank : Nat) (f : Frame) (stamp : Option Tb) (s : State) :
    ⟨rank, f, stamp⟩ ∈ (queueOut rank f stamp s).link.out := (mem_insertOut _ _ _).mpr (.inl rfl)

/-! ### The store -/

/-- The shadow takes bytes at once, and while a commit runs they are held. -/
theorem shadowPut_idle {s : State} (addr : Nat) (bs : List Byte) (h : s.store.run = none) :
    shadowPut addr bs s = { s with store := { s.store with shadow := cellPuts shadowDefault addr bs s.store.shadow, dirty := true } } := by
  simp [shadowPut, h]

theorem shadowPut_running {s : State} (addr : Nat) (bs : List Byte) (h : s.store.run.isSome = true) :
    shadowPut addr bs s = { s with store := { s.store with held := s.store.held ++ [⟨addr, bs⟩] } } := by
  simp [shadowPut, h]

/-- A write of the shadow changes the store alone. -/
theorem shadowPut_changes (addr : Nat) (bs : List Byte) (s : State) : ∃ t, shadowPut addr bs s = { s with store := t } := by
  unfold shadowPut
  split <;> exact ⟨_, rfl⟩

end Sys2Proof.Machine
end

