-- ==== Sys2Proof/Laws/PerInstr.lean ====
section
/-! SUPPORT. Of every command: whether it is a mailbox command, and that the row a mailbox command is stands for it alone. -/

namespace Sys2Proof

open Sys2Proof.Machine

/-- The code and the argument words of a row that stands for a mailbox command (R439). -/
def Instr.mailbox : Instr → Option (Byte × Args)
  | .bootDone => some (0x01, ⟨0, 0, 0, 0⟩)
  | .ident a => some (0x02, a)
  | .wheelSet a => some (0x08, a)
  | .camSetEdge a => some (0x09, a)
  | .camSetHeader a => some (0x09, a)
  | .syncPolicy a => some (0x0A, a)
  | .dirSet a => some (0x0B, a)
  | .learnCtl a => some (0x32, a)
  | .channelSet a => some (0x10, a)
  | .profileLoad a => some (0x11, a)
  | .pairSet a => some (0x13, a)
  | .senseScale a => some (0x19, a)
  | .brassLoadInstruction a => some (0x12, a)
  | .brassLoadHeader a => some (0x12, a)
  | .tripClear a => some (0x15, a)
  | .diagRunChan a => some (0x14, a)
  | .diagRunTrip a => some (0x14, a)
  | .diagRunTest a => some (0x14, a)
  | .thermSetStage a => some (0x18, a)
  | .thermSetApply a => some (0x18, a)
  | .thermSetAmb a => some (0x18, a)
  | .thermSetInit a => some (0x18, a)
  | .thermSetDie a => some (0x18, a)
  | .fsrcSet a => some (0x20, a)
  | .fltReadCount a => some (0x21, a)
  | .fltReadClear a => some (0x21, a)
  | .fltReadHist a => some (0x21, a)
  | .linkRole a => some (0x28, a)
  | .linkRoleQuery a => some (0x28, a)
  | .linkJoin => some (0x29, ⟨0, 0, 0, 0⟩)
  | .linkSend a => some (0x2A, a)
  | .linkSendRecv a => some (0x2A, a)
  | .linkSendRemote a => some (0x2A, a)
  | .linkSendData a => some (0x2A, a)
  | .storeRead a => some (0x30, a)
  | .storeCommit a => some (0x31, a)
  | .storeCommitClear a => some (0x31, a)
  | .lifecycleAdvanceKey a => some (0x3E, a)
  | .lifecycleAdvanceStep a => some (0x3E, a)
  | .unlockChallenge a => some (0x3C, a)
  | .unlockAnswer a => some (0x3D, a)
  | .emitStart a => some (0x38, a)
  | .emitStop => some (0x39, ⟨0, 0, 0, 0⟩)
  | .unassignedCommand c a => some (c, a)
  | _ => none

/-- The bits of A0 from 14 up are two, those from 13 up three, and those from 15 up one. -/
theorem Args.form_lt (a : Args) : a.form 15 < 2 ∧ a.form 14 < 4 ∧ a.form 13 < 8 := by
  have := a.a0.isLt
  simp only [Args.form]
  omega

/-- A command without a row in the first table has its row in the second. -/
theorem row_form {code : Byte} {a : Args} {i : Instr} (hA : rowA code a = none) (hB : rowB code a = some i) :
    rowOf ⟨.host, code, a⟩ = i := by
  simp only [rowOf, hA, hB]

/-- The same, by the bits of A0 from 14 up. -/
theorem row_form14 {code : Byte} {a : Args} {i : Instr} {n : Nat} (hA : rowA code a = none) (h : a.form 14 = n)
    (e : rowForm code.toNat n (a.form 13) (a.a0.toNat % 4) a = some i) : rowOf ⟨.host, code, a⟩ = i := by
  subst h
  exact row_form hA e

/-- The same, by the bits of A0 from 13 up. -/
theorem row_form13 {code : Byte} {a : Args} {i : Instr} {n : Nat} (hA : rowA code a = none) (h : a.form 13 = n)
    (e : rowForm code.toNat (a.form 14) n (a.a0.toNat % 4) a = some i) : rowOf ⟨.host, code, a⟩ = i := by
  subst h
  exact row_form hA e

/-- The same, by the two low bits of A0. -/
theorem row_form4 {code : Byte} {a : Args} {i : Instr} {n : Nat} (hA : rowA code a = none) (h : a.a0.toNat % 4 = n)
    (e : rowForm code.toNat (a.form 14) (a.form 13) n a = some i) : rowOf ⟨.host, code, a⟩ = i := by
  subst h
  exact row_form hA e

/-- A row of the first table is a mailbox row with well-formed operands. -/
theorem rowA_wf {code : Byte} {a : Args} {i : Instr} (h : rowA code a = some i) : i.wf = true ∧ i.mailbox.isSome = true := by
  have hl := a.form_lt
  unfold rowA at h
  split at h
  all_goals try (cases h; exact ⟨rfl, rfl⟩)
  all_goals try cases h
  all_goals (split <;> simp_all [Instr.wf, Instr.mailbox]; omega)

/-- A row of the second table is a mailbox row with well-formed operands. -/
theorem rowB_wf {code : Byte} {a : Args} {i : Instr} (h : rowB code a = some i) : i.wf = true ∧ i.mailbox.isSome = true := by
  have hl := a.form_lt
  unfold rowB rowForm at h
  repeat' split at h
  all_goals try cases h
  all_goals simp_all [Instr.wf, Instr.mailbox]
  all_goals omega

/-- A command without a row in either table is a well-formed UNASSIGNED_COMMAND. -/
theorem unassigned_wf {code : Byte} {a : Args} (hA : rowA code a = none) (hB : rowB code a = none) :
    (Instr.unassignedCommand code a).wf = true := by
  have hl := a.form_lt
  show (!assignedCodes.contains code.toNat || unassignedForm code a) = true
  unfold rowA at hA
  unfold rowB rowForm at hB
  unfold unassignedForm
  by_cases h : code.toNat ∈ assignedCodes
  · simp only [assignedCodes, List.mem_cons, List.not_mem_nil, or_false] at h
    repeat' rcases h with h | h
    all_goals
      simp only [h, reduceCtorEq] at hA hB ⊢
    all_goals (repeat' split at hB) <;> simp_all <;> omega
  · simp [h]

/-- The converse. -/
theorem unassigned_row (code : Byte) (a : Args) (h : (Instr.unassignedCommand code a).wf = true) :
    rowOf ⟨.host, code, a⟩ = .unassignedCommand code a := by
  change (!assignedCodes.contains code.toNat || unassignedForm code a) = true at h
  have hA : rowA code a = none := by
    unfold rowA
    split <;> simp_all [assignedCodes, unassignedForm]
  have hB : rowB code a = none := by
    unfold rowB rowForm
    split <;> simp_all [assignedCodes, unassignedForm]
    all_goals split <;> first | rfl | omega
  simp only [rowOf, hA, hB]

/-- The row of a command is a mailbox row with well-formed operands. -/
theorem rowOf_wf (c : Cmd) : (rowOf c).wf = true ∧ (rowOf c).mailbox.isSome = true := by
  unfold rowOf
  split
  · rename_i i h
    exact rowA_wf h
  · rename_i hA
    split
    · rename_i i h
      exact rowB_wf h
    · rename_i hB
      exact ⟨unassigned_wf hA hB, rfl⟩

namespace Laws.Form

/-- A well-formed mailbox row is the row of its code and arguments; and what is the row of a command is a mailbox row
with well-formed operands, so no other command stands for a mailbox command. -/
def Statement (i : Instr) : Prop :=
  (∀ code a, i.mailbox = some (code, a) → i.wf = true → rowOf ⟨.host, code, a⟩ = i) ∧
    ∀ c : Cmd, rowOf c = i → i.wf = true ∧ i.mailbox.isSome = true

/-- The second half holds of every command. -/
theorem row_wf (i : Instr) (c : Cmd) (h : rowOf c = i) : i.wf = true ∧ i.mailbox.isSome = true := h ▸ rowOf_wf c

/-- What is no mailbox row meets the first half. -/
theorem no_row {i : Instr} (h : i.mailbox = none) : Statement i :=
  ⟨fun _ _ e => by rw [h] at e; exact absurd e (by simp), row_wf i⟩

/-- A mailbox row whose own arguments give it back meets it. -/
theorem of_row {i : Instr} {code : Byte} {a : Args} (h : i.mailbox = some (code, a)) (e : i.wf = true → rowOf ⟨.host, code, a⟩ = i) :
    Statement i :=
  ⟨fun c b k w => by
    rw [h] at k
    obtain ⟨rfl, rfl⟩ := Prod.mk.injEq .. ▸ Option.some.inj k
    exact e w, row_wf i⟩

theorem powerOnReset (mode : Bool) : Statement (.powerOnReset mode) := no_row rfl
theorem resetPin (mode : Bool) : Statement (.resetPin mode) := no_row rfl
theorem resetRequest (mode : Bool) : Statement (.resetRequest mode) := no_row rfl
theorem bootB0End (ref : RefEdge) : Statement (.bootB0End ref) := no_row rfl
theorem romIntegrityCheck (ok : Bool) : Statement (.romIntegrityCheck ok) := no_row rfl
theorem storeBanksRead : Statement .storeBanksRead := no_row rfl
theorem recordApplied : Statement .recordApplied := no_row rfl
theorem bootDone : Statement .bootDone := of_row rfl fun _ => rfl
theorem ident (a : Args) : Statement (.ident a) := of_row rfl fun _ => rfl
theorem oeSet : Statement .oeSet := no_row rfl
theorem oeClear : Statement .oeClear := no_row rfl
theorem stopRequest (w : Word) (err : Fin 3) : Statement (.stopRequest w err) := no_row rfl
theorem standbyRequest (w : Word) (err : Fin 3) : Statement (.standbyRequest w err) := no_row rfl
theorem wakeFromStop (code : Fin 8) (ref : RefEdge) : Statement (.wakeFromStop code ref) := no_row rfl
theorem wakeFromStandby (code : Fin 8) : Statement (.wakeFromStandby code) := no_row rfl
theorem wakeTimer (ref : RefEdge) : Statement (.wakeTimer ref) := no_row rfl
theorem wakeCaptureEdge (src : EdgeSrc) (rise : Bool) (dA : Nat) (err : Fin 3) : Statement (.wakeCaptureEdge src rise dA err) := no_row rfl
theorem powerFailFall : Statement .powerFailFall := no_row rfl
theorem powerFailRise : Statement .powerFailRise := no_row rfl
theorem aocJudged : Statement .aocJudged := no_row rfl
theorem aocLoss : Statement .aocLoss := no_row rfl
theorem aocGrossCheck (count : Nat) : Statement (.aocGrossCheck count) := no_row rfl
theorem lrcLoss : Statement .lrcLoss := no_row rfl
theorem fcoJudged : Statement .fcoJudged := no_row rfl
theorem fcoLoss : Statement .fcoLoss := no_row rfl
theorem rckJudged : Statement .rckJudged := no_row rfl
theorem rckHoldoverEnd : Statement .rckHoldoverEnd := no_row rfl
theorem fllWindow (count : Nat) : Statement (.fllWindow count) := no_row rfl
theorem fclkStopDetect : Statement .fclkStopDetect := no_row rfl
theorem cleanSwitchRequest : Statement .cleanSwitchRequest := no_row rfl
theorem cleanSwitchComplete : Statement .cleanSwitchComplete := no_row rfl
theorem muxHangDetect (stopLrc : Nat) : Statement (.muxHangDetect stopLrc) := no_row rfl
theorem heldFcoRestart : Statement .heldFcoRestart := no_row rfl
theorem escapeStart (stopLrc : Nat) : Statement (.escapeStart stopLrc) := no_row rfl
theorem escapeComplete (dA : Nat) (err : Fin 3) : Statement (.escapeComplete dA err) := no_row rfl
theorem driftCheck (count : Nat) : Statement (.driftCheck count) := no_row rfl
theorem clkctlWrite (w : Word) : Statement (.clkctlWrite w) := no_row rfl
theorem clkstatRead : Statement .clkstatRead := no_row rfl
theorem gateenWrite (w : Word) : Statement (.gateenWrite w) := no_row rfl
theorem gateClearEffect (b : Fin 7) : Statement (.gateClearEffect b) := no_row rfl
theorem fmStart (w : Word) : Statement (.fmStart w) := no_row rfl
theorem fmAbort (w : Word) : Statement (.fmAbort w) := no_row rfl
theorem fmDone (count : Nat) : Statement (.fmDone count) := no_row rfl
theorem crankToothEdge (stamp : Tb) : Statement (.crankToothEdge stamp) := no_row rfl
theorem lateToothDeadline : Statement .lateToothDeadline := no_row rfl
theorem directionCodeEdge (stamp : Tb) : Statement (.directionCodeEdge stamp) := no_row rfl
theorem camEdge (c : Fin 4) (rise : Bool) (stamp : Tb) : Statement (.camEdge c rise stamp) := no_row rfl
theorem camWindowClose (i : Fin 16) : Statement (.camWindowClose i) := no_row rfl
theorem limpCamTimeout : Statement .limpCamTimeout := no_row rfl
theorem stallTimeout : Statement .stallTimeout := no_row rfl
theorem wheelSet (a : Args) : Statement (.wheelSet a) := of_row rfl fun _ => rfl
theorem camSetEdge (a : Args) : Statement (.camSetEdge a) := of_row rfl fun h => if_pos h
theorem camSetHeader (a : Args) : Statement (.camSetHeader a) := of_row rfl fun h => if_neg (by have k : a.form 15 = 1 := eq_of_beq h; simp [k])
theorem syncPolicy (a : Args) : Statement (.syncPolicy a) := of_row rfl fun _ => rfl
theorem dirSet (a : Args) : Statement (.dirSet a) := of_row rfl fun _ => rfl
theorem learnCtl (a : Args) : Statement (.learnCtl a) := of_row rfl fun _ => rfl
theorem cycleStart : Statement .cycleStart := no_row rfl
theorem slotEvaluation (i : Fin 64) : Statement (.slotEvaluation i) := no_row rfl
theorem slotFire (i : Fin 64) : Statement (.slotFire i) := no_row rfl
theorem pulseWidthEnd (ch : Fin 12) : Statement (.pulseWidthEnd ch) := no_row rfl
theorem slotGo (i : Fin 64) (w : Word) : Statement (.slotGo i w) := no_row rfl
theorem slotCancel (i : Fin 64) (w : Word) : Statement (.slotCancel i w) := no_row rfl
theorem reportPop : Statement .reportPop := no_row rfl
theorem rptstatRead : Statement .rptstatRead := no_row rfl
theorem windowPassStart (w : Fin 8) : Statement (.windowPassStart w) := no_row rfl
theorem windowStrobe (w : Fin 8) : Statement (.windowStrobe w) := no_row rfl
theorem delayedStrobeIssue (w : Fin 8) : Statement (.delayedStrobeIssue w) := no_row rfl
theorem windowApply (w : Fin 8) (v : Word) : Statement (.windowApply w v) := no_row rfl
theorem converterEntry (x : BitVec 82) : Statement (.converterEntry x) := no_row rfl
theorem converterSearchTimeout : Statement .converterSearchTimeout := no_row rfl
theorem bufferPop (conv : Bool) (j : Fin 4) : Statement (.bufferPop conv j) := no_row rfl
theorem bufferStatusRead (conv : Bool) : Statement (.bufferStatusRead conv) := no_row rfl
theorem senseFrameComplete (n : Fin 8) (x : BitVec 82) : Statement (.senseFrameComplete n x) := no_row rfl
theorem senseSlotMissing (l : Fin 9) : Statement (.senseSlotMissing l) := no_row rfl
theorem lineStuckTimeout (l : Fin 9) (high : Bool) : Statement (.lineStuckTimeout l high) := no_row rfl
theorem tboostElapsed (n : Fin 8) : Statement (.tboostElapsed n) := no_row rfl
theorem deadTimeEnd (n : Fin 8) : Statement (.deadTimeEnd n) := no_row rfl
theorem tpeakElapsed (n : Fin 8) : Statement (.tpeakElapsed n) := no_row rfl
theorem tholdElapsed (n : Fin 8) : Statement (.tholdElapsed n) := no_row rfl
theorem maxOnTime (n : Fin 12) : Statement (.maxOnTime n) := no_row rfl
theorem decayTimeout (n : Fin 8) : Statement (.decayTimeout n) := no_row rfl
theorem channelSet (a : Args) : Statement (.channelSet a) := of_row rfl fun _ => rfl
theorem profileLoad (a : Args) : Statement (.profileLoad a) := of_row rfl fun _ => rfl
theorem pairSet (a : Args) : Statement (.pairSet a) := of_row rfl fun _ => rfl
theorem senseScale (a : Args) : Statement (.senseScale a) := of_row rfl fun _ => rfl
theorem brassEnd (n : Fin 8) : Statement (.brassEnd n) := no_row rfl
theorem sett (n : Fin 8) (level : Word) (thr noslew : Bool) : Statement (.sett n level thr noslew) := no_row rfl
theorem seth (n : Fin 8) (hys : Word) : Statement (.seth n hys) := no_row rfl
theorem waitt (n : Fin 8) (t : BitVec 24) (abs : Bool) : Statement (.waitt n t abs) := no_row rfl
theorem waittExpiry (n : Fin 8) : Statement (.waittExpiry n) := no_row rfl
theorem waiti (n : Fin 8) (level : Word) (dir : Bool) (tmo : BitVec 12) : Statement (.waiti n level dir tmo) := no_row rfl
theorem waitiTimeout (n : Fin 8) : Statement (.waitiTimeout n) := no_row rfl
theorem br (n : Fin 8) (dest : BitVec 5) (inv : Bool) (cond : BitVec 4) (level : Word) : Statement (.br n dest inv cond level) := no_row rfl
theorem boost (n : Fin 8) (on : Bool) : Statement (.boost n on) := no_row rfl
theorem sig (n : Fin 8) (value mask : BitVec 2) (irq : Bool) : Statement (.sig n value mask irq) := no_row rfl
theorem brassIssueCycle (n : Fin 8) : Statement (.brassIssueCycle n) := no_row rfl
theorem brassLoadInstruction (a : Args) : Statement (.brassLoadInstruction a) := of_row rfl fun h => if_pos h
theorem brassLoadHeader (a : Args) : Statement (.brassLoadHeader a) := of_row rfl fun h => if_neg (by have k : a.form 15 = 1 := eq_of_beq h; simp [k])
theorem sigirqRead : Statement .sigirqRead := no_row rfl
theorem tripAssert : Statement .tripAssert := no_row rfl
theorem tripRelease : Statement .tripRelease := no_row rfl
theorem tripDeferralEnd (g : Fin 4) : Statement (.tripDeferralEnd g) := no_row rfl
theorem tripClear (a : Args) : Statement (.tripClear a) := of_row rfl fun _ => rfl
theorem diagRunChan (a : Args) : Statement (.diagRunChan a) := of_row rfl fun h => row_form14 rfl (eq_of_beq h) rfl
theorem diagRunTrip (a : Args) : Statement (.diagRunTrip a) := of_row rfl fun h => row_form14 rfl (eq_of_beq h) rfl
theorem diagRunTest (a : Args) : Statement (.diagRunTest a) := of_row rfl fun h => row_form14 rfl (eq_of_beq h) rfl
theorem diagTestWaitTimeout : Statement .diagTestWaitTimeout := no_row rfl
theorem diagTestPulseEnd : Statement .diagTestPulseEnd := no_row rfl
theorem thermalTick : Statement .thermalTick := no_row rfl
theorem dieConversion (k : Fin 4) (reading : Int) : Statement (.dieConversion k reading) := no_row rfl
theorem thermSetStage (a : Args) : Statement (.thermSetStage a) := of_row rfl fun h => row_form13 rfl (eq_of_beq h) rfl
theorem thermSetApply (a : Args) : Statement (.thermSetApply a) := of_row rfl fun h => row_form13 rfl (eq_of_beq h) rfl
theorem thermSetAmb (a : Args) : Statement (.thermSetAmb a) := of_row rfl fun h => row_form13 rfl (eq_of_beq h) rfl
theorem thermSetInit (a : Args) : Statement (.thermSetInit a) := of_row rfl fun h => row_form13 rfl (eq_of_beq h) rfl
theorem thermSetDie (a : Args) : Statement (.thermSetDie a) := of_row rfl fun h => row_form13 rfl (eq_of_beq h) rfl
theorem thermCapture (n : Fin 8) : Statement (.thermCapture n) := no_row rfl
theorem timerMatch (k : Fin 8) : Statement (.timerMatch k) := no_row rfl
theorem timerOverflow (k : Fin 8) : Statement (.timerOverflow k) := no_row rfl
theorem timerGateStop (k : Fin 8) : Statement (.timerGateStop k) := no_row rfl
theorem timerRearm (w : Word) : Statement (.timerRearm w) := no_row rfl
theorem countLoad (hi : Word) : Statement (.countLoad hi) := no_row rfl
theorem preloadLoad (hi : Word) : Statement (.preloadLoad hi) := no_row rfl
theorem timerFlagClear (w : Word) : Statement (.timerFlagClear w) := no_row rfl
theorem faultEventApply : Statement .faultEventApply := no_row rfl
theorem collectorSelfCheck : Statement .collectorSelfCheck := no_row rfl
theorem watchdogExpiry : Statement .watchdogExpiry := no_row rfl
theorem faultAck : Statement .faultAck := no_row rfl
theorem containmentLift (mask : BitVec 12) : Statement (.containmentLift mask) := no_row rfl
theorem historyClear : Statement .historyClear := no_row rfl
theorem selfClear : Statement .selfClear := no_row rfl
theorem historyPop : Statement .historyPop := no_row rfl
theorem fltstatRead : Statement .fltstatRead := no_row rfl
theorem openRecordCapture : Statement .openRecordCapture := no_row rfl
theorem fsrcSet (a : Args) : Statement (.fsrcSet a) := of_row rfl fun _ => rfl
theorem fltReadCount (a : Args) : Statement (.fltReadCount a) := of_row rfl fun h => row_form14 rfl (eq_of_beq h) rfl
theorem fltReadClear (a : Args) : Statement (.fltReadClear a) := of_row rfl fun h => row_form14 rfl (eq_of_beq h) rfl
theorem fltReadHist (a : Args) : Statement (.fltReadHist a) := of_row rfl fun h => row_form14 rfl (eq_of_beq h) rfl
theorem lockAcquired : Statement .lockAcquired := no_row rfl
theorem lockLost : Statement .lockLost := no_row rfl
theorem linkBreak (up : Bool) : Statement (.linkBreak up) := no_row rfl
theorem slotTransmit (rx : RxSlot) : Statement (.slotTransmit rx) := no_row rfl
theorem localInjection : Statement .localInjection := no_row rfl
theorem linkFrameError (rx : RxSlot) : Statement (.linkFrameError rx) := no_row rfl
theorem toothRecord (tooth : Frame) (next : RxSlot) (trx : Tb) : Statement (.toothRecord tooth next trx) := no_row rfl
theorem state1 (f : Frame) : Statement (.state1 f) := no_row rfl
theorem state2 (f : Frame) : Statement (.state2 f) := no_row rfl
theorem config (f : Frame) : Statement (.config f) := no_row rfl
theorem recordMissingDeadline : Statement .recordMissingDeadline := no_row rfl
theorem faultFrame (f : Frame) : Statement (.faultFrame f) := no_row rfl
theorem hostFrame (f : Frame) : Statement (.hostFrame f) := no_row rfl
theorem creditFrame (f : Frame) : Statement (.creditFrame f) := no_row rfl
theorem joinFrame (f : Frame) (delay : Nat) : Statement (.joinFrame f delay) := no_row rfl
theorem remoteFrame (f : Frame) : Statement (.remoteFrame f) := no_row rfl
theorem replyFrame (f : Frame) : Statement (.replyFrame f) := no_row rfl
theorem joinTimeout : Statement .joinTimeout := no_row rfl
theorem linkRole (a : Args) : Statement (.linkRole a) := of_row rfl fun h => row_form rfl (if_neg (by simpa [Instr.wf] using h))
theorem linkRoleQuery (a : Args) : Statement (.linkRoleQuery a) := of_row rfl fun h => row_form rfl (if_pos (eq_of_beq h))
theorem linkJoin : Statement .linkJoin := of_row rfl fun _ => rfl
theorem linkSend (a : Args) : Statement (.linkSend a) := of_row rfl fun h => row_form14 rfl (eq_of_beq h) rfl
theorem linkSendRecv (a : Args) : Statement (.linkSendRecv a) := of_row rfl fun h => row_form14 rfl (eq_of_beq h) rfl
theorem linkSendRemote (a : Args) : Statement (.linkSendRemote a) := of_row rfl fun h => row_form14 rfl (eq_of_beq h) rfl
theorem linkSendData (a : Args) : Statement (.linkSendData a) := of_row rfl fun h => row_form14 rfl (eq_of_beq h) rfl
theorem storeRead (a : Args) : Statement (.storeRead a) := of_row rfl fun _ => rfl
theorem storeReadComplete : Statement .storeReadComplete := no_row rfl
theorem storeCommit (a : Args) : Statement (.storeCommit a) := of_row rfl fun h => row_form4 rfl (eq_of_beq h) rfl
theorem storeCommitClear (a : Args) : Statement (.storeCommitClear a) := of_row rfl fun h => row_form4 rfl (eq_of_beq h) rfl
theorem commitComplete (ok : Bool) : Statement (.commitComplete ok) := no_row rfl
theorem lifecycleAdvanceKey (a : Args) : Statement (.lifecycleAdvanceKey a) := of_row rfl fun h => if_pos h
theorem lifecycleAdvanceStep (a : Args) : Statement (.lifecycleAdvanceStep a) := of_row rfl fun h => if_neg (by have k : a.form 15 = 1 := eq_of_beq h; simp [k])
theorem keyWriteComplete : Statement .keyWriteComplete := no_row rfl
theorem unlockChallenge (a : Args) : Statement (.unlockChallenge a) := of_row rfl fun _ => rfl
theorem unlockAnswer (a : Args) : Statement (.unlockAnswer a) := of_row rfl fun _ => rfl
theorem answerCheckComplete : Statement .answerCheckComplete := no_row rfl
theorem lockoutEnd : Statement .lockoutEnd := no_row rfl
theorem lineReset : Statement .lineReset := no_row rfl
theorem detachTimeout : Statement .detachTimeout := no_row rfl
theorem debugHeaderError : Statement .debugHeaderError := no_row rfl
theorem debugHostAccess (op : DbgOp) (a : BitVec 6) (data : Word) (parity : Bool) : Statement (.debugHostAccess op a data parity) := no_row rfl
theorem halt (on : Bool) : Statement (.halt on) := no_row rfl
theorem ptest (on : Bool) : Statement (.ptest on) := no_row rfl
theorem wake (ref : RefEdge) : Statement (.wake ref) := no_row rfl
theorem dreset (mode : Bool) : Statement (.dreset mode) := no_row rfl
theorem chal : Statement .chal := no_row rfl
theorem clrerr : Statement .clrerr := no_row rfl
theorem detach : Statement .detach := no_row rfl
theorem dchalRead : Statement .dchalRead := no_row rfl
theorem dansWrite (w : Word) : Statement (.dansWrite w) := no_row rfl
theorem dpinWrite (w : Word) : Statement (.dpinWrite w) := no_row rfl
theorem interruptClear (w : Word) : Statement (.interruptClear w) := no_row rfl
theorem angleCapture : Statement .angleCapture := no_row rfl
theorem tbCapture : Statement .tbCapture := no_row rfl
theorem registerWrite (addr : BitVec 8) (w : Word) : Statement (.registerWrite addr w) := no_row rfl
theorem mailboxCommandStart : Statement .mailboxCommandStart := no_row rfl
theorem commandInterrupted : Statement .commandInterrupted := no_row rfl
theorem emitStart (a : Args) : Statement (.emitStart a) := of_row rfl fun _ => rfl
theorem emitStop : Statement .emitStop := of_row rfl fun _ => rfl
theorem emitStep : Statement .emitStep := no_row rfl
theorem emitCamEdge (c : Fin 3) : Statement (.emitCamEdge c) := no_row rfl
theorem legacyReady (ok : Bool) : Statement (.legacyReady ok) := no_row rfl
theorem lctlWrite (v : Byte) : Statement (.lctlWrite v) := no_row rfl
theorem lwheelWrite (v : Byte) : Statement (.lwheelWrite v) := no_row rfl
theorem legacyArm (v : Byte) : Statement (.legacyArm v) := no_row rfl
theorem legacyCancel (v : Byte) : Statement (.legacyCancel v) := no_row rfl
theorem legacySlotFire (i : Fin 16) : Statement (.legacySlotFire i) := no_row rfl
theorem legacyAngleCapture : Statement .legacyAngleCapture := no_row rfl
theorem legacyPeriodCapture : Statement .legacyPeriodCapture := no_row rfl
theorem lprofdatAccess (v : Option Byte) : Statement (.lprofdatAccess v) := no_row rfl
theorem legacyPhaseEnd (n : Fin 8) : Statement (.legacyPhaseEnd n) := no_row rfl
theorem legacyPwmPeriod (n : Fin 8) : Statement (.legacyPwmPeriod n) := no_row rfl
theorem legacyMaxon (n : Fin 8) : Statement (.legacyMaxon n) := no_row rfl
theorem legacyTripAssert : Statement .legacyTripAssert := no_row rfl
theorem triplatClear : Statement .triplatClear := no_row rfl
theorem lstatClear (v : Byte) : Statement (.lstatClear v) := no_row rfl
theorem legacyTimerMatch (k : Fin 2) : Statement (.legacyTimerMatch k) := no_row rfl
theorem legacyTimerOverflow (k : Fin 2) : Statement (.legacyTimerOverflow k) := no_row rfl
theorem legacyCountLoad (hi : Byte) : Statement (.legacyCountLoad hi) := no_row rfl
theorem legacyCompareLoad (hi : Byte) : Statement (.legacyCompareLoad hi) := no_row rfl
theorem ltimctlWrite (v : Byte) : Statement (.ltimctlWrite v) := no_row rfl
theorem windatRead : Statement .windatRead := no_row rfl
theorem cutThroughForward (rx : RxSlot) : Statement (.cutThroughForward rx) := no_row rfl
theorem reservedFrame (f : Frame) : Statement (.reservedFrame f) := no_row rfl
theorem unassignedCommand (code : BitVec 8) (a : Args) : Statement (.unassignedCommand code a) := of_row rfl (unassigned_row _ _)
theorem loutenWrite (v : Byte) : Statement (.loutenWrite v) := no_row rfl
theorem legacyFcoStop : Statement .legacyFcoStop := no_row rfl
theorem lrcReturn : Statement .lrcReturn := no_row rfl
theorem vddioaLoss : Statement .vddioaLoss := no_row rfl
theorem vddioaReturn (mode : Bool) : Statement (.vddioaReturn mode) := no_row rfl

end Laws.Form

end Sys2Proof
end

