-- ==== Sys2Proof/Laws/Queue.lean ====
section
/-! SUPPORT. The queue of waiting commands: no operation of the block changes it. One lemma for each operation. -/

namespace Sys2Proof.Machine

/-! ### Ops.lean -/

theorem ite_pending (c : Prop) [Decidable c] (a b : State) : (if c then a else b).pending = if c then a.pending else b.pending := by split <;> rfl
theorem itep_pending {α : Type} (c : Prop) [Decidable c] (a b : α × State) : (if c then a else b).2.pending = if c then a.2.pending else b.2.pending := by split <;> rfl
theorem itec_pending (c : Prop) [Decidable c] (a b : CmdRes) : (if c then a else b).st.pending = if c then a.st.pending else b.st.pending := by split <;> rfl
@[simp] theorem foldSt_pending {α : Type} (xs : List α) (f : α → State → State) (s : State) (hf : ∀ x t, (f x t).pending = t.pending) : (foldSt xs f s).pending = s.pending := by
  unfold foldSt
  induction xs generalizing s with
  | nil => rfl
  | cons x xs ih => simp [ih, hf]

@[simp] theorem setInt_pending (b : Nat) (s : State) : (setInt b s).pending = s.pending := rfl
@[simp] theorem setIntIf_pending (c : Bool) (b : Nat) (s : State) : (setIntIf c b s).pending = s.pending := by
  unfold setIntIf; simp only [ite_pending, setInt_pending, ite_self]
@[simp] theorem noteLeg_pending (b : Nat) (s : State) : (noteLeg b s).pending = s.pending := rfl
@[simp] theorem drawRandom_pending (s : State) : (drawRandom s).2.pending = s.pending := rfl
@[simp] theorem raiseC_pending (src ch : Nat) (det : Word) (carried : Bool) (s : State) : (raiseC src ch det carried s).pending = s.pending := by
  unfold raiseC; simp only [ite_pending, ite_self]
@[simp] theorem raise_pending (src ch : Nat) (det : Word) (s : State) : (raise src ch det s).pending = s.pending := by
  unfold raise; simp only [raiseC_pending]
@[simp] theorem newInstant_pending (s : State) : (newInstant s).pending = s.pending := rfl
@[simp] theorem makeRoom_pending (k : Nat) (s : State) : (makeRoom k s).pending = s.pending := by
  unfold makeRoom; simp only [ite_pending, ite_self]
@[simp] theorem takeSeq_pending (rank : Nat) (s : State) : (takeSeq rank s).2.pending = s.pending := by
  unfold takeSeq; simp only [makeRoom_pending]
@[simp] theorem settleSeq_pending (r : Quad) (s : State) : (settleSeq r s).pending = s.pending := by
  unfold settleSeq; simp only [ite_pending, ite_self]
@[simp] theorem dropRec_pending (r : Quad) (s : State) : (dropRec r s).pending = s.pending := rfl
@[simp] theorem enterFifo_pending (j : Nat) (r : Quad) (s : State) : (enterFifo j r s).pending = s.pending := by
  unfold enterFifo; simp only [ite_pending, setInt_pending, dropRec_pending, ite_self]
@[simp] theorem pushRec_pending (ty src flags : Nat) (w2 w3 : Word) (s : State) : (pushRec ty src flags w2 w3 s).pending = s.pending := by
  unfold pushRec; simp only [ite_pending, takeSeq_pending, enterFifo_pending, ite_self]
@[simp] theorem putData_pending (w : Word) (s : State) : (putData w s).pending = s.pending := rfl
@[simp] theorem readIf_pending (c : Bool) (f : State → Word × State) (s : State) (hf : ∀ t, (f t).2.pending = t.pending) : (readIf c f s).pending = s.pending := by
  unfold readIf putData; split <;> simp [hf]
@[simp] theorem updChan_pending (n : Fin 12) (f : Chan → Chan) (s : State) : (updChan n f s).pending = s.pending := rfl

/-! ### ChanOps.lean -/

@[simp] theorem groupRise_pending (g : Nat) (s : State) : (groupRise g s).pending = s.pending := rfl
@[simp] theorem setDrv1_pending (n : Fin 12) (lvl : Bool) (s : State) : (setDrv1 n lvl s).pending = s.pending := by
  unfold setDrv1; simp only [updChan_pending]
@[simp] theorem pinRise_pending (n : Fin 12) (s : State) : (pinRise n s).pending = s.pending := by
  unfold pinRise; simp only [updChan_pending, groupRise_pending]
@[simp] theorem pinFall_pending (n : Fin 12) (s : State) : (pinFall n s).pending = s.pending := by
  unfold pinFall; simp only [updChan_pending]
@[simp] theorem setDrv_pending (n : Fin 12) (lvl : Bool) (s : State) : (setDrv n lvl s).pending = s.pending := by
  unfold setDrv; simp only [ite_pending, setDrv1_pending, ite_self]
@[simp] theorem forceLow_pending (s : State) : (forceLow s).pending = s.pending := by
  unfold forceLow; simp only [foldSt_pending, updChan_pending, setDrv_pending, implies_true]
@[simp] theorem boostEnds_pending (e : Tb) (s : State) : (boostEnds e s).pending = s.pending := rfl
@[simp] theorem boostUpdate_pending (old : Vector Chan 12) (s : State) : (boostUpdate old s).pending = s.pending := by
  unfold boostUpdate; simp only [ite_pending, forceLow_pending, boostEnds_pending, ite_self]
@[simp] theorem boostRise_pending (s : State) : (boostRise s).pending = s.pending := by
  unfold boostRise
  exact foldSt_pending _ _ _ fun g t => groupRise_pending _ t

@[simp] theorem boostFall_pending (s : State) : (boostFall s).pending = s.pending := by
  unfold boostFall; simp only [boostEnds_pending]
@[simp] theorem pinEdges_pending (s : State) : (pinEdges s).pending = s.pending := by
  unfold pinEdges; simp only [ite_pending, foldSt_pending, pinRise_pending, pinFall_pending, boostRise_pending, boostFall_pending, ite_self, implies_true]
@[simp] theorem shiftOuts_pending (lv : OutLevels) (s : State) : (shiftOuts lv s).pending = s.pending := rfl
@[simp] theorem dropPins_pending (p : Fin 12 → Bool) (s : State) : (dropPins p s).pending = s.pending := rfl
@[simp] theorem settle_pending (n : Fin 12) (st : ChSt) (s : State) : (settle n st s).pending = s.pending := by
  unfold settle; simp only [updChan_pending, boostUpdate_pending, setDrv_pending]
@[simp] theorem enterDecay_pending (n : Fin 12) (s : State) : (enterDecay n s).pending = s.pending := by
  unfold enterDecay; simp only [settle_pending, updChan_pending]
@[simp] theorem applyScale_pending (n : Fin 12) (s : State) : (applyScale n s).pending = s.pending := by
  unfold applyScale; simp only [ite_pending, updChan_pending, ite_self]
@[simp] theorem refreshI_pending (m : Fin 8) (s : State) : (refreshI m s).pending = s.pending := by
  unfold refreshI; simp only [updChan_pending]
@[simp] theorem endFallback_pending (n : Fin 12) (s : State) : (endFallback n s).pending = s.pending := by
  unfold endFallback; (repeat' split) <;> simp only [updChan_pending, refreshI_pending]
@[simp] theorem enterIdle_pending (n : Fin 12) (s : State) : (enterIdle n s).pending = s.pending := by
  unfold enterIdle; simp only [endFallback_pending, applyScale_pending, settle_pending]
@[simp] theorem enterLow_pending (n : Fin 12) (s : State) : (enterLow n s).pending = s.pending := by
  unfold enterLow; simp only [applyScale_pending, settle_pending]
@[simp] theorem release_pending (n : Fin 12) (s : State) : (release n s).pending = s.pending := by
  unfold release; simp only [ite_pending, enterDecay_pending, enterLow_pending, settle_pending, ite_self]
@[simp] theorem containInput_pending (n : Fin 12) (s : State) : (containInput n s).pending = s.pending := by
  unfold containInput; simp only [ite_pending, setDrv1_pending, settle_pending, ite_self]
@[simp] theorem containCh_pending (n : Fin 12) (s : State) : (containCh n s).pending = s.pending := by
  unfold containCh; simp only [ite_pending, containInput_pending, updChan_pending, ite_self]
@[simp] theorem leaveContained_pending (n : Fin 12) (s : State) : (leaveContained n s).pending = s.pending := by
  unfold leaveContained; simp only [ite_pending, release_pending, ite_self]
@[simp] theorem tripInput_pending (n : Fin 12) (s : State) : (tripInput n s).pending = s.pending := by
  unfold tripInput; (repeat' split) <;> simp only [setDrv1_pending, settle_pending]
@[simp] theorem tripAll_pending (s : State) : (tripAll s).pending = s.pending := by
  unfold tripAll; simp only [foldSt_pending, tripInput_pending, implies_true]
@[simp] theorem outputsDown_pending (s : State) : (outputsDown s).pending = s.pending := by
  unfold outputsDown; simp only [ite_pending, foldSt_pending, enterDecay_pending, enterLow_pending, setDrv1_pending, pinEdges_pending, ite_self, implies_true]
@[simp] theorem containAll_pending (s : State) : (containAll s).pending = s.pending := by
  unfold containAll; simp only [foldSt_pending, settle_pending, updChan_pending, implies_true]
@[simp] theorem setTarget_pending (n : Fin 12) (v : Nat) (noslew : Bool) (s : State) : (setTarget n v noslew s).pending = s.pending := by
  unfold setTarget; simp only [updChan_pending]
@[simp] theorem regulate_pending (n : Fin 12) (i : Nat) (s : State) : (regulate n i s).pending = s.pending := by
  unfold regulate; simp only [ite_pending, updChan_pending, setDrv_pending, ite_self]
@[simp] theorem enterHold_pending (n : Fin 12) (s : State) : (enterHold n s).pending = s.pending := by
  unfold enterHold; simp only [updChan_pending, boostUpdate_pending, setTarget_pending]
@[simp] theorem enterPeak_pending (n : Fin 12) (s : State) : (enterPeak n s).pending = s.pending := by
  unfold enterPeak; simp only [boostUpdate_pending, updChan_pending]
@[simp] theorem boostExit_pending (n : Fin 12) (s : State) : (boostExit n s).pending = s.pending := by
  unfold boostExit; simp only [updChan_pending, boostUpdate_pending, setDrv_pending]
@[simp] theorem throttleMoved_pending (n : Fin 12) (s : State) : (throttleMoved n s).pending = s.pending := by
  unfold throttleMoved; simp only [ite_pending, setTarget_pending, ite_self]
@[simp] theorem startProfile_pending (n : Fin 12) (param : Word) (s : State) : (startProfile n param s).pending = s.pending := by
  unfold startProfile; simp only [ite_pending, updChan_pending, boostUpdate_pending, setDrv_pending, ite_self]
@[simp] theorem startBrass_pending (n : Fin 12) (param : Word) (s : State) : (startBrass n param s).pending = s.pending := by
  unfold startBrass; simp only [boostUpdate_pending, updChan_pending]
@[simp] theorem timedRise_pending (n : Fin 12) (width : Option Nat) (s : State) : (timedRise n width s).pending = s.pending := by
  unfold timedRise; simp only [setDrv_pending, updChan_pending]
@[simp] theorem fireAction_pending (n : Fin 12) (act : Nat) (param : Word) (s : State) : (fireAction n act param s).2.pending = s.pending := by
  unfold fireAction; simp only [ite_pending, itep_pending, startBrass_pending, startProfile_pending, enterDecay_pending, enterLow_pending, timedRise_pending, ite_self]

/-! ### DiagOps.lean -/

@[simp] theorem updDiag_pending (n : Fin 8) (f : DiagCh → DiagCh) (s : State) : (updDiag n f s).pending = s.pending := rfl
@[simp] theorem setClass_pending (n : Fin 8) (c : Nat) (s : State) : (setClass n c s).pending = s.pending := by
  unfold setClass; (repeat' split) <;> simp only [setInt_pending, raise_pending, updDiag_pending]
@[simp] theorem verdict_pending (n : Fin 8) (on : Bool) (need v : Nat) (s : State) : (verdict n on need v s).pending = s.pending := by
  unfold verdict; simp only [ite_pending, updDiag_pending, setClass_pending, ite_self]
@[simp] theorem testVerdict_pending (n : Fin 8) (on : Bool) (v : Nat) (s : State) : (testVerdict n on v s).pending = s.pending := by
  unfold testVerdict; (repeat' split) <;> simp only
@[simp] theorem testOther_pending (n : Fin 8) (i : Nat) (s : State) : (testOther n i s).pending = s.pending := by
  unfold testOther; (repeat' split) <;> simp only
@[simp] theorem classify_pending (n : Fin 8) (i dl : Nat) (prev : Option Nat) (s : State) : (classify n i dl prev s).pending = s.pending := by
  unfold classify; simp only [ite_pending, updDiag_pending, testVerdict_pending, verdict_pending, testOther_pending, ite_self]
@[simp] theorem latchGroups_pending (src : Nat) (gs : List (Fin 4)) (s : State) : (latchGroups src gs s).pending = s.pending := by
  unfold latchGroups; simp only [ite_pending, setInt_pending, raiseC_pending, dropPins_pending, tripAll_pending, ite_self]

/-! ### SenseOps.lean -/

@[simp] theorem updLine_pending (n : Fin 8) (f : Line → Line) (s : State) : (updLine n f s).pending = s.pending := rfl
@[simp] theorem noteDue_pending (s : State) : (noteDue s).pending = s.pending := rfl
@[simp] theorem addHeat_pending (n : Fin 8) (lvl : Bool) (x : Nat) (s : State) : (addHeat n lvl x s).pending = s.pending := by
  unfold addHeat; simp only [ite_pending, ite_self]
@[simp] theorem waitiFrame_pending (n : Fin 12) (i : Nat) (s : State) : (waitiFrame n i s).pending = s.pending := by
  unfold waitiFrame; (repeat' split) <;> simp only [updChan_pending]
@[simp] theorem chanFrame_pending (n : Fin 12) (i : Nat) (s : State) : (chanFrame n i s).pending = s.pending := by
  unfold chanFrame; dsimp only; (repeat' split) <;> simp only [boostExit_pending, enterDecay_pending, regulate_pending, waitiFrame_pending, enterIdle_pending, updChan_pending]
@[simp] theorem gapSlot_pending (m : Fin 12) (s : State) : (gapSlot m s).pending = s.pending := by
  unfold gapSlot; simp only [ite_pending, updChan_pending, setDrv_pending, ite_self]
@[simp] theorem chanMissing_pending (n : Fin 8) (s : State) : (chanMissing n s).pending = s.pending := by
  unfold chanMissing; simp only [ite_pending, gapSlot_pending, ite_self]
@[simp] theorem breakEffect_pending (n : Fin 8) (s : State) : (breakEffect n s).pending = s.pending := by
  unfold breakEffect; simp only [ite_pending, refreshI_pending, updChan_pending, containInput_pending, ite_self]
@[simp] theorem enterBreak_pending (n : Fin 8) (s : State) : (enterBreak n s).pending = s.pending := by
  unfold enterBreak; simp only [ite_pending, updLine_pending, updDiag_pending, breakEffect_pending, raiseC_pending, ite_self]
@[simp] theorem leaveBreak_pending (n : Fin 8) (s : State) : (leaveBreak n s).pending = s.pending := by
  unfold leaveBreak; simp only [ite_pending, leaveContained_pending, updChan_pending, ite_self]
@[simp] theorem testDecayFrame_pending (m : Fin 12) (i : Nat) (s : State) : (testDecayFrame m i s).pending = s.pending := by
  unfold testDecayFrame; (repeat' split) <;> simp only
@[simp] theorem takeFrame_pending (m : Fin 12) (i : Nat) (stale : Bool) (s : State) : (takeFrame m i stale s).pending = s.pending := by
  unfold takeFrame; simp only [ite_pending, testDecayFrame_pending, chanFrame_pending, updChan_pending, gapSlot_pending, ite_self]
@[simp] theorem slotMissing_pending (n : Fin 8) (lvl : Bool) (s : State) : (slotMissing n lvl s).pending = s.pending := by
  unfold slotMissing; simp only [ite_pending, updLine_pending, addHeat_pending, chanMissing_pending, enterBreak_pending, ite_self]
@[simp] theorem slotValid_pending (n : Fin 8) (b : FrameBits) (s : State) : (slotValid n b s).pending = s.pending := by
  unfold slotValid; simp only [ite_pending, raise_pending, updLine_pending, addHeat_pending, classify_pending, leaveBreak_pending, takeFrame_pending, ite_self]
@[simp] theorem senseFrame_pending (n : Fin 8) (x : BitVec 82) (s : State) : (senseFrame n x s).pending = s.pending := by
  unfold senseFrame; simp only [ite_pending, updLine_pending, slotMissing_pending, raise_pending, slotValid_pending, ite_self]

/-! ### BusOps.lean -/

@[simp] theorem gateEvent_pending (b : Blk) (win : Bool) (id : Nat) (s : State) : (gateEvent b win id s).pending = s.pending := by
  unfold gateEvent; simp only [raise_pending]
@[simp] theorem gatedWrite_pending (b : Blk) (a : Nat) (f : State → State) (s : State) (hf : ∀ t, (f t).pending = t.pending) : (gatedWrite b a f s).pending = s.pending := by
  unfold gatedWrite; simp only [ite_pending, gateEvent_pending, hf, ite_self]
@[simp] theorem gatedRead_pending (b : Blk) (a : Nat) (f : State → Word × State) (s : State) (hf : ∀ t, (f t).2.pending = t.pending) : (gatedRead b a f s).2.pending = s.pending := by
  unfold gatedRead; simp only [itep_pending, gateEvent_pending, hf, ite_self]
@[simp] theorem gatedWindow_pending (b : Blk) (space : Nat) (f : State → Word × State) (s : State) (hf : ∀ t, (f t).2.pending = t.pending) : (gatedWindow b space f s).2.pending = s.pending := by
  unfold gatedWindow; simp only [itep_pending, gateEvent_pending, hf, ite_self]
@[simp] theorem askWake_pending (code : Nat) (s : State) : (askWake code s).pending = s.pending := rfl
@[simp] theorem holdRows_pending (is : List Instr) (s : State) : (holdRows is s).pending = s.pending := by
  unfold holdRows; simp only [askWake_pending]
@[simp] theorem latchWake_pending (code : Nat) (s : State) : (latchWake code s).pending = s.pending := rfl
@[simp] theorem csFalls_pending (s : State) : (csFalls s).pending = s.pending := by
  unfold csFalls; (repeat' split) <;> simp only [latchWake_pending, askWake_pending]
@[simp] theorem hostRow_pending (i : Instr) (f : State → State) (s : State) (hf : ∀ t, (f t).pending = t.pending) : (hostRow i f s).pending = s.pending := by
  unfold hostRow; simp only [ite_pending, holdRows_pending, csFalls_pending, hf, ite_self]
@[simp] theorem hostRead_pending (i : Instr) (f : State → Word × State) (s : State) (hf : ∀ t, (f t).2.pending = t.pending) : (hostRead i f s).pending = s.pending := by
  unfold hostRead; simp only [hostRow_pending, readIf_pending, hf, implies_true]
@[simp] theorem stepWinadr_pending (p : Path) (s : State) : (stepWinadr p s).pending = s.pending := by
  unfold stepWinadr; (repeat' split) <;> simp only
@[simp] theorem pointAt_pending (space off : Nat) (s : State) : (pointAt space off s).pending = s.pending := by
  unfold pointAt; simp only [ite_pending, ite_self]
@[simp] theorem windowRead_pending (i : Instr) (space off : Nat) (f : State → Word × State) (s : State) (hf : ∀ t, (f t).2.pending = t.pending) : (windowRead i space off f s).pending = s.pending := by
  unfold windowRead; simp only [hostRead_pending, pointAt_pending, stepWinadr_pending, hf, implies_true]
@[simp] theorem windowWrite_pending (i : Instr) (space off : Nat) (f : State → State) (s : State) (hf : ∀ t, (f t).pending = t.pending) : (windowWrite i space off f s).pending = s.pending := by
  unfold windowWrite; simp only [ite_pending, hostRow_pending, stepWinadr_pending, pointAt_pending, hf, ite_self, implies_true]
@[simp] theorem deny_pending (p : Path) (kind id : Nat) (s : State) : (deny p kind id s).pending = s.pending := by
  unfold deny; simp only [raise_pending]

/-! ### Predictor.lean -/

@[simp] theorem readAngleL_pending (p : Path) (s : State) : (readAngleL p s).2.pending = s.pending := by
  unfold readAngleL; (repeat' split) <;> simp only
@[simp] theorem setPred_pending (p : Pred) (s : State) : (setPred p s).pending = s.pending := rfl
@[simp] theorem beginPred_pending (p : Pred) (s : State) : (beginPred p s).pending = s.pending := rfl
@[simp] theorem noteResidual_pending (p h : Nat) (res : Int) (s : State) : (noteResidual p h res s).pending = s.pending := by
  unfold noteResidual; simp only [ite_pending, raise_pending, pushRec_pending, ite_self]
@[simp] theorem learnRev_pending (stamp : Tb) (s : State) : (learnRev stamp s).pending = s.pending := by
  unfold learnRev; dsimp only; (repeat' split) <;> simp only
@[simp] theorem learnTooth_pending (stamp : Tb) (p : Nat) (s : State) : (learnTooth stamp p s).pending = s.pending := rfl
@[simp] theorem learnSpoil_pending (s : State) : (learnSpoil s).pending = s.pending := rfl
@[simp] theorem learnLost_pending (s : State) : (learnLost s).pending = s.pending := rfl

/-! ### LinkOps.lean -/

@[simp] theorem queueOut_pending (rank : Nat) (f : Frame) (stamp : Option Tb) (s : State) : (queueOut rank f stamp s).pending = s.pending := rfl
@[simp] theorem queueFault_pending (src cls ch sev : Nat) (safe : Bool) (det : Word) (s : State) : (queueFault src cls ch sev safe det s).pending = s.pending := by
  unfold queueFault; simp only [ite_pending, queueOut_pending, ite_self]

/-! ### MboxOps.lean -/

@[simp] theorem badArg_pending (s : State) : (badArg s).st.pending = s.pending := rfl
@[simp] theorem checkFail_pending (k : Nat) (s : State) : (checkFail k s).st.pending = s.pending := rfl
@[simp] theorem checked_pending (argsOk : Bool) (checks : List Bool) (s : State) (eff : CmdRes) (heff : eff.st.pending = s.pending) : (checked argsOk checks s eff).st.pending = s.pending := by
  unfold checked; (repeat' split) <;> simp only [badArg_pending, checkFail_pending, heff]
@[simp] theorem denyEvent_pending (code : Nat) (ring : Bool) (s : State) : (denyEvent code ring s).pending = s.pending := by
  unfold denyEvent; simp only [raise_pending]
@[simp] theorem guarded_pending (c : Cmd) (op : Args → State → CmdRes) (s : State) (hop : ∀ x0 t, (op x0 t).st.pending = t.pending) : (guarded c op s).st.pending = s.pending := by
  unfold guarded; simp only [itec_pending, denyEvent_pending, hop, ite_self]
@[simp] theorem submit_pending (p : Path) (code : Byte) (s : State) : (submit p code s).pending = s.pending := by
  unfold submit; simp only [ite_pending, ite_self]
@[simp] theorem writeArg_pending (n : Nat) (w : Word) (s : State) : (writeArg n w s).pending = s.pending := by
  unfold writeArg; simp only [ite_pending, ite_self]
@[simp] theorem replyTo_pending (node : Nat) (tag : Byte) (status q0 : Nat) (s : State) : (replyTo node tag status q0 s).pending = s.pending := by
  unfold replyTo; simp only [ite_pending, queueOut_pending, ite_self]
@[simp] theorem endCmd_pending (status q0 q1 : Nat) (s : State) : (endCmd status q0 q1 s).pending = s.pending := by
  unfold endCmd; (repeat' split) <;> simp only [setInt_pending, replyTo_pending]
@[simp] theorem serve_pending (c : Cmd) (op : Args → State → CmdRes) (s : State) (hop : ∀ x0 t, (op x0 t).st.pending = t.pending) : (serve c op s).pending = s.pending := by
  unfold serve; simp only [ite_pending, guarded_pending, endCmd_pending, hop, ite_self, implies_true]
@[simp] theorem hostSubmit_pending (code : Byte) (a : Args) (s : State) : (hostSubmit code a s).pending = s.pending := by
  unfold hostSubmit; simp only [ite_pending, submit_pending, ite_self]
@[simp] theorem mboxServe_pending (code : Byte) (op : Args → State → CmdRes) (a : Args) (s : State) (hop : ∀ x0 t, (op x0 t).st.pending = t.pending) : (mboxServe code op a s).pending = s.pending := by
  unfold mboxServe; (repeat' split) <;> simp only [serve_pending, hop, implies_true]
@[simp] theorem mboxTake_pending (code : Byte) (op : Args → State → CmdRes) (a : Args) (s : State) (hop : ∀ x0 t, (op x0 t).st.pending = t.pending) : (mboxTake code op a s).pending = s.pending := by
  unfold mboxTake; simp only [ite_pending, mboxServe_pending, hostSubmit_pending, hop, ite_self, implies_true]
@[simp] theorem mboxRow_pending (code : Byte) (op : Args → State → CmdRes) (a : Args) (s : State) (hop : ∀ x0 t, (op x0 t).st.pending = t.pending) : (mboxRow code op a s).pending = s.pending := by
  unfold mboxRow; simp only [ite_pending, holdRows_pending, mboxTake_pending, csFalls_pending, hop, ite_self, implies_true]
@[simp] theorem cutHardware_pending (s : State) : (cutHardware s).pending = s.pending := rfl
@[simp] theorem cutCore_pending (s : State) : (cutCore s).pending = s.pending := by
  unfold cutCore; simp only [ite_pending, cutHardware_pending, ite_self]
@[simp] theorem startNext_pending (s : State) : (startNext s).pending = s.pending := by
  unfold startNext; (repeat' split) <;> simp only

/-! ### Brass.lean -/

@[simp] theorem updProg_pending (n : Fin 12) (f : Prog → Prog) (s : State) : (updProg n f s).pending = s.pending := by
  unfold updProg; simp only [updChan_pending]
@[simp] theorem issued_pending (n : Fin 8) (s : State) : (issued n s).pending = s.pending := by
  unfold issued; simp only [updProg_pending]
@[simp] theorem stepPc_pending (n : Fin 8) (s : State) : (stepPc n s).pending = s.pending := by
  unfold stepPc; simp only [updProg_pending]
@[simp] theorem holdEnds_pending (n : Fin 8) (s : State) : (holdEnds n s).pending = s.pending := by
  unfold holdEnds; simp only [updProg_pending]
@[simp] theorem opEnd_pending (n : Fin 8) (s : State) : (opEnd n s).pending = s.pending := by
  unfold opEnd; simp only [enterDecay_pending, issued_pending]
@[simp] theorem opSett_pending (n : Fin 8) (level : Word) (thr noslew : Bool) (s : State) : (opSett n level thr noslew s).pending = s.pending := by
  unfold opSett; simp only [issued_pending, updProg_pending, stepPc_pending, setTarget_pending]
@[simp] theorem opSeth_pending (n : Fin 8) (hys : Word) (s : State) : (opSeth n hys s).pending = s.pending := by
  unfold opSeth; simp only [issued_pending, stepPc_pending, updChan_pending]
@[simp] theorem opWaitt_pending (n : Fin 8) (t : BitVec 24) (abs : Bool) (s : State) : (opWaitt n t abs s).pending = s.pending := by
  unfold opWaitt; simp only [ite_pending, issued_pending, stepPc_pending, updProg_pending, ite_self]
@[simp] theorem opWaiti_pending (n : Fin 8) (level : Word) (dir : Bool) (tmo : BitVec 12) (s : State) : (opWaiti n level dir tmo s).pending = s.pending := by
  unfold opWaiti; simp only [issued_pending, updProg_pending]
@[simp] theorem opBr_pending (n : Fin 8) (dest : BitVec 5) (inv : Bool) (cond : BitVec 4) (level : Word) (s : State) : (opBr n dest inv cond level s).pending = s.pending := by
  unfold opBr; simp only [ite_pending, issued_pending, updProg_pending, stepPc_pending, ite_self]
@[simp] theorem boostOn_pending (n : Fin 8) (s : State) : (boostOn n s).pending = s.pending := by
  unfold boostOn; simp only [ite_pending, updChan_pending, boostUpdate_pending, setDrv_pending, ite_self]
@[simp] theorem boostOff_pending (n : Fin 8) (s : State) : (boostOff n s).pending = s.pending := by
  unfold boostOff; simp only [ite_pending, setDrv_pending, boostUpdate_pending, updChan_pending, stepPc_pending, ite_self]
@[simp] theorem opBoost_pending (n : Fin 8) (on : Bool) (s : State) : (opBoost n on s).pending = s.pending := by
  unfold opBoost; simp only [ite_pending, issued_pending, stepPc_pending, boostOn_pending, boostOff_pending, ite_self]
@[simp] theorem opSig_pending (n : Fin 8) (value mask : BitVec 2) (irq : Bool) (s : State) : (opSig n value mask irq s).pending = s.pending := by
  unfold opSig; simp only [ite_pending, issued_pending, updProg_pending, setInt_pending, stepPc_pending, ite_self]
@[simp] theorem brassIssue_pending (n : Fin 8) (op : BrassOp) (s : State) : (brassIssue n op s).pending = s.pending := by
  unfold brassIssue; (repeat' split) <;> simp only [opEnd_pending, opSett_pending, opSeth_pending, opWaitt_pending, opWaiti_pending, opBr_pending, opBoost_pending, opSig_pending]
@[simp] theorem brassApply_pending (e base len : Nat) (maxon : Word) (s : State) : (brassApply e base len maxon s).pending = s.pending := by
  unfold brassApply; rfl
@[simp] theorem cmdBrassLoad_pending (a : Args) (s : State) : (cmdBrassLoad a s).st.pending = s.pending := by
  unfold cmdBrassLoad; dsimp only; simp only [ite_pending, itec_pending, checked_pending, brassApply_pending, badArg_pending, ite_self]
@[simp] theorem readSigirq_pending (s : State) : (readSigirq s).2.pending = s.pending := rfl
@[simp] theorem readBrass_pending (off : Nat) (s : State) : (readBrass off s).2.pending = s.pending := by
  unfold readBrass; (repeat' split) <;> simp only [readSigirq_pending]

/-! ### Slots.lean -/

@[simp] theorem updSlot_pending (i : Fin 64) (f : Slot → Slot) (s : State) : (updSlot i f s).pending = s.pending := rfl
@[simp] theorem permitSlots_pending (s : State) : (permitSlots s).pending = s.pending := by
  unfold permitSlots; rfl
@[simp] theorem newRefs_pending (s : State) : (newRefs s).pending = s.pending := by
  unfold newRefs; rfl
@[simp] theorem cancelRec_pending (i : Fin 64) (reason : Nat) (armed cyc0 : Bool) (w : SlotW) (s : State) : (cancelRec i reason armed cyc0 w s).pending = s.pending := by
  unfold cancelRec; simp only [pushRec_pending]
@[simp] theorem bulkRec_pending (reason n armed : Nat) (s : State) : (bulkRec reason n armed s).pending = s.pending := by
  unfold bulkRec; simp only [ite_pending, pushRec_pending, ite_self]
@[simp] theorem deviceCancel_pending (reason : Nat) (pendingToo : Bool) (s : State) : (deviceCancel reason pendingToo s).pending = s.pending := by
  unfold deviceCancel; simp only [bulkRec_pending]
@[simp] theorem safeCancel_pending (batch : Nat) (s : State) : (safeCancel batch s).pending = s.pending := by
  unfold safeCancel; rfl
@[simp] theorem flushBulk_pending (s : State) : (flushBulk s).pending = s.pending := by
  unfold flushBulk; (repeat' split) <;> simp only [bulkRec_pending]
@[simp] theorem arm_pending (i : Fin 64) (a : Tb) (late : Bool) (past : Option Nat) (cyc : Word) (s : State) : (arm i a late past cyc s).pending = s.pending := by
  unfold arm; simp only [updSlot_pending]
@[simp] theorem setCyc_pending (c : Word) (s : State) : (setCyc c s).pending = s.pending := by
  unfold setCyc; simp only [ite_pending, ite_self]
@[simp] theorem lateSlot_pending (i : Fin 64) (s : State) : (lateSlot i s).pending = s.pending := by
  unfold lateSlot; simp only [ite_pending, cancelRec_pending, updSlot_pending, arm_pending, ite_self]
@[simp] theorem settleLate_pending (s : State) : (settleLate s).pending = s.pending := by
  unfold settleLate; simp only [foldSt_pending, lateSlot_pending, implies_true]
@[simp] theorem applyPermission_pending (s : State) : (applyPermission s).pending = s.pending := by
  unfold applyPermission; simp only [settleLate_pending, permitSlots_pending]
@[simp] theorem retakeRefs_pending (s : State) : (retakeRefs s).pending = s.pending := by
  unfold retakeRefs; simp only [settleLate_pending, newRefs_pending]
@[simp] theorem slotGo_pending (i : Fin 64) (s : State) : (slotGo i s).pending = s.pending := by
  unfold slotGo; simp only [ite_pending, raise_pending, updSlot_pending, pushRec_pending, settleLate_pending, ite_self]
@[simp] theorem slotCancel_pending (i : Fin 64) (s : State) : (slotCancel i s).pending = s.pending := by
  unfold slotCancel; dsimp only; (repeat' split) <;> simp only [cancelRec_pending, updSlot_pending]
@[simp] theorem writeCtl2_pending (i : Fin 64) (w : Word) (s : State) : (writeCtl2 i w s).pending = s.pending := by
  unfold writeCtl2; simp only [ite_pending, updSlot_pending, slotCancel_pending, slotGo_pending, ite_self]
@[simp] theorem writeSlot_pending (i : Fin 64) (k : Nat) (w : Word) (s : State) : (writeSlot i k w s).pending = s.pending := by
  unfold writeSlot; (repeat' split) <;> simp only [updSlot_pending, writeCtl2_pending]
@[simp] theorem hostSlotWrite_pending (p : Path) (off : Nat) (w : Word) (s : State) : (hostSlotWrite p off w s).pending = s.pending := by
  unfold hostSlotWrite; (repeat' split) <;> simp only [deny_pending, writeSlot_pending]
@[simp] theorem evalSlot_pending (i : Fin 64) (s : State) : (evalSlot i s).pending = s.pending := by
  unfold evalSlot; dsimp only; (repeat' split) <;> simp only [arm_pending, updSlot_pending, lateSlot_pending]
@[simp] theorem opEval_pending (i : Fin 64) (s : State) : (opEval i s).pending = s.pending := by
  unfold opEval; simp only [evalSlot_pending]
@[simp] theorem issueStrobe_pending (src : Nat) (dly : Bool) (s : State) : (issueStrobe src dly s).pending = s.pending := rfl
@[simp] theorem slotAction_pending (w : SlotW) (s : State) : (slotAction w s).2.pending = s.pending := by
  unfold slotAction; simp only [itep_pending, issueStrobe_pending, fireAction_pending, ite_self]
@[simp] theorem fireRec_pending (i : Fin 64) (x : Slot) (late : Bool) (f : FireFlag) (s : State) : (fireRec i x late f s).pending = s.pending := by
  unfold fireRec; simp only [ite_pending, pushRec_pending, ite_self]
@[simp] theorem afterFire_pending (i : Fin 64) (flag : FireFlag) (s : State) : (afterFire i flag s).pending = s.pending := by
  unfold afterFire; simp only [updSlot_pending]
@[simp] theorem fireSlot_pending (i : Fin 64) (s : State) : (fireSlot i s).pending = s.pending := by
  unfold fireSlot; dsimp only; (repeat' split) <;> simp only [slotAction_pending, afterFire_pending, fireRec_pending]
@[simp] theorem opCycleStart_pending (s : State) : (opCycleStart s).pending = s.pending := by
  unfold opCycleStart; simp only [ite_pending, pushRec_pending, setCyc_pending, ite_self]
@[simp] theorem readRptstat_pending (s : State) : (readRptstat s).2.pending = s.pending := rfl
@[simp] theorem popRec_pending (q : Quad) (rest : List Quad) (s : State) : (popRec q rest s).pending = s.pending := by
  unfold popRec; (repeat' split) <;> simp only [setInt_pending]
@[simp] theorem readRptdat_pending (s : State) : (readRptdat s).2.pending = s.pending := by
  unfold readRptdat; (repeat' split) <;> simp only [settleSeq_pending, popRec_pending]

/-! ### CamPhase.lean -/

@[simp] theorem pushPhase_pending (q : Quad) (s : State) : (pushPhase q s).pending = s.pending := by
  unfold pushPhase; simp only [setIntIf_pending]
@[simp] theorem pushConv_pending (q : Quad) (s : State) : (pushConv q s).pending = s.pending := by
  unfold pushConv; simp only [setIntIf_pending]
@[simp] theorem readPop_pending (conv : Bool) (j : Nat) (s : State) : (readPop conv j s).2.pending = s.pending := by
  unfold readPop; simp only [ite_pending, itep_pending, setIntIf_pending, settleSeq_pending, ite_self]
@[simp] theorem readBufStat_pending (conv : Bool) (s : State) : (readBufStat conv s).2.pending = s.pending := by
  unfold readBufStat; simp only [itep_pending, ite_self]
@[simp] theorem updCpc_pending (c : Fin 4) (f : CpcCam → CpcCam) (s : State) : (updCpc c f s).pending = s.pending := rfl
@[simp] theorem resetAverages_pending (s : State) : (resetAverages s).pending = s.pending := rfl
@[simp] theorem measureEdge_pending (c : Fin 4) (rise : Bool) (t : Tb) (s : State) : (measureEdge c rise t s).pending = s.pending := by
  unfold measureEdge; dsimp only; (repeat' split) <;> simp only [updCpc_pending, setIntIf_pending, pushPhase_pending]
@[simp] theorem updWin_pending (w : Fin 8) (f : Win → Win) (s : State) : (updWin w f s).pending = s.pending := rfl
@[simp] theorem windowsCheck_pending (s : State) : (windowsCheck s).pending = s.pending := rfl
@[simp] theorem opPassStart_pending (w : Fin 8) (s : State) : (opPassStart w s).pending = s.pending := by
  unfold opPassStart; simp only [updWin_pending]
@[simp] theorem opStrobe_pending (w : Fin 8) (dly : Bool) (s : State) : (opStrobe w dly s).pending = s.pending := by
  unfold opStrobe; simp only [updWin_pending, issueStrobe_pending]
@[simp] theorem writeWctl_pending (w : Fin 8) (v : Word) (s : State) : (writeWctl w v s).pending = s.pending := by
  unfold writeWctl; simp only [ite_pending, updWin_pending, ite_self]
@[simp] theorem writeCpc_pending (off : Nat) (v : Word) (s : State) : (writeCpc off v s).pending = s.pending := by
  unfold writeCpc; (repeat' split) <;> simp only [updCpc_pending, updWin_pending, writeWctl_pending]
@[simp] theorem hostCpcWrite_pending (p : Path) (off : Nat) (v : Word) (s : State) : (hostCpcWrite p off v s).pending = s.pending := by
  unfold hostCpcWrite; simp only [ite_pending, gateEvent_pending, deny_pending, writeCpc_pending, ite_self]
@[simp] theorem convEntry_pending (x : Strobe) (err : Nat) (result : Word) (s : State) : (convEntry x err result s).pending = s.pending := by
  unfold convEntry; simp only [ite_pending, takeSeq_pending, pushConv_pending, setInt_pending, raise_pending, ite_self]
@[simp] theorem opConverterFrame_pending (x : BitVec 82) (s : State) : (opConverterFrame x s).pending = s.pending := by
  unfold opConverterFrame; dsimp only; (repeat' split) <;> simp only [raise_pending, foldSt_pending, convEntry_pending, implies_true]
@[simp] theorem readCpc_pending (off : Nat) (s : State) : (readCpc off s).2.pending = s.pending := by
  unfold readCpc; (repeat' split) <;> simp only [readBufStat_pending, readPop_pending]
@[simp] theorem cpsFastReset_pending (s : State) : (cpsFastReset s).pending = s.pending := by
  unfold cpsFastReset; simp only [resetAverages_pending]
@[simp] theorem cpsSafe_pending (s : State) : (cpsSafe s).pending = s.pending := rfl

/-! ### TestOps.lean -/

@[simp] theorem endIf_pending (code : Byte) (status q0 q1 : Nat) (s : State) : (endIf code status q0 q1 s).pending = s.pending := by
  unfold endIf; (repeat' split) <;> simp only [endCmd_pending]
@[simp] theorem endReady_pending (s : State) : (endReady s).pending = s.pending := by
  unfold endReady; (repeat' split) <;> simp only [endCmd_pending]
@[simp] theorem testBegin_pending (t : DTest) (n : Fin 8) (s : State) : (testBegin t n s).pending = s.pending := by
  unfold testBegin; simp only [ite_pending, ite_self]
@[simp] theorem testNote_pending (ch k : Nat) (r : Vector Nat 2) (s : State) : (testNote ch k r s).pending = s.pending := by
  unfold testNote; (repeat' split) <;> simp only
@[simp] theorem testEnd_pending (s : State) : (testEnd s).pending = s.pending := by
  unfold testEnd; (repeat' split) <;> simp only [endIf_pending]
@[simp] theorem testFrom_pending (k n : Nat) (s : State) : (testFrom k n s).pending = s.pending := by
  induction k generalizing n s with
  | zero => simp only [testFrom, testEnd_pending]
  | succ k ih =>
    rw [testFrom]
    (repeat' split) <;> first | rfl | simp only [ih, testNote_pending, testBegin_pending, testEnd_pending, ite_pending, ite_self]
@[simp] theorem testHold_pending (ph : TestPh) (ch : Nat) (s : State) : (testHold ph ch s).pending = s.pending := rfl
@[simp] theorem testFinish_pending (ch : Nat) (r : Vector Nat 2) (s : State) : (testFinish ch r s).pending = s.pending := by
  unfold testFinish; simp only [ite_pending, testNote_pending, testHold_pending, testFrom_pending, ite_self]
@[simp] theorem testWaitOver_pending (t : DTest) (s : State) : (testWaitOver t s).pending = s.pending := by
  unfold testWaitOver; simp only [ite_pending, testFinish_pending, setDrv_pending, ite_self]
@[simp] theorem testAdvance_pending (s : State) : (testAdvance s).pending = s.pending := by
  unfold testAdvance; (repeat' split) <;> simp only [ite_pending, testHold_pending, testWaitOver_pending, testFinish_pending, ite_self]
@[simp] theorem testResume_pending (s : State) : (testResume s).pending = s.pending := by
  unfold testResume; (repeat' split) <;> simp only [testWaitOver_pending, testFrom_pending]
@[simp] theorem testDecayOver_pending (n : Fin 12) (s : State) : (testDecayOver n s).pending = s.pending := by
  unfold testDecayOver; (repeat' split) <;> simp only [raise_pending, testFinish_pending]

/-! ### Channels.lean -/

@[simp] theorem opSenseFrame_pending (n : Fin 8) (x : BitVec 82) (s : State) : (opSenseFrame n x s).pending = s.pending := by
  unfold opSenseFrame; simp only [ite_pending, testAdvance_pending, senseFrame_pending, ite_self]
@[simp] theorem cdatMissing_pending (s : State) : (cdatMissing s).pending = s.pending := by
  unfold cdatMissing; simp only [ite_pending, raise_pending, ite_self]
@[simp] theorem opSlotMissing_pending (l : Fin 9) (s : State) : (opSlotMissing l s).pending = s.pending := by
  unfold opSlotMissing; (repeat' split) <;> simp only [ite_pending, testAdvance_pending, slotMissing_pending, updLine_pending, cdatMissing_pending, ite_self]
@[simp] theorem opLineStuck_pending (l : Fin 9) (high : Bool) (s : State) : (opLineStuck l high s).pending = s.pending := by
  unfold opLineStuck; (repeat' split) <;> simp only [testAdvance_pending, enterBreak_pending, raise_pending]
@[simp] theorem markPeakEnd_pending (n : Fin 12) (s : State) : (markPeakEnd n s).pending = s.pending := by
  unfold markPeakEnd; simp only [updChan_pending]
@[simp] theorem leaveDead_pending (n : Fin 12) (s : State) : (leaveDead n s).pending = s.pending := by
  unfold leaveDead; simp only [ite_pending, markPeakEnd_pending, enterDecay_pending, enterHold_pending, enterPeak_pending, ite_self]
@[simp] theorem opDeadEnd_pending (n : Fin 12) (s : State) : (opDeadEnd n s).pending = s.pending := by
  unfold opDeadEnd; simp only [ite_pending, updChan_pending, leaveDead_pending, ite_self]
@[simp] theorem opTpeak_pending (n : Fin 12) (s : State) : (opTpeak n s).pending = s.pending := by
  unfold opTpeak; simp only [ite_pending, markPeakEnd_pending, enterHold_pending, ite_self]
@[simp] theorem opMaxOn_pending (n : Fin 12) (s : State) : (opMaxOn n s).pending = s.pending := by
  unfold opMaxOn; simp only [ite_pending, raise_pending, enterLow_pending, enterDecay_pending, ite_self]
@[simp] theorem opDecayTimeout_pending (n : Fin 12) (s : State) : (opDecayTimeout n s).pending = s.pending := by
  unfold opDecayTimeout; simp only [ite_pending, raise_pending, enterIdle_pending, ite_self]
@[simp] theorem channelMode_pending (n : Fin 12) (f : ChCfg → ChCfg) (s : State) : (channelMode n f s).pending = s.pending := by
  unfold channelMode; simp only [ite_pending, updChan_pending, settle_pending, containInput_pending, ite_self]
@[simp] theorem cmdChannelSet_pending (a : Args) (s : State) : (cmdChannelSet a s).st.pending = s.pending := by
  unfold cmdChannelSet; dsimp only; (repeat' split) <;> first | rfl | (apply checked_pending; first | rfl | simp only [channelMode_pending])
@[simp] theorem cmdProfileLoad_pending (a : Args) (s : State) : (cmdProfileLoad a s).st.pending = s.pending := by
  unfold cmdProfileLoad; simp only [itec_pending, badArg_pending, checked_pending, ite_self]
@[simp] theorem checkBreak_pending (n : Fin 12) (s : State) : (checkBreak n s).pending = s.pending := by
  unfold checkBreak; simp only [ite_pending, updChan_pending, containInput_pending, ite_self]
@[simp] theorem joinPair_pending (p : Fin 4) (lo up : Fin 8) (s : State) : (joinPair p lo up s).pending = s.pending := by
  unfold joinPair; simp only [updChan_pending, settle_pending, refreshI_pending, checkBreak_pending]
@[simp] theorem splitPair_pending (p : Fin 4) (lo up : Fin 8) (s : State) : (splitPair p lo up s).pending = s.pending := by
  unfold splitPair; simp only [updChan_pending, refreshI_pending, checkBreak_pending]
@[simp] theorem cmdPairSet_pending (a : Args) (s : State) : (cmdPairSet a s).st.pending = s.pending := by
  unfold cmdPairSet; dsimp only; (repeat' split) <;> first | rfl | (apply checked_pending; first | rfl | simp only [joinPair_pending, splitPair_pending])
@[simp] theorem setScale_pending (n : Fin 12) (v : Nat) (s : State) : (setScale n v s).pending = s.pending := by
  unfold setScale; simp only [ite_pending, updChan_pending, applyScale_pending, ite_self]
@[simp] theorem cmdSenseScale_pending (a : Args) (s : State) : (cmdSenseScale a s).st.pending = s.pending := by
  unfold cmdSenseScale; simp only [checked_pending, setScale_pending]

/-! ### MirrorOps.lean -/

@[simp] theorem onEffChange_pending (old new : Sync) (s : State) : (onEffChange old new s).pending = s.pending := by
  unfold onEffChange; simp only [ite_pending, deviceCancel_pending, applyPermission_pending, windowsCheck_pending, resetAverages_pending, ite_self]
@[simp] theorem syncRec_pending (cause : Nat) (old new : Sync) (s : State) : (syncRec cause old new s).pending = s.pending := by
  unfold syncRec; simp only [ite_pending, setInt_pending, pushRec_pending, ite_self]
@[simp] theorem updMir_pending (f : Mirror → Mirror) (s : State) : (updMir f s).pending = s.pending := rfl
@[simp] theorem noteEff_pending (s : State) : (noteEff s).pending = s.pending := by
  unfold noteEff; simp only [updMir_pending]
@[simp] theorem reportEff_pending (cause : Nat) (s : State) : (reportEff cause s).pending = s.pending := by
  unfold reportEff; simp only [ite_pending, noteEff_pending, onEffChange_pending, syncRec_pending, ite_self]
@[simp] theorem ringLost_pending (cause : Nat) (s : State) : (ringLost cause s).pending = s.pending := by
  unfold ringLost; simp only [retakeRefs_pending, reportEff_pending, updMir_pending]
@[simp] theorem ringTaken_pending (cause : Nat) (s : State) : (ringTaken cause s).pending = s.pending := by
  unfold ringTaken; simp only [retakeRefs_pending, reportEff_pending, updMir_pending]
@[simp] theorem mirrorDown_pending (why : Word) (s : State) : (mirrorDown why s).pending = s.pending := by
  unfold mirrorDown; simp only [ite_pending, updMir_pending, ringLost_pending, raise_pending, ite_self]
@[simp] theorem mirrorCheck_pending (s : State) : (mirrorCheck s).pending = s.pending := by
  unfold mirrorCheck; simp only [ite_pending, updMir_pending, ringTaken_pending, raise_pending, ite_self]
@[simp] theorem checkConfig_pending (s : State) : (checkConfig s).pending = s.pending := by
  unfold checkConfig; simp only [ite_pending, updMir_pending, mirrorCheck_pending, mirrorDown_pending, ite_self]
@[simp] theorem sendRecord_pending (syn first : Bool) (stamp : Tb) (p h : Nat) (s : State) : (sendRecord syn first stamp p h s).pending = s.pending := by
  unfold sendRecord; simp only [ite_pending, queueOut_pending, ite_self]
@[simp] theorem sendState_pending (s : State) : (sendState s).pending = s.pending := by
  unfold sendState; simp only [ite_pending, queueOut_pending, ite_self]
@[simp] theorem sendConfig_pending (s : State) : (sendConfig s).pending = s.pending := by
  unfold sendConfig; simp only [ite_pending, queueOut_pending, ite_self]

/-! ### ClkOps.lean -/

@[simp] theorem updClk_pending (f : Clk → Clk) (s : State) : (updClk f s).pending = s.pending := rfl
@[simp] theorem updSys_pending (f : Sys → Sys) (s : State) : (updSys f s).pending = s.pending := rfl
@[simp] theorem clkRow_pending (f : State → State) (s : State) (hf : ∀ t, (f t).pending = t.pending) : (clkRow f s).pending = s.pending := by
  unfold clkRow; simp only [ite_pending, newInstant_pending, setIntIf_pending, hf, ite_self]
@[simp] theorem enterHeld_pending (s : State) : (enterHeld s).pending = s.pending := by
  unfold enterHeld; simp only [updClk_pending]
@[simp] theorem sourceLost_pending (rck : Bool) (s : State) : (sourceLost rck s).pending = s.pending := by
  unfold sourceLost; simp only [ite_pending, raise_pending, updClk_pending, enterHeld_pending, ite_self]
@[simp] theorem fcoLost_pending (s : State) : (fcoLost s).pending = s.pending := by
  unfold fcoLost; simp only [updClk_pending, sourceLost_pending]
@[simp] theorem rckLost_pending (s : State) : (rckLost s).pending = s.pending := by
  unfold rckLost; simp only [ite_pending, updClk_pending, sourceLost_pending, ite_self]
@[simp] theorem aocFalls_pending (s : State) : (aocFalls s).pending = s.pending := by
  unfold aocFalls; simp only [ite_pending, latchWake_pending, updClk_pending, raise_pending, ite_self]
@[simp] theorem takeSource_pending (rck : Bool) (s : State) : (takeSource rck s).pending = s.pending := by
  unfold takeSource; simp only [ite_pending, updClk_pending, mirrorDown_pending, mirrorCheck_pending, ite_self]

/-! ### StoreOps.lean -/

@[simp] theorem setBank_pending (b : Bool) (m : List Host.Cell) (s : State) : (setBank b m s).pending = s.pending := by
  unfold setBank; simp only [ite_pending, ite_self]
@[simp] theorem shadowPut_pending (addr : Nat) (bs : List Byte) (s : State) : (shadowPut addr bs s).pending = s.pending := by
  unfold shadowPut; simp only [ite_pending, ite_self]
@[simp] theorem countEvent_pending (src : Nat) (s : State) : (countEvent src s).pending = s.pending := by
  unfold countEvent; simp only [ite_pending, ite_self]
@[simp] theorem applyHeld_pending (s : State) : (applyHeld s).pending = s.pending := rfl
@[simp] theorem shadowGeom_pending (s : State) : (shadowGeom s).pending = s.pending := by
  unfold shadowGeom; simp only [shadowPut_pending]
@[simp] theorem shadowTherm_pending (s : State) : (shadowTherm s).pending = s.pending := by
  unfold shadowTherm; simp only [shadowPut_pending]
@[simp] theorem shadowSev_pending (s : State) : (shadowSev s).pending = s.pending := by
  unfold shadowSev; simp only [shadowPut_pending]
@[simp] theorem startCommit_pending (c : CommitCause) (s : State) : (startCommit c s).pending = s.pending := by
  unfold startCommit; simp only [setBank_pending]
@[simp] theorem cutCommit_pending (s : State) : (cutCommit s).pending = s.pending := by
  unfold cutCommit; (repeat' split) <;> simp only [setBank_pending]
@[simp] theorem requestCommit_pending (c : CommitCause) (s : State) : (requestCommit c s).pending = s.pending := by
  unfold requestCommit; simp only [ite_pending, startCommit_pending, ite_self]

/-! ### Faults.lean -/

@[simp] theorem updFlt_pending (f : Flt → Flt) (s : State) : (updFlt f s).pending = s.pending := rfl
@[simp] theorem emitHalt_pending (s : State) : (emitHalt s).pending = s.pending := rfl
@[simp] theorem enterSafe_pending (src : Nat) (bySelf : Bool) (det : Word) (batch : Nat) (s : State) : (enterSafe src bySelf det batch s).pending = s.pending := by
  unfold enterSafe; simp only [ite_pending, updFlt_pending, safeCancel_pending, containAll_pending, emitHalt_pending, queueFault_pending, cpsSafe_pending, requestCommit_pending, ite_self]
@[simp] theorem pushHist_pending (w0 : Word) (s : State) : (pushHist w0 s).2.pending = s.pending := by
  unfold pushHist; simp only [takeSeq_pending, updFlt_pending]
@[simp] theorem openOrMerge_pending (e : FEvent) (sev cls : Nat) (q : Word) (s : State) : (openOrMerge e sev cls q s).pending = s.pending := by
  unfold openOrMerge; (repeat' split) <;> simp only [updFlt_pending]
@[simp] theorem recordEvent_pending (e : FEvent) (sev : Nat) (s : State) : (recordEvent e sev s).pending = s.pending := by
  unfold recordEvent; simp only [ite_pending, pushHist_pending, openOrMerge_pending, queueFault_pending, setIntIf_pending, ite_self]
@[simp] theorem countSrc_pending (src : Nat) (s : State) : (countSrc src s).pending = s.pending := by
  unfold countSrc; simp only [countEvent_pending, updFlt_pending]
@[simp] theorem applyEvent_pending (e : FEvent) (s : State) : (applyEvent e s).pending = s.pending := by
  unfold applyEvent; simp only [ite_pending, countSrc_pending, recordEvent_pending, foldSt_pending, containCh_pending, enterSafe_pending, windowsCheck_pending, ite_self, implies_true]
@[simp] theorem opFaultApply_pending (s : State) : (opFaultApply s).pending = s.pending := by
  unfold opFaultApply; (repeat' split) <;> simp only [flushBulk_pending, applyEvent_pending, updFlt_pending]
@[simp] theorem ackOpen_pending (s : State) : (ackOpen s).pending = s.pending := by
  unfold ackOpen; (repeat' split) <;> simp only [updFlt_pending]
@[simp] theorem forgetClass_pending (n : Fin 12) (s : State) : (forgetClass n s).pending = s.pending := by
  unfold forgetClass; (repeat' split) <;> simp only [updDiag_pending]
@[simp] theorem liftOne_pending (n : Fin 12) (s : State) : (liftOne n s).pending = s.pending := by
  unfold liftOne; simp only [leaveContained_pending, forgetClass_pending, updChan_pending]
@[simp] theorem liftBefore_pending (n : Fin 12) (s : State) : (liftBefore n s).pending = s.pending := by
  unfold liftBefore; simp only [ite_pending, forgetClass_pending, ite_self]
@[simp] theorem liftCh_pending (n : Fin 12) (s : State) : (liftCh n s).pending = s.pending := by
  unfold liftCh; simp only [ite_pending, liftBefore_pending, liftOne_pending, ite_self]
@[simp] theorem lift_pending (mask : BitVec 12) (s : State) : (lift mask s).pending = s.pending := by
  unfold lift; simp only [foldSt_pending, liftCh_pending, implies_true]
@[simp] theorem clearHist_pending (s : State) : (clearHist s).pending = s.pending := by
  unfold clearHist; simp only [updFlt_pending]
@[simp] theorem clearSelf_pending (s : State) : (clearSelf s).pending = s.pending := by
  unfold clearSelf; simp only [ite_pending, updFlt_pending, ite_self]
@[simp] theorem writeFltack_pending (w : Word) (s : State) : (writeFltack w s).pending = s.pending := by
  unfold writeFltack; simp only [ite_pending, ackOpen_pending, lift_pending, clearHist_pending, clearSelf_pending, ite_self]
@[simp] theorem fltackDo_pending (f : State → State) (s : State) (hf : ∀ t, (f t).pending = t.pending) : (fltackDo f s).pending = s.pending := by
  unfold fltackDo; simp only [ite_pending, hf, ite_self]
@[simp] theorem readFlthist_pending (s : State) : (readFlthist s).2.pending = s.pending := by
  unfold readFlthist; dsimp only; (repeat' split) <;> simp only [updFlt_pending]
@[simp] theorem readFltstat_pending (s : State) : (readFltstat s).2.pending = s.pending := by
  unfold readFltstat; simp only [updFlt_pending]
@[simp] theorem readOsum_pending (p : Path) (s : State) : (readOsum p s).2.pending = s.pending := by
  unfold readOsum; (repeat' split) <;> simp only [updFlt_pending]
@[simp] theorem readFsrc_pending (p : Path) (off : Nat) (s : State) : (readFsrc p off s).2.pending = s.pending := by
  unfold readFsrc; simp only [itep_pending, readOsum_pending, ite_self]
@[simp] theorem cmdFsrcSet_pending (a : Args) (s : State) : (cmdFsrcSet a s).st.pending = s.pending := by
  unfold cmdFsrcSet; simp only [checked_pending, shadowSev_pending, updFlt_pending]
@[simp] theorem cmdFltRead_pending (a : Args) (s : State) : (cmdFltRead a s).st.pending = s.pending := by
  unfold cmdFltRead; (repeat' split) <;> first | rfl | (apply checked_pending; first | rfl | simp only [ite_pending, itep_pending, itec_pending, checked_pending, updFlt_pending, badArg_pending, ite_self, implies_true])

/-! ### Thermal.lean -/

@[simp] theorem thEvents_pending (n : Fin 8) (old new : ThCh) (s : State) : (thEvents n old new s).pending = s.pending := by
  unfold thEvents; simp only [ite_pending, raise_pending, setIntIf_pending, ite_self]
@[simp] theorem dieCheck_pending (s : State) : (dieCheck s).pending = s.pending := by
  unfold dieCheck; simp only [ite_pending, raise_pending, ite_self]
@[simp] theorem opDie_pending (k : Fin 4) (r : Int) (s : State) : (opDie k r s).pending = s.pending := by
  unfold opDie; simp only [ite_pending, raise_pending, dieCheck_pending, ite_self]
@[simp] theorem opThermalTick_pending (s : State) : (opThermalTick s).pending = s.pending := by
  unfold opThermalTick; simp only [ite_pending, foldSt_pending, thEvents_pending, throttleMoved_pending, dieCheck_pending, shadowTherm_pending, ite_self, implies_true]
@[simp] theorem thermFastReset_pending (s : State) : (thermFastReset s).pending = s.pending := rfl
@[simp] theorem updTh_pending (f : Fin 8 → ThCh → ThCh) (s : State) : (updTh f s).pending = s.pending := rfl
@[simp] theorem cmdThermSet_pending (a : Args) (s : State) : (cmdThermSet a s).st.pending = s.pending := by
  unfold cmdThermSet; dsimp only; (repeat' split) <;> first | rfl | (apply checked_pending; first | rfl | simp only [ite_pending, itep_pending, itec_pending, checked_pending, updTh_pending, badArg_pending, ite_self, implies_true])
@[simp] theorem readTw_pending (p : Path) (n : Fin 8) (s : State) : (readTw p n s).2.pending = s.pending := by
  unfold readTw; (repeat' split) <;> simp only [updTh_pending]
@[simp] theorem readTherm_pending (p : Path) (off : Nat) (s : State) : (readTherm p off s).2.pending = s.pending := by
  unfold readTherm; dsimp only; (repeat' split) <;> simp only [readTw_pending]

/-! ### Timers.lean -/

@[simp] theorem updTim_pending (k : Fin 8) (f : Timer → Timer) (s : State) : (updTim k f s).pending = s.pending := rfl
@[simp] theorem timInt_pending (k : Fin 8) (old : Timer) (s : State) : (timInt k old s).pending = s.pending := by
  unfold timInt; simp only [setIntIf_pending]
@[simp] theorem timDo_pending (k : Fin 8) (m o : Bool) (f : Timer → Timer) (s : State) : (timDo k m o f s).pending = s.pending := by
  unfold timDo; simp only [timInt_pending, updTim_pending]
@[simp] theorem timStep_pending (k : Fin 8) (s : State) : (timStep k s).pending = s.pending := by
  unfold timStep; simp only [timDo_pending]
@[simp] theorem writeTimctl_pending (w : Word) (s : State) : (writeTimctl w s).pending = s.pending := by
  unfold writeTimctl; simp only [ite_pending, timStep_pending, setIntIf_pending, updTim_pending, ite_self]
@[simp] theorem loadCount_pending (hi : Word) (s : State) : (loadCount hi s).pending = s.pending := by
  unfold loadCount; simp only [updTim_pending]
@[simp] theorem loadPreload_pending (hi : Word) (s : State) : (loadPreload hi s).pending = s.pending := by
  unfold loadPreload; simp only [updTim_pending]
@[simp] theorem clearFlags_pending (w : Word) (s : State) : (clearFlags w s).pending = s.pending := rfl
@[simp] theorem writeTim_pending (a : Nat) (w : Word) (s : State) : (writeTim a w s).pending = s.pending := by
  unfold writeTim; simp only [ite_pending, writeTimctl_pending, updTim_pending, loadCount_pending, loadPreload_pending, clearFlags_pending, ite_self]
@[simp] theorem timFastReset_pending (s : State) : (timFastReset s).pending = s.pending := rfl

/-! ### WheelOps.lean -/

@[simp] theorem updWheel_pending (f : Wheel → Wheel) (s : State) : (updWheel f s).pending = s.pending := rfl
@[simp] theorem openNow_pending (s : State) : (openNow s).pending = s.pending := by
  unfold openNow; simp only [updWheel_pending]
@[simp] theorem enterSync_pending (new : Sync) (s : State) : (enterSync new s).pending = s.pending := by
  unfold enterSync; (repeat' split) <;> simp only [learnLost_pending, updWheel_pending, openNow_pending, learnSpoil_pending]
@[simp] theorem legacyLoss_pending (s : State) : (legacyLoss s).pending = s.pending := by
  unfold legacyLoss; simp only [noteLeg_pending]
@[simp] theorem afterSync_pending (old new : Sync) (eff : Sync) (s : State) : (afterSync old new eff s).pending = s.pending := by
  unfold afterSync; simp only [ite_pending, noteEff_pending, onEffChange_pending, sendState_pending, legacyLoss_pending, ite_self]
@[simp] theorem changeSync_pending (new : Sync) (cause : Nat) (s : State) : (changeSync new cause s).pending = s.pending := by
  unfold changeSync; simp only [ite_pending, enterSync_pending, updWheel_pending, syncRec_pending, raise_pending, afterSync_pending, ite_self]
@[simp] theorem input_pending (code : Nat) (s : State) : (input code s).pending = s.pending := by
  unfold input; simp only [changeSync_pending]
@[simp] theorem inputBad_pending (s : State) : (inputBad s).pending = s.pending := by
  unfold inputBad; simp only [ite_pending, updWheel_pending, ite_self]
@[simp] theorem inputTooth_pending (s : State) : (inputTooth s).pending = s.pending := by
  unfold inputTooth; (repeat' split) <;> simp only [ite_pending, updWheel_pending, changeSync_pending, ite_self]
@[simp] theorem resolveHalf_pending (h : Nat) (s : State) : (resolveHalf h s).pending = s.pending := rfl
@[simp] theorem inputGap_pending (s : State) : (inputGap s).pending = s.pending := by
  unfold inputGap; simp only [ite_pending, updWheel_pending, changeSync_pending, resolveHalf_pending, raise_pending, ite_self]
@[simp] theorem reverseInd_pending (s : State) : (reverseInd s).pending = s.pending := by
  unfold reverseInd; simp only [raise_pending, updWheel_pending]
@[simp] theorem speedInput_pending (s : State) : (speedInput s).pending = s.pending := by
  unfold speedInput; simp only [input_pending, raise_pending]
@[simp] theorem reverseTest_pending (g : Nat) (s : State) : (reverseTest g s).pending = s.pending := by
  unfold reverseTest; simp only [ite_pending, speedInput_pending, ite_self]
@[simp] theorem reverseCode_pending (s : State) : (reverseCode s).pending = s.pending := by
  unfold reverseCode; simp only [ite_pending, reverseTest_pending, reverseInd_pending, updWheel_pending, input_pending, ite_self]
@[simp] theorem retakeO2_pending (s : State) : (retakeO2 s).pending = s.pending := rfl
@[simp] theorem swapGeom_pending (s : State) : (swapGeom s).pending = s.pending := by
  unfold swapGeom; simp only [ite_pending, retakeO2_pending, shadowGeom_pending, ite_self]
@[simp] theorem learnAt_pending (stamp : Tb) (p : Nat) (s : State) : (learnAt stamp p s).pending = s.pending := by
  unfold learnAt; simp only [ite_pending, learnRev_pending, swapGeom_pending, learnTooth_pending, ite_self]
@[simp] theorem recordTooth_pending (syn : Bool) (stamp : Tb) (p : Nat) (s : State) : (recordTooth syn stamp p s).pending = s.pending := by
  unfold recordTooth; simp only [ite_pending, sendRecord_pending, sendState_pending, ite_self]
@[simp] theorem moveTo_pending (stamp : Tb) (per p : Nat) (s : State) : (moveTo stamp per p s).pending = s.pending := by
  unfold moveTo; simp only [updWheel_pending]
@[simp] theorem startPred_pending (stamp : Tb) (per p : Nat) (s : State) : (startPred stamp per p s).pending = s.pending := by
  unfold startPred; simp only [updWheel_pending, moveTo_pending, beginPred_pending, sendRecord_pending]
@[simp] theorem acceptUpdate_pending (stamp : Tb) (per p : Nat) (s : State) : (acceptUpdate stamp per p s).pending = s.pending := by
  unfold acceptUpdate; simp only [ite_pending, moveTo_pending, noteResidual_pending, setPred_pending, learnAt_pending, recordTooth_pending, ite_self]
@[simp] theorem synthUpdate_pending (p : Nat) (s : State) : (synthUpdate p s).pending = s.pending := by
  unfold synthUpdate; simp only [ite_pending, moveTo_pending, updWheel_pending, setPred_pending, recordTooth_pending, learnLost_pending, ite_self]
@[simp] theorem badTooth_pending (p : Nat) (s : State) : (badTooth p s).pending = s.pending := by
  unfold badTooth; simp only [ite_pending, learnSpoil_pending, raise_pending, updWheel_pending, noteLeg_pending, ite_self]
@[simp] theorem gapFound_pending (stamp : Tb) (per : Nat) (fine : Bool) (s : State) : (gapFound stamp per fine s).pending = s.pending := by
  unfold gapFound; simp only [ite_pending, updWheel_pending, beginPred_pending, learnLost_pending, changeSync_pending, sendRecord_pending, ite_self]
@[simp] theorem searchPace_pending (per : Nat) (s : State) : (searchPace per s).pending = s.pending := by
  unfold searchPace; simp only [ite_pending, ite_self]
@[simp] theorem searchEdge_pending (stamp : Tb) (fine : Bool) (s : State) : (searchEdge stamp fine s).pending = s.pending := by
  unfold searchEdge; (repeat' split) <;> simp only [ite_pending, searchPace_pending, speedInput_pending, updWheel_pending, gapFound_pending, ite_self]
@[simp] theorem earlyEdge_pending (p : Nat) (s : State) : (earlyEdge p s).pending = s.pending := by
  unfold earlyEdge; simp only [ite_pending, badTooth_pending, input_pending, inputBad_pending, ite_self]
@[simp] theorem legacyCam_pending (s : State) : (legacyCam s).pending = s.pending := by
  unfold legacyCam; simp only [ite_pending, changeSync_pending, resolveHalf_pending, input_pending, ite_self]
@[simp] theorem gapTest_pending (per : Nat) (s : State) : (gapTest per s).pending = s.pending := by
  unfold gapTest; simp only [ite_pending, inputGap_pending, input_pending, reverseInd_pending, ite_self]
@[simp] theorem acceptTooth_pending (stamp : Tb) (per p : Nat) (s : State) : (acceptTooth stamp per p s).pending = s.pending := by
  unfold acceptTooth; simp only [ite_pending, updWheel_pending, speedInput_pending, gapTest_pending, inputTooth_pending, legacyCam_pending, acceptUpdate_pending, ite_self]
@[simp] theorem bareEdge_pending (stamp : Tb) (s : State) : (bareEdge stamp s).pending = s.pending := by
  unfold bareEdge; dsimp only; (repeat' split) <;> simp only [updWheel_pending, speedInput_pending, startPred_pending]
@[simp] theorem trackEdge_pending (stamp : Tb) (s : State) : (trackEdge stamp s).pending = s.pending := by
  unfold trackEdge; simp only [ite_pending, bareEdge_pending, updWheel_pending, earlyEdge_pending, acceptTooth_pending, ite_self]
@[simp] theorem reverseEdge_pending (stamp : Tb) (s : State) : (reverseEdge stamp s).pending = s.pending := by
  unfold reverseEdge; simp only [ite_pending, updWheel_pending, speedInput_pending, ite_self]
@[simp] theorem leaveReverse_pending (stamp : Tb) (p : Nat) (s : State) : (leaveReverse stamp p s).pending = s.pending := by
  unfold leaveReverse; simp only [ite_pending, inputTooth_pending, updWheel_pending, openNow_pending, startPred_pending, acceptUpdate_pending, ite_self]
@[simp] theorem forwardCode_pending (stamp : Tb) (s : State) : (forwardCode stamp s).pending = s.pending := by
  unfold forwardCode; simp only [ite_pending, reverseTest_pending, leaveReverse_pending, ite_self]
@[simp] theorem fastEdge_pending (stamp : Tb) (s : State) : (fastEdge stamp s).pending = s.pending := by
  unfold fastEdge; simp only [updWheel_pending]
@[simp] theorem judgeEdge_pending (stamp : Tb) (fine : Bool) (s : State) : (judgeEdge stamp fine s).pending = s.pending := by
  unfold judgeEdge; (repeat' split) <;> simp only [searchEdge_pending, reverseEdge_pending, trackEdge_pending]
@[simp] theorem unmeasuredEdge_pending (pulse : Tb × Nat) (stamp : Tb) (fine : Bool) (s : State) : (unmeasuredEdge pulse stamp fine s).pending = s.pending := by
  unfold unmeasuredEdge; simp only [ite_pending, fastEdge_pending, forwardCode_pending, speedInput_pending, judgeEdge_pending, reverseCode_pending, raise_pending, ite_self]
@[simp] theorem takePolicy_pending (s : State) : (takePolicy s).pending = s.pending := by
  unfold takePolicy; (repeat' split) <;> simp only [applyPermission_pending, updWheel_pending]
@[simp] theorem noteEdge_pending (stamp : Tb) (s : State) : (noteEdge stamp s).pending = s.pending := by
  unfold noteEdge; simp only [updWheel_pending, takePolicy_pending]
@[simp] theorem toothEdge_pending (stamp : Tb) (fine : Bool) (s : State) : (toothEdge stamp fine s).pending = s.pending := by
  unfold toothEdge; dsimp only; (repeat' split) <;> simp only [noteEdge_pending, unmeasuredEdge_pending, judgeEdge_pending, updWheel_pending]
@[simp] theorem opLate_pending (s : State) : (opLate s).pending = s.pending := by
  unfold opLate; simp only [ite_pending, badTooth_pending, input_pending, synthUpdate_pending, inputBad_pending, ite_self]
@[simp] theorem camResolve_pending (cam : Cam) (rise : Bool) (t : Tb) (s : State) : (camResolve cam rise t s).pending = s.pending := by
  unfold camResolve; simp only [ite_pending, updWheel_pending, changeSync_pending, resolveHalf_pending, ite_self]
@[simp] theorem camConsistent_pending (cam : Cam) (rise : Bool) (t : Tb) (s : State) : (camConsistent cam rise t s).pending = s.pending := by
  unfold camConsistent; simp only [ite_pending, updWheel_pending, input_pending, raise_pending, ite_self]
@[simp] theorem limpAdvance_pending (cam : Cam) (idx per : Nat) (t : Tb) (s : State) : (limpAdvance cam idx per t s).pending = s.pending := by
  unfold limpAdvance; simp only [setPred_pending]
@[simp] theorem limpTry_pending (cam : Cam) (s : State) : (limpTry cam s).pending = s.pending := by
  unfold limpTry; dsimp only; (repeat' split) <;> simp only [changeSync_pending, limpAdvance_pending]
@[simp] theorem limpSearch_pending (cam : Cam) (rise : Bool) (t : Tb) (s : State) : (limpSearch cam rise t s).pending = s.pending := by
  unfold limpSearch; simp only [limpTry_pending, updWheel_pending]
@[simp] theorem opStall_pending (s : State) : (opStall s).pending = s.pending := by
  unfold opStall; dsimp only; (repeat' split) <;> simp only [input_pending, updWheel_pending, limpTry_pending]
@[simp] theorem limpEdge_pending (cam : Cam) (t : Tb) (s : State) : (limpEdge cam t s).pending = s.pending := by
  unfold limpEdge; simp only [ite_pending, input_pending, raise_pending, limpAdvance_pending, ite_self]
@[simp] theorem syncCamEdge_pending (cam : Cam) (rise : Bool) (t : Tb) (fine : Bool) (s : State) : (syncCamEdge cam rise t fine s).pending = s.pending := by
  unfold syncCamEdge; (repeat' split) <;> simp only [camResolve_pending, camConsistent_pending, limpSearch_pending, limpEdge_pending]
@[simp] theorem camEdge_pending (c : Fin 4) (rise : Bool) (t : Tb) (fine : Bool) (s : State) : (camEdge c rise t fine s).pending = s.pending := by
  unfold camEdge; simp only [ite_pending, measureEdge_pending, syncCamEdge_pending, ite_self]
@[simp] theorem opClose_pending (i : Fin 16) (s : State) : (opClose i s).pending = s.pending := by
  unfold opClose; simp only [ite_pending, updWheel_pending, input_pending, raise_pending, ite_self]
@[simp] theorem clearSearch_pending (s : State) : (clearSearch s).pending = s.pending := by
  unfold clearSearch; simp only [updWheel_pending]
@[simp] theorem decoderReset_pending (s : State) : (decoderReset s).pending = s.pending := by
  unfold decoderReset; simp only [clearSearch_pending, input_pending]

/-! ### Wheel.lean -/

@[simp] theorem crankPin_pending (lvl : Bool) (stamp : Tb) (s : State) : (crankPin lvl stamp s).2.pending = s.pending := by
  unfold crankPin; simp only
@[simp] theorem crankLoop_pending (lvl : Bool) (stamp : Tb) (s : State) : (crankLoop lvl stamp s).2.pending = s.pending := rfl
@[simp] theorem crankIn_pending (tooth : Bool) (stamp : Tb) (s : State) : (crankIn tooth stamp s).2.pending = s.pending := by
  unfold crankIn; simp only [itep_pending, crankLoop_pending, crankPin_pending, ite_self]
@[simp] theorem countCoarse_pending (s : State) : (countCoarse s).2.pending = s.pending := by
  unfold countCoarse; simp only [itep_pending, ite_self]
@[simp] theorem takeTooth_pending (stamp : Tb) (s : State) : (takeTooth stamp s).pending = s.pending := by
  unfold takeTooth; simp only [countCoarse_pending, toothEdge_pending]
@[simp] theorem opCode_pending (stamp : Tb) (s : State) : (opCode stamp s).pending = s.pending := by
  unfold opCode; (repeat' split) <;> simp only [ite_pending, updWheel_pending, reverseCode_pending, forwardCode_pending, ite_self]
@[simp] theorem crankEdge_pending (e : Bool × Tb) (s : State) : (crankEdge e s).pending = s.pending := by
  unfold crankEdge; simp only [ite_pending, takeTooth_pending, opCode_pending, ite_self]
@[simp] theorem crankCaptured_pending (stamp : Tb) (s : State) : (crankCaptured stamp s).pending = s.pending := by
  unfold crankCaptured; simp only [ite_pending, takeTooth_pending, ite_self]
@[simp] theorem crankRow_pending (tooth : Bool) (stamp : Tb) (s : State) : (crankRow tooth stamp s).pending = s.pending := by
  unfold crankRow; simp only [ite_pending, crankCaptured_pending, crankIn_pending, foldSt_pending, crankEdge_pending, ite_self, implies_true]
@[simp] theorem camPin_pending (c : Fin 4) (rise : Bool) (stamp : Tb) (s : State) : (camPin c rise stamp s).2.pending = s.pending := rfl
@[simp] theorem camLoop_pending (c : Nat) (rise : Bool) (stamp : Tb) (s : State) : (camLoop c rise stamp s).2.pending = s.pending := rfl
@[simp] theorem camIn_pending (c : Fin 4) (rise : Bool) (stamp : Tb) (s : State) : (camIn c rise stamp s).2.pending = s.pending := by
  unfold camIn; simp only [itep_pending, camLoop_pending, camPin_pending, ite_self]
@[simp] theorem takeCam_pending (c : Fin 4) (rise : Bool) (t : Tb) (s : State) : (takeCam c rise t s).pending = s.pending := by
  unfold takeCam; simp only [ite_pending, camEdge_pending, ite_self]
@[simp] theorem camCaptured_pending (c : Fin 4) (rise : Bool) (stamp : Tb) (s : State) : (camCaptured c rise stamp s).pending = s.pending := by
  unfold camCaptured; simp only [ite_pending, takeCam_pending, ite_self]
@[simp] theorem camRow_pending (c : Fin 4) (rise : Bool) (stamp : Tb) (s : State) : (camRow c rise stamp s).pending = s.pending := by
  unfold camRow; simp only [ite_pending, camCaptured_pending, camIn_pending, foldSt_pending, takeCam_pending, ite_self, implies_true]
@[simp] theorem wheelTable_pending (c : WheelCfg) (s : State) : (wheelTable c s).pending = s.pending := by
  unfold wheelTable; simp only [ite_pending, shadowGeom_pending, ite_self]
@[simp] theorem applyWheel_pending (a : Args) (s : State) : (applyWheel a s).pending = s.pending := by
  unfold applyWheel; simp only [ite_pending, clearSearch_pending, input_pending, wheelTable_pending, updMir_pending, ite_self]
@[simp] theorem cmdWheelSet_pending (a : Args) (s : State) : (cmdWheelSet a s).st.pending = s.pending := by
  unfold cmdWheelSet; simp only [checked_pending, checkConfig_pending, sendConfig_pending, applyWheel_pending]
@[simp] theorem cmdCamEdge_pending (a : Args) (s : State) : (cmdCamEdge a s).st.pending = s.pending := by
  unfold cmdCamEdge; simp only [checked_pending]
@[simp] theorem applyCam_pending (a : Args) (s : State) : (applyCam a s).pending = s.pending := by
  unfold applyCam; simp only [ite_pending, input_pending, updWheel_pending, ite_self]
@[simp] theorem cmdCamHeader_pending (a : Args) (s : State) : (cmdCamHeader a s).st.pending = s.pending := by
  unfold cmdCamHeader; simp only [ite_pending, checked_pending, applyCam_pending, ite_self]
@[simp] theorem cmdCamSet_pending (a : Args) (s : State) : (cmdCamSet a s).st.pending = s.pending := by
  unfold cmdCamSet; simp only [itec_pending, cmdCamHeader_pending, cmdCamEdge_pending, ite_self]
@[simp] theorem applyPolicy_pending (a : Args) (s : State) : (applyPolicy a s).pending = s.pending := by
  unfold applyPolicy; simp only [ite_pending, updWheel_pending, input_pending, ite_self]
@[simp] theorem cmdSyncPolicy_pending (a : Args) (s : State) : (cmdSyncPolicy a s).st.pending = s.pending := by
  unfold cmdSyncPolicy; simp only [checked_pending, applyPolicy_pending]
@[simp] theorem applyDir_pending (a : Args) (s : State) : (applyDir a s).pending = s.pending := by
  unfold applyDir; simp only [updWheel_pending, input_pending]
@[simp] theorem cmdDirSet_pending (a : Args) (s : State) : (cmdDirSet a s).st.pending = s.pending := by
  unfold cmdDirSet; simp only [checked_pending, applyDir_pending]
@[simp] theorem applyLearn_pending (a : Args) (s : State) : (applyLearn a s).pending = s.pending := rfl
@[simp] theorem cmdLearnCtl_pending (a : Args) (s : State) : (cmdLearnCtl a s).st.pending = s.pending := by
  unfold cmdLearnCtl; (repeat' split) <;> first | rfl | (apply checked_pending; first | rfl | simp only [ite_pending, itep_pending, itec_pending, checked_pending, applyLearn_pending, ite_self, implies_true])

/-! ### Link.lean -/

@[simp] theorem updLink_pending (f : Link → Link) (s : State) : (updLink f s).pending = s.pending := rfl
@[simp] theorem leaveRing_pending (s : State) : (leaveRing s).pending = s.pending := by
  unfold leaveRing; simp only [ite_pending, updLink_pending, endIf_pending, ite_self]
@[simp] theorem sendNow_pending (dst : Nat) (o : OutFrame) (s : State) : (sendNow dst o s).pending = s.pending := by
  unfold sendNow; simp only [updLink_pending]
@[simp] theorem sendCommit_pending (dst : Nat) (o : OutFrame) (s : State) : (sendCommit dst o s).pending = s.pending := by
  unfold sendCommit; simp only [ite_pending, updLink_pending, endIf_pending, sendNow_pending, ite_self]
@[simp] theorem sendWaiting_pending (s : State) : (sendWaiting s).pending = s.pending := by
  unfold sendWaiting; (repeat' split) <;> simp only [sendCommit_pending]
@[simp] theorem restoreCredits_pending (s : State) : (restoreCredits s).pending = s.pending := by
  unfold restoreCredits; simp only [sendWaiting_pending, updLink_pending]
@[simp] theorem enumerate_pending (s : State) : (enumerate s).pending = s.pending := by
  unfold enumerate; simp only [queueOut_pending, updLink_pending]
@[simp] theorem enumerated_pending (size delay : Nat) (s : State) : (enumerated size delay s).pending = s.pending := by
  unfold enumerated; simp only [updLink_pending, endIf_pending, sendConfig_pending, restoreCredits_pending]
@[simp] theorem opLock_pending (s : State) : (opLock s).pending = s.pending := by
  unfold opLock; simp only [ite_pending, updClk_pending, updLink_pending, enumerate_pending, ite_self]
@[simp] theorem opUnlock_pending (s : State) : (opUnlock s).pending = s.pending := by
  unfold opUnlock; simp only [ite_pending, updLink_pending, updClk_pending, ite_self]
@[simp] theorem opBreak_pending (up : Bool) (s : State) : (opBreak up s).pending = s.pending := by
  unfold opBreak; simp only [ite_pending, raise_pending, updLink_pending, mirrorDown_pending, updMir_pending, rckLost_pending, leaveRing_pending, ite_self]
@[simp] theorem opForward_pending (rx : RxSlot) (s : State) : (opForward rx s).pending = s.pending := by
  unfold opForward; simp only [updMir_pending, updLink_pending]
@[simp] theorem inject_pending (s : State) : (inject s).pending = s.pending := by
  unfold inject; (repeat' split) <;> simp only [updLink_pending]
@[simp] theorem opTransmit_pending (rx : RxSlot) (s : State) : (opTransmit rx s).pending = s.pending := by
  unfold opTransmit; dsimp only; (repeat' split) <;> simp only [updLink_pending]
@[simp] theorem opFrameError_pending (rx : RxSlot) (s : State) : (opFrameError rx s).pending = s.pending := by
  unfold opFrameError; (repeat' split) <;> simp only [raise_pending, updLink_pending]
@[simp] theorem masterState_pending (x : Sync) (s : State) : (masterState x s).pending = s.pending := by
  unfold masterState; simp only [ite_pending, updMir_pending, reportEff_pending, ringLost_pending, ringTaken_pending, ite_self]
@[simp] theorem mirrorUpdate_pending (f g : Frame) (trx : Tb) (s : State) : (mirrorUpdate f g trx s).pending = s.pending := by
  unfold mirrorUpdate; simp only [updMir_pending]
@[simp] theorem opRecord_pending (f g : Frame) (trx : Tb) (s : State) : (opRecord f g trx s).pending = s.pending := by
  unfold opRecord; simp only [ite_pending, mirrorDown_pending, updMir_pending, mirrorUpdate_pending, mirrorCheck_pending, masterState_pending, ite_self]
@[simp] theorem opState2_pending (f : Frame) (s : State) : (opState2 f s).pending = s.pending := by
  unfold opState2; simp only [updMir_pending, setCyc_pending, mirrorCheck_pending, masterState_pending]
@[simp] theorem mirrorSynth_pending (s : State) : (mirrorSynth s).pending = s.pending := by
  unfold mirrorSynth; simp only [updMir_pending]
@[simp] theorem opMissing_pending (s : State) : (opMissing s).pending = s.pending := by
  unfold opMissing; simp only [ite_pending, updMir_pending, mirrorDown_pending, mirrorSynth_pending, ite_self]
@[simp] theorem mirrorTick_pending (s : State) : (mirrorTick s).pending = s.pending := by
  unfold mirrorTick; simp only [ite_pending, updMir_pending, ringTaken_pending, ite_self]
@[simp] theorem storeMsg_pending (m : RxMsg) (s : State) : (storeMsg m s).pending = s.pending := by
  unfold storeMsg; simp only [ite_pending, setInt_pending, updLink_pending, ite_self]
@[simp] theorem opCredit_pending (src n : Nat) (s : State) : (opCredit src n s).pending = s.pending := by
  unfold opCredit; simp only [sendWaiting_pending, updLink_pending]
@[simp] theorem joinAtFollower_pending (p : BitVec 32) (s : State) : (joinAtFollower p s).pending = s.pending := by
  unfold joinAtFollower; simp only [ite_pending, raise_pending, restoreCredits_pending, updLink_pending, ite_self]
@[simp] theorem joinAtMaster_pending (p : BitVec 32) (delay : Nat) (s : State) : (joinAtMaster p delay s).pending = s.pending := by
  unfold joinAtMaster; simp only [ite_pending, enumerated_pending, raise_pending, ite_self]
@[simp] theorem linkOff_pending (s : State) : (linkOff s).pending = s.pending := by
  unfold linkOff; simp only [ite_pending, mirrorDown_pending, leaveRing_pending, updLink_pending, reportEff_pending, ite_self]
@[simp] theorem roleEnds_pending (s : State) : (roleEnds s).pending = s.pending := by
  unfold roleEnds; simp only [rckLost_pending, updClk_pending, linkOff_pending]
@[simp] theorem takeRole_pending (st : LState) (a : Args) (s : State) : (takeRole st a s).pending = s.pending := by
  unfold takeRole; simp only [updLink_pending]
@[simp] theorem cmdLinkRole_pending (a : Args) (s : State) : (cmdLinkRole a s).st.pending = s.pending := by
  unfold cmdLinkRole; (repeat' split) <;> simp only [badArg_pending, roleEnds_pending, takeRole_pending]
@[simp] theorem cmdLinkJoin_pending (_a : Args) (s : State) : (cmdLinkJoin _a s).st.pending = s.pending := by
  unfold cmdLinkJoin; (repeat' split) <;> simp only [enumerate_pending, leaveRing_pending, updLink_pending]
@[simp] theorem cmdSend_pending (rank : Nat) (f : Frame) (dst : Nat) (nowait : Bool) (s : State) : (cmdSend rank f dst nowait s).st.pending = s.pending := by
  unfold cmdSend; simp only [itec_pending, checkFail_pending, sendNow_pending, updLink_pending, ite_self]
@[simp] theorem cmdRecv_pending (s : State) : (cmdRecv s).st.pending = s.pending := by
  unfold cmdRecv; (repeat' split) <;> simp only [ite_pending, updLink_pending, queueOut_pending, ite_self]
@[simp] theorem cmdLinkSend_pending (a : Args) (s : State) : (cmdLinkSend a s).st.pending = s.pending := by
  unfold cmdLinkSend; (repeat' split) <;> simp only [badArg_pending, cmdSend_pending, cmdRecv_pending]

/-! ### Clocks.lean -/

@[simp] theorem fclkRestart_pending (s : State) : (fclkRestart s).pending = s.pending := by
  unfold fclkRestart; simp only [updSys_pending, updClk_pending, timFastReset_pending, thermFastReset_pending]
@[simp] theorem opFcoJudged_pending (s : State) : (opFcoJudged s).pending = s.pending := by
  unfold opFcoJudged; simp only [ite_pending, updClk_pending, fclkRestart_pending, ite_self]
@[simp] theorem opHoldoverEnd_pending (s : State) : (opHoldoverEnd s).pending = s.pending := by
  unfold opHoldoverEnd; simp only [updClk_pending]
@[simp] theorem opFll_pending (count : Nat) (s : State) : (opFll count s).pending = s.pending := by
  unfold opFll; simp only [ite_pending, updClk_pending, raise_pending, ite_self]
@[simp] theorem opStopDetect_pending (s : State) : (opStopDetect s).pending = s.pending := by
  unfold opStopDetect; simp only [ite_pending, updSys_pending, updClk_pending, fcoLost_pending, ite_self]
@[simp] theorem startEscape_pending (held : Bool) (stopLrc : Nat) (s : State) : (startEscape held stopLrc s).pending = s.pending := by
  unfold startEscape; dsimp only; (repeat' split) <;> simp only [raiseC_pending, updClk_pending, enterHeld_pending]
@[simp] theorem drainFaults_pending (n : Nat) (s : State) : (drainFaults n s).pending = s.pending := by
  induction n generalizing s with
  | zero => rfl
  | succ n ih => simp only [drainFaults, ih, opFaultApply_pending]
@[simp] theorem fastReset_pending (s : State) : (fastReset s).pending = s.pending := by
  unfold fastReset; simp only [bulkRec_pending, decoderReset_pending, timFastReset_pending, thermFastReset_pending, cpsFastReset_pending, outputsDown_pending, updClk_pending, cutCore_pending]
@[simp] theorem endEscape_pending (dA : Nat) (err : Fin 3) (s : State) : (endEscape dA err s).pending = s.pending := by
  unfold endEscape; simp only [updClk_pending, takeSource_pending, fastReset_pending, drainFaults_pending]
@[simp] theorem opDrift_pending (count : Nat) (s : State) : (opDrift count s).pending = s.pending := by
  unfold opDrift; simp only [ite_pending, raise_pending, updClk_pending, ite_self]
@[simp] theorem writeClkctl_pending (w : Word) (s : State) : (writeClkctl w s).pending = s.pending := by
  unfold writeClkctl; simp only [ite_pending, updClk_pending, ite_self]
@[simp] theorem clkctlDo_pending (w : Word) (s : State) : (clkctlDo w s).pending = s.pending := by
  unfold clkctlDo; simp only [ite_pending, clkRow_pending, writeClkctl_pending, ite_self, implies_true]
@[simp] theorem readClkstat_pending (s : State) : (readClkstat s).2.pending = s.pending := by
  unfold readClkstat; simp only [ite_pending, updClk_pending, ite_self]
@[simp] theorem gateOff_pending (b : Fin 7) (s : State) : (gateOff b s).pending = s.pending := by
  unfold gateOff; simp only [updClk_pending]
@[simp] theorem writeGateen_pending (w : Word) (s : State) : (writeGateen w s).pending = s.pending := by
  unfold writeGateen; simp only [updClk_pending, foldSt_pending, gateOff_pending, implies_true]
@[simp] theorem writeFmctl_pending (w : Word) (s : State) : (writeFmctl w s).pending = s.pending := by
  unfold writeFmctl; simp only [updClk_pending]
@[simp] theorem opFmDone_pending (count : Nat) (s : State) : (opFmDone count s).pending = s.pending := by
  unfold opFmDone; simp only [updClk_pending]

/-! ### Security.lean -/

@[simp] theorem updSec_pending (f : Sec → Sec) (s : State) : (updSec f s).pending = s.pending := rfl
@[simp] theorem updDbg_pending (f : Dbg → Dbg) (s : State) : (updDbg f s).pending = s.pending := rfl
@[simp] theorem advanceEnds_pending (s : State) : (advanceEnds s).pending = s.pending := by
  unfold advanceEnds; simp only [updSec_pending, updDbg_pending]
@[simp] theorem deriveLc_pending (s : State) : (deriveLc s).pending = s.pending := by
  unfold deriveLc; simp only [updSec_pending]
@[simp] theorem sealed_pending (s : State) : (sealed s).pending = s.pending := by
  unfold sealed; simp only [endIf_pending, advanceEnds_pending, deriveLc_pending, updSec_pending]
@[simp] theorem opKeyWrite_pending (s : State) : (opKeyWrite s).pending = s.pending := by
  unfold opKeyWrite; (repeat' split) <;> simp only [endIf_pending, deriveLc_pending, updSec_pending, advanceEnds_pending, sealed_pending]
@[simp] theorem advanceKey_pending (a : Args) (s : State) : (advanceKey a s).st.pending = s.pending := by
  unfold advanceKey; (repeat' split) <;> first | rfl | (apply checked_pending; first | rfl | simp only [ite_pending, itep_pending, itec_pending, checked_pending, updSec_pending, ite_self, implies_true])
@[simp] theorem advanceStep_pending (a : Args) (s : State) : (advanceStep a s).st.pending = s.pending := by
  unfold advanceStep; (repeat' split) <;> first | rfl | (apply checked_pending; first | rfl | simp only [ite_pending, itep_pending, itec_pending, checked_pending, updSec_pending, ite_self, implies_true])
@[simp] theorem cmdAdvance_pending (a : Args) (s : State) : (cmdAdvance a s).st.pending = s.pending := by
  unfold cmdAdvance; simp only [itec_pending, opKeyWrite_pending, advanceStep_pending, advanceKey_pending, ite_self]
@[simp] theorem writeProt_pending (p : Path) (off : Nat) (w : Word) (s : State) : (writeProt p off w s).pending = s.pending := by
  unfold writeProt; simp only [ite_pending, updSec_pending, deny_pending, ite_self]
@[simp] theorem drawChallenge_pending (s : State) : (drawChallenge s).pending = s.pending := by
  unfold drawChallenge; simp only [drawRandom_pending, updSec_pending]
@[simp] theorem cmdChallenge_pending (a : Args) (s : State) : (cmdChallenge a s).st.pending = s.pending := by
  unfold cmdChallenge; dsimp only; (repeat' split) <;> simp only [checked_pending, drawChallenge_pending]
@[simp] theorem startCheck_pending (answer : BitVec 128) (dbg cmd : Bool) (s : State) : (startCheck answer dbg cmd s).pending = s.pending := by
  unfold startCheck; (repeat' split) <;> simp only [updSec_pending]
@[simp] theorem cmdAnswer_pending (a : Args) (s : State) : (cmdAnswer a s).st.pending = s.pending := by
  unfold cmdAnswer; (repeat' split) <;> simp only [updSec_pending, startCheck_pending]
@[simp] theorem opCheckEnd_pending (s : State) : (opCheckEnd s).pending = s.pending := by
  unfold opCheckEnd; (repeat' split) <;> simp only [ite_pending, updSec_pending, raise_pending, endIf_pending, ite_self]

/-! ### Resume.lean -/

@[simp] theorem applySections_pending (r : Reader) (s : State) : (applySections r s).pending = s.pending := rfl
@[simp] theorem applyResume_pending (r : Reader) (s : State) : (applyResume r s).pending = s.pending := rfl

/-! ### TripDiag.lean -/

@[simp] theorem tripInTest_pending (s : State) : (tripInTest s).pending = s.pending := by
  unfold tripInTest; (repeat' split) <;> simp only [foldSt_pending, verdict_pending, implies_true]
@[simp] theorem tripPin_pending (lvl : Bool) (s : State) : (tripPin lvl s).pending = s.pending := rfl
@[simp] theorem tickInputs_pending (s : State) : (tickInputs s).pending = s.pending := rfl
@[simp] theorem opTripAssert_pending (s : State) : (opTripAssert s).pending = s.pending := by
  unfold opTripAssert; simp only [ite_pending, tripPin_pending, tripInTest_pending, raise_pending, latchGroups_pending, ite_self]
@[simp] theorem opDeferralEnd_pending (g : Fin 4) (s : State) : (opDeferralEnd g s).pending = s.pending := by
  unfold opDeferralEnd; simp only [ite_pending, latchGroups_pending, ite_self]
@[simp] theorem oeTrip_pending (s : State) : (oeTrip s).pending = s.pending := by
  unfold oeTrip; simp only [ite_pending, latchGroups_pending, ite_self]
@[simp] theorem cmdTripClear_pending (a : Args) (s : State) : (cmdTripClear a s).st.pending = s.pending := by
  unfold cmdTripClear; simp only [itec_pending, badArg_pending, foldSt_pending, release_pending, ite_self, implies_true]
@[simp] theorem diagChan_pending (a : Args) (s : State) : (diagChan a s).st.pending = s.pending := by
  unfold diagChan; (repeat' split) <;> first | rfl | (apply checked_pending; first | rfl | simp only [ite_pending, itep_pending, itec_pending, checked_pending, updDiag_pending, ite_self, implies_true])
@[simp] theorem diagTrip_pending (a : Args) (s : State) : (diagTrip a s).st.pending = s.pending := by
  unfold diagTrip; simp only [checked_pending]
@[simp] theorem dropPulse_pending (s : State) : (dropPulse s).pending = s.pending := by
  unfold dropPulse; (repeat' split) <;> simp only [setDrv_pending]
@[simp] theorem diagTest_pending (a : Args) (s : State) : (diagTest a s).st.pending = s.pending := by
  unfold diagTest; simp only [itec_pending, badArg_pending, dropPulse_pending, ite_self]
@[simp] theorem cmdDiagRun_pending (a : Args) (s : State) : (cmdDiagRun a s).st.pending = s.pending := by
  unfold cmdDiagRun; (repeat' split) <;> simp only [diagChan_pending, diagTrip_pending, diagTest_pending, badArg_pending]
@[simp] theorem testStart_pending (before s : State) : (testStart before s).pending = s.pending := by
  unfold testStart; simp only [ite_pending, testFrom_pending, ite_self]
@[simp] theorem opTestPulse_pending (t : DTest) (s : State) : (opTestPulse t s).pending = s.pending := by
  unfold opTestPulse; simp only [ite_pending, setDrv_pending, ite_self]

/-! ### Power.lean -/

@[simp] theorem settleKey_pending (s : State) : (settleKey s).pending = s.pending := by
  unfold settleKey; (repeat' split) <;> simp only [ite_pending, updSec_pending, ite_self]
@[simp] theorem resetTo_pending (por : Bool) (cause : Nat) (mode : Bool) (s : State) : (resetTo por cause mode s).pending = s.pending := by
  unfold resetTo; simp only [cutCommit_pending, settleKey_pending]
@[simp] theorem powerOn_pending (mode : Bool) (s : State) : (powerOn mode s).pending = s.pending := by
  unfold powerOn; simp only [ite_pending, resetTo_pending, updSys_pending, ite_self]
@[simp] theorem oeOnOp_pending (s : State) : (oeOnOp s).pending = s.pending := by
  unfold oeOnOp; simp only [ite_pending, oeTrip_pending, updSys_pending, ite_self]
@[simp] theorem oeOffOp_pending (s : State) : (oeOffOp s).pending = s.pending := by
  unfold oeOffOp; simp only [ite_pending, windowsCheck_pending, outputsDown_pending, updSys_pending, ite_self]
@[simp] theorem writeSysctl_pending (w : Word) (mode : Bool) (s : State) : (writeSysctl w mode s).pending = s.pending := by
  unfold writeSysctl; simp only [ite_pending, resetTo_pending, oeOnOp_pending, oeOffOp_pending, ite_self]
@[simp] theorem sysctlDo_pending (w : Word) (mode : Bool) (s : State) : (sysctlDo w mode s).pending = s.pending := by
  unfold sysctlDo; simp only [ite_pending, writeSysctl_pending, ite_self]
@[simp] theorem opB0End_pending (ref : RefEdge) (s : State) : (opB0End ref s).pending = s.pending := by
  unfold opB0End; simp only [updClk_pending, updSys_pending]
@[simp] theorem opBanksRead_pending (s : State) : (opBanksRead s).pending = s.pending := by
  unfold opBanksRead; simp only [updSys_pending]
@[simp] theorem applyRecord_pending (s : State) : (applyRecord s).pending = s.pending := by
  unfold applyRecord; simp only [ite_pending, deriveLc_pending, updSec_pending, applySections_pending, ite_self]
@[simp] theorem applyBankEvent_pending (s : State) : (applyBankEvent s).pending = s.pending := by
  unfold applyBankEvent; (repeat' split) <;> simp only [raise_pending]
@[simp] theorem wakeInts_pending (woke : Bool) (s : State) : (wakeInts woke s).pending = s.pending := by
  unfold wakeInts; simp only [ite_pending, setInt_pending, ite_self]
@[simp] theorem opRecordApplied_pending (s : State) : (opRecordApplied s).pending = s.pending := by
  unfold opRecordApplied; simp only [ite_pending, wakeInts_pending, applyBankEvent_pending, applyRecord_pending, updSec_pending, applyResume_pending, dieCheck_pending, updSys_pending, shadowPut_pending, ite_self]
@[simp] theorem cmdBootDone_pending (_a : Args) (s : State) : (cmdBootDone _a s).st.pending = s.pending := by
  unfold cmdBootDone; simp only [ite_pending, updSys_pending, updSec_pending, checked_pending, shadowPut_pending, ite_self]
@[simp] theorem cmdIdent_pending (a : Args) (s : State) : (cmdIdent a s).st.pending = s.pending := by
  unfold cmdIdent; simp only [checked_pending]
@[simp] theorem requestEnds_pending (s : State) : (requestEnds s).pending = s.pending := by
  unfold requestEnds; simp only [updDbg_pending, updSec_pending, linkOff_pending, updClk_pending]
@[simp] theorem enterStop_pending (s : State) : (enterStop s).pending = s.pending := by
  unfold enterStop; simp only [thermFastReset_pending, requestEnds_pending, updClk_pending, updSys_pending]
@[simp] theorem startStandby_pending (s : State) : (startStandby s).pending = s.pending := by
  unfold startStandby; simp only [updClk_pending, requestEnds_pending, windowsCheck_pending, outputsDown_pending, updSys_pending, requestCommit_pending, shadowPut_pending]
@[simp] theorem writePwrctl_pending (w : Word) (s : State) : (writePwrctl w s).pending = s.pending := by
  unfold writePwrctl; dsimp only; (repeat' split) <;> simp only [updSys_pending, enterStop_pending, startStandby_pending]
@[simp] theorem pwrctlDo_pending (w : Word) (s : State) : (pwrctlDo w s).pending = s.pending := by
  unfold pwrctlDo; simp only [ite_pending, clkRow_pending, writePwrctl_pending, ite_self, implies_true]
@[simp] theorem keepAnchor_pending (err : Fin 3) (f : State → State) (s : State) (hf : ∀ t, (f t).pending = t.pending) : (keepAnchor err f s).pending = s.pending := by
  unfold keepAnchor; simp only [ite_pending, updClk_pending, hf, ite_self]
@[simp] theorem feedEdge_pending (e : CapEdge) (s : State) : (feedEdge e s).pending = s.pending := by
  unfold feedEdge; (repeat' split) <;> simp only [takeTooth_pending, camEdge_pending]
@[simp] theorem wakeStop_pending (code : Nat) (dbg : Bool) (ref : RefEdge) (s : State) : (wakeStop code dbg ref s).pending = s.pending := by
  unfold wakeStop; simp only [updClk_pending, updSys_pending, updDbg_pending, setInt_pending, decoderReset_pending, timFastReset_pending, foldSt_pending, feedEdge_pending, implies_true]
@[simp] theorem wakeStandby_pending (code : Nat) (dbg : Bool) (s : State) : (wakeStandby code dbg s).pending = s.pending := by
  unfold wakeStandby; simp only [updClk_pending, updSys_pending, updDbg_pending]
@[simp] theorem standbyWake_pending (code : Nat) (dbg : Bool) (s : State) : (standbyWake code dbg s).pending = s.pending := by
  unfold standbyWake; simp only [ite_pending, wakeStandby_pending, latchWake_pending, updSys_pending, ite_self]
@[simp] theorem stopWake_pending (code : Nat) (dbg : Bool) (ref : RefEdge) (s : State) : (stopWake code dbg ref s).pending = s.pending := by
  unfold stopWake; simp only [ite_pending, clkRow_pending, wakeStop_pending, ite_self, implies_true]
@[simp] theorem coreOff_pending (s : State) : (coreOff s).pending = s.pending := rfl
@[simp] theorem standbyEntered_pending (s : State) : (standbyEntered s).pending = s.pending := by
  unfold standbyEntered; dsimp only; (repeat' split) <;> simp only [coreOff_pending, wakeStandby_pending]
@[simp] theorem standbyAbandoned_pending (s : State) : (standbyAbandoned s).pending = s.pending := by
  unfold standbyAbandoned; simp only [updDbg_pending, updSys_pending]
@[simp] theorem edgePin_pending (src : EdgeSrc) (rise : Bool) (s : State) : (edgePin src rise s).pending = s.pending := by
  unfold edgePin; (repeat' split) <;> simp only
@[simp] theorem edgeWakes_pending (src : EdgeSrc) (rise : Bool) (s : State) : (edgeWakes src rise s).pending = s.pending := by
  unfold edgeWakes; (repeat' split) <;> simp only [askWake_pending]
@[simp] theorem opCapture_pending (src : EdgeSrc) (rise : Bool) (dA : Nat) (err : Fin 3) (s : State) : (opCapture src rise dA err s).pending = s.pending := by
  unfold opCapture; simp only [ite_pending, updSys_pending, feedEdge_pending, ite_self]
@[simp] theorem wakeNow_pending (code : Nat) (s : State) : (wakeNow code s).pending = s.pending := by
  unfold wakeNow; simp only [ite_pending, standbyWake_pending, stopWake_pending, ite_self]
@[simp] theorem askedWake_pending (s : State) : (askedWake s).pending = s.pending := by
  unfold askedWake; (repeat' split) <;> simp only [stopWake_pending, wakeNow_pending]
@[simp] theorem opAocLoss_pending (s : State) : (opAocLoss s).pending = s.pending := by
  unfold opAocLoss; simp only [ite_pending, aocFalls_pending, wakeNow_pending, raise_pending, ite_self]
@[simp] theorem opGross_pending (count : Nat) (s : State) : (opGross count s).pending = s.pending := by
  unfold opGross; simp only [ite_pending, raise_pending, aocFalls_pending, wakeNow_pending, ite_self]
@[simp] theorem opPfail_pending (s : State) : (opPfail s).pending = s.pending := by
  unfold opPfail; simp only [ite_pending, updSys_pending, requestCommit_pending, wakeNow_pending, ite_self]

/-! ### Store.lean -/

@[simp] theorem updStore_pending (f : Store → Store) (s : State) : (updStore f s).pending = s.pending := rfl
@[simp] theorem commitMoves_pending (s : State) : (commitMoves s).pending = s.pending := by
  unfold commitMoves; (repeat' split) <;> simp only [updStore_pending]
@[simp] theorem yieldTo_pending (s : State) : (yieldTo s).pending = s.pending := by
  unfold yieldTo; simp only [ite_pending, updStore_pending, commitMoves_pending, ite_self]
@[simp] theorem cmdStoreRead_pending (a : Args) (s : State) : (cmdStoreRead a s).st.pending = s.pending := by
  unfold cmdStoreRead; (repeat' split) <;> first | rfl | (apply checked_pending; first | rfl | simp only [yieldTo_pending])
@[simp] theorem opReadComplete_pending (s : State) : (opReadComplete s).pending = s.pending := by
  unfold opReadComplete; (repeat' split) <;> simp only [yieldTo_pending, endIf_pending, updStore_pending]
@[simp] theorem clearShadow_pending (s : State) : (clearShadow s).pending = s.pending := by
  unfold clearShadow; simp only [ite_pending, updStore_pending, ite_self]
@[simp] theorem cmdCommit_pending (a : Args) (s : State) : (cmdCommit a s).st.pending = s.pending := by
  unfold cmdCommit; simp only [itec_pending, badArg_pending, requestCommit_pending, clearShadow_pending, ite_self]
@[simp] theorem hostEnds_pending (c : CommitCause) (status q0 q1 : Nat) (s : State) : (hostEnds c status q0 q1 s).pending = s.pending := by
  unfold hostEnds; (repeat' split) <;> simp only [endIf_pending]
@[simp] theorem judgeQueue_pending (cs : List CommitCause) (s : State) : (judgeQueue cs s).pending = s.pending := by
  induction cs generalizing s with
  | nil => rfl
  | cons c cs ih =>
    unfold judgeQueue
    split <;> simp only [ih, hostEnds_pending, startCommit_pending, updStore_pending]
@[simp] theorem commitOver_pending (s : State) : (commitOver s).pending = s.pending := by
  unfold commitOver; simp only [applyHeld_pending, updStore_pending, judgeQueue_pending]
@[simp] theorem causeEnds_pending (c : Commit) (ok : Bool) (s : State) : (causeEnds c ok s).pending = s.pending := by
  unfold causeEnds; (repeat' split) <;> simp only [raise_pending, updStore_pending, standbyAbandoned_pending, hostEnds_pending]
@[simp] theorem commitGood_pending (c : Commit) (s : State) : (commitGood c s).pending = s.pending := by
  unfold commitGood; simp only [setBank_pending, updStore_pending]
@[simp] theorem commitBad_pending (c : Commit) (s : State) : (commitBad c s).pending = s.pending := by
  unfold commitBad; simp only [setBank_pending, raise_pending, updStore_pending]
@[simp] theorem afterCommit_pending (c : Commit) (ok : Bool) (s : State) : (afterCommit c ok s).pending = s.pending := by
  unfold afterCommit; simp only [ite_pending, standbyEntered_pending, commitOver_pending, ite_self]
@[simp] theorem opCommit_pending (ok : Bool) (s : State) : (opCommit ok s).pending = s.pending := by
  unfold opCommit; (repeat' split) <;> simp only [afterCommit_pending, causeEnds_pending, commitGood_pending, commitBad_pending, updStore_pending, setBank_pending]

/-! ### Emitter.lean -/

@[simp] theorem updEmit_pending (f : Emit → Emit) (s : State) : (updEmit f s).pending = s.pending := rfl
@[simp] theorem emitCamToggle_pending (c : Fin 3) (i : Nat) (s : State) : (emitCamToggle c i s).pending = s.pending := by
  unfold emitCamToggle; simp only [ite_pending, updEmit_pending, camLoop_pending, foldSt_pending, takeCam_pending, ite_self, implies_true]
@[simp] theorem opCamEdge_pending (c : Fin 3) (s : State) : (opCamEdge c s).pending = s.pending := by
  unfold opCamEdge; (repeat' split) <;> simp only [emitCamToggle_pending]
@[simp] theorem restCams_pending (s : State) : (restCams s).pending = s.pending := by
  unfold restCams; simp only [foldSt_pending, opCamEdge_pending, implies_true]
@[simp] theorem opEmitStep_pending (s : State) : (opEmitStep s).pending = s.pending := by
  unfold opEmitStep; simp only [restCams_pending, updEmit_pending]
@[simp] theorem emitSwitch_pending (s : State) : (emitSwitch s).pending = s.pending := by
  unfold emitSwitch; simp only [clearSearch_pending, input_pending]
@[simp] theorem emitStart_pending (a : Args) (s : State) : (emitStart a s).pending = s.pending := rfl
@[simp] theorem cmdEmitStart_pending (a : Args) (s : State) : (cmdEmitStart a s).st.pending = s.pending := by
  unfold cmdEmitStart; dsimp only; (repeat' split) <;> simp only [checkFail_pending, updEmit_pending, badArg_pending, emitSwitch_pending, emitStart_pending]
@[simp] theorem cmdEmitStop_pending (_a : Args) (s : State) : (cmdEmitStop _a s).st.pending = s.pending := by
  unfold cmdEmitStop; simp only [emitSwitch_pending, emitHalt_pending]
@[simp] theorem writeEmit_pending (p : Path) (off : Nat) (w : Word) (s : State) : (writeEmit p off w s).pending = s.pending := by
  unfold writeEmit; simp only [ite_pending, deny_pending, updEmit_pending, ite_self]

/-! ### Legacy.lean -/

@[simp] theorem updLeg_pending (f : Leg → Leg) (s : State) : (updLeg f s).pending = s.pending := rfl
@[simp] theorem updLCh_pending (n : Fin 8) (f : LChan → LChan) (s : State) : (updLCh n f s).pending = s.pending := by
  unfold updLCh; simp only [updLeg_pending]
@[simp] theorem legDo_pending (f : State → State) (s : State) (hf : ∀ t, (f t).pending = t.pending) : (legDo f s).pending = s.pending := by
  unfold legDo; simp only [ite_pending, hf, ite_self]
@[simp] theorem legRead_pending (f : State → Word × State) (s : State) (hf : ∀ t, (f t).2.pending = t.pending) : (legRead f s).pending = s.pending := by
  unfold legRead; simp only [ite_pending, readIf_pending, hf, ite_self, implies_true]
@[simp] theorem lBoost_pending (s : State) : (lBoost s).pending = s.pending := by
  unfold lBoost; simp only [ite_pending, updLeg_pending, ite_self]
@[simp] theorem lStart_pending (n : Fin 8) (prof : Nat) (s : State) : (lStart n prof s).pending = s.pending := by
  unfold lStart; simp only [lBoost_pending, updLCh_pending]
@[simp] theorem lIdle_pending (n : Fin 8) (s : State) : (lIdle n s).pending = s.pending := by
  unfold lIdle; simp only [lBoost_pending, updLCh_pending]
@[simp] theorem lAction_pending (n : Fin 8) (act prof : Nat) (s : State) : (lAction n act prof s).pending = s.pending := by
  unfold lAction; (repeat' split) <;> simp only [ite_pending, lStart_pending, lIdle_pending, updLCh_pending, ite_self]
@[simp] theorem lAllIdle_pending (s : State) : (lAllIdle s).pending = s.pending := by
  unfold lAllIdle; simp only [lBoost_pending, updLeg_pending]
@[simp] theorem opLPhase_pending (n : Fin 8) (s : State) : (opLPhase n s).pending = s.pending := by
  unfold opLPhase; (repeat' split) <;> simp only [lBoost_pending, updLCh_pending]
@[simp] theorem updLSlot_pending (i : Fin 16) (f : LSlot → LSlot) (s : State) : (updLSlot i f s).pending = s.pending := by
  unfold updLSlot; simp only [updLeg_pending]
@[simp] theorem lCancel_pending (s : State) : (lCancel s).pending = s.pending := by
  unfold lCancel; simp only [updLSlot_pending]
@[simp] theorem lArm_pending (act : Nat) (s : State) : (lArm act s).pending = s.pending := by
  unfold lArm; simp only [ite_pending, updLeg_pending, updLSlot_pending, ite_self]
@[simp] theorem writeLevcmd_pending (v : Byte) (s : State) : (writeLevcmd v s).pending = s.pending := by
  unfold writeLevcmd; simp only [ite_pending, lCancel_pending, lArm_pending, ite_self]
@[simp] theorem opLFire_pending (i : Fin 16) (s : State) : (opLFire i s).pending = s.pending := by
  unfold opLFire; simp only [ite_pending, updLSlot_pending, lAction_pending, ite_self]
@[simp] theorem legRestart_pending (s : State) : (legRestart s).pending = s.pending := by
  unfold legRestart; simp only [updWheel_pending, clearSearch_pending, input_pending]
@[simp] theorem writeLctl_pending (v : Byte) (s : State) : (writeLctl v s).pending = s.pending := by
  unfold writeLctl; simp only [ite_pending, lAllIdle_pending, legRestart_pending, updLeg_pending, ite_self]
@[simp] theorem writeLwheel_pending (v : Byte) (s : State) : (writeLwheel v s).pending = s.pending := by
  unfold writeLwheel; (repeat' split) <;> simp only [ite_pending, legRestart_pending, updLeg_pending, updWheel_pending, ite_self]
@[simp] theorem writeLouten_pending (v : Byte) (s : State) : (writeLouten v s).pending = s.pending := by
  unfold writeLouten; simp only [lBoost_pending, updLeg_pending]
@[simp] theorem readLangl_pending (s : State) : (readLangl s).2.pending = s.pending := by
  unfold readLangl; simp only [updLeg_pending]
@[simp] theorem readLperl_pending (s : State) : (readLperl s).2.pending = s.pending := by
  unfold readLperl; simp only [updLeg_pending]
@[simp] theorem stepByte_pending (s : State) : (stepByte s).pending = s.pending := by
  unfold stepByte; simp only [updLeg_pending]
@[simp] theorem readLprofdat_pending (s : State) : (readLprofdat s).2.pending = s.pending := by
  unfold readLprofdat; simp only [stepByte_pending]
@[simp] theorem writeLprofdat_pending (v : Byte) (s : State) : (writeLprofdat v s).pending = s.pending := by
  unfold writeLprofdat; simp only [stepByte_pending, updLeg_pending]
@[simp] theorem opLTrip_pending (s : State) : (opLTrip s).pending = s.pending := by
  unfold opLTrip; simp only [lAllIdle_pending, noteLeg_pending, updLeg_pending]
@[simp] theorem writeLdiag_pending (v : Byte) (s : State) : (writeLdiag v s).pending = s.pending := by
  unfold writeLdiag; simp only [ite_pending, updLeg_pending, ite_self]
@[simp] theorem updLTim_pending (k : Fin 2) (f : LTimer → LTimer) (s : State) : (updLTim k f s).pending = s.pending := by
  unfold updLTim; simp only [updLeg_pending]
@[simp] theorem lTimStep_pending (k : Fin 2) (s : State) : (lTimStep k s).pending = s.pending := by
  unfold lTimStep; simp only [ite_pending, noteLeg_pending, updLeg_pending, updLTim_pending, ite_self]
@[simp] theorem lLoadCount_pending (hi : Byte) (s : State) : (lLoadCount hi s).pending = s.pending := by
  unfold lLoadCount; simp only [updLTim_pending]
@[simp] theorem lLoadCompare_pending (hi : Byte) (s : State) : (lLoadCompare hi s).pending = s.pending := by
  unfold lLoadCompare; simp only [updLTim_pending]
@[simp] theorem writeLstat_pending (w : Byte) (s : State) : (writeLstat w s).pending = s.pending := by
  unfold writeLstat; simp only [updLeg_pending]
@[simp] theorem writeLegA_pending (a : Nat) (v : Byte) (s : State) : (writeLegA a v s).pending = s.pending := by
  unfold writeLegA; (repeat' split) <;> simp only [writeLctl_pending, writeLstat_pending, updLeg_pending, writeLwheel_pending, writeLevcmd_pending, writeLprofdat_pending]
@[simp] theorem writeLegacy_pending (a : Nat) (v : Byte) (s : State) : (writeLegacy a v s).pending = s.pending := by
  unfold writeLegacy; (repeat' split) <;> simp only [writeLouten_pending, writeLdiag_pending, updLeg_pending, updLTim_pending, lLoadCount_pending, lLoadCompare_pending, writeLegA_pending]

/-! ### HostBus.lean -/

@[simp] theorem readWin_pending (p : Path) (space off : Nat) (s : State) : (readWin p space off s).2.pending = s.pending := by
  unfold readWin; (repeat' split) <;> simp only [gatedWindow_pending, readBrass_pending, readFsrc_pending, readTherm_pending, readCpc_pending, implies_true]
@[simp] theorem gatedWinWrite_pending (b : Blk) (space : Nat) (f : State → State) (s : State) (hf : ∀ t, (f t).pending = t.pending) : (gatedWinWrite b space f s).pending = s.pending := by
  unfold gatedWinWrite; simp only [ite_pending, gateEvent_pending, hf, ite_self]
@[simp] theorem writeWin_pending (p : Path) (space off : Nat) (w : Word) (s : State) : (writeWin p space off w s).pending = s.pending := by
  unfold writeWin; (repeat' split) <;> simp [hostSlotWrite_pending, gatedWinWrite_pending, hostCpcWrite_pending, writeProt_pending, writeEmit_pending]
@[simp] theorem readWindat_pending (p : Path) (s : State) : (readWindat p s).2.pending = s.pending := by
  unfold readWindat; simp only [readWin_pending, stepWinadr_pending]
@[simp] theorem writeWindat_pending (p : Path) (w : Word) (s : State) : (writeWindat p w s).pending = s.pending := by
  unfold writeWindat; simp only [stepWinadr_pending, writeWin_pending]
@[simp] theorem readTb0_pending (p : Path) (s : State) : (readTb0 p s).2.pending = s.pending := by
  unfold readTb0; (repeat' split) <;> simp only
@[simp] theorem readActive_pending (p : Path) (a : Nat) (s : State) : (readActive p a s).2.pending = s.pending := by
  unfold readActive; (repeat' split) <;> simp only [readClkstat_pending, gatedRead_pending, readWindat_pending, readAngleL_pending, readTb0_pending, readRptstat_pending, readRptdat_pending, readFltstat_pending, readFlthist_pending, implies_true]
@[simp] theorem readReg_pending (p : Path) (a : Nat) (s : State) : (readReg p a s).2.pending = s.pending := by
  unfold readReg; (repeat' split) <;> simp only [readActive_pending]
@[simp] theorem clearInts_pending (w : Word) (s : State) : (clearInts w s).pending = s.pending := rfl
@[simp] theorem writePointer_pending (p : Path) (f : Bus → Bus) (s : State) : (writePointer p f s).pending = s.pending := by
  unfold writePointer; (repeat' split) <;> simp only
@[simp] theorem writeReg_pending (p : Path) (a : Nat) (w : Word) (s : State) : (writeReg p a w s).pending = s.pending := by
  unfold writeReg; (repeat' split) <;> simp [writeSysctl_pending, clkRow_pending, writePwrctl_pending, writeClkctl_pending, writeGateen_pending, gatedWrite_pending, writeFmctl_pending, submit_pending, writeArg_pending, writePointer_pending, writeWindat_pending, clearInts_pending, writeFltack_pending, writeTim_pending]
@[simp] theorem opHostWrite_pending (addr : BitVec 8) (w : Word) (s : State) : (opHostWrite addr w s).pending = s.pending := by
  unfold opHostWrite; simp only [ite_pending, hostRow_pending, writeReg_pending, legDo_pending, writeLegacy_pending, ite_self, implies_true]
@[simp] theorem opInterrupted_pending (s : State) : (opInterrupted s).pending = s.pending := by
  unfold opInterrupted; simp only [endCmd_pending]

/-! ### Debug.lean -/

@[simp] theorem opLineReset_pending (s : State) : (opLineReset s).pending = s.pending := by
  unfold opLineReset; simp only [ite_pending, updDbg_pending, ite_self]
@[simp] theorem resume_pending (s : State) : (resume s).pending = s.pending := by
  unfold resume; simp only [sendWaiting_pending, testResume_pending, endReady_pending, updDbg_pending]
@[simp] theorem opDetach_pending (s : State) : (opDetach s).pending = s.pending := by
  unfold opDetach; simp only [resume_pending, updDbg_pending]
@[simp] theorem ack_pending (k : Nat) (s : State) : (ack k s).pending = s.pending := by
  unfold ack; simp only [updDbg_pending]
@[simp] theorem dbgDeny_pending (a : Nat) (s : State) : (dbgDeny a s).pending = s.pending := by
  unfold dbgDeny; simp only [ite_pending, ack_pending, deny_pending, ite_self]
@[simp] theorem txn_pending (a : Nat) (errOk ok : Bool) (f : State → State) (s : State) (hf : ∀ t, (f t).pending = t.pending) : (txn a errOk ok f s).pending = s.pending := by
  unfold txn; simp only [ite_pending, ack_pending, dbgDeny_pending, hf, ite_self]
@[simp] theorem dctl_pending (ok : Bool) (f : State → State) (s : State) (hf : ∀ t, (f t).pending = t.pending) : (dctl ok f s).pending = s.pending := by
  unfold dctl; simp only [txn_pending, hf, implies_true]
@[simp] theorem opHalt_pending (on : Bool) (s : State) : (opHalt on s).pending = s.pending := by
  unfold opHalt; simp only [ite_pending, updDbg_pending, resume_pending, ite_self]
@[simp] theorem opPtest_pending (on : Bool) (s : State) : (opPtest on s).pending = s.pending := by
  unfold opPtest; simp only [ite_pending, updDbg_pending, roleEnds_pending, ack_pending, ite_self]
@[simp] theorem opWake_pending (ref : RefEdge) (s : State) : (opWake ref s).pending = s.pending := by
  unfold opWake; simp only [ite_pending, askWake_pending, updSys_pending, standbyWake_pending, ite_self]
@[simp] theorem opChal_pending (s : State) : (opChal s).pending = s.pending := by
  unfold opChal; simp only [ite_pending, updDbg_pending, drawChallenge_pending, ite_self]
@[simp] theorem readDchal_pending (s : State) : (readDchal s).2.pending = s.pending := by
  unfold readDchal; simp only [updDbg_pending]
@[simp] theorem probeRead_pending (f : State → Word × State) (s : State) (hf : ∀ t, (f t).2.pending = t.pending) : (probeRead f s).pending = s.pending := by
  unfold probeRead; simp only [putData_pending, hf]
@[simp] theorem writeDans_pending (w : Word) (s : State) : (writeDans w s).pending = s.pending := by
  unfold writeDans; simp only [ite_pending, updDbg_pending, startCheck_pending, ite_self]
@[simp] theorem writeDpin_pending (w : Word) (s : State) : (writeDpin w s).pending = s.pending := by
  unfold writeDpin; simp only [updDbg_pending]
@[simp] theorem windowUse_pending (f : Nat → Nat → State → Word × State) (s : State) (hf : ∀ x0 x1 t, (f x0 x1 t).2.pending = t.pending) : (windowUse f s).2.pending = s.pending := by
  unfold windowUse; simp only [itep_pending, updDbg_pending, hf, ite_self]
@[simp] theorem readDbg_pending (a : Nat) (s : State) : (readDbg a s).2.pending = s.pending := by
  unfold readDbg; (repeat' split) <;> simp only [windowUse_pending, readWin_pending, readDchal_pending, implies_true]
@[simp] theorem writeDctl_pending (w : Word) (s : State) : (writeDctl w s).pending = s.pending := by
  unfold writeDctl; simp only [ite_pending, opChal_pending, updDbg_pending, opHalt_pending, opPtest_pending, opWake_pending, opDetach_pending, resetTo_pending, ite_self]
@[simp] theorem writeDbg_pending (a : Nat) (w : Word) (s : State) : (writeDbg a w s).pending = s.pending := by
  unfold writeDbg; (repeat' split) <;> simp only [writeDctl_pending, updDbg_pending, windowUse_pending, writeWin_pending, writeDans_pending, writeDpin_pending, implies_true]
@[simp] theorem withParity_pending (parity : Bool) (f : State → State) (s : State) (hf : ∀ t, (f t).pending = t.pending) : (withParity parity f s).pending = s.pending := by
  unfold withParity; simp only [ite_pending, updDbg_pending, hf, ite_self]
@[simp] theorem orWait_pending (ok : Bool) (s : State) (f : State → State) (hf : ∀ t, (f t).pending = t.pending) : (orWait ok s f).pending = s.pending := by
  unfold orWait; simp only [ite_pending, ack_pending, hf, ite_self]
@[simp] theorem opAccess_pending (op : DbgOp) (a : Nat) (w : Word) (parity : Bool) (s : State) : (opAccess op a w parity s).pending = s.pending := by
  have hr : ∀ t, (probeRead (readDbg a) t).pending = t.pending := fun t => probeRead_pending _ _ fun u => readDbg_pending a u
  have hp : ∀ t, (probeRead (readReg .debug (2 * a)) t).pending = t.pending := fun t => probeRead_pending _ _ fun u => readReg_pending _ _ u
  have hw : ∀ t, (withParity parity (writeDbg a w) t).pending = t.pending := fun t => withParity_pending _ _ _ fun u => writeDbg_pending a w u
  have hh : ∀ t, (withParity parity (writeReg .debug (2 * a) w) t).pending = t.pending := fun t => withParity_pending _ _ _ fun u => writeReg_pending _ _ w u
  unfold opAccess
  (repeat' split) <;> first | exact ack_pending _ _ | exact txn_pending _ _ _ _ _ hr | exact txn_pending _ _ _ _ _ hp | exact txn_pending _ _ _ _ _ hw | exact txn_pending _ _ _ _ _ hh | exact orWait_pending _ _ _ (fun t => txn_pending _ _ _ _ _ hr) | exact orWait_pending _ _ _ (fun t => txn_pending _ _ _ _ _ hp) | exact orWait_pending _ _ _ (fun t => txn_pending _ _ _ _ _ hw) | exact orWait_pending _ _ _ (fun t => txn_pending _ _ _ _ _ hh)

/-! ### Tick.lean -/

@[simp] theorem tickClock_pending (s : State) : (tickClock s).pending = s.pending := by
  unfold tickClock; simp only [newInstant_pending]
@[simp] theorem tickPins_pending (lv : OutLevels) (s : State) : (tickPins lv s).pending = s.pending := by
  unfold tickPins; simp only [tripAll_pending, tickInputs_pending, pinEdges_pending, shiftOuts_pending]
@[simp] theorem tickAngles_pending (s : State) : (tickAngles s).pending = s.pending := rfl
@[simp] theorem tickWindows_pending (s : State) : (tickWindows s).pending = s.pending := by
  unfold tickWindows; simp only [windowsCheck_pending]
@[simp] theorem tickTimers_pending (s : State) : (tickTimers s).pending = s.pending := by
  unfold tickTimers; simp only [ite_pending, ite_self]
@[simp] theorem tickEmit_pending (s : State) : (tickEmit s).pending = s.pending := by
  unfold tickEmit; simp only [ite_pending, ite_self]
@[simp] theorem tickLegacy_pending (s : State) : (tickLegacy s).pending = s.pending := by
  unfold tickLegacy; simp only [ite_pending, updLeg_pending, ite_self]

/-! ### Step.lean -/

@[simp] theorem State.withFetchWord_pending (s : State) (nbits w : Nat) : (State.withFetchWord s nbits w).pending = s.pending := rfl

/-! ### Tick.lean -/

/-- What time alone does leaves the queue. -/
@[simp] theorem tickTime_pending (s : State) : (tickTime s).pending = s.pending := by
  unfold tickTime
  dsimp only
  split
  · rw [tickEmit_pending, tickTimers_pending, tickWindows_pending, mirrorTick_pending, tickAngles_pending, noteDue_pending, tickPins_pending, tickClock_pending]
  · rw [tickLegacy_pending, tickAngles_pending, tickInputs_pending, shiftOuts_pending, tickClock_pending]

end Sys2Proof.Machine
end

