-- ==== Sys2Proof/Laws/Security.lean ====
section
/-! SUPPORT. Lengths of digests, and answers that are right or wrong whatever the unique identifier is. -/

namespace Sys2Proof.Machine

/-- A digest has 32 bytes. -/
theorem sha256_length (m : List Byte) : (sha256 m).length = 32 := by simp [sha256, beBytes]

/-- An HMAC has 32 bytes. -/
theorem hmac_length (key msg : List Byte) : (hmac key msg).length = 32 := sha256_length _

/-- An expected answer has 16 bytes. -/
@[simp] theorem expectedAnswer_length (c : Sec) (x : BitVec 128) : (expectedAnswer c x).length = 16 := by
  simp [expectedAnswer, hmac_length]

/-- The expected answer depends on the key words alone. -/
theorem expectedAnswer_keys (c d : Sec) (x : BitVec 128) (h : c.keys = d.keys) :
    expectedAnswer c x = expectedAnswer d x := by
  unfold expectedAnswer keyBytes
  rw [h]

/-- The answer whose bytes these are: bit b of it is bit b % 8 of byte b / 8 (R390, R391). -/
def answerOf (l : List Byte) : BitVec 128 := BitVec.ofFnLE fun b : Fin 128 => (l.getD (b.val / 8) 0).getLsbD (b.val % 8)

/-- Its bytes are these. -/
theorem bytesLE_answerOf (l : List Byte) (h : l.length = 16) : bytesLE 16 (answerOf l) = l := by
  refine List.ext_get (by simp [bytesLE, h]) fun k _ hk => BitVec.eq_of_getLsbD_eq fun b hb => ?_
  have hd : (8 * k + b) / 8 = k := by omega
  have hm : (8 * k + b) % 8 = b := by omega
  have hw : 8 * k + b < 128 := by omega
  rw [List.get_eq_getElem, List.get_eq_getElem, ← List.getD_eq_getElem l 0 hk]
  simp [bytesLE, answerOf, hb, BitVec.getLsbD_eq_getElem hw, hd, hm]

/-- A number whose bytes are not these. -/
@[irreducible] def notBytes (l : List Byte) : BitVec 128 := if bytesLE 16 0 = l then 1 else 0

/-- Its bytes differ. -/
theorem bytesLE_notBytes (l : List Byte) : bytesLE 16 (notBytes l) ≠ l := by
  unfold notBytes
  split
  · rename_i h
    rw [← h]
    decide
  · assumption

end Sys2Proof.Machine
end

