-- ==== Sys2Proof/Laws/Store.lean ====
section
/-! SUPPORT. The nonvolatile store: the operations that do not change it, one lemma each, and then those that may, each
with a lemma that it keeps the canonical form of the banks and the shadow. -/

namespace Sys2Proof.Machine

/-! ### Ops.lean -/

theorem ite_store (c : Prop) [Decidable c] (a b : State) : (if c then a else b).store = if c then a.store else b.store := by split <;> rfl
theorem itep_store {α : Type} (c : Prop) [Decidable c] (a b : α × State) : (if c then a else b).2.store = if c then a.2.store else b.2.store := by split <;> rfl
theorem itec_store (c : Prop) [Decidable c] (a b : CmdRes) : (if c then a else b).st.store = if c then a.st.store else b.st.store := by split <;> rfl
@[simp] theorem foldSt_store {α : Type} (xs : List α) (f : α → State → State) (s : State) (hf : ∀ x t, (f x t).store = t.store) : (foldSt xs f s).store = s.store := by
  unfold foldSt
  induction xs generalizing s with
  | nil => rfl
  | cons x xs ih => simp [ih, hf]

@[simp] theorem setInt_store (b : Nat) (s : State) : (setInt b s).store = s.store := rfl
@[simp] theorem setIntIf_store (c : Bool) (b : Nat) (s : State) : (setIntIf c b s).store = s.store := by
  unfold setIntIf; simp only [ite_store, setInt_store, ite_self]
@[simp] theorem noteLeg_store (b : Nat) (s : State) : (noteLeg b s).store = s.store := rfl
@[simp] theorem drawRandom_store (s : State) : (drawRandom s).2.store = s.store := rfl
@[simp] theorem raiseC_store (src ch : Nat) (det : Word) (carried : Bool) (s : State) : (raiseC src ch det carried s).store = s.store := by
  unfold raiseC; simp only [ite_store, ite_self]
@[simp] theorem raise_store (src ch : Nat) (det : Word) (s : State) : (raise src ch det s).store = s.store := by
  unfold raise; simp only [raiseC_store]
@[simp] theorem newInstant_store (s : State) : (newInstant s).store = s.store := rfl
@[simp] theorem makeRoom_store (k : Nat) (s : State) : (makeRoom k s).store = s.store := by
  unfold makeRoom; simp only [ite_store, ite_self]
@[simp] theorem takeSeq_store (rank : Nat) (s : State) : (takeSeq rank s).2.store = s.store := by
  unfold takeSeq; simp only [makeRoom_store]
@[simp] theorem settleSeq_store (r : Quad) (s : State) : (settleSeq r s).store = s.store := by
  unfold settleSeq; simp only [ite_store, ite_self]
@[simp] theorem dropRec_store (r : Quad) (s : State) : (dropRec r s).store = s.store := rfl
@[simp] theorem enterFifo_store (j : Nat) (r : Quad) (s : State) : (enterFifo j r s).store = s.store := by
  unfold enterFifo; simp only [ite_store, setInt_store, dropRec_store, ite_self]
@[simp] theorem pushRec_store (ty src flags : Nat) (w2 w3 : Word) (s : State) : (pushRec ty src flags w2 w3 s).store = s.store := by
  unfold pushRec; simp only [ite_store, takeSeq_store, enterFifo_store, ite_self]
@[simp] theorem putData_store (w : Word) (s : State) : (putData w s).store = s.store := rfl
@[simp] theorem readIf_store (c : Bool) (f : State → Word × State) (s : State) (hf : ∀ t, (f t).2.store = t.store) : (readIf c f s).store = s.store := by
  unfold readIf putData; split <;> simp [hf]
@[simp] theorem updChan_store (n : Fin 12) (f : Chan → Chan) (s : State) : (updChan n f s).store = s.store := rfl

/-! ### ChanOps.lean -/

@[simp] theorem groupRise_store (g : Nat) (s : State) : (groupRise g s).store = s.store := rfl
@[simp] theorem setDrv1_store (n : Fin 12) (lvl : Bool) (s : State) : (setDrv1 n lvl s).store = s.store := by
  unfold setDrv1; simp only [updChan_store]
@[simp] theorem pinRise_store (n : Fin 12) (s : State) : (pinRise n s).store = s.store := by
  unfold pinRise; simp only [updChan_store, groupRise_store]
@[simp] theorem pinFall_store (n : Fin 12) (s : State) : (pinFall n s).store = s.store := by
  unfold pinFall; simp only [updChan_store]
@[simp] theorem setDrv_store (n : Fin 12) (lvl : Bool) (s : State) : (setDrv n lvl s).store = s.store := by
  unfold setDrv; simp only [ite_store, setDrv1_store, ite_self]
@[simp] theorem forceLow_store (s : State) : (forceLow s).store = s.store := by
  unfold forceLow; simp only [foldSt_store, updChan_store, setDrv_store, implies_true]
@[simp] theorem boostEnds_store (e : Tb) (s : State) : (boostEnds e s).store = s.store := rfl
@[simp] theorem boostUpdate_store (old : Vector Chan 12) (s : State) : (boostUpdate old s).store = s.store := by
  unfold boostUpdate; simp only [ite_store, forceLow_store, boostEnds_store, ite_self]
@[simp] theorem boostRise_store (s : State) : (boostRise s).store = s.store := by
  unfold boostRise
  exact foldSt_store _ _ _ fun g t => groupRise_store _ t

@[simp] theorem boostFall_store (s : State) : (boostFall s).store = s.store := by
  unfold boostFall; simp only [boostEnds_store]
@[simp] theorem pinEdges_store (s : State) : (pinEdges s).store = s.store := by
  unfold pinEdges; simp only [ite_store, foldSt_store, pinRise_store, pinFall_store, boostRise_store, boostFall_store, ite_self, implies_true]
@[simp] theorem shiftOuts_store (lv : OutLevels) (s : State) : (shiftOuts lv s).store = s.store := rfl
@[simp] theorem dropPins_store (p : Fin 12 → Bool) (s : State) : (dropPins p s).store = s.store := rfl
@[simp] theorem settle_store (n : Fin 12) (st : ChSt) (s : State) : (settle n st s).store = s.store := by
  unfold settle; simp only [updChan_store, boostUpdate_store, setDrv_store]
@[simp] theorem enterDecay_store (n : Fin 12) (s : State) : (enterDecay n s).store = s.store := by
  unfold enterDecay; simp only [settle_store, updChan_store]
@[simp] theorem applyScale_store (n : Fin 12) (s : State) : (applyScale n s).store = s.store := by
  unfold applyScale; simp only [ite_store, updChan_store, ite_self]
@[simp] theorem refreshI_store (m : Fin 8) (s : State) : (refreshI m s).store = s.store := by
  unfold refreshI; simp only [updChan_store]
@[simp] theorem endFallback_store (n : Fin 12) (s : State) : (endFallback n s).store = s.store := by
  unfold endFallback; (repeat' split) <;> simp only [updChan_store, refreshI_store]
@[simp] theorem enterIdle_store (n : Fin 12) (s : State) : (enterIdle n s).store = s.store := by
  unfold enterIdle; simp only [endFallback_store, applyScale_store, settle_store]
@[simp] theorem enterLow_store (n : Fin 12) (s : State) : (enterLow n s).store = s.store := by
  unfold enterLow; simp only [applyScale_store, settle_store]
@[simp] theorem release_store (n : Fin 12) (s : State) : (release n s).store = s.store := by
  unfold release; simp only [ite_store, enterDecay_store, enterLow_store, settle_store, ite_self]
@[simp] theorem containInput_store (n : Fin 12) (s : State) : (containInput n s).store = s.store := by
  unfold containInput; simp only [ite_store, setDrv1_store, settle_store, ite_self]
@[simp] theorem containCh_store (n : Fin 12) (s : State) : (containCh n s).store = s.store := by
  unfold containCh; simp only [ite_store, containInput_store, updChan_store, ite_self]
@[simp] theorem leaveContained_store (n : Fin 12) (s : State) : (leaveContained n s).store = s.store := by
  unfold leaveContained; simp only [ite_store, release_store, ite_self]
@[simp] theorem tripInput_store (n : Fin 12) (s : State) : (tripInput n s).store = s.store := by
  unfold tripInput; (repeat' split) <;> simp only [setDrv1_store, settle_store]
@[simp] theorem tripAll_store (s : State) : (tripAll s).store = s.store := by
  unfold tripAll; simp only [foldSt_store, tripInput_store, implies_true]
@[simp] theorem outputsDown_store (s : State) : (outputsDown s).store = s.store := by
  unfold outputsDown; simp only [ite_store, foldSt_store, enterDecay_store, enterLow_store, setDrv1_store, pinEdges_store, ite_self, implies_true]
@[simp] theorem containAll_store (s : State) : (containAll s).store = s.store := by
  unfold containAll; simp only [foldSt_store, settle_store, updChan_store, implies_true]
@[simp] theorem setTarget_store (n : Fin 12) (v : Nat) (noslew : Bool) (s : State) : (setTarget n v noslew s).store = s.store := by
  unfold setTarget; simp only [updChan_store]
@[simp] theorem regulate_store (n : Fin 12) (i : Nat) (s : State) : (regulate n i s).store = s.store := by
  unfold regulate; simp only [ite_store, updChan_store, setDrv_store, ite_self]
@[simp] theorem enterHold_store (n : Fin 12) (s : State) : (enterHold n s).store = s.store := by
  unfold enterHold; simp only [updChan_store, boostUpdate_store, setTarget_store]
@[simp] theorem enterPeak_store (n : Fin 12) (s : State) : (enterPeak n s).store = s.store := by
  unfold enterPeak; simp only [boostUpdate_store, updChan_store]
@[simp] theorem boostExit_store (n : Fin 12) (s : State) : (boostExit n s).store = s.store := by
  unfold boostExit; simp only [updChan_store, boostUpdate_store, setDrv_store]
@[simp] theorem throttleMoved_store (n : Fin 12) (s : State) : (throttleMoved n s).store = s.store := by
  unfold throttleMoved; simp only [ite_store, setTarget_store, ite_self]
@[simp] theorem startProfile_store (n : Fin 12) (param : Word) (s : State) : (startProfile n param s).store = s.store := by
  unfold startProfile; simp only [ite_store, updChan_store, boostUpdate_store, setDrv_store, ite_self]
@[simp] theorem startBrass_store (n : Fin 12) (param : Word) (s : State) : (startBrass n param s).store = s.store := by
  unfold startBrass; simp only [boostUpdate_store, updChan_store]
@[simp] theorem timedRise_store (n : Fin 12) (width : Option Nat) (s : State) : (timedRise n width s).store = s.store := by
  unfold timedRise; simp only [setDrv_store, updChan_store]
@[simp] theorem fireAction_store (n : Fin 12) (act : Nat) (param : Word) (s : State) : (fireAction n act param s).2.store = s.store := by
  unfold fireAction; simp only [ite_store, itep_store, startBrass_store, startProfile_store, enterDecay_store, enterLow_store, timedRise_store, ite_self]

/-! ### DiagOps.lean -/

@[simp] theorem updDiag_store (n : Fin 8) (f : DiagCh → DiagCh) (s : State) : (updDiag n f s).store = s.store := rfl
@[simp] theorem setClass_store (n : Fin 8) (c : Nat) (s : State) : (setClass n c s).store = s.store := by
  unfold setClass; (repeat' split) <;> simp only [setInt_store, raise_store, updDiag_store]
@[simp] theorem verdict_store (n : Fin 8) (on : Bool) (need v : Nat) (s : State) : (verdict n on need v s).store = s.store := by
  unfold verdict; simp only [ite_store, updDiag_store, setClass_store, ite_self]
@[simp] theorem testVerdict_store (n : Fin 8) (on : Bool) (v : Nat) (s : State) : (testVerdict n on v s).store = s.store := by
  unfold testVerdict; (repeat' split) <;> simp only
@[simp] theorem testOther_store (n : Fin 8) (i : Nat) (s : State) : (testOther n i s).store = s.store := by
  unfold testOther; (repeat' split) <;> simp only
@[simp] theorem classify_store (n : Fin 8) (i dl : Nat) (prev : Option Nat) (s : State) : (classify n i dl prev s).store = s.store := by
  unfold classify; simp only [ite_store, updDiag_store, testVerdict_store, verdict_store, testOther_store, ite_self]
@[simp] theorem latchGroups_store (src : Nat) (gs : List (Fin 4)) (s : State) : (latchGroups src gs s).store = s.store := by
  unfold latchGroups; simp only [ite_store, setInt_store, raiseC_store, dropPins_store, tripAll_store, ite_self]

/-! ### SenseOps.lean -/

@[simp] theorem updLine_store (n : Fin 8) (f : Line → Line) (s : State) : (updLine n f s).store = s.store := rfl
@[simp] theorem noteDue_store (s : State) : (noteDue s).store = s.store := rfl
@[simp] theorem addHeat_store (n : Fin 8) (lvl : Bool) (x : Nat) (s : State) : (addHeat n lvl x s).store = s.store := by
  unfold addHeat; simp only [ite_store, ite_self]
@[simp] theorem waitiFrame_store (n : Fin 12) (i : Nat) (s : State) : (waitiFrame n i s).store = s.store := by
  unfold waitiFrame; (repeat' split) <;> simp only [updChan_store]
@[simp] theorem chanFrame_store (n : Fin 12) (i : Nat) (s : State) : (chanFrame n i s).store = s.store := by
  unfold chanFrame; dsimp only; (repeat' split) <;> simp only [boostExit_store, enterDecay_store, regulate_store, waitiFrame_store, enterIdle_store, updChan_store]
@[simp] theorem gapSlot_store (m : Fin 12) (s : State) : (gapSlot m s).store = s.store := by
  unfold gapSlot; simp only [ite_store, updChan_store, setDrv_store, ite_self]
@[simp] theorem chanMissing_store (n : Fin 8) (s : State) : (chanMissing n s).store = s.store := by
  unfold chanMissing; simp only [ite_store, gapSlot_store, ite_self]
@[simp] theorem breakEffect_store (n : Fin 8) (s : State) : (breakEffect n s).store = s.store := by
  unfold breakEffect; simp only [ite_store, refreshI_store, updChan_store, containInput_store, ite_self]
@[simp] theorem enterBreak_store (n : Fin 8) (s : State) : (enterBreak n s).store = s.store := by
  unfold enterBreak; simp only [ite_store, updLine_store, updDiag_store, breakEffect_store, raiseC_store, ite_self]
@[simp] theorem leaveBreak_store (n : Fin 8) (s : State) : (leaveBreak n s).store = s.store := by
  unfold leaveBreak; simp only [ite_store, leaveContained_store, updChan_store, ite_self]
@[simp] theorem testDecayFrame_store (m : Fin 12) (i : Nat) (s : State) : (testDecayFrame m i s).store = s.store := by
  unfold testDecayFrame; (repeat' split) <;> simp only
@[simp] theorem takeFrame_store (m : Fin 12) (i : Nat) (stale : Bool) (s : State) : (takeFrame m i stale s).store = s.store := by
  unfold takeFrame; simp only [ite_store, testDecayFrame_store, chanFrame_store, updChan_store, gapSlot_store, ite_self]
@[simp] theorem slotMissing_store (n : Fin 8) (lvl : Bool) (s : State) : (slotMissing n lvl s).store = s.store := by
  unfold slotMissing; simp only [ite_store, updLine_store, addHeat_store, chanMissing_store, enterBreak_store, ite_self]
@[simp] theorem slotValid_store (n : Fin 8) (b : FrameBits) (s : State) : (slotValid n b s).store = s.store := by
  unfold slotValid; simp only [ite_store, raise_store, updLine_store, addHeat_store, classify_store, leaveBreak_store, takeFrame_store, ite_self]
@[simp] theorem senseFrame_store (n : Fin 8) (x : BitVec 82) (s : State) : (senseFrame n x s).store = s.store := by
  unfold senseFrame; simp only [ite_store, updLine_store, slotMissing_store, raise_store, slotValid_store, ite_self]

/-! ### BusOps.lean -/

@[simp] theorem gateEvent_store (b : Blk) (win : Bool) (id : Nat) (s : State) : (gateEvent b win id s).store = s.store := by
  unfold gateEvent; simp only [raise_store]
@[simp] theorem gatedWrite_store (b : Blk) (a : Nat) (f : State → State) (s : State) (hf : ∀ t, (f t).store = t.store) : (gatedWrite b a f s).store = s.store := by
  unfold gatedWrite; simp only [ite_store, gateEvent_store, hf, ite_self]
@[simp] theorem gatedRead_store (b : Blk) (a : Nat) (f : State → Word × State) (s : State) (hf : ∀ t, (f t).2.store = t.store) : (gatedRead b a f s).2.store = s.store := by
  unfold gatedRead; simp only [itep_store, gateEvent_store, hf, ite_self]
@[simp] theorem gatedWindow_store (b : Blk) (space : Nat) (f : State → Word × State) (s : State) (hf : ∀ t, (f t).2.store = t.store) : (gatedWindow b space f s).2.store = s.store := by
  unfold gatedWindow; simp only [itep_store, gateEvent_store, hf, ite_self]
@[simp] theorem askWake_store (code : Nat) (s : State) : (askWake code s).store = s.store := rfl
@[simp] theorem holdRows_store (is : List Instr) (s : State) : (holdRows is s).store = s.store := by
  unfold holdRows; simp only [askWake_store]
@[simp] theorem latchWake_store (code : Nat) (s : State) : (latchWake code s).store = s.store := rfl
@[simp] theorem csFalls_store (s : State) : (csFalls s).store = s.store := by
  unfold csFalls; (repeat' split) <;> simp only [latchWake_store, askWake_store]
@[simp] theorem hostRow_store (i : Instr) (f : State → State) (s : State) (hf : ∀ t, (f t).store = t.store) : (hostRow i f s).store = s.store := by
  unfold hostRow; simp only [ite_store, holdRows_store, csFalls_store, hf, ite_self]
@[simp] theorem hostRead_store (i : Instr) (f : State → Word × State) (s : State) (hf : ∀ t, (f t).2.store = t.store) : (hostRead i f s).store = s.store := by
  unfold hostRead; simp only [hostRow_store, readIf_store, hf, implies_true]
@[simp] theorem stepWinadr_store (p : Path) (s : State) : (stepWinadr p s).store = s.store := by
  unfold stepWinadr; (repeat' split) <;> simp only
@[simp] theorem pointAt_store (space off : Nat) (s : State) : (pointAt space off s).store = s.store := by
  unfold pointAt; simp only [ite_store, ite_self]
@[simp] theorem windowRead_store (i : Instr) (space off : Nat) (f : State → Word × State) (s : State) (hf : ∀ t, (f t).2.store = t.store) : (windowRead i space off f s).store = s.store := by
  unfold windowRead; simp only [hostRead_store, pointAt_store, stepWinadr_store, hf, implies_true]
@[simp] theorem windowWrite_store (i : Instr) (space off : Nat) (f : State → State) (s : State) (hf : ∀ t, (f t).store = t.store) : (windowWrite i space off f s).store = s.store := by
  unfold windowWrite; simp only [ite_store, hostRow_store, stepWinadr_store, pointAt_store, hf, ite_self, implies_true]
@[simp] theorem deny_store (p : Path) (kind id : Nat) (s : State) : (deny p kind id s).store = s.store := by
  unfold deny; simp only [raise_store]

/-! ### Predictor.lean -/

@[simp] theorem readAngleL_store (p : Path) (s : State) : (readAngleL p s).2.store = s.store := by
  unfold readAngleL; (repeat' split) <;> simp only
@[simp] theorem setPred_store (p : Pred) (s : State) : (setPred p s).store = s.store := rfl
@[simp] theorem beginPred_store (p : Pred) (s : State) : (beginPred p s).store = s.store := rfl
@[simp] theorem noteResidual_store (p h : Nat) (res : Int) (s : State) : (noteResidual p h res s).store = s.store := by
  unfold noteResidual; simp only [ite_store, raise_store, pushRec_store, ite_self]
@[simp] theorem learnRev_store (stamp : Tb) (s : State) : (learnRev stamp s).store = s.store := by
  unfold learnRev; dsimp only; (repeat' split) <;> simp only
@[simp] theorem learnTooth_store (stamp : Tb) (p : Nat) (s : State) : (learnTooth stamp p s).store = s.store := rfl
@[simp] theorem learnSpoil_store (s : State) : (learnSpoil s).store = s.store := rfl
@[simp] theorem learnLost_store (s : State) : (learnLost s).store = s.store := rfl

/-! ### LinkOps.lean -/

@[simp] theorem queueOut_store (rank : Nat) (f : Frame) (stamp : Option Tb) (s : State) : (queueOut rank f stamp s).store = s.store := rfl
@[simp] theorem queueFault_store (src cls ch sev : Nat) (safe : Bool) (det : Word) (s : State) : (queueFault src cls ch sev safe det s).store = s.store := by
  unfold queueFault; simp only [ite_store, queueOut_store, ite_self]

/-! ### MboxOps.lean -/

@[simp] theorem badArg_store (s : State) : (badArg s).st.store = s.store := rfl
@[simp] theorem checkFail_store (k : Nat) (s : State) : (checkFail k s).st.store = s.store := rfl
@[simp] theorem checked_store (argsOk : Bool) (checks : List Bool) (s : State) (eff : CmdRes) (heff : eff.st.store = s.store) : (checked argsOk checks s eff).st.store = s.store := by
  unfold checked; (repeat' split) <;> simp only [badArg_store, checkFail_store, heff]
@[simp] theorem denyEvent_store (code : Nat) (ring : Bool) (s : State) : (denyEvent code ring s).store = s.store := by
  unfold denyEvent; simp only [raise_store]
@[simp] theorem guarded_store (c : Cmd) (op : Args → State → CmdRes) (s : State) (hop : ∀ x0 t, (op x0 t).st.store = t.store) : (guarded c op s).st.store = s.store := by
  unfold guarded; simp only [itec_store, denyEvent_store, hop, ite_self]
@[simp] theorem submit_store (p : Path) (code : Byte) (s : State) : (submit p code s).store = s.store := by
  unfold submit; simp only [ite_store, ite_self]
@[simp] theorem writeArg_store (n : Nat) (w : Word) (s : State) : (writeArg n w s).store = s.store := by
  unfold writeArg; simp only [ite_store, ite_self]
@[simp] theorem replyTo_store (node : Nat) (tag : Byte) (status q0 : Nat) (s : State) : (replyTo node tag status q0 s).store = s.store := by
  unfold replyTo; simp only [ite_store, queueOut_store, ite_self]
@[simp] theorem endCmd_store (status q0 q1 : Nat) (s : State) : (endCmd status q0 q1 s).store = s.store := by
  unfold endCmd; (repeat' split) <;> simp only [setInt_store, replyTo_store]
@[simp] theorem serve_store (c : Cmd) (op : Args → State → CmdRes) (s : State) (hop : ∀ x0 t, (op x0 t).st.store = t.store) : (serve c op s).store = s.store := by
  unfold serve; simp only [ite_store, guarded_store, endCmd_store, hop, ite_self, implies_true]
@[simp] theorem hostSubmit_store (code : Byte) (a : Args) (s : State) : (hostSubmit code a s).store = s.store := by
  unfold hostSubmit; simp only [ite_store, submit_store, ite_self]
@[simp] theorem mboxServe_store (code : Byte) (op : Args → State → CmdRes) (a : Args) (s : State) (hop : ∀ x0 t, (op x0 t).st.store = t.store) : (mboxServe code op a s).store = s.store := by
  unfold mboxServe; (repeat' split) <;> simp only [serve_store, hop, implies_true]
@[simp] theorem mboxTake_store (code : Byte) (op : Args → State → CmdRes) (a : Args) (s : State) (hop : ∀ x0 t, (op x0 t).st.store = t.store) : (mboxTake code op a s).store = s.store := by
  unfold mboxTake; simp only [ite_store, mboxServe_store, hostSubmit_store, hop, ite_self, implies_true]
@[simp] theorem mboxRow_store (code : Byte) (op : Args → State → CmdRes) (a : Args) (s : State) (hop : ∀ x0 t, (op x0 t).st.store = t.store) : (mboxRow code op a s).store = s.store := by
  unfold mboxRow; simp only [ite_store, holdRows_store, mboxTake_store, csFalls_store, hop, ite_self, implies_true]
@[simp] theorem startNext_store (s : State) : (startNext s).store = s.store := by
  unfold startNext; (repeat' split) <;> simp only

/-! ### Brass.lean -/

@[simp] theorem updProg_store (n : Fin 12) (f : Prog → Prog) (s : State) : (updProg n f s).store = s.store := by
  unfold updProg; simp only [updChan_store]
@[simp] theorem issued_store (n : Fin 8) (s : State) : (issued n s).store = s.store := by
  unfold issued; simp only [updProg_store]
@[simp] theorem stepPc_store (n : Fin 8) (s : State) : (stepPc n s).store = s.store := by
  unfold stepPc; simp only [updProg_store]
@[simp] theorem holdEnds_store (n : Fin 8) (s : State) : (holdEnds n s).store = s.store := by
  unfold holdEnds; simp only [updProg_store]
@[simp] theorem opEnd_store (n : Fin 8) (s : State) : (opEnd n s).store = s.store := by
  unfold opEnd; simp only [enterDecay_store, issued_store]
@[simp] theorem opSett_store (n : Fin 8) (level : Word) (thr noslew : Bool) (s : State) : (opSett n level thr noslew s).store = s.store := by
  unfold opSett; simp only [issued_store, updProg_store, stepPc_store, setTarget_store]
@[simp] theorem opSeth_store (n : Fin 8) (hys : Word) (s : State) : (opSeth n hys s).store = s.store := by
  unfold opSeth; simp only [issued_store, stepPc_store, updChan_store]
@[simp] theorem opWaitt_store (n : Fin 8) (t : BitVec 24) (abs : Bool) (s : State) : (opWaitt n t abs s).store = s.store := by
  unfold opWaitt; simp only [ite_store, issued_store, stepPc_store, updProg_store, ite_self]
@[simp] theorem opWaiti_store (n : Fin 8) (level : Word) (dir : Bool) (tmo : BitVec 12) (s : State) : (opWaiti n level dir tmo s).store = s.store := by
  unfold opWaiti; simp only [issued_store, updProg_store]
@[simp] theorem opBr_store (n : Fin 8) (dest : BitVec 5) (inv : Bool) (cond : BitVec 4) (level : Word) (s : State) : (opBr n dest inv cond level s).store = s.store := by
  unfold opBr; simp only [ite_store, issued_store, updProg_store, stepPc_store, ite_self]
@[simp] theorem boostOn_store (n : Fin 8) (s : State) : (boostOn n s).store = s.store := by
  unfold boostOn; simp only [ite_store, updChan_store, boostUpdate_store, setDrv_store, ite_self]
@[simp] theorem boostOff_store (n : Fin 8) (s : State) : (boostOff n s).store = s.store := by
  unfold boostOff; simp only [ite_store, setDrv_store, boostUpdate_store, updChan_store, stepPc_store, ite_self]
@[simp] theorem opBoost_store (n : Fin 8) (on : Bool) (s : State) : (opBoost n on s).store = s.store := by
  unfold opBoost; simp only [ite_store, issued_store, stepPc_store, boostOn_store, boostOff_store, ite_self]
@[simp] theorem opSig_store (n : Fin 8) (value mask : BitVec 2) (irq : Bool) (s : State) : (opSig n value mask irq s).store = s.store := by
  unfold opSig; simp only [ite_store, issued_store, updProg_store, setInt_store, stepPc_store, ite_self]
@[simp] theorem brassIssue_store (n : Fin 8) (op : BrassOp) (s : State) : (brassIssue n op s).store = s.store := by
  unfold brassIssue; (repeat' split) <;> simp only [opEnd_store, opSett_store, opSeth_store, opWaitt_store, opWaiti_store, opBr_store, opBoost_store, opSig_store]
@[simp] theorem brassApply_store (e base len : Nat) (maxon : Word) (s : State) : (brassApply e base len maxon s).store = s.store := by
  unfold brassApply; rfl
@[simp] theorem cmdBrassLoad_store (a : Args) (s : State) : (cmdBrassLoad a s).st.store = s.store := by
  unfold cmdBrassLoad; simp only [ite_store, itec_store, checked_store, brassApply_store, badArg_store, ite_self]
@[simp] theorem readSigirq_store (s : State) : (readSigirq s).2.store = s.store := rfl
@[simp] theorem readBrass_store (off : Nat) (s : State) : (readBrass off s).2.store = s.store := by
  unfold readBrass; (repeat' split) <;> simp only [readSigirq_store]

/-! ### Slots.lean -/

@[simp] theorem updSlot_store (i : Fin 64) (f : Slot → Slot) (s : State) : (updSlot i f s).store = s.store := rfl
@[simp] theorem permitSlots_store (s : State) : (permitSlots s).store = s.store := by
  unfold permitSlots; rfl
@[simp] theorem newRefs_store (s : State) : (newRefs s).store = s.store := by
  unfold newRefs; rfl
@[simp] theorem cancelRec_store (i : Fin 64) (reason : Nat) (armed cyc0 : Bool) (w : SlotW) (s : State) : (cancelRec i reason armed cyc0 w s).store = s.store := by
  unfold cancelRec; simp only [pushRec_store]
@[simp] theorem bulkRec_store (reason n armed : Nat) (s : State) : (bulkRec reason n armed s).store = s.store := by
  unfold bulkRec; simp only [ite_store, pushRec_store, ite_self]
@[simp] theorem deviceCancel_store (reason : Nat) (pendingToo : Bool) (s : State) : (deviceCancel reason pendingToo s).store = s.store := by
  unfold deviceCancel; simp only [bulkRec_store]
@[simp] theorem safeCancel_store (batch : Nat) (s : State) : (safeCancel batch s).store = s.store := by
  unfold safeCancel; rfl
@[simp] theorem flushBulk_store (s : State) : (flushBulk s).store = s.store := by
  unfold flushBulk; (repeat' split) <;> simp only [bulkRec_store]
@[simp] theorem arm_store (i : Fin 64) (a : Tb) (late : Bool) (past : Option Nat) (cyc : Word) (s : State) : (arm i a late past cyc s).store = s.store := by
  unfold arm; simp only [updSlot_store]
@[simp] theorem setCyc_store (c : Word) (s : State) : (setCyc c s).store = s.store := by
  unfold setCyc; simp only [ite_store, ite_self]
@[simp] theorem lateSlot_store (i : Fin 64) (s : State) : (lateSlot i s).store = s.store := by
  unfold lateSlot; simp only [ite_store, cancelRec_store, updSlot_store, arm_store, ite_self]
@[simp] theorem settleLate_store (s : State) : (settleLate s).store = s.store := by
  unfold settleLate; simp only [foldSt_store, lateSlot_store, implies_true]
@[simp] theorem applyPermission_store (s : State) : (applyPermission s).store = s.store := by
  unfold applyPermission; simp only [settleLate_store, permitSlots_store]
@[simp] theorem retakeRefs_store (s : State) : (retakeRefs s).store = s.store := by
  unfold retakeRefs; simp only [settleLate_store, newRefs_store]
@[simp] theorem slotGo_store (i : Fin 64) (s : State) : (slotGo i s).store = s.store := by
  unfold slotGo; simp only [ite_store, raise_store, updSlot_store, pushRec_store, settleLate_store, ite_self]
@[simp] theorem slotCancel_store (i : Fin 64) (s : State) : (slotCancel i s).store = s.store := by
  unfold slotCancel; dsimp only; (repeat' split) <;> simp only [cancelRec_store, updSlot_store]
@[simp] theorem writeCtl2_store (i : Fin 64) (w : Word) (s : State) : (writeCtl2 i w s).store = s.store := by
  unfold writeCtl2; simp only [ite_store, updSlot_store, slotCancel_store, slotGo_store, ite_self]
@[simp] theorem writeSlot_store (i : Fin 64) (k : Nat) (w : Word) (s : State) : (writeSlot i k w s).store = s.store := by
  unfold writeSlot; (repeat' split) <;> simp only [updSlot_store, writeCtl2_store]
@[simp] theorem hostSlotWrite_store (p : Path) (off : Nat) (w : Word) (s : State) : (hostSlotWrite p off w s).store = s.store := by
  unfold hostSlotWrite; (repeat' split) <;> simp only [deny_store, writeSlot_store]
@[simp] theorem evalSlot_store (i : Fin 64) (s : State) : (evalSlot i s).store = s.store := by
  unfold evalSlot; dsimp only; (repeat' split) <;> simp only [arm_store, updSlot_store, lateSlot_store]
@[simp] theorem opEval_store (i : Fin 64) (s : State) : (opEval i s).store = s.store := by
  unfold opEval; simp only [evalSlot_store]
@[simp] theorem issueStrobe_store (src : Nat) (dly : Bool) (s : State) : (issueStrobe src dly s).store = s.store := rfl
@[simp] theorem slotAction_store (w : SlotW) (s : State) : (slotAction w s).2.store = s.store := by
  unfold slotAction; simp only [itep_store, issueStrobe_store, fireAction_store, ite_self]
@[simp] theorem fireRec_store (i : Fin 64) (x : Slot) (late : Bool) (f : FireFlag) (s : State) : (fireRec i x late f s).store = s.store := by
  unfold fireRec; simp only [ite_store, pushRec_store, ite_self]
@[simp] theorem afterFire_store (i : Fin 64) (flag : FireFlag) (s : State) : (afterFire i flag s).store = s.store := by
  unfold afterFire; simp only [updSlot_store]
@[simp] theorem fireSlot_store (i : Fin 64) (s : State) : (fireSlot i s).store = s.store := by
  unfold fireSlot; dsimp only; (repeat' split) <;> simp only [slotAction_store, afterFire_store, fireRec_store]
@[simp] theorem opCycleStart_store (s : State) : (opCycleStart s).store = s.store := by
  unfold opCycleStart; simp only [ite_store, pushRec_store, setCyc_store, ite_self]
@[simp] theorem readRptstat_store (s : State) : (readRptstat s).2.store = s.store := rfl
@[simp] theorem popRec_store (q : Quad) (rest : List Quad) (s : State) : (popRec q rest s).store = s.store := by
  unfold popRec; (repeat' split) <;> simp only [setInt_store]
@[simp] theorem readRptdat_store (s : State) : (readRptdat s).2.store = s.store := by
  unfold readRptdat; (repeat' split) <;> simp only [settleSeq_store, popRec_store]

/-! ### CamPhase.lean -/

@[simp] theorem pushPhase_store (q : Quad) (s : State) : (pushPhase q s).store = s.store := by
  unfold pushPhase; simp only [setIntIf_store]
@[simp] theorem pushConv_store (q : Quad) (s : State) : (pushConv q s).store = s.store := by
  unfold pushConv; simp only [setIntIf_store]
@[simp] theorem readPop_store (conv : Bool) (j : Nat) (s : State) : (readPop conv j s).2.store = s.store := by
  unfold readPop; simp only [ite_store, itep_store, setIntIf_store, settleSeq_store, ite_self]
@[simp] theorem readBufStat_store (conv : Bool) (s : State) : (readBufStat conv s).2.store = s.store := by
  unfold readBufStat; simp only [itep_store, ite_self]
@[simp] theorem updCpc_store (c : Fin 4) (f : CpcCam → CpcCam) (s : State) : (updCpc c f s).store = s.store := rfl
@[simp] theorem resetAverages_store (s : State) : (resetAverages s).store = s.store := rfl
@[simp] theorem measureEdge_store (c : Fin 4) (rise : Bool) (t : Tb) (s : State) : (measureEdge c rise t s).store = s.store := by
  unfold measureEdge; dsimp only; (repeat' split) <;> simp only [updCpc_store, setIntIf_store, pushPhase_store]
@[simp] theorem updWin_store (w : Fin 8) (f : Win → Win) (s : State) : (updWin w f s).store = s.store := rfl
@[simp] theorem windowsCheck_store (s : State) : (windowsCheck s).store = s.store := rfl
@[simp] theorem opPassStart_store (w : Fin 8) (s : State) : (opPassStart w s).store = s.store := by
  unfold opPassStart; simp only [updWin_store]
@[simp] theorem opStrobe_store (w : Fin 8) (dly : Bool) (s : State) : (opStrobe w dly s).store = s.store := by
  unfold opStrobe; simp only [updWin_store, issueStrobe_store]
@[simp] theorem writeWctl_store (w : Fin 8) (v : Word) (s : State) : (writeWctl w v s).store = s.store := by
  unfold writeWctl; simp only [ite_store, updWin_store, ite_self]
@[simp] theorem writeCpc_store (off : Nat) (v : Word) (s : State) : (writeCpc off v s).store = s.store := by
  unfold writeCpc; (repeat' split) <;> simp only [updCpc_store, updWin_store, writeWctl_store]
@[simp] theorem hostCpcWrite_store (p : Path) (off : Nat) (v : Word) (s : State) : (hostCpcWrite p off v s).store = s.store := by
  unfold hostCpcWrite; simp only [ite_store, gateEvent_store, deny_store, writeCpc_store, ite_self]
@[simp] theorem convEntry_store (x : Strobe) (err : Nat) (result : Word) (s : State) : (convEntry x err result s).store = s.store := by
  unfold convEntry; simp only [ite_store, takeSeq_store, pushConv_store, setInt_store, raise_store, ite_self]
@[simp] theorem opConverterFrame_store (x : BitVec 82) (s : State) : (opConverterFrame x s).store = s.store := by
  unfold opConverterFrame; dsimp only; (repeat' split) <;> simp only [raise_store, foldSt_store, convEntry_store, implies_true]
@[simp] theorem readCpc_store (off : Nat) (s : State) : (readCpc off s).2.store = s.store := by
  unfold readCpc; (repeat' split) <;> simp only [readBufStat_store, readPop_store]
@[simp] theorem cpsFastReset_store (s : State) : (cpsFastReset s).store = s.store := by
  unfold cpsFastReset; simp only [resetAverages_store]
@[simp] theorem cpsSafe_store (s : State) : (cpsSafe s).store = s.store := rfl

/-! ### TestOps.lean -/

@[simp] theorem endIf_store (code : Byte) (status q0 q1 : Nat) (s : State) : (endIf code status q0 q1 s).store = s.store := by
  unfold endIf; (repeat' split) <;> simp only [endCmd_store]
@[simp] theorem endReady_store (s : State) : (endReady s).store = s.store := by
  unfold endReady; (repeat' split) <;> simp only [endCmd_store]
@[simp] theorem testBegin_store (t : DTest) (n : Fin 8) (s : State) : (testBegin t n s).store = s.store := by
  unfold testBegin; simp only [ite_store, ite_self]
@[simp] theorem testNote_store (ch k : Nat) (r : Vector Nat 2) (s : State) : (testNote ch k r s).store = s.store := by
  unfold testNote; (repeat' split) <;> simp only
@[simp] theorem testEnd_store (s : State) : (testEnd s).store = s.store := by
  unfold testEnd; (repeat' split) <;> simp only [endIf_store]
@[simp] theorem testFrom_store (k n : Nat) (s : State) : (testFrom k n s).store = s.store := by
  induction k generalizing n s with
  | zero => simp only [testFrom, testEnd_store]
  | succ k ih =>
    rw [testFrom]
    (repeat' split) <;> first | rfl | simp only [ih, testNote_store, testBegin_store, testEnd_store, ite_store, ite_self]
@[simp] theorem testHold_store (ph : TestPh) (ch : Nat) (s : State) : (testHold ph ch s).store = s.store := rfl
@[simp] theorem testFinish_store (ch : Nat) (r : Vector Nat 2) (s : State) : (testFinish ch r s).store = s.store := by
  unfold testFinish; simp only [ite_store, testNote_store, testHold_store, testFrom_store, ite_self]
@[simp] theorem testWaitOver_store (t : DTest) (s : State) : (testWaitOver t s).store = s.store := by
  unfold testWaitOver; simp only [ite_store, testFinish_store, setDrv_store, ite_self]
@[simp] theorem testAdvance_store (s : State) : (testAdvance s).store = s.store := by
  unfold testAdvance; (repeat' split) <;> simp only [ite_store, testHold_store, testWaitOver_store, testFinish_store, ite_self]
@[simp] theorem testResume_store (s : State) : (testResume s).store = s.store := by
  unfold testResume; (repeat' split) <;> simp only [testWaitOver_store, testFrom_store]
@[simp] theorem testDecayOver_store (n : Fin 12) (s : State) : (testDecayOver n s).store = s.store := by
  unfold testDecayOver; (repeat' split) <;> simp only [raise_store, testFinish_store]

/-! ### Channels.lean -/

@[simp] theorem opSenseFrame_store (n : Fin 8) (x : BitVec 82) (s : State) : (opSenseFrame n x s).store = s.store := by
  unfold opSenseFrame; simp only [ite_store, testAdvance_store, senseFrame_store, ite_self]
@[simp] theorem cdatMissing_store (s : State) : (cdatMissing s).store = s.store := by
  unfold cdatMissing; simp only [ite_store, raise_store, ite_self]
@[simp] theorem opSlotMissing_store (l : Fin 9) (s : State) : (opSlotMissing l s).store = s.store := by
  unfold opSlotMissing; (repeat' split) <;> simp only [ite_store, testAdvance_store, slotMissing_store, updLine_store, cdatMissing_store, ite_self]
@[simp] theorem opLineStuck_store (l : Fin 9) (high : Bool) (s : State) : (opLineStuck l high s).store = s.store := by
  unfold opLineStuck; (repeat' split) <;> simp only [testAdvance_store, enterBreak_store, raise_store]
@[simp] theorem markPeakEnd_store (n : Fin 12) (s : State) : (markPeakEnd n s).store = s.store := by
  unfold markPeakEnd; simp only [updChan_store]
@[simp] theorem leaveDead_store (n : Fin 12) (s : State) : (leaveDead n s).store = s.store := by
  unfold leaveDead; simp only [ite_store, markPeakEnd_store, enterDecay_store, enterHold_store, enterPeak_store, ite_self]
@[simp] theorem opDeadEnd_store (n : Fin 12) (s : State) : (opDeadEnd n s).store = s.store := by
  unfold opDeadEnd; simp only [ite_store, updChan_store, leaveDead_store, ite_self]
@[simp] theorem opTpeak_store (n : Fin 12) (s : State) : (opTpeak n s).store = s.store := by
  unfold opTpeak; simp only [ite_store, markPeakEnd_store, enterHold_store, ite_self]
@[simp] theorem opMaxOn_store (n : Fin 12) (s : State) : (opMaxOn n s).store = s.store := by
  unfold opMaxOn; simp only [ite_store, raise_store, enterLow_store, enterDecay_store, ite_self]
@[simp] theorem opDecayTimeout_store (n : Fin 12) (s : State) : (opDecayTimeout n s).store = s.store := by
  unfold opDecayTimeout; simp only [ite_store, raise_store, enterIdle_store, ite_self]
@[simp] theorem channelMode_store (n : Fin 12) (f : ChCfg → ChCfg) (s : State) : (channelMode n f s).store = s.store := by
  unfold channelMode; simp only [ite_store, updChan_store, settle_store, containInput_store, ite_self]
@[simp] theorem cmdChannelSet_store (a : Args) (s : State) : (cmdChannelSet a s).st.store = s.store := by
  unfold cmdChannelSet; dsimp only; (repeat' split) <;> first | rfl | (apply checked_store; first | rfl | simp only [channelMode_store])
@[simp] theorem cmdProfileLoad_store (a : Args) (s : State) : (cmdProfileLoad a s).st.store = s.store := by
  unfold cmdProfileLoad; (repeat' split) <;> first | rfl | (apply checked_store; first | rfl | simp only [ite_store, itep_store, itec_store, badArg_store, checked_store, ite_self, implies_true])
@[simp] theorem checkBreak_store (n : Fin 12) (s : State) : (checkBreak n s).store = s.store := by
  unfold checkBreak; simp only [ite_store, updChan_store, containInput_store, ite_self]
@[simp] theorem joinPair_store (p : Fin 4) (lo up : Fin 8) (s : State) : (joinPair p lo up s).store = s.store := by
  unfold joinPair; simp only [updChan_store, settle_store, refreshI_store, checkBreak_store]
@[simp] theorem splitPair_store (p : Fin 4) (lo up : Fin 8) (s : State) : (splitPair p lo up s).store = s.store := by
  unfold splitPair; simp only [updChan_store, refreshI_store, checkBreak_store]
@[simp] theorem cmdPairSet_store (a : Args) (s : State) : (cmdPairSet a s).st.store = s.store := by
  unfold cmdPairSet; dsimp only; (repeat' split) <;> first | rfl | (apply checked_store; first | rfl | simp only [joinPair_store, splitPair_store])
@[simp] theorem setScale_store (n : Fin 12) (v : Nat) (s : State) : (setScale n v s).store = s.store := by
  unfold setScale; simp only [ite_store, updChan_store, applyScale_store, ite_self]
@[simp] theorem cmdSenseScale_store (a : Args) (s : State) : (cmdSenseScale a s).st.store = s.store := by
  unfold cmdSenseScale; (repeat' split) <;> first | rfl | (apply checked_store; first | rfl | simp only [setScale_store])

/-! ### MirrorOps.lean -/

@[simp] theorem onEffChange_store (old new : Sync) (s : State) : (onEffChange old new s).store = s.store := by
  unfold onEffChange; simp only [ite_store, deviceCancel_store, applyPermission_store, windowsCheck_store, resetAverages_store, ite_self]
@[simp] theorem syncRec_store (cause : Nat) (old new : Sync) (s : State) : (syncRec cause old new s).store = s.store := by
  unfold syncRec; simp only [ite_store, setInt_store, pushRec_store, ite_self]
@[simp] theorem updMir_store (f : Mirror → Mirror) (s : State) : (updMir f s).store = s.store := rfl
@[simp] theorem noteEff_store (s : State) : (noteEff s).store = s.store := by
  unfold noteEff; simp only [updMir_store]
@[simp] theorem reportEff_store (cause : Nat) (s : State) : (reportEff cause s).store = s.store := by
  unfold reportEff; simp only [ite_store, noteEff_store, onEffChange_store, syncRec_store, ite_self]
@[simp] theorem ringLost_store (cause : Nat) (s : State) : (ringLost cause s).store = s.store := by
  unfold ringLost; simp only [retakeRefs_store, reportEff_store, updMir_store]
@[simp] theorem ringTaken_store (cause : Nat) (s : State) : (ringTaken cause s).store = s.store := by
  unfold ringTaken; simp only [retakeRefs_store, reportEff_store, updMir_store]
@[simp] theorem mirrorDown_store (why : Word) (s : State) : (mirrorDown why s).store = s.store := by
  unfold mirrorDown; simp only [ite_store, updMir_store, ringLost_store, raise_store, ite_self]
@[simp] theorem mirrorCheck_store (s : State) : (mirrorCheck s).store = s.store := by
  unfold mirrorCheck; simp only [ite_store, updMir_store, ringTaken_store, raise_store, ite_self]
@[simp] theorem checkConfig_store (s : State) : (checkConfig s).store = s.store := by
  unfold checkConfig; simp only [ite_store, updMir_store, mirrorCheck_store, mirrorDown_store, ite_self]
@[simp] theorem sendRecord_store (syn first : Bool) (stamp : Tb) (p h : Nat) (s : State) : (sendRecord syn first stamp p h s).store = s.store := by
  unfold sendRecord; simp only [ite_store, queueOut_store, ite_self]
@[simp] theorem sendState_store (s : State) : (sendState s).store = s.store := by
  unfold sendState; simp only [ite_store, queueOut_store, ite_self]
@[simp] theorem sendConfig_store (s : State) : (sendConfig s).store = s.store := by
  unfold sendConfig; simp only [ite_store, queueOut_store, ite_self]

/-! ### ClkOps.lean -/

@[simp] theorem updClk_store (f : Clk → Clk) (s : State) : (updClk f s).store = s.store := rfl
@[simp] theorem updSys_store (f : Sys → Sys) (s : State) : (updSys f s).store = s.store := rfl
@[simp] theorem clkRow_store (f : State → State) (s : State) (hf : ∀ t, (f t).store = t.store) : (clkRow f s).store = s.store := by
  unfold clkRow; simp only [ite_store, newInstant_store, setIntIf_store, hf, ite_self]
@[simp] theorem enterHeld_store (s : State) : (enterHeld s).store = s.store := by
  unfold enterHeld; simp only [updClk_store]
@[simp] theorem sourceLost_store (rck : Bool) (s : State) : (sourceLost rck s).store = s.store := by
  unfold sourceLost; simp only [ite_store, raise_store, updClk_store, enterHeld_store, ite_self]
@[simp] theorem fcoLost_store (s : State) : (fcoLost s).store = s.store := by
  unfold fcoLost; simp only [updClk_store, sourceLost_store]
@[simp] theorem rckLost_store (s : State) : (rckLost s).store = s.store := by
  unfold rckLost; simp only [ite_store, updClk_store, sourceLost_store, ite_self]
@[simp] theorem aocFalls_store (s : State) : (aocFalls s).store = s.store := by
  unfold aocFalls; simp only [ite_store, latchWake_store, updClk_store, raise_store, ite_self]
@[simp] theorem takeSource_store (rck : Bool) (s : State) : (takeSource rck s).store = s.store := by
  unfold takeSource; simp only [ite_store, updClk_store, mirrorDown_store, mirrorCheck_store, ite_self]

/-! ### Faults.lean -/

@[simp] theorem updFlt_store (f : Flt → Flt) (s : State) : (updFlt f s).store = s.store := rfl
@[simp] theorem emitHalt_store (s : State) : (emitHalt s).store = s.store := rfl
@[simp] theorem pushHist_store (w0 : Word) (s : State) : (pushHist w0 s).2.store = s.store := by
  unfold pushHist; simp only [takeSeq_store, updFlt_store]
@[simp] theorem openOrMerge_store (e : FEvent) (sev cls : Nat) (q : Word) (s : State) : (openOrMerge e sev cls q s).store = s.store := by
  unfold openOrMerge; (repeat' split) <;> simp only [updFlt_store]
@[simp] theorem recordEvent_store (e : FEvent) (sev : Nat) (s : State) : (recordEvent e sev s).store = s.store := by
  unfold recordEvent; simp only [ite_store, pushHist_store, openOrMerge_store, queueFault_store, setIntIf_store, ite_self]
@[simp] theorem ackOpen_store (s : State) : (ackOpen s).store = s.store := by
  unfold ackOpen; (repeat' split) <;> simp only [updFlt_store]
@[simp] theorem forgetClass_store (n : Fin 12) (s : State) : (forgetClass n s).store = s.store := by
  unfold forgetClass; (repeat' split) <;> simp only [updDiag_store]
@[simp] theorem liftOne_store (n : Fin 12) (s : State) : (liftOne n s).store = s.store := by
  unfold liftOne; simp only [leaveContained_store, forgetClass_store, updChan_store]
@[simp] theorem liftBefore_store (n : Fin 12) (s : State) : (liftBefore n s).store = s.store := by
  unfold liftBefore; simp only [ite_store, forgetClass_store, ite_self]
@[simp] theorem liftCh_store (n : Fin 12) (s : State) : (liftCh n s).store = s.store := by
  unfold liftCh; simp only [ite_store, liftBefore_store, liftOne_store, ite_self]
@[simp] theorem lift_store (mask : BitVec 12) (s : State) : (lift mask s).store = s.store := by
  unfold lift; simp only [foldSt_store, liftCh_store, implies_true]
@[simp] theorem clearHist_store (s : State) : (clearHist s).store = s.store := by
  unfold clearHist; simp only [updFlt_store]
@[simp] theorem clearSelf_store (s : State) : (clearSelf s).store = s.store := by
  unfold clearSelf; simp only [ite_store, updFlt_store, ite_self]
@[simp] theorem writeFltack_store (w : Word) (s : State) : (writeFltack w s).store = s.store := by
  unfold writeFltack; simp only [ite_store, ackOpen_store, lift_store, clearHist_store, clearSelf_store, ite_self]
@[simp] theorem fltackDo_store (f : State → State) (s : State) (hf : ∀ t, (f t).store = t.store) : (fltackDo f s).store = s.store := by
  unfold fltackDo; simp only [ite_store, hf, ite_self]
@[simp] theorem readFlthist_store (s : State) : (readFlthist s).2.store = s.store := by
  unfold readFlthist; dsimp only; (repeat' split) <;> simp only [updFlt_store]
@[simp] theorem readFltstat_store (s : State) : (readFltstat s).2.store = s.store := by
  unfold readFltstat; simp only [updFlt_store]
@[simp] theorem readOsum_store (p : Path) (s : State) : (readOsum p s).2.store = s.store := by
  unfold readOsum; (repeat' split) <;> simp only [updFlt_store]
@[simp] theorem readFsrc_store (p : Path) (off : Nat) (s : State) : (readFsrc p off s).2.store = s.store := by
  unfold readFsrc; simp only [itep_store, readOsum_store, ite_self]
@[simp] theorem cmdFltRead_store (a : Args) (s : State) : (cmdFltRead a s).st.store = s.store := by
  unfold cmdFltRead; (repeat' split) <;> first | rfl | (apply checked_store; first | rfl | simp only [ite_store, itep_store, itec_store, checked_store, updFlt_store, badArg_store, ite_self, implies_true])

/-! ### Thermal.lean -/

@[simp] theorem thEvents_store (n : Fin 8) (old new : ThCh) (s : State) : (thEvents n old new s).store = s.store := by
  unfold thEvents; simp only [ite_store, raise_store, setIntIf_store, ite_self]
@[simp] theorem dieCheck_store (s : State) : (dieCheck s).store = s.store := by
  unfold dieCheck; simp only [ite_store, raise_store, ite_self]
@[simp] theorem opDie_store (k : Fin 4) (r : Int) (s : State) : (opDie k r s).store = s.store := by
  unfold opDie; simp only [ite_store, raise_store, dieCheck_store, ite_self]
@[simp] theorem thermFastReset_store (s : State) : (thermFastReset s).store = s.store := rfl
@[simp] theorem updTh_store (f : Fin 8 → ThCh → ThCh) (s : State) : (updTh f s).store = s.store := rfl
@[simp] theorem cmdThermSet_store (a : Args) (s : State) : (cmdThermSet a s).st.store = s.store := by
  unfold cmdThermSet; dsimp only; (repeat' split) <;> first | rfl | (apply checked_store; first | rfl | simp only [ite_store, itep_store, itec_store, checked_store, updTh_store, badArg_store, ite_self, implies_true])
@[simp] theorem readTw_store (p : Path) (n : Fin 8) (s : State) : (readTw p n s).2.store = s.store := by
  unfold readTw; (repeat' split) <;> simp only [updTh_store]
@[simp] theorem readTherm_store (p : Path) (off : Nat) (s : State) : (readTherm p off s).2.store = s.store := by
  unfold readTherm; dsimp only; (repeat' split) <;> simp only [readTw_store]

/-! ### Timers.lean -/

@[simp] theorem updTim_store (k : Fin 8) (f : Timer → Timer) (s : State) : (updTim k f s).store = s.store := rfl
@[simp] theorem timInt_store (k : Fin 8) (old : Timer) (s : State) : (timInt k old s).store = s.store := by
  unfold timInt; simp only [setIntIf_store]
@[simp] theorem timDo_store (k : Fin 8) (m o : Bool) (f : Timer → Timer) (s : State) : (timDo k m o f s).store = s.store := by
  unfold timDo; simp only [timInt_store, updTim_store]
@[simp] theorem timStep_store (k : Fin 8) (s : State) : (timStep k s).store = s.store := by
  unfold timStep; simp only [timDo_store]
@[simp] theorem writeTimctl_store (w : Word) (s : State) : (writeTimctl w s).store = s.store := by
  unfold writeTimctl; simp only [ite_store, timStep_store, setIntIf_store, updTim_store, ite_self]
@[simp] theorem loadCount_store (hi : Word) (s : State) : (loadCount hi s).store = s.store := by
  unfold loadCount; simp only [updTim_store]
@[simp] theorem loadPreload_store (hi : Word) (s : State) : (loadPreload hi s).store = s.store := by
  unfold loadPreload; simp only [updTim_store]
@[simp] theorem clearFlags_store (w : Word) (s : State) : (clearFlags w s).store = s.store := rfl
@[simp] theorem writeTim_store (a : Nat) (w : Word) (s : State) : (writeTim a w s).store = s.store := by
  unfold writeTim; simp only [ite_store, writeTimctl_store, updTim_store, loadCount_store, loadPreload_store, clearFlags_store, ite_self]
@[simp] theorem timFastReset_store (s : State) : (timFastReset s).store = s.store := rfl

/-! ### WheelOps.lean -/

@[simp] theorem updWheel_store (f : Wheel → Wheel) (s : State) : (updWheel f s).store = s.store := rfl
@[simp] theorem openNow_store (s : State) : (openNow s).store = s.store := by
  unfold openNow; simp only [updWheel_store]
@[simp] theorem enterSync_store (new : Sync) (s : State) : (enterSync new s).store = s.store := by
  unfold enterSync; (repeat' split) <;> simp only [learnLost_store, updWheel_store, openNow_store, learnSpoil_store]
@[simp] theorem legacyLoss_store (s : State) : (legacyLoss s).store = s.store := by
  unfold legacyLoss; simp only [noteLeg_store]
@[simp] theorem afterSync_store (old new : Sync) (eff : Sync) (s : State) : (afterSync old new eff s).store = s.store := by
  unfold afterSync; simp only [ite_store, noteEff_store, onEffChange_store, sendState_store, legacyLoss_store, ite_self]
@[simp] theorem changeSync_store (new : Sync) (cause : Nat) (s : State) : (changeSync new cause s).store = s.store := by
  unfold changeSync; simp only [ite_store, enterSync_store, updWheel_store, syncRec_store, raise_store, afterSync_store, ite_self]
@[simp] theorem input_store (code : Nat) (s : State) : (input code s).store = s.store := by
  unfold input; simp only [changeSync_store]
@[simp] theorem inputBad_store (s : State) : (inputBad s).store = s.store := by
  unfold inputBad; simp only [ite_store, updWheel_store, ite_self]
@[simp] theorem inputTooth_store (s : State) : (inputTooth s).store = s.store := by
  unfold inputTooth; (repeat' split) <;> simp only [ite_store, updWheel_store, changeSync_store, ite_self]
@[simp] theorem resolveHalf_store (h : Nat) (s : State) : (resolveHalf h s).store = s.store := rfl
@[simp] theorem inputGap_store (s : State) : (inputGap s).store = s.store := by
  unfold inputGap; simp only [ite_store, updWheel_store, changeSync_store, resolveHalf_store, raise_store, ite_self]
@[simp] theorem reverseInd_store (s : State) : (reverseInd s).store = s.store := by
  unfold reverseInd; simp only [raise_store, updWheel_store]
@[simp] theorem speedInput_store (s : State) : (speedInput s).store = s.store := by
  unfold speedInput; simp only [input_store, raise_store]
@[simp] theorem reverseTest_store (g : Nat) (s : State) : (reverseTest g s).store = s.store := by
  unfold reverseTest; simp only [ite_store, speedInput_store, ite_self]
@[simp] theorem reverseCode_store (s : State) : (reverseCode s).store = s.store := by
  unfold reverseCode; simp only [ite_store, reverseTest_store, reverseInd_store, updWheel_store, input_store, ite_self]
@[simp] theorem retakeO2_store (s : State) : (retakeO2 s).store = s.store := rfl
@[simp] theorem recordTooth_store (syn : Bool) (stamp : Tb) (p : Nat) (s : State) : (recordTooth syn stamp p s).store = s.store := by
  unfold recordTooth; simp only [ite_store, sendRecord_store, sendState_store, ite_self]
@[simp] theorem moveTo_store (stamp : Tb) (per p : Nat) (s : State) : (moveTo stamp per p s).store = s.store := by
  unfold moveTo; simp only [updWheel_store]
@[simp] theorem startPred_store (stamp : Tb) (per p : Nat) (s : State) : (startPred stamp per p s).store = s.store := by
  unfold startPred; simp only [updWheel_store, moveTo_store, beginPred_store, sendRecord_store]
@[simp] theorem synthUpdate_store (p : Nat) (s : State) : (synthUpdate p s).store = s.store := by
  unfold synthUpdate; simp only [ite_store, moveTo_store, updWheel_store, setPred_store, recordTooth_store, learnLost_store, ite_self]
@[simp] theorem badTooth_store (p : Nat) (s : State) : (badTooth p s).store = s.store := by
  unfold badTooth; simp only [ite_store, learnSpoil_store, raise_store, updWheel_store, noteLeg_store, ite_self]
@[simp] theorem gapFound_store (stamp : Tb) (per : Nat) (fine : Bool) (s : State) : (gapFound stamp per fine s).store = s.store := by
  unfold gapFound; simp only [ite_store, updWheel_store, beginPred_store, learnLost_store, changeSync_store, sendRecord_store, ite_self]
@[simp] theorem searchPace_store (per : Nat) (s : State) : (searchPace per s).store = s.store := by
  unfold searchPace; simp only [ite_store, ite_self]
@[simp] theorem searchEdge_store (stamp : Tb) (fine : Bool) (s : State) : (searchEdge stamp fine s).store = s.store := by
  unfold searchEdge; (repeat' split) <;> simp only [ite_store, searchPace_store, speedInput_store, updWheel_store, gapFound_store, ite_self]
@[simp] theorem earlyEdge_store (p : Nat) (s : State) : (earlyEdge p s).store = s.store := by
  unfold earlyEdge; simp only [ite_store, badTooth_store, input_store, inputBad_store, ite_self]
@[simp] theorem legacyCam_store (s : State) : (legacyCam s).store = s.store := by
  unfold legacyCam; simp only [ite_store, changeSync_store, resolveHalf_store, input_store, ite_self]
@[simp] theorem gapTest_store (per : Nat) (s : State) : (gapTest per s).store = s.store := by
  unfold gapTest; simp only [ite_store, inputGap_store, input_store, reverseInd_store, ite_self]
@[simp] theorem bareEdge_store (stamp : Tb) (s : State) : (bareEdge stamp s).store = s.store := by
  unfold bareEdge; dsimp only; (repeat' split) <;> simp only [updWheel_store, speedInput_store, startPred_store]
@[simp] theorem reverseEdge_store (stamp : Tb) (s : State) : (reverseEdge stamp s).store = s.store := by
  unfold reverseEdge; simp only [ite_store, updWheel_store, speedInput_store, ite_self]
@[simp] theorem fastEdge_store (stamp : Tb) (s : State) : (fastEdge stamp s).store = s.store := by
  unfold fastEdge; simp only [updWheel_store]
@[simp] theorem takePolicy_store (s : State) : (takePolicy s).store = s.store := by
  unfold takePolicy; (repeat' split) <;> simp only [applyPermission_store, updWheel_store]
@[simp] theorem noteEdge_store (stamp : Tb) (s : State) : (noteEdge stamp s).store = s.store := by
  unfold noteEdge; simp only [updWheel_store, takePolicy_store]
@[simp] theorem opLate_store (s : State) : (opLate s).store = s.store := by
  unfold opLate; simp only [ite_store, badTooth_store, input_store, synthUpdate_store, inputBad_store, ite_self]
@[simp] theorem camResolve_store (cam : Cam) (rise : Bool) (t : Tb) (s : State) : (camResolve cam rise t s).store = s.store := by
  unfold camResolve; simp only [ite_store, updWheel_store, changeSync_store, resolveHalf_store, ite_self]
@[simp] theorem camConsistent_store (cam : Cam) (rise : Bool) (t : Tb) (s : State) : (camConsistent cam rise t s).store = s.store := by
  unfold camConsistent; simp only [ite_store, updWheel_store, input_store, raise_store, ite_self]
@[simp] theorem limpAdvance_store (cam : Cam) (idx per : Nat) (t : Tb) (s : State) : (limpAdvance cam idx per t s).store = s.store := by
  unfold limpAdvance; simp only [setPred_store]
@[simp] theorem limpTry_store (cam : Cam) (s : State) : (limpTry cam s).store = s.store := by
  unfold limpTry; dsimp only; (repeat' split) <;> simp only [changeSync_store, limpAdvance_store]
@[simp] theorem limpSearch_store (cam : Cam) (rise : Bool) (t : Tb) (s : State) : (limpSearch cam rise t s).store = s.store := by
  unfold limpSearch; simp only [limpTry_store, updWheel_store]
@[simp] theorem opStall_store (s : State) : (opStall s).store = s.store := by
  unfold opStall; dsimp only; (repeat' split) <;> simp only [input_store, updWheel_store, limpTry_store]
@[simp] theorem limpEdge_store (cam : Cam) (t : Tb) (s : State) : (limpEdge cam t s).store = s.store := by
  unfold limpEdge; simp only [ite_store, input_store, raise_store, limpAdvance_store, ite_self]
@[simp] theorem syncCamEdge_store (cam : Cam) (rise : Bool) (t : Tb) (fine : Bool) (s : State) : (syncCamEdge cam rise t fine s).store = s.store := by
  unfold syncCamEdge; (repeat' split) <;> simp only [camResolve_store, camConsistent_store, limpSearch_store, limpEdge_store]
@[simp] theorem camEdge_store (c : Fin 4) (rise : Bool) (t : Tb) (fine : Bool) (s : State) : (camEdge c rise t fine s).store = s.store := by
  unfold camEdge; simp only [ite_store, measureEdge_store, syncCamEdge_store, ite_self]
@[simp] theorem opClose_store (i : Fin 16) (s : State) : (opClose i s).store = s.store := by
  unfold opClose; simp only [ite_store, updWheel_store, input_store, raise_store, ite_self]
@[simp] theorem clearSearch_store (s : State) : (clearSearch s).store = s.store := by
  unfold clearSearch; simp only [updWheel_store]
@[simp] theorem decoderReset_store (s : State) : (decoderReset s).store = s.store := by
  unfold decoderReset; simp only [clearSearch_store, input_store]

/-! ### Wheel.lean -/

@[simp] theorem crankPin_store (lvl : Bool) (stamp : Tb) (s : State) : (crankPin lvl stamp s).2.store = s.store := by
  unfold crankPin; simp only
@[simp] theorem crankLoop_store (lvl : Bool) (stamp : Tb) (s : State) : (crankLoop lvl stamp s).2.store = s.store := rfl
@[simp] theorem crankIn_store (tooth : Bool) (stamp : Tb) (s : State) : (crankIn tooth stamp s).2.store = s.store := by
  unfold crankIn; simp only [itep_store, crankLoop_store, crankPin_store, ite_self]
@[simp] theorem countCoarse_store (s : State) : (countCoarse s).2.store = s.store := by
  unfold countCoarse; simp only [itep_store, ite_self]
@[simp] theorem camPin_store (c : Fin 4) (rise : Bool) (stamp : Tb) (s : State) : (camPin c rise stamp s).2.store = s.store := rfl
@[simp] theorem camLoop_store (c : Nat) (rise : Bool) (stamp : Tb) (s : State) : (camLoop c rise stamp s).2.store = s.store := rfl
@[simp] theorem camIn_store (c : Fin 4) (rise : Bool) (stamp : Tb) (s : State) : (camIn c rise stamp s).2.store = s.store := by
  unfold camIn; simp only [itep_store, camLoop_store, camPin_store, ite_self]
@[simp] theorem takeCam_store (c : Fin 4) (rise : Bool) (t : Tb) (s : State) : (takeCam c rise t s).store = s.store := by
  unfold takeCam; simp only [ite_store, camEdge_store, ite_self]
@[simp] theorem camCaptured_store (c : Fin 4) (rise : Bool) (stamp : Tb) (s : State) : (camCaptured c rise stamp s).store = s.store := by
  unfold camCaptured; simp only [ite_store, takeCam_store, ite_self]
@[simp] theorem camRow_store (c : Fin 4) (rise : Bool) (stamp : Tb) (s : State) : (camRow c rise stamp s).store = s.store := by
  unfold camRow; simp only [ite_store, camCaptured_store, camIn_store, foldSt_store, takeCam_store, ite_self, implies_true]
@[simp] theorem cmdCamEdge_store (a : Args) (s : State) : (cmdCamEdge a s).st.store = s.store := by
  unfold cmdCamEdge; (repeat' split) <;> first | rfl | (apply checked_store; first | rfl | simp only [ite_store, itep_store, itec_store, checked_store, ite_self, implies_true])
@[simp] theorem applyCam_store (a : Args) (s : State) : (applyCam a s).store = s.store := by
  unfold applyCam; simp only [ite_store, input_store, updWheel_store, ite_self]
@[simp] theorem cmdCamHeader_store (a : Args) (s : State) : (cmdCamHeader a s).st.store = s.store := by
  unfold cmdCamHeader; (repeat' split) <;> first | rfl | (apply checked_store; first | rfl | simp only [applyCam_store])
@[simp] theorem cmdCamSet_store (a : Args) (s : State) : (cmdCamSet a s).st.store = s.store := by
  unfold cmdCamSet; simp only [itec_store, cmdCamHeader_store, cmdCamEdge_store, ite_self]
@[simp] theorem applyPolicy_store (a : Args) (s : State) : (applyPolicy a s).store = s.store := by
  unfold applyPolicy; simp only [ite_store, updWheel_store, input_store, ite_self]
@[simp] theorem cmdSyncPolicy_store (a : Args) (s : State) : (cmdSyncPolicy a s).st.store = s.store := by
  unfold cmdSyncPolicy; (repeat' split) <;> first | rfl | (apply checked_store; first | rfl | simp only [applyPolicy_store])
@[simp] theorem applyDir_store (a : Args) (s : State) : (applyDir a s).store = s.store := by
  unfold applyDir; simp only [updWheel_store, input_store]
@[simp] theorem cmdDirSet_store (a : Args) (s : State) : (cmdDirSet a s).st.store = s.store := by
  unfold cmdDirSet; (repeat' split) <;> first | rfl | (apply checked_store; first | rfl | simp only [applyDir_store])
@[simp] theorem applyLearn_store (a : Args) (s : State) : (applyLearn a s).store = s.store := rfl
@[simp] theorem cmdLearnCtl_store (a : Args) (s : State) : (cmdLearnCtl a s).st.store = s.store := by
  unfold cmdLearnCtl; (repeat' split) <;> first | rfl | (apply checked_store; first | rfl | simp only [ite_store, itep_store, itec_store, checked_store, applyLearn_store, ite_self, implies_true])

/-! ### Link.lean -/

@[simp] theorem updLink_store (f : Link → Link) (s : State) : (updLink f s).store = s.store := rfl
@[simp] theorem leaveRing_store (s : State) : (leaveRing s).store = s.store := by
  unfold leaveRing; simp only [ite_store, updLink_store, endIf_store, ite_self]
@[simp] theorem sendNow_store (dst : Nat) (o : OutFrame) (s : State) : (sendNow dst o s).store = s.store := by
  unfold sendNow; simp only [updLink_store]
@[simp] theorem sendCommit_store (dst : Nat) (o : OutFrame) (s : State) : (sendCommit dst o s).store = s.store := by
  unfold sendCommit; simp only [ite_store, updLink_store, endIf_store, sendNow_store, ite_self]
@[simp] theorem sendWaiting_store (s : State) : (sendWaiting s).store = s.store := by
  unfold sendWaiting; (repeat' split) <;> simp only [sendCommit_store]
@[simp] theorem restoreCredits_store (s : State) : (restoreCredits s).store = s.store := by
  unfold restoreCredits; simp only [sendWaiting_store, updLink_store]
@[simp] theorem enumerate_store (s : State) : (enumerate s).store = s.store := by
  unfold enumerate; simp only [queueOut_store, updLink_store]
@[simp] theorem enumerated_store (size delay : Nat) (s : State) : (enumerated size delay s).store = s.store := by
  unfold enumerated; simp only [updLink_store, endIf_store, sendConfig_store, restoreCredits_store]
@[simp] theorem opLock_store (s : State) : (opLock s).store = s.store := by
  unfold opLock; simp only [ite_store, updClk_store, updLink_store, enumerate_store, ite_self]
@[simp] theorem opUnlock_store (s : State) : (opUnlock s).store = s.store := by
  unfold opUnlock; simp only [ite_store, updLink_store, updClk_store, ite_self]
@[simp] theorem opBreak_store (up : Bool) (s : State) : (opBreak up s).store = s.store := by
  unfold opBreak; simp only [ite_store, raise_store, updLink_store, mirrorDown_store, updMir_store, rckLost_store, leaveRing_store, ite_self]
@[simp] theorem opForward_store (rx : RxSlot) (s : State) : (opForward rx s).store = s.store := by
  unfold opForward; simp only [updMir_store, updLink_store]
@[simp] theorem inject_store (s : State) : (inject s).store = s.store := by
  unfold inject; (repeat' split) <;> simp only [updLink_store]
@[simp] theorem opTransmit_store (rx : RxSlot) (s : State) : (opTransmit rx s).store = s.store := by
  unfold opTransmit; dsimp only; (repeat' split) <;> simp only [updLink_store]
@[simp] theorem opFrameError_store (rx : RxSlot) (s : State) : (opFrameError rx s).store = s.store := by
  unfold opFrameError; (repeat' split) <;> simp only [raise_store, updLink_store]
@[simp] theorem masterState_store (x : Sync) (s : State) : (masterState x s).store = s.store := by
  unfold masterState; simp only [ite_store, updMir_store, reportEff_store, ringLost_store, ringTaken_store, ite_self]
@[simp] theorem mirrorUpdate_store (f g : Frame) (trx : Tb) (s : State) : (mirrorUpdate f g trx s).store = s.store := by
  unfold mirrorUpdate; simp only [updMir_store]
@[simp] theorem opRecord_store (f g : Frame) (trx : Tb) (s : State) : (opRecord f g trx s).store = s.store := by
  unfold opRecord; simp only [ite_store, mirrorDown_store, updMir_store, mirrorUpdate_store, mirrorCheck_store, masterState_store, ite_self]
@[simp] theorem opState2_store (f : Frame) (s : State) : (opState2 f s).store = s.store := by
  unfold opState2; simp only [updMir_store, setCyc_store, mirrorCheck_store, masterState_store]
@[simp] theorem mirrorSynth_store (s : State) : (mirrorSynth s).store = s.store := by
  unfold mirrorSynth; simp only [updMir_store]
@[simp] theorem opMissing_store (s : State) : (opMissing s).store = s.store := by
  unfold opMissing; simp only [ite_store, updMir_store, mirrorDown_store, mirrorSynth_store, ite_self]
@[simp] theorem mirrorTick_store (s : State) : (mirrorTick s).store = s.store := by
  unfold mirrorTick; simp only [ite_store, updMir_store, ringTaken_store, ite_self]
@[simp] theorem storeMsg_store (m : RxMsg) (s : State) : (storeMsg m s).store = s.store := by
  unfold storeMsg; simp only [ite_store, setInt_store, updLink_store, ite_self]
@[simp] theorem opCredit_store (src n : Nat) (s : State) : (opCredit src n s).store = s.store := by
  unfold opCredit; simp only [sendWaiting_store, updLink_store]
@[simp] theorem joinAtFollower_store (p : BitVec 32) (s : State) : (joinAtFollower p s).store = s.store := by
  unfold joinAtFollower; simp only [ite_store, raise_store, restoreCredits_store, updLink_store, ite_self]
@[simp] theorem joinAtMaster_store (p : BitVec 32) (delay : Nat) (s : State) : (joinAtMaster p delay s).store = s.store := by
  unfold joinAtMaster; simp only [ite_store, enumerated_store, raise_store, ite_self]
@[simp] theorem linkOff_store (s : State) : (linkOff s).store = s.store := by
  unfold linkOff; simp only [ite_store, mirrorDown_store, leaveRing_store, updLink_store, reportEff_store, ite_self]
@[simp] theorem roleEnds_store (s : State) : (roleEnds s).store = s.store := by
  unfold roleEnds; simp only [rckLost_store, updClk_store, linkOff_store]
@[simp] theorem takeRole_store (st : LState) (a : Args) (s : State) : (takeRole st a s).store = s.store := by
  unfold takeRole; simp only [updLink_store]
@[simp] theorem cmdLinkRole_store (a : Args) (s : State) : (cmdLinkRole a s).st.store = s.store := by
  unfold cmdLinkRole; (repeat' split) <;> simp only [badArg_store, roleEnds_store, takeRole_store]
@[simp] theorem cmdLinkJoin_store (_a : Args) (s : State) : (cmdLinkJoin _a s).st.store = s.store := by
  unfold cmdLinkJoin; (repeat' split) <;> simp only [enumerate_store, leaveRing_store, updLink_store]
@[simp] theorem cmdSend_store (rank : Nat) (f : Frame) (dst : Nat) (nowait : Bool) (s : State) : (cmdSend rank f dst nowait s).st.store = s.store := by
  unfold cmdSend; simp only [itec_store, checkFail_store, sendNow_store, updLink_store, ite_self]
@[simp] theorem cmdRecv_store (s : State) : (cmdRecv s).st.store = s.store := by
  unfold cmdRecv; (repeat' split) <;> simp only [ite_store, updLink_store, queueOut_store, ite_self]
@[simp] theorem cmdLinkSend_store (a : Args) (s : State) : (cmdLinkSend a s).st.store = s.store := by
  unfold cmdLinkSend; (repeat' split) <;> simp only [badArg_store, cmdSend_store, cmdRecv_store]

/-! ### Clocks.lean -/

@[simp] theorem fclkRestart_store (s : State) : (fclkRestart s).store = s.store := by
  unfold fclkRestart; simp only [updSys_store, updClk_store, timFastReset_store, thermFastReset_store]
@[simp] theorem opFcoJudged_store (s : State) : (opFcoJudged s).store = s.store := by
  unfold opFcoJudged; simp only [ite_store, updClk_store, fclkRestart_store, ite_self]
@[simp] theorem opHoldoverEnd_store (s : State) : (opHoldoverEnd s).store = s.store := by
  unfold opHoldoverEnd; simp only [updClk_store]
@[simp] theorem opFll_store (count : Nat) (s : State) : (opFll count s).store = s.store := by
  unfold opFll; simp only [ite_store, updClk_store, raise_store, ite_self]
@[simp] theorem opStopDetect_store (s : State) : (opStopDetect s).store = s.store := by
  unfold opStopDetect; simp only [ite_store, updSys_store, updClk_store, fcoLost_store, ite_self]
@[simp] theorem startEscape_store (held : Bool) (stopLrc : Nat) (s : State) : (startEscape held stopLrc s).store = s.store := by
  unfold startEscape; dsimp only; (repeat' split) <;> simp only [raiseC_store, updClk_store, enterHeld_store]
@[simp] theorem opDrift_store (count : Nat) (s : State) : (opDrift count s).store = s.store := by
  unfold opDrift; simp only [ite_store, raise_store, updClk_store, ite_self]
@[simp] theorem writeClkctl_store (w : Word) (s : State) : (writeClkctl w s).store = s.store := by
  unfold writeClkctl; simp only [ite_store, updClk_store, ite_self]
@[simp] theorem clkctlDo_store (w : Word) (s : State) : (clkctlDo w s).store = s.store := by
  unfold clkctlDo; simp only [ite_store, clkRow_store, writeClkctl_store, ite_self, implies_true]
@[simp] theorem readClkstat_store (s : State) : (readClkstat s).2.store = s.store := by
  unfold readClkstat; simp only [ite_store, updClk_store, ite_self]
@[simp] theorem gateOff_store (b : Fin 7) (s : State) : (gateOff b s).store = s.store := by
  unfold gateOff; simp only [updClk_store]
@[simp] theorem writeGateen_store (w : Word) (s : State) : (writeGateen w s).store = s.store := by
  unfold writeGateen; simp only [updClk_store, foldSt_store, gateOff_store, implies_true]
@[simp] theorem writeFmctl_store (w : Word) (s : State) : (writeFmctl w s).store = s.store := by
  unfold writeFmctl; simp only [updClk_store]
@[simp] theorem opFmDone_store (count : Nat) (s : State) : (opFmDone count s).store = s.store := by
  unfold opFmDone; simp only [updClk_store]

/-! ### Security.lean -/

@[simp] theorem updSec_store (f : Sec → Sec) (s : State) : (updSec f s).store = s.store := rfl
@[simp] theorem updDbg_store (f : Dbg → Dbg) (s : State) : (updDbg f s).store = s.store := rfl
@[simp] theorem advanceEnds_store (s : State) : (advanceEnds s).store = s.store := by
  unfold advanceEnds; simp only [updSec_store, updDbg_store]
@[simp] theorem deriveLc_store (s : State) : (deriveLc s).store = s.store := by
  unfold deriveLc; simp only [updSec_store]
@[simp] theorem sealed_store (s : State) : (sealed s).store = s.store := by
  unfold sealed; simp only [endIf_store, advanceEnds_store, deriveLc_store, updSec_store]
@[simp] theorem opKeyWrite_store (s : State) : (opKeyWrite s).store = s.store := by
  unfold opKeyWrite; (repeat' split) <;> simp only [endIf_store, deriveLc_store, updSec_store, advanceEnds_store, sealed_store]
@[simp] theorem advanceKey_store (a : Args) (s : State) : (advanceKey a s).st.store = s.store := by
  unfold advanceKey; (repeat' split) <;> first | rfl | (apply checked_store; first | rfl | simp only [ite_store, itep_store, itec_store, checked_store, updSec_store, ite_self, implies_true])
@[simp] theorem advanceStep_store (a : Args) (s : State) : (advanceStep a s).st.store = s.store := by
  unfold advanceStep; (repeat' split) <;> first | rfl | (apply checked_store; first | rfl | simp only [ite_store, itep_store, itec_store, checked_store, updSec_store, ite_self, implies_true])
@[simp] theorem cmdAdvance_store (a : Args) (s : State) : (cmdAdvance a s).st.store = s.store := by
  unfold cmdAdvance; simp only [itec_store, opKeyWrite_store, advanceStep_store, advanceKey_store, ite_self]
@[simp] theorem writeProt_store (p : Path) (off : Nat) (w : Word) (s : State) : (writeProt p off w s).store = s.store := by
  unfold writeProt; simp only [ite_store, updSec_store, deny_store, ite_self]
@[simp] theorem drawChallenge_store (s : State) : (drawChallenge s).store = s.store := by
  unfold drawChallenge; simp only [drawRandom_store, updSec_store]
@[simp] theorem cmdChallenge_store (a : Args) (s : State) : (cmdChallenge a s).st.store = s.store := by
  unfold cmdChallenge; dsimp only; (repeat' split) <;> first | rfl | (apply checked_store; first | rfl | simp only [ite_store, itep_store, itec_store, checked_store, drawChallenge_store, ite_self, implies_true])
@[simp] theorem startCheck_store (answer : BitVec 128) (dbg cmd : Bool) (s : State) : (startCheck answer dbg cmd s).store = s.store := by
  unfold startCheck; (repeat' split) <;> simp only [updSec_store]
@[simp] theorem cmdAnswer_store (a : Args) (s : State) : (cmdAnswer a s).st.store = s.store := by
  unfold cmdAnswer; (repeat' split) <;> simp only [updSec_store, startCheck_store]
@[simp] theorem opCheckEnd_store (s : State) : (opCheckEnd s).store = s.store := by
  unfold opCheckEnd; (repeat' split) <;> simp only [ite_store, updSec_store, raise_store, endIf_store, ite_self]

/-! ### Resume.lean -/

@[simp] theorem applySections_store (r : Reader) (s : State) : (applySections r s).store = s.store := rfl
@[simp] theorem applyResume_store (r : Reader) (s : State) : (applyResume r s).store = s.store := rfl

/-! ### TripDiag.lean -/

@[simp] theorem tripInTest_store (s : State) : (tripInTest s).store = s.store := by
  unfold tripInTest; (repeat' split) <;> simp only [foldSt_store, verdict_store, implies_true]
@[simp] theorem tripPin_store (lvl : Bool) (s : State) : (tripPin lvl s).store = s.store := rfl
@[simp] theorem tickInputs_store (s : State) : (tickInputs s).store = s.store := rfl
@[simp] theorem opTripAssert_store (s : State) : (opTripAssert s).store = s.store := by
  unfold opTripAssert; simp only [ite_store, tripPin_store, tripInTest_store, raise_store, latchGroups_store, ite_self]
@[simp] theorem opDeferralEnd_store (g : Fin 4) (s : State) : (opDeferralEnd g s).store = s.store := by
  unfold opDeferralEnd; simp only [ite_store, latchGroups_store, ite_self]
@[simp] theorem oeTrip_store (s : State) : (oeTrip s).store = s.store := by
  unfold oeTrip; simp only [ite_store, latchGroups_store, ite_self]
@[simp] theorem cmdTripClear_store (a : Args) (s : State) : (cmdTripClear a s).st.store = s.store := by
  unfold cmdTripClear; simp only [itec_store, badArg_store, foldSt_store, release_store, ite_self, implies_true]
@[simp] theorem diagChan_store (a : Args) (s : State) : (diagChan a s).st.store = s.store := by
  unfold diagChan; (repeat' split) <;> first | rfl | (apply checked_store; first | rfl | simp only [ite_store, itep_store, itec_store, checked_store, updDiag_store, ite_self, implies_true])
@[simp] theorem diagTrip_store (a : Args) (s : State) : (diagTrip a s).st.store = s.store := by
  unfold diagTrip; (repeat' split) <;> first | rfl | (apply checked_store; first | rfl | simp only [ite_store, itep_store, itec_store, checked_store, ite_self, implies_true])
@[simp] theorem dropPulse_store (s : State) : (dropPulse s).store = s.store := by
  unfold dropPulse; (repeat' split) <;> simp only [setDrv_store]
@[simp] theorem diagTest_store (a : Args) (s : State) : (diagTest a s).st.store = s.store := by
  unfold diagTest; simp only [itec_store, badArg_store, dropPulse_store, ite_self]
@[simp] theorem cmdDiagRun_store (a : Args) (s : State) : (cmdDiagRun a s).st.store = s.store := by
  unfold cmdDiagRun; (repeat' split) <;> simp only [diagChan_store, diagTrip_store, diagTest_store, badArg_store]
@[simp] theorem testStart_store (before s : State) : (testStart before s).store = s.store := by
  unfold testStart; simp only [ite_store, testFrom_store, ite_self]
@[simp] theorem opTestPulse_store (t : DTest) (s : State) : (opTestPulse t s).store = s.store := by
  unfold opTestPulse; simp only [ite_store, setDrv_store, ite_self]

/-! ### Power.lean -/

@[simp] theorem settleKey_store (s : State) : (settleKey s).store = s.store := by
  unfold settleKey; (repeat' split) <;> simp only [ite_store, updSec_store, ite_self]
@[simp] theorem oeOnOp_store (s : State) : (oeOnOp s).store = s.store := by
  unfold oeOnOp; simp only [ite_store, oeTrip_store, updSys_store, ite_self]
@[simp] theorem oeOffOp_store (s : State) : (oeOffOp s).store = s.store := by
  unfold oeOffOp; simp only [ite_store, windowsCheck_store, outputsDown_store, updSys_store, ite_self]
@[simp] theorem opB0End_store (ref : RefEdge) (s : State) : (opB0End ref s).store = s.store := by
  unfold opB0End; simp only [updClk_store, updSys_store]
@[simp] theorem wakeInts_store (woke : Bool) (s : State) : (wakeInts woke s).store = s.store := by
  unfold wakeInts; simp only [ite_store, setInt_store, ite_self]
@[simp] theorem cmdIdent_store (a : Args) (s : State) : (cmdIdent a s).st.store = s.store := by
  unfold cmdIdent; (repeat' split) <;> first | rfl | (apply checked_store; first | rfl | simp only [ite_store, itep_store, itec_store, checked_store, ite_self, implies_true])
@[simp] theorem requestEnds_store (s : State) : (requestEnds s).store = s.store := by
  unfold requestEnds; simp only [updDbg_store, updSec_store, linkOff_store, updClk_store]
@[simp] theorem enterStop_store (s : State) : (enterStop s).store = s.store := by
  unfold enterStop; simp only [thermFastReset_store, requestEnds_store, updClk_store, updSys_store]
@[simp] theorem keepAnchor_store (err : Fin 3) (f : State → State) (s : State) (hf : ∀ t, (f t).store = t.store) : (keepAnchor err f s).store = s.store := by
  unfold keepAnchor; simp only [ite_store, updClk_store, hf, ite_self]
@[simp] theorem wakeStandby_store (code : Nat) (dbg : Bool) (s : State) : (wakeStandby code dbg s).store = s.store := by
  unfold wakeStandby; simp only [updClk_store, updSys_store, updDbg_store]
@[simp] theorem standbyWake_store (code : Nat) (dbg : Bool) (s : State) : (standbyWake code dbg s).store = s.store := by
  unfold standbyWake; simp only [ite_store, wakeStandby_store, latchWake_store, updSys_store, ite_self]
@[simp] theorem standbyAbandoned_store (s : State) : (standbyAbandoned s).store = s.store := by
  unfold standbyAbandoned; simp only [updDbg_store, updSys_store]
@[simp] theorem edgePin_store (src : EdgeSrc) (rise : Bool) (s : State) : (edgePin src rise s).store = s.store := by
  unfold edgePin; (repeat' split) <;> simp only
@[simp] theorem edgeWakes_store (src : EdgeSrc) (rise : Bool) (s : State) : (edgeWakes src rise s).store = s.store := by
  unfold edgeWakes; (repeat' split) <;> simp only [askWake_store]

/-! ### Store.lean -/

@[simp] theorem hostEnds_store (c : CommitCause) (status q0 q1 : Nat) (s : State) : (hostEnds c status q0 q1 s).store = s.store := by
  unfold hostEnds; (repeat' split) <;> simp only [endIf_store]

/-! ### Emitter.lean -/

@[simp] theorem updEmit_store (f : Emit → Emit) (s : State) : (updEmit f s).store = s.store := rfl
@[simp] theorem emitCamToggle_store (c : Fin 3) (i : Nat) (s : State) : (emitCamToggle c i s).store = s.store := by
  unfold emitCamToggle; simp only [ite_store, updEmit_store, camLoop_store, foldSt_store, takeCam_store, ite_self, implies_true]
@[simp] theorem opCamEdge_store (c : Fin 3) (s : State) : (opCamEdge c s).store = s.store := by
  unfold opCamEdge; (repeat' split) <;> simp only [emitCamToggle_store]
@[simp] theorem restCams_store (s : State) : (restCams s).store = s.store := by
  unfold restCams; simp only [foldSt_store, opCamEdge_store, implies_true]
@[simp] theorem emitSwitch_store (s : State) : (emitSwitch s).store = s.store := by
  unfold emitSwitch; simp only [clearSearch_store, input_store]
@[simp] theorem cmdEmitStop_store (_a : Args) (s : State) : (cmdEmitStop _a s).st.store = s.store := by
  unfold cmdEmitStop; simp only [emitSwitch_store, emitHalt_store]
@[simp] theorem writeEmit_store (p : Path) (off : Nat) (w : Word) (s : State) : (writeEmit p off w s).store = s.store := by
  unfold writeEmit; simp only [ite_store, deny_store, updEmit_store, ite_self]

/-! ### Legacy.lean -/

@[simp] theorem updLeg_store (f : Leg → Leg) (s : State) : (updLeg f s).store = s.store := rfl
@[simp] theorem updLCh_store (n : Fin 8) (f : LChan → LChan) (s : State) : (updLCh n f s).store = s.store := by
  unfold updLCh; simp only [updLeg_store]
@[simp] theorem legDo_store (f : State → State) (s : State) (hf : ∀ t, (f t).store = t.store) : (legDo f s).store = s.store := by
  unfold legDo; simp only [ite_store, hf, ite_self]
@[simp] theorem legRead_store (f : State → Word × State) (s : State) (hf : ∀ t, (f t).2.store = t.store) : (legRead f s).store = s.store := by
  unfold legRead; simp only [ite_store, readIf_store, hf, ite_self, implies_true]
@[simp] theorem lBoost_store (s : State) : (lBoost s).store = s.store := by
  unfold lBoost; simp only [ite_store, updLeg_store, ite_self]
@[simp] theorem lStart_store (n : Fin 8) (prof : Nat) (s : State) : (lStart n prof s).store = s.store := by
  unfold lStart; simp only [lBoost_store, updLCh_store]
@[simp] theorem lIdle_store (n : Fin 8) (s : State) : (lIdle n s).store = s.store := by
  unfold lIdle; simp only [lBoost_store, updLCh_store]
@[simp] theorem lAction_store (n : Fin 8) (act prof : Nat) (s : State) : (lAction n act prof s).store = s.store := by
  unfold lAction; (repeat' split) <;> simp only [ite_store, lStart_store, lIdle_store, updLCh_store, ite_self]
@[simp] theorem lAllIdle_store (s : State) : (lAllIdle s).store = s.store := by
  unfold lAllIdle; simp only [lBoost_store, updLeg_store]
@[simp] theorem opLPhase_store (n : Fin 8) (s : State) : (opLPhase n s).store = s.store := by
  unfold opLPhase; (repeat' split) <;> simp only [lBoost_store, updLCh_store]
@[simp] theorem updLSlot_store (i : Fin 16) (f : LSlot → LSlot) (s : State) : (updLSlot i f s).store = s.store := by
  unfold updLSlot; simp only [updLeg_store]
@[simp] theorem lCancel_store (s : State) : (lCancel s).store = s.store := by
  unfold lCancel; simp only [updLSlot_store]
@[simp] theorem lArm_store (act : Nat) (s : State) : (lArm act s).store = s.store := by
  unfold lArm; simp only [ite_store, updLeg_store, updLSlot_store, ite_self]
@[simp] theorem writeLevcmd_store (v : Byte) (s : State) : (writeLevcmd v s).store = s.store := by
  unfold writeLevcmd; simp only [ite_store, lCancel_store, lArm_store, ite_self]
@[simp] theorem opLFire_store (i : Fin 16) (s : State) : (opLFire i s).store = s.store := by
  unfold opLFire; simp only [ite_store, updLSlot_store, lAction_store, ite_self]
@[simp] theorem legRestart_store (s : State) : (legRestart s).store = s.store := by
  unfold legRestart; simp only [updWheel_store, clearSearch_store, input_store]
@[simp] theorem writeLctl_store (v : Byte) (s : State) : (writeLctl v s).store = s.store := by
  unfold writeLctl; simp only [ite_store, lAllIdle_store, legRestart_store, updLeg_store, ite_self]
@[simp] theorem writeLwheel_store (v : Byte) (s : State) : (writeLwheel v s).store = s.store := by
  unfold writeLwheel; (repeat' split) <;> simp only [ite_store, legRestart_store, updLeg_store, updWheel_store, ite_self]
@[simp] theorem writeLouten_store (v : Byte) (s : State) : (writeLouten v s).store = s.store := by
  unfold writeLouten; simp only [lBoost_store, updLeg_store]
@[simp] theorem readLangl_store (s : State) : (readLangl s).2.store = s.store := by
  unfold readLangl; simp only [updLeg_store]
@[simp] theorem readLperl_store (s : State) : (readLperl s).2.store = s.store := by
  unfold readLperl; simp only [updLeg_store]
@[simp] theorem stepByte_store (s : State) : (stepByte s).store = s.store := by
  unfold stepByte; simp only [updLeg_store]
@[simp] theorem readLprofdat_store (s : State) : (readLprofdat s).2.store = s.store := by
  unfold readLprofdat; simp only [stepByte_store]
@[simp] theorem writeLprofdat_store (v : Byte) (s : State) : (writeLprofdat v s).store = s.store := by
  unfold writeLprofdat; simp only [stepByte_store, updLeg_store]
@[simp] theorem opLTrip_store (s : State) : (opLTrip s).store = s.store := by
  unfold opLTrip; simp only [lAllIdle_store, noteLeg_store, updLeg_store]
@[simp] theorem writeLdiag_store (v : Byte) (s : State) : (writeLdiag v s).store = s.store := by
  unfold writeLdiag; simp only [ite_store, updLeg_store, ite_self]
@[simp] theorem updLTim_store (k : Fin 2) (f : LTimer → LTimer) (s : State) : (updLTim k f s).store = s.store := by
  unfold updLTim; simp only [updLeg_store]
@[simp] theorem lTimStep_store (k : Fin 2) (s : State) : (lTimStep k s).store = s.store := by
  unfold lTimStep; simp only [ite_store, noteLeg_store, updLeg_store, updLTim_store, ite_self]
@[simp] theorem lLoadCount_store (hi : Byte) (s : State) : (lLoadCount hi s).store = s.store := by
  unfold lLoadCount; simp only [updLTim_store]
@[simp] theorem lLoadCompare_store (hi : Byte) (s : State) : (lLoadCompare hi s).store = s.store := by
  unfold lLoadCompare; simp only [updLTim_store]
@[simp] theorem writeLstat_store (w : Byte) (s : State) : (writeLstat w s).store = s.store := by
  unfold writeLstat; simp only [updLeg_store]
@[simp] theorem writeLegA_store (a : Nat) (v : Byte) (s : State) : (writeLegA a v s).store = s.store := by
  unfold writeLegA; (repeat' split) <;> simp only [writeLctl_store, writeLstat_store, updLeg_store, writeLwheel_store, writeLevcmd_store, writeLprofdat_store]
@[simp] theorem writeLegacy_store (a : Nat) (v : Byte) (s : State) : (writeLegacy a v s).store = s.store := by
  unfold writeLegacy; (repeat' split) <;> simp only [writeLouten_store, writeLdiag_store, updLeg_store, updLTim_store, lLoadCount_store, lLoadCompare_store, writeLegA_store]

/-! ### HostBus.lean -/

@[simp] theorem readWin_store (p : Path) (space off : Nat) (s : State) : (readWin p space off s).2.store = s.store := by
  unfold readWin; (repeat' split) <;> simp only [gatedWindow_store, readBrass_store, readFsrc_store, readTherm_store, readCpc_store, implies_true]
@[simp] theorem gatedWinWrite_store (b : Blk) (space : Nat) (f : State → State) (s : State) (hf : ∀ t, (f t).store = t.store) : (gatedWinWrite b space f s).store = s.store := by
  unfold gatedWinWrite; simp only [ite_store, gateEvent_store, hf, ite_self]
@[simp] theorem writeWin_store (p : Path) (space off : Nat) (w : Word) (s : State) : (writeWin p space off w s).store = s.store := by
  unfold writeWin; (repeat' split) <;> simp [hostSlotWrite_store, gatedWinWrite_store, hostCpcWrite_store, writeProt_store, writeEmit_store]
@[simp] theorem readWindat_store (p : Path) (s : State) : (readWindat p s).2.store = s.store := by
  unfold readWindat; simp only [readWin_store, stepWinadr_store]
@[simp] theorem writeWindat_store (p : Path) (w : Word) (s : State) : (writeWindat p w s).store = s.store := by
  unfold writeWindat; simp only [stepWinadr_store, writeWin_store]
@[simp] theorem readTb0_store (p : Path) (s : State) : (readTb0 p s).2.store = s.store := by
  unfold readTb0; (repeat' split) <;> simp only
@[simp] theorem readActive_store (p : Path) (a : Nat) (s : State) : (readActive p a s).2.store = s.store := by
  unfold readActive; (repeat' split) <;> simp only [readClkstat_store, gatedRead_store, readWindat_store, readAngleL_store, readTb0_store, readRptstat_store, readRptdat_store, readFltstat_store, readFlthist_store, implies_true]
@[simp] theorem readReg_store (p : Path) (a : Nat) (s : State) : (readReg p a s).2.store = s.store := by
  unfold readReg; (repeat' split) <;> simp only [readActive_store]
@[simp] theorem clearInts_store (w : Word) (s : State) : (clearInts w s).store = s.store := rfl
@[simp] theorem writePointer_store (p : Path) (f : Bus → Bus) (s : State) : (writePointer p f s).store = s.store := by
  unfold writePointer; (repeat' split) <;> simp only

/-! ### Debug.lean -/

@[simp] theorem opLineReset_store (s : State) : (opLineReset s).store = s.store := by
  unfold opLineReset; simp only [ite_store, updDbg_store, ite_self]
@[simp] theorem resume_store (s : State) : (resume s).store = s.store := by
  unfold resume; simp only [sendWaiting_store, testResume_store, endReady_store, updDbg_store]
@[simp] theorem opDetach_store (s : State) : (opDetach s).store = s.store := by
  unfold opDetach; simp only [resume_store, updDbg_store]
@[simp] theorem ack_store (k : Nat) (s : State) : (ack k s).store = s.store := by
  unfold ack; simp only [updDbg_store]
@[simp] theorem dbgDeny_store (a : Nat) (s : State) : (dbgDeny a s).store = s.store := by
  unfold dbgDeny; simp only [ite_store, ack_store, deny_store, ite_self]
@[simp] theorem txn_store (a : Nat) (errOk ok : Bool) (f : State → State) (s : State) (hf : ∀ t, (f t).store = t.store) : (txn a errOk ok f s).store = s.store := by
  unfold txn; simp only [ite_store, ack_store, dbgDeny_store, hf, ite_self]
@[simp] theorem dctl_store (ok : Bool) (f : State → State) (s : State) (hf : ∀ t, (f t).store = t.store) : (dctl ok f s).store = s.store := by
  unfold dctl; simp only [txn_store, hf, implies_true]
@[simp] theorem opHalt_store (on : Bool) (s : State) : (opHalt on s).store = s.store := by
  unfold opHalt; simp only [ite_store, updDbg_store, resume_store, ite_self]
@[simp] theorem opPtest_store (on : Bool) (s : State) : (opPtest on s).store = s.store := by
  unfold opPtest; simp only [ite_store, updDbg_store, roleEnds_store, ack_store, ite_self]
@[simp] theorem opWake_store (ref : RefEdge) (s : State) : (opWake ref s).store = s.store := by
  unfold opWake; simp only [ite_store, askWake_store, updSys_store, standbyWake_store, ite_self]
@[simp] theorem opChal_store (s : State) : (opChal s).store = s.store := by
  unfold opChal; simp only [ite_store, updDbg_store, drawChallenge_store, ite_self]
@[simp] theorem readDchal_store (s : State) : (readDchal s).2.store = s.store := by
  unfold readDchal; simp only [updDbg_store]
@[simp] theorem probeRead_store (f : State → Word × State) (s : State) (hf : ∀ t, (f t).2.store = t.store) : (probeRead f s).store = s.store := by
  unfold probeRead; simp only [putData_store, hf]
@[simp] theorem writeDans_store (w : Word) (s : State) : (writeDans w s).store = s.store := by
  unfold writeDans; simp only [ite_store, updDbg_store, startCheck_store, ite_self]
@[simp] theorem writeDpin_store (w : Word) (s : State) : (writeDpin w s).store = s.store := by
  unfold writeDpin; simp only [updDbg_store]
@[simp] theorem windowUse_store (f : Nat → Nat → State → Word × State) (s : State) (hf : ∀ x0 x1 t, (f x0 x1 t).2.store = t.store) : (windowUse f s).2.store = s.store := by
  unfold windowUse; simp only [itep_store, updDbg_store, hf, ite_self]
@[simp] theorem readDbg_store (a : Nat) (s : State) : (readDbg a s).2.store = s.store := by
  unfold readDbg; (repeat' split) <;> simp only [windowUse_store, readWin_store, readDchal_store, implies_true]
@[simp] theorem withParity_store (parity : Bool) (f : State → State) (s : State) (hf : ∀ t, (f t).store = t.store) : (withParity parity f s).store = s.store := by
  unfold withParity; simp only [ite_store, updDbg_store, hf, ite_self]
@[simp] theorem orWait_store (ok : Bool) (s : State) (f : State → State) (hf : ∀ t, (f t).store = t.store) : (orWait ok s f).store = s.store := by
  unfold orWait; simp only [ite_store, ack_store, hf, ite_self]

/-! ### Tick.lean -/

@[simp] theorem tickClock_store (s : State) : (tickClock s).store = s.store := by
  unfold tickClock; simp only [newInstant_store]
@[simp] theorem tickPins_store (lv : OutLevels) (s : State) : (tickPins lv s).store = s.store := by
  unfold tickPins; simp only [tripAll_store, tickInputs_store, pinEdges_store, shiftOuts_store]
@[simp] theorem tickAngles_store (s : State) : (tickAngles s).store = s.store := rfl
@[simp] theorem tickWindows_store (s : State) : (tickWindows s).store = s.store := by
  unfold tickWindows; simp only [windowsCheck_store]
@[simp] theorem tickTimers_store (s : State) : (tickTimers s).store = s.store := by
  unfold tickTimers; simp only [ite_store, ite_self]
@[simp] theorem tickEmit_store (s : State) : (tickEmit s).store = s.store := by
  unfold tickEmit; simp only [ite_store, ite_self]
@[simp] theorem tickLegacy_store (s : State) : (tickLegacy s).store = s.store := by
  unfold tickLegacy; simp only [ite_store, updLeg_store, ite_self]

/-! ### Step.lean -/

@[simp] theorem State.withFetchWord_store (s : State) (nbits w : Nat) : (State.withFetchWord s nbits w).store = s.store := rfl

/-! ### Tick.lean -/

/-- What time alone does leaves the store. -/
@[simp] theorem tickTime_store (s : State) : (tickTime s).store = s.store := by
  unfold tickTime
  dsimp only
  split
  · rw [tickEmit_store, tickTimers_store, tickWindows_store, mirrorTick_store, tickAngles_store, noteDue_store, tickPins_store, tickClock_store]
  · rw [tickLegacy_store, tickAngles_store, tickInputs_store, shiftOuts_store, tickClock_store]

/-! ### The canonical form: every operation that may change the store keeps it -/

theorem updStore_store (f : Store → Store) (s : State) : (updStore f s).store = f s.store := rfl
theorem storeWf_iff (t : Store) : storeWf t = true ↔ cellsFrom bankDefault 0 t.bankA = true ∧ cellsFrom bankDefault 0 t.bankB = true ∧ cellsFrom shadowDefault 0 t.shadow = true := by
  simp only [storeWf, Bool.and_eq_true, and_assoc]
theorem itew_wf (c : Prop) [Decidable c] (a b : State) : storeWf (if c then a else b).store = if c then storeWf a.store else storeWf b.store := by split <;> rfl
theorem checked_wf (argsOk : Bool) (checks : List Bool) (s : State) (eff : CmdRes) (heff : storeWf eff.st.store = true) (h : storeWf s.store = true) : storeWf (checked argsOk checks s eff).st.store = true := by
  unfold checked
  split
  · exact h
  · split
    · exact h
    · exact heff

theorem foldSt_wf {α : Type} (xs : List α) (f : α → State → State) (s : State) (hf : ∀ x t, storeWf t.store = true → storeWf (f x t).store = true) (h : storeWf s.store = true) : storeWf (foldSt xs f s).store = true := by
  unfold foldSt
  induction xs generalizing s with
  | nil => exact h
  | cons x xs ih => exact ih _ (hf x s h)

theorem readIf_wf (c : Bool) (f : State → Word × State) (s : State) (hf : ∀ t, storeWf t.store = true → storeWf (f t).2.store = true) (h : storeWf s.store = true) : storeWf (readIf c f s).store = true := by
  unfold readIf
  split
  · exact hf s h
  · exact h

theorem gatedWrite_wf (b : Blk) (a : Nat) (f : State → State) (s : State) (hf : ∀ t, storeWf t.store = true → storeWf (f t).store = true) (h : storeWf s.store = true) : storeWf (gatedWrite b a f s).store = true := by
  unfold gatedWrite; (repeat' split) <;> first | exact h | simp only [gateEvent_store, hf, h]
theorem gatedRead_wf (b : Blk) (a : Nat) (f : State → Word × State) (s : State) (hf : ∀ t, storeWf t.store = true → storeWf (f t).2.store = true) (h : storeWf s.store = true) : storeWf (gatedRead b a f s).2.store = true := by
  unfold gatedRead; (repeat' split) <;> first | exact h | simp only [gateEvent_store, hf, h]
theorem gatedWindow_wf (b : Blk) (space : Nat) (f : State → Word × State) (s : State) (hf : ∀ t, storeWf t.store = true → storeWf (f t).2.store = true) (h : storeWf s.store = true) : storeWf (gatedWindow b space f s).2.store = true := by
  unfold gatedWindow; (repeat' split) <;> first | exact h | simp only [gateEvent_store, hf, h]
theorem hostRow_wf (i : Instr) (f : State → State) (s : State) (hf : ∀ t, storeWf t.store = true → storeWf (f t).store = true) (h : storeWf s.store = true) : storeWf (hostRow i f s).store = true := by
  unfold hostRow
  split
  · exact h
  · split
    · exact h
    · exact hf _ (by rw [csFalls_store]; exact h)

theorem hostRead_wf (i : Instr) (f : State → Word × State) (s : State) (hf : ∀ t, storeWf t.store = true → storeWf (f t).2.store = true) (h : storeWf s.store = true) : storeWf (hostRead i f s).store = true :=
  hostRow_wf _ _ _ (fun t ht => readIf_wf _ _ t hf ht) h

theorem windowRead_wf (i : Instr) (space off : Nat) (f : State → Word × State) (s : State) (hf : ∀ t, storeWf t.store = true → storeWf (f t).2.store = true) (h : storeWf s.store = true) : storeWf (windowRead i space off f s).store = true := by
  refine hostRead_wf _ _ _ (fun t ht => ?_) h
  dsimp only
  rw [stepWinadr_store]
  exact hf _ (by rw [pointAt_store]; exact ht)

theorem windowWrite_wf (i : Instr) (space off : Nat) (f : State → State) (s : State) (hf : ∀ t, storeWf t.store = true → storeWf (f t).store = true) (h : storeWf s.store = true) : storeWf (windowWrite i space off f s).store = true := by
  refine hostRow_wf _ _ _ (fun t ht => ?_) h
  split
  · rw [stepWinadr_store]
    exact hf _ (by rw [pointAt_store]; exact ht)
  · exact ht

theorem guarded_wf (c : Cmd) (op : Args → State → CmdRes) (s : State) (hop : ∀ x0 t, storeWf t.store = true → storeWf (op x0 t).st.store = true) (h : storeWf s.store = true) : storeWf (guarded c op s).st.store = true := by
  unfold guarded; dsimp only; (repeat' split) <;> first | exact h | simp only [denyEvent_store, hop, h]
theorem serve_wf (c : Cmd) (op : Args → State → CmdRes) (s : State) (hop : ∀ x0 t, storeWf t.store = true → storeWf (op x0 t).st.store = true) (h : storeWf s.store = true) : storeWf (serve c op s).store = true := by
  unfold serve; dsimp only; (repeat' split) <;> simp_all [guarded_wf, endCmd_store]
theorem mboxServe_wf (code : Byte) (op : Args → State → CmdRes) (a : Args) (s : State) (hop : ∀ x0 t, storeWf t.store = true → storeWf (op x0 t).st.store = true) (h : storeWf s.store = true) : storeWf (mboxServe code op a s).store = true := by
  unfold mboxServe
  split
  · split
    · exact serve_wf _ _ _ hop h
    · exact h
  · exact h

theorem mboxTake_wf (code : Byte) (op : Args → State → CmdRes) (a : Args) (s : State) (hop : ∀ x0 t, storeWf t.store = true → storeWf (op x0 t).st.store = true) (h : storeWf s.store = true) : storeWf (mboxTake code op a s).store = true := by
  unfold mboxTake
  split
  · exact mboxServe_wf _ _ _ _ hop h
  · split
    · exact h
    · exact mboxServe_wf _ _ _ _ hop (by rw [hostSubmit_store]; exact h)

theorem mboxRow_wf (code : Byte) (op : Args → State → CmdRes) (a : Args) (s : State) (hop : ∀ x0 t, storeWf t.store = true → storeWf (op x0 t).st.store = true) (h : storeWf s.store = true) : storeWf (mboxRow code op a s).store = true := by
  unfold mboxRow
  split
  · exact h
  · exact mboxTake_wf _ _ _ _ hop (by rw [csFalls_store]; exact h)

theorem cutHardware_wf (s : State) (h : storeWf s.store = true) : storeWf (cutHardware s).store = true := by
  unfold cutHardware; (repeat' split) <;> first | exact h | simp only [ite_store, itep_store, itec_store, h, ite_self, implies_true]
theorem cutCore_wf (s : State) (h : storeWf s.store = true) : storeWf (cutCore s).store = true := by
  unfold cutCore; (repeat' split) <;> first | exact h | simp only [ite_store, itep_store, itec_store, cutHardware_wf, h, ite_self, implies_true]
theorem clkRow_wf (f : State → State) (s : State) (hf : ∀ t, storeWf t.store = true → storeWf (f t).store = true) (h : storeWf s.store = true) : storeWf (clkRow f s).store = true := by
  unfold clkRow; (repeat' split) <;> first | exact h | simp only [newInstant_store, setIntIf_store, hf, h]
theorem setBank_wf (b : Bool) (m : List Host.Cell) (s : State) (hm : cellsFrom bankDefault 0 m = true) (h : storeWf s.store = true) : storeWf (setBank b m s).store = true := by
  rw [storeWf_iff] at h
  unfold setBank
  split <;> rw [storeWf_iff]
  · exact ⟨h.1, hm, h.2.2⟩
  · exact ⟨hm, h.2⟩
theorem openBank_wf (k : Nat) : cellsFrom bankDefault 0 (openBank k) = true := cellPuts_wf _ _ _ _ rfl
theorem commitImage_wf (m : List Host.Cell) (k : Nat) : cellsFrom bankDefault 0 (commitImage m k) = true := cellPuts_wf _ _ _ _ rfl
theorem shadowCount_wf (src k : Nat) (m : List Host.Cell) (h : cellsFrom shadowDefault 0 m = true) : cellsFrom shadowDefault 0 (shadowCount src k m) = true := cellPuts_wf _ _ _ _ h
theorem defaultShadow_wf (img : Vector Word 64) : cellsFrom shadowDefault 0 (defaultShadow img) = true :=
  cellPuts_wf _ _ _ _ (cellPuts_wf _ _ _ _ (cellPuts_wf _ _ _ _ (cellPuts_wf _ _ _ _ rfl)))
theorem shadowOf_wf (m : List Host.Cell) : cellsFrom shadowDefault 0 (shadowOf m) = true := cellPuts_wf _ _ _ _ rfl

theorem shadowPut_wf (addr : Nat) (bs : List Byte) (s : State) (h : storeWf s.store = true) : storeWf (shadowPut addr bs s).store = true := by
  unfold shadowPut
  split
  · exact h
  · rw [storeWf_iff] at h ⊢
    exact ⟨h.1, h.2.1, cellPuts_wf _ _ _ _ h.2.2⟩

theorem countEvent_wf (src : Nat) (s : State) (h : storeWf s.store = true) : storeWf (countEvent src s).store = true := by
  unfold countEvent
  split
  · exact h
  · rw [storeWf_iff] at h ⊢
    exact ⟨h.1, h.2.1, shadowCount_wf _ _ _ h.2.2⟩

theorem foldCells_wf {α : Type} (xs : List α) (f : List Host.Cell → α → List Host.Cell) (m : List Host.Cell) (hf : ∀ m x, cellsFrom shadowDefault 0 m = true → cellsFrom shadowDefault 0 (f m x) = true) (h : cellsFrom shadowDefault 0 m = true) : cellsFrom shadowDefault 0 (xs.foldl f m) = true := by
  induction xs generalizing m with
  | nil => exact h
  | cons x xs ih => exact ih _ (hf m x h)
theorem applyHeld_wf (s : State) (h : storeWf s.store = true) : storeWf (applyHeld s).store = true := by
  rw [storeWf_iff] at h ⊢
  refine ⟨h.1, h.2.1, ?_⟩
  refine foldCells_wf _ _ _ (fun m i hm => ?_) (foldCells_wf _ _ _ (fun m x hm => cellPuts_wf _ _ _ _ hm) h.2.2)
  split
  · exact hm
  · exact shadowCount_wf _ _ _ hm

theorem shadowGeom_wf (s : State) (h : storeWf s.store = true) : storeWf (shadowGeom s).store = true := by
  unfold shadowGeom; (repeat' split) <;> first | exact h | simp only [shadowPut_wf, h]
theorem shadowTherm_wf (s : State) (h : storeWf s.store = true) : storeWf (shadowTherm s).store = true := by
  unfold shadowTherm; (repeat' split) <;> first | exact h | simp only [shadowPut_wf, h]
theorem shadowSev_wf (s : State) (h : storeWf s.store = true) : storeWf (shadowSev s).store = true := by
  unfold shadowSev; (repeat' split) <;> first | exact h | simp only [shadowPut_wf, h]
theorem startCommit_wf (c : CommitCause) (s : State) (h : storeWf s.store = true) : storeWf (startCommit c s).store = true :=
  setBank_wf _ _ _ rfl h

theorem cutCommit_wf (s : State) (h : storeWf s.store = true) : storeWf (cutCommit s).store = true := by
  unfold cutCommit
  split
  · exact setBank_wf _ _ _ (openBank_wf _) h
  · exact h

theorem requestCommit_wf (c : CommitCause) (s : State) (h : storeWf s.store = true) : storeWf (requestCommit c s).store = true := by
  unfold requestCommit; (repeat' split) <;> first | exact h | simp only [startCommit_wf, h]
theorem enterSafe_wf (src : Nat) (bySelf : Bool) (det : Word) (batch : Nat) (s : State) (h : storeWf s.store = true) : storeWf (enterSafe src bySelf det batch s).store = true := by
  unfold enterSafe; (repeat' split) <;> simp [updFlt_store, safeCancel_store, containAll_store, emitHalt_store, queueFault_store, cpsSafe_store, requestCommit_wf, h]
theorem countSrc_wf (src : Nat) (s : State) (h : storeWf s.store = true) : storeWf (countSrc src s).store = true := by
  unfold countSrc; (repeat' split) <;> first | exact h | simp only [countEvent_wf, updFlt_store, h]
theorem applyEvent_wf (e : FEvent) (s : State) (h : storeWf s.store = true) : storeWf (applyEvent e s).store = true := by
  unfold applyEvent; dsimp only; (repeat' split) <;> first | exact h | simp only [countSrc_wf, recordEvent_store, foldSt_store, containCh_store, enterSafe_wf, windowsCheck_store, h, implies_true]
theorem opFaultApply_wf (s : State) (h : storeWf s.store = true) : storeWf (opFaultApply s).store = true := by
  unfold opFaultApply; (repeat' split) <;> first | exact h | simp only [flushBulk_store, applyEvent_wf, updFlt_store, h]
theorem fltackDo_wf (f : State → State) (s : State) (hf : ∀ t, storeWf t.store = true → storeWf (f t).store = true) (h : storeWf s.store = true) : storeWf (fltackDo f s).store = true := by
  unfold fltackDo; (repeat' split) <;> first | exact h | simp only [hf, h]
theorem cmdFsrcSet_wf (a : Args) (s : State) (h : storeWf s.store = true) : storeWf (cmdFsrcSet a s).st.store = true := by
  unfold cmdFsrcSet
  exact checked_wf _ _ _ _ (shadowSev_wf _ h) h

theorem opThermalTick_wf (s : State) (h : storeWf s.store = true) : storeWf (opThermalTick s).store = true := by
  unfold opThermalTick
  extract_lets old t ch steps a b c d
  have ha : a.store = s.store := rfl
  have hb : b.store = a.store := foldSt_store _ _ _ fun n u => thEvents_store _ _ _ _
  have hc : c.store = b.store := foldSt_store _ _ _ fun n u => by
    split
    · rfl
    · exact throttleMoved_store _ _
  have hd : d.store = c.store := by
    dsimp only [d]
    split
    · exact dieCheck_store _
    · rfl
  have h' : storeWf d.store = true := by rw [hd, hc, hb, ha]; exact h
  split
  · exact shadowTherm_wf _ h'
  · exact h'

theorem swapGeom_wf (s : State) (h : storeWf s.store = true) : storeWf (swapGeom s).store = true := by
  unfold swapGeom; dsimp only; (repeat' split) <;> first | exact h | simp only [retakeO2_store, shadowGeom_wf, h]
theorem learnAt_wf (stamp : Tb) (p : Nat) (s : State) (h : storeWf s.store = true) : storeWf (learnAt stamp p s).store = true := by
  unfold learnAt; (repeat' split) <;> first | exact h | simp only [learnRev_store, swapGeom_wf, h]
theorem acceptUpdate_wf (stamp : Tb) (per p : Nat) (s : State) (h : storeWf s.store = true) : storeWf (acceptUpdate stamp per p s).store = true := by
  unfold acceptUpdate; (repeat' split) <;> first | exact h | simp only [ite_store, moveTo_store, noteResidual_store, setPred_store, learnAt_wf, recordTooth_store, h, ite_self]
theorem acceptTooth_wf (stamp : Tb) (per p : Nat) (s : State) (h : storeWf s.store = true) : storeWf (acceptTooth stamp per p s).store = true := by
  unfold acceptTooth; dsimp only; (repeat' split) <;> first | exact h | simp only [updWheel_store, speedInput_store, gapTest_store, inputTooth_store, legacyCam_store, acceptUpdate_wf, h]
theorem trackEdge_wf (stamp : Tb) (s : State) (h : storeWf s.store = true) : storeWf (trackEdge stamp s).store = true := by
  unfold trackEdge; dsimp only; (repeat' split) <;> first | exact h | simp only [bareEdge_store, updWheel_store, earlyEdge_store, acceptTooth_wf, h]
theorem leaveReverse_wf (stamp : Tb) (p : Nat) (s : State) (h : storeWf s.store = true) : storeWf (leaveReverse stamp p s).store = true := by
  unfold leaveReverse; dsimp only; (repeat' split) <;> first | exact h | simp only [inputTooth_store, updWheel_store, openNow_store, startPred_store, acceptUpdate_wf, h]
theorem forwardCode_wf (stamp : Tb) (s : State) (h : storeWf s.store = true) : storeWf (forwardCode stamp s).store = true := by
  unfold forwardCode; dsimp only; (repeat' split) <;> first | exact h | simp only [reverseTest_store, leaveReverse_wf, h]
theorem judgeEdge_wf (stamp : Tb) (fine : Bool) (s : State) (h : storeWf s.store = true) : storeWf (judgeEdge stamp fine s).store = true := by
  unfold judgeEdge; (repeat' split) <;> first | exact h | simp only [searchEdge_store, reverseEdge_store, trackEdge_wf, h]
theorem unmeasuredEdge_wf (pulse : Tb × Nat) (stamp : Tb) (fine : Bool) (s : State) (h : storeWf s.store = true) : storeWf (unmeasuredEdge pulse stamp fine s).store = true := by
  unfold unmeasuredEdge; (repeat' split) <;> simp [fastEdge_store, forwardCode_wf, speedInput_store, judgeEdge_wf, reverseCode_store, raise_store, h]
theorem toothEdge_wf (stamp : Tb) (fine : Bool) (s : State) (h : storeWf s.store = true) : storeWf (toothEdge stamp fine s).store = true := by
  unfold toothEdge; dsimp only; (repeat' split) <;> simp_all [noteEdge_store, unmeasuredEdge_wf, judgeEdge_wf, updWheel_store]
theorem takeTooth_wf (stamp : Tb) (s : State) (h : storeWf s.store = true) : storeWf (takeTooth stamp s).store = true := by
  unfold takeTooth; dsimp only; (repeat' split) <;> first | exact h | simp only [countCoarse_store, toothEdge_wf, h]
theorem opCode_wf (stamp : Tb) (s : State) (h : storeWf s.store = true) : storeWf (opCode stamp s).store = true := by
  unfold opCode; dsimp only; (repeat' split) <;> first | exact h | simp only [updWheel_store, reverseCode_store, forwardCode_wf, h]
theorem crankEdge_wf (e : Bool × Tb) (s : State) (h : storeWf s.store = true) : storeWf (crankEdge e s).store = true := by
  unfold crankEdge; (repeat' split) <;> first | exact h | simp only [takeTooth_wf, opCode_wf, h]
theorem crankCaptured_wf (stamp : Tb) (s : State) (h : storeWf s.store = true) : storeWf (crankCaptured stamp s).store = true := by
  unfold crankCaptured; dsimp only; (repeat' split) <;> first | exact h | simp only [takeTooth_wf, h]
theorem crankRow_wf (tooth : Bool) (stamp : Tb) (s : State) (h : storeWf s.store = true) : storeWf (crankRow tooth stamp s).store = true := by
  unfold crankRow; dsimp only; (repeat' split) <;> simp_all [crankCaptured_wf, crankIn_store, foldSt_wf, crankEdge_wf]
theorem wheelTable_wf (c : WheelCfg) (s : State) (h : storeWf s.store = true) : storeWf (wheelTable c s).store = true := by
  unfold wheelTable; dsimp only; (repeat' split) <;> first | exact h | simp only [shadowGeom_wf, h]
theorem applyWheel_wf (a : Args) (s : State) (h : storeWf s.store = true) : storeWf (applyWheel a s).store = true := by
  unfold applyWheel; (repeat' split) <;> first | exact h | simp only [ite_store, clearSearch_store, input_store, wheelTable_wf, updMir_store, h, ite_self]
theorem cmdWheelSet_wf (a : Args) (s : State) (h : storeWf s.store = true) : storeWf (cmdWheelSet a s).st.store = true := by
  unfold cmdWheelSet
  refine checked_wf _ _ _ _ ?_ h
  simp only [checkConfig_store, sendConfig_store]
  exact applyWheel_wf _ _ h

theorem drainFaults_wf (n : Nat) (s : State) (h : storeWf s.store = true) : storeWf (drainFaults n s).store = true := by
  induction n generalizing s with
  | zero => exact h
  | succ n ih => exact ih _ (opFaultApply_wf _ h)

theorem fastReset_wf (s : State) (h : storeWf s.store = true) : storeWf (fastReset s).store = true := by
  unfold fastReset; (repeat' split) <;> simp [bulkRec_store, decoderReset_store, timFastReset_store, thermFastReset_store, cpsFastReset_store, outputsDown_store, updClk_store, cutCore_wf, h]
theorem endEscape_wf (dA : Nat) (err : Fin 3) (s : State) (h : storeWf s.store = true) : storeWf (endEscape dA err s).store = true := by
  unfold endEscape; (repeat' split) <;> simp [updClk_store, takeSource_store, fastReset_wf, drainFaults_wf, h]
theorem resetTo_wf (por : Bool) (cause : Nat) (mode : Bool) (s : State) (h : storeWf s.store = true) : storeWf (resetTo por cause mode s).store = true := by
  have hc : storeWf (cutCommit (settleKey s)).store = true := cutCommit_wf _ (by rw [settleKey_store]; exact h)
  rw [storeWf_iff] at hc ⊢
  exact ⟨hc.1, hc.2.1, rfl⟩

theorem powerOn_wf (mode : Bool) (s : State) (h : storeWf s.store = true) : storeWf (powerOn mode s).store = true := by
  have hr := resetTo_wf true 0 mode s h
  unfold powerOn
  split <;> exact hr

theorem writeSysctl_wf (w : Word) (mode : Bool) (s : State) (h : storeWf s.store = true) : storeWf (writeSysctl w mode s).store = true := by
  unfold writeSysctl; (repeat' split) <;> first | exact h | simp only [resetTo_wf, oeOnOp_store, oeOffOp_store, h]
theorem sysctlDo_wf (w : Word) (mode : Bool) (s : State) (h : storeWf s.store = true) : storeWf (sysctlDo w mode s).store = true := by
  unfold sysctlDo; (repeat' split) <;> first | exact h | simp only [writeSysctl_wf, h]
theorem opBanksRead_wf (s : State) (h : storeWf s.store = true) : storeWf (opBanksRead s).store = true := by
  unfold opBanksRead; (repeat' split) <;> first | exact h | simp only [ite_store, itep_store, itec_store, updSys_store, h, ite_self, implies_true]
theorem storeWf_shadow (t : Store) (m : List Host.Cell) (dirty : Bool) (h : storeWf t = true) (hm : cellsFrom shadowDefault 0 m = true) : storeWf { t with shadow := m, dirty := dirty } = true := by
  rw [storeWf_iff] at h ⊢
  exact ⟨h.1, h.2.1, hm⟩
theorem applyRecord_wf (s : State) (h : storeWf s.store = true) : storeWf (applyRecord s).store = true := by
  have hd : storeWf (deriveLc s).store = true := by rw [deriveLc_store]; exact h
  unfold applyRecord
  extract_lets a
  generalize bootImage a = p
  obtain ⟨img, src⟩ := p
  dsimp only
  split
  · exact storeWf_shadow a.store (defaultShadow img) false hd (defaultShadow_wf img)
  · exact storeWf_shadow a.store (shadowOf _) false hd (shadowOf_wf _)

theorem applyBankEvent_wf (s : State) (h : storeWf s.store = true) : storeWf (applyBankEvent s).store = true := by
  unfold applyBankEvent
  split
  · rw [raise_store]; exact h
  · exact h

theorem opRecordApplied_wf (s : State) (h : storeWf s.store = true) : storeWf (opRecordApplied s).store = true := by
  unfold opRecordApplied
  extract_lets resume woke r t u
  have ht : storeWf t.store = true := by
    dsimp only [t]
    rw [wakeInts_store]
    exact applyBankEvent_wf _ (applyRecord_wf s h)
  split
  · rw [dieCheck_store]
    exact shadowPut_wf 10 [0] u (by dsimp only [u]; rw [updSec_store, applyResume_store]; exact ht)
  · rw [dieCheck_store]
    exact ht

theorem cmdBootDone_wf (a : Args) (s : State) (h : storeWf s.store = true) : storeWf (cmdBootDone a s).st.store = true := by
  unfold cmdBootDone
  extract_lets t
  refine checked_wf _ _ _ _ ?_ h
  dsimp only
  split
  · exact shadowPut_wf _ _ _ h
  · exact h

theorem startStandby_wf (s : State) (h : storeWf s.store = true) : storeWf (startStandby s).store = true := by
  unfold startStandby
  extract_lets on a b
  have hb : storeWf b.store = true := by
    dsimp only [b, a]
    simp only [updClk_store, windowsCheck_store, outputsDown_store, updSys_store, requestEnds_store]
    exact h
  exact requestCommit_wf _ _ (shadowPut_wf _ _ _ (shadowPut_wf _ _ _ hb))

theorem writePwrctl_wf (w : Word) (s : State) (h : storeWf s.store = true) : storeWf (writePwrctl w s).store = true := by
  unfold writePwrctl
  extract_lets a req
  have ha : storeWf a.store = true := h
  split
  · split
    · split
      · rw [enterStop_store]; exact ha
      · exact startStandby_wf _ ha
    · exact ha
  · exact ha

theorem pwrctlDo_wf (w : Word) (s : State) (h : storeWf s.store = true) : storeWf (pwrctlDo w s).store = true := by
  unfold pwrctlDo
  split
  · exact clkRow_wf _ _ (fun t ht => writePwrctl_wf _ t ht) h
  · exact h

theorem keepAnchor_wf (err : Fin 3) (f : State → State) (s : State) (hf : ∀ t, storeWf t.store = true → storeWf (f t).store = true) (h : storeWf s.store = true) : storeWf (keepAnchor err f s).store = true := by
  unfold keepAnchor; (repeat' split) <;> first | exact h | simp only [ite_store, updClk_store, hf, h, ite_self]
theorem feedEdge_wf (e : CapEdge) (s : State) (h : storeWf s.store = true) : storeWf (feedEdge e s).store = true := by
  unfold feedEdge; (repeat' split) <;> first | exact h | simp only [takeTooth_wf, camEdge_store, h]
theorem wakeStop_wf (code : Nat) (dbg : Bool) (ref : RefEdge) (s : State) (h : storeWf s.store = true) : storeWf (wakeStop code dbg ref s).store = true := by
  unfold wakeStop; dsimp only; (repeat' split) <;> simp_all [updClk_store, updSys_store, updDbg_store, setInt_store, decoderReset_store, timFastReset_store, foldSt_wf, feedEdge_wf]
theorem stopWake_wf (code : Nat) (dbg : Bool) (ref : RefEdge) (s : State) (h : storeWf s.store = true) : storeWf (stopWake code dbg ref s).store = true := by
  unfold stopWake
  split
  · exact clkRow_wf _ _ (fun t ht => wakeStop_wf _ _ _ t ht) h
  · exact h

theorem coreOff_wf (s : State) (h : storeWf s.store = true) : storeWf (coreOff s).store = true := by
  rw [storeWf_iff] at h ⊢
  exact ⟨h.1, h.2.1, rfl⟩

theorem standbyEntered_wf (s : State) (h : storeWf s.store = true) : storeWf (standbyEntered s).store = true := by
  unfold standbyEntered; dsimp only; (repeat' split) <;> first | exact h | simp only [coreOff_wf, wakeStandby_store, h]
theorem opCapture_wf (src : EdgeSrc) (rise : Bool) (dA : Nat) (err : Fin 3) (s : State) (h : storeWf s.store = true) : storeWf (opCapture src rise dA err s).store = true := by
  unfold opCapture; (repeat' split) <;> first | exact h | simp only [updSys_store, feedEdge_wf, h]
theorem wakeNow_wf (code : Nat) (s : State) (h : storeWf s.store = true) : storeWf (wakeNow code s).store = true := by
  unfold wakeNow; (repeat' split) <;> first | exact h | simp only [standbyWake_store, stopWake_wf, h]
theorem askedWake_wf (s : State) (h : storeWf s.store = true) : storeWf (askedWake s).store = true := by
  unfold askedWake; (repeat' split) <;> first | exact h | simp only [stopWake_wf, wakeNow_wf, h]
theorem opAocLoss_wf (s : State) (h : storeWf s.store = true) : storeWf (opAocLoss s).store = true := by
  unfold opAocLoss; dsimp only; (repeat' split) <;> first | exact h | simp only [aocFalls_store, wakeNow_wf, raise_store, h]
theorem opGross_wf (count : Nat) (s : State) (h : storeWf s.store = true) : storeWf (opGross count s).store = true := by
  unfold opGross; dsimp only; (repeat' split) <;> first | exact h | simp only [raise_store, aocFalls_store, wakeNow_wf, h]
theorem opPfail_wf (s : State) (h : storeWf s.store = true) : storeWf (opPfail s).store = true := by
  unfold opPfail; dsimp only; (repeat' split) <;> first | exact h | simp only [updSys_store, requestCommit_wf, wakeNow_wf, h]

theorem commitMoves_wf (s : State) (h : storeWf s.store = true) : storeWf (commitMoves s).store = true := by
  unfold commitMoves
  split <;> exact h
theorem yieldTo_wf (s : State) (h : storeWf s.store = true) : storeWf (yieldTo s).store = true := by
  have hm := commitMoves_wf s h
  unfold yieldTo
  split
  · exact hm
  · exact h

theorem cmdStoreRead_wf (a : Args) (s : State) (h : storeWf s.store = true) : storeWf (cmdStoreRead a s).st.store = true := by
  unfold cmdStoreRead
  refine checked_wf _ _ _ _ ?_ h
  split
  · exact yieldTo_wf _ h
  · exact h

theorem opReadComplete_wf (s : State) (h : storeWf s.store = true) : storeWf (opReadComplete s).store = true := by
  unfold opReadComplete
  split
  · split
    · exact h
    · split
      · exact yieldTo_wf _ h
      · rw [endIf_store]; exact h
  · exact h

theorem clearShadow_wf (s : State) (h : storeWf s.store = true) : storeWf (clearShadow s).store = true := by
  unfold clearShadow
  extract_lets img
  split
  · exact h
  · exact storeWf_shadow s.store img true h (defaultShadow_wf openImage)

theorem cmdCommit_wf (a : Args) (s : State) (h : storeWf s.store = true) : storeWf (cmdCommit a s).st.store = true := by
  unfold cmdCommit
  extract_lets form cause
  split
  · exact h
  · split
    · exact requestCommit_wf _ _ (clearShadow_wf _ h)
    · split
      · exact h
      · exact requestCommit_wf _ _ h

theorem judgeQueue_wf (cs : List CommitCause) (s : State) (h : storeWf s.store = true) : storeWf (judgeQueue cs s).store = true := by
  induction cs generalizing s with
  | nil => exact h
  | cons c cs ih =>
    unfold judgeQueue
    split
    · exact startCommit_wf _ _ h
    · exact ih _ (by rw [hostEnds_store]; exact h)

theorem commitOver_wf (s : State) (h : storeWf s.store = true) : storeWf (commitOver s).store = true :=
  judgeQueue_wf _ _ (applyHeld_wf _ h)

theorem causeEnds_wf (c : Commit) (ok : Bool) (s : State) (h : storeWf s.store = true) : storeWf (causeEnds c ok s).store = true := by
  unfold causeEnds
  split
  · rw [raise_store]; exact h
  · split
    · exact h
    · rw [standbyAbandoned_store]; exact h
  · exact h
  · exact h
  · rw [hostEnds_store]; exact h

theorem commitGood_wf (c : Commit) (s : State) (h : storeWf s.store = true) : storeWf (commitGood c s).store = true :=
  setBank_wf c.target (commitImage s.store.shadow c.seq) s (commitImage_wf _ _) h

theorem commitBad_wf (c : Commit) (s : State) (h : storeWf s.store = true) : storeWf (commitBad c s).store = true := by
  have hs : storeWf (setBank c.target (openBank s.free) { s with free := s.free + 1 }).store = true := setBank_wf _ _ _ (openBank_wf _) h
  unfold commitBad
  simp only [raise_store]
  exact hs

theorem afterCommit_wf (c : Commit) (ok : Bool) (s : State) (h : storeWf s.store = true) : storeWf (afterCommit c ok s).store = true := by
  unfold afterCommit; (repeat' split) <;> first | exact h | simp only [standbyEntered_wf, commitOver_wf, h]
theorem opCommit_wf (ok : Bool) (s : State) (h : storeWf s.store = true) : storeWf (opCommit ok s).store = true := by
  unfold opCommit
  split
  · exact h
  · split
    · exact afterCommit_wf _ _ _ (causeEnds_wf _ _ _ (commitGood_wf _ _ h))
    · split
      · exact afterCommit_wf _ _ _ (causeEnds_wf _ _ _ (commitBad_wf _ _ h))
      · exact setBank_wf _ _ _ rfl h

theorem opEmitStep_wf (s : State) (h : storeWf s.store = true) : storeWf (opEmitStep s).store = true := by
  unfold opEmitStep; (repeat' split) <;> first | exact h | simp only [restCams_store, updEmit_store, h]
theorem emitStart_wf (a : Args) (s : State) (h : storeWf s.store = true) : storeWf (emitStart a s).store = true := by
  unfold emitStart; (repeat' split) <;> first | exact h | simp only [ite_store, itep_store, itec_store, h, ite_self, implies_true]
theorem cmdEmitStart_wf (a : Args) (s : State) (h : storeWf s.store = true) : storeWf (cmdEmitStart a s).st.store = true := by
  unfold cmdEmitStart; dsimp only; (repeat' split) <;> first | exact h | simp only [emitSwitch_store, emitStart_wf, h]
theorem legDo_wf (f : State → State) (s : State) (hf : ∀ t, storeWf t.store = true → storeWf (f t).store = true) (h : storeWf s.store = true) : storeWf (legDo f s).store = true := by
  unfold legDo; (repeat' split) <;> first | exact h | simp only [hf, h]
theorem legRead_wf (f : State → Word × State) (s : State) (hf : ∀ t, storeWf t.store = true → storeWf (f t).2.store = true) (h : storeWf s.store = true) : storeWf (legRead f s).store = true := by
  unfold legRead
  split
  · exact readIf_wf _ _ _ hf h
  · exact h

theorem gatedWinWrite_wf (b : Blk) (space : Nat) (f : State → State) (s : State) (hf : ∀ t, storeWf t.store = true → storeWf (f t).store = true) (h : storeWf s.store = true) : storeWf (gatedWinWrite b space f s).store = true := by
  unfold gatedWinWrite; (repeat' split) <;> first | exact h | simp only [gateEvent_store, hf, h]
theorem writeReg_wf (p : Path) (a : Nat) (w : Word) (s : State) (h : storeWf s.store = true) : storeWf (writeReg p a w s).store = true := by
  have hg : ∀ b x (f : State → State), (∀ t, (f t).store = t.store) → storeWf (gatedWrite b x f s).store = true :=
    fun b x f hf => by rw [gatedWrite_store b x f s hf]; exact h
  unfold writeReg
  split
  · exact h
  · split
    · exact writeSysctl_wf _ _ _ h
    · exact clkRow_wf _ _ (fun t ht => writePwrctl_wf _ t ht) h
    · rw [clkRow_store _ _ fun t => writeClkctl_store w t]; exact h
    · rw [writeGateen_store]; exact h
    · exact hg _ _ _ fun t => writeFmctl_store w t
    · rw [submit_store]; exact h
    iterate 4 exact (writeArg_store _ w s).symm ▸ h
    iterate 2 exact (writePointer_store _ _ s).symm ▸ h
    · rw [writeWindat_store]; exact h
    · rw [clearInts_store]; exact h
    · exact h
    · rw [writeFltack_store]; exact h
    iterate 5 exact hg _ _ _ fun _ => rfl
    · split
      · exact hg _ _ _ fun t => writeTim_store a w t
      · exact h
theorem opHostWrite_wf (addr : BitVec 8) (w : Word) (s : State) (h : storeWf s.store = true) : storeWf (opHostWrite addr w s).store = true := by
  unfold opHostWrite
  split
  · exact hostRow_wf _ _ _ (fun t ht => writeReg_wf _ _ _ _ ht) h
  · rw [legDo_store _ _ fun t => writeLegacy_store addr.toNat (w.setWidth 8) t]; exact h

theorem opInterrupted_wf (s : State) (h : storeWf s.store = true) : storeWf (opInterrupted s).store = true := by
  unfold opInterrupted
  rw [endCmd_store]
  exact h

theorem txn_wf (a : Nat) (errOk ok : Bool) (f : State → State) (s : State) (hf : ∀ t, storeWf t.store = true → storeWf (f t).store = true) (h : storeWf s.store = true) : storeWf (txn a errOk ok f s).store = true := by
  unfold txn; (repeat' split) <;> first | exact h | simp only [ack_store, dbgDeny_store, hf, h]
theorem dctl_wf (ok : Bool) (f : State → State) (s : State) (hf : ∀ t, storeWf t.store = true → storeWf (f t).store = true) (h : storeWf s.store = true) : storeWf (dctl ok f s).store = true :=
  txn_wf _ _ _ _ _ hf h

theorem probeRead_wf (f : State → Word × State) (s : State) (hf : ∀ t, storeWf t.store = true → storeWf (f t).2.store = true) (h : storeWf s.store = true) : storeWf (probeRead f s).store = true := by
  unfold probeRead; (repeat' split) <;> first | exact h | simp only [putData_store, hf, h]
theorem windowUse_wf (f : Nat → Nat → State → Word × State) (s : State) (hf : ∀ x0 x1 t, storeWf t.store = true → storeWf (f x0 x1 t).2.store = true) (h : storeWf s.store = true) : storeWf (windowUse f s).2.store = true := by
  unfold windowUse; (repeat' split) <;> first | exact h | simp only [updDbg_store, hf, h]
theorem writeDctl_wf (w : Word) (s : State) (h : storeWf s.store = true) : storeWf (writeDctl w s).store = true := by
  unfold writeDctl
  extract_lets a b c d e f
  have ha : a.store = s.store := by dsimp only [a]; split <;> first | rfl | exact opChal_store _
  have hb : b.store = a.store := by dsimp only [b]; split <;> rfl
  have hc : c.store = b.store := by dsimp only [c]; split <;> first | rfl | exact opHalt_store _ _
  have hd : d.store = c.store := by dsimp only [d]; split <;> first | rfl | exact opPtest_store _ _
  have he : e.store = d.store := by dsimp only [e]; split <;> first | rfl | exact opWake_store _ _
  have hf : f.store = e.store := by dsimp only [f]; split <;> first | rfl | exact opDetach_store _
  have hs : storeWf f.store = true := by rw [hf, he, hd, hc, hb, ha]; exact h
  split
  · exact resetTo_wf _ _ _ _ hs
  · exact hs

theorem writeDbg_wf (a : Nat) (w : Word) (s : State) (h : storeWf s.store = true) : storeWf (writeDbg a w s).store = true := by
  have hw : (windowUse (fun sp off t => (0, writeWin .debug sp off w t)) s).2.store = s.store := windowUse_store _ _ fun x y t => writeWin_store .debug x y w t
  unfold writeDbg
  split
  · exact writeDctl_wf _ _ h
  · exact h
  · exact h
  · rw [hw]; exact h
  · rw [writeDans_store]; exact h
  · rw [writeDpin_store]; exact h
  · exact h

theorem withParity_wf (parity : Bool) (f : State → State) (s : State) (hf : ∀ t, storeWf t.store = true → storeWf (f t).store = true) (h : storeWf s.store = true) : storeWf (withParity parity f s).store = true := by
  unfold withParity; (repeat' split) <;> first | exact h | simp only [hf, h]
theorem orWait_wf (ok : Bool) (s : State) (f : State → State) (hf : ∀ t, storeWf t.store = true → storeWf (f t).store = true) (h : storeWf s.store = true) : storeWf (orWait ok s f).store = true := by
  unfold orWait; (repeat' split) <;> first | exact h | simp only [hf, h]
theorem opAccess_wf (op : DbgOp) (a : Nat) (w : Word) (parity : Bool) (s : State) (h : storeWf s.store = true) : storeWf (opAccess op a w parity s).store = true := by
  have hack : storeWf (ack 4 s).store = true := by rw [ack_store]; exact h
  have hr : ∀ t, storeWf t.store = true → storeWf (probeRead (readDbg a) t).store = true :=
    fun t ht => by rw [probeRead_store _ _ fun u => readDbg_store a u]; exact ht
  have hp : ∀ t, storeWf t.store = true → storeWf (probeRead (readReg .debug (2 * a)) t).store = true :=
    fun t ht => by rw [probeRead_store _ _ fun u => readReg_store _ _ u]; exact ht
  have hw : ∀ t, storeWf t.store = true → storeWf (withParity parity (writeDbg a w) t).store = true :=
    fun t ht => withParity_wf _ _ _ (fun u hu => writeDbg_wf a w u hu) ht
  have hh : ∀ t, storeWf t.store = true → storeWf (withParity parity (writeReg .debug (2 * a) w) t).store = true :=
    fun t ht => withParity_wf _ _ _ (fun u hu => writeReg_wf _ _ w u hu) ht
  cases op with
  | drd =>
    unfold opAccess
    dsimp only
    split
    · exact hack
    · split
      · exact orWait_wf _ _ _ (fun t ht => txn_wf _ _ _ _ t hr ht) h
      · exact txn_wf _ _ _ _ _ hr h
  | dwr =>
    unfold opAccess
    dsimp only
    split
    · exact hack
    · split
      · exact orWait_wf _ _ _ (fun t ht => txn_wf _ _ _ _ t hw ht) h
      · exact txn_wf _ _ _ _ _ hw h
  | hrd =>
    unfold opAccess
    dsimp only
    split
    · exact hack
    · exact orWait_wf _ _ _ (fun t ht => txn_wf _ _ _ _ t hp ht) h
  | hwr =>
    unfold opAccess
    dsimp only
    split
    · exact hack
    · exact orWait_wf _ _ _ (fun t ht => txn_wf _ _ _ _ t hh ht) h

/-- A tick keeps the canonical form. -/
theorem tick_wf (s : State) (h : storeWf s.store = true) : storeWf (tick s).store = true := by
  have hw : storeWf (askedWake s).store = true := askedWake_wf s h
  unfold tick
  dsimp only
  split
  · exact hw
  · split
    · show storeWf (if _ then tickTime (askedWake s) else askedWake s).store = true
      split
      · rw [tickTime_store]; exact hw
      · exact hw
    · exact hw

end Sys2Proof.Machine
end

