-- ==== Sys2Proof/Tests/Slice0.lean ====
section
/-! SUPPORT. Small states, a witness of the hypotheses of every statement, and tests of single steps. -/

namespace Sys2Proof.Tests

open Sys2Proof Sys2Proof.Machine

set_option maxRecDepth 20000

/-! ### States -/

/-- A native device after BOOT_DONE, with FCLK from a judged and locked FCO and an image that permits everything. -/
def ready : State :=
  { State.reset with sys := { boot := 5 }, clk := { fclkOn := true, fcook := true, aocok := true, lrcok := true, tb := 1000000, fll := { lock := true, good := 4 } }, sec := { img := Vector.replicate 64 0xFFFF, ro := true } }

/-- No argument words. -/
def noArgs : Args := ⟨0, 0, 0, 0⟩

/-- A 60 - 2 wheel in SYNC behind tooth 5, 5 000 ticks after its stamp, with a period of 10 000 ticks. -/
def inSync : State :=
  { ready with wheel := { cfgd := true, cfg := { n := 60, m := 2 }, st := .sync, pos := 5, stallFrom := some 995000 }, pred := { th16 := 491520, tk := 995000, ak := 98304, uk := 1706666, nA := 98304, ppred := 10000, havePrev := true, teeth := 200 } }

/-- The same wheel with an enabled sync cam of one rising edge at 40 000 ticks. -/
def withCam : State :=
  { inSync with cams := vupd inSync.cams 0 fun x => { x with en := true, tol := 5, sync := true, edges := [⟨true, 40000⟩] } }

/-- Slot 3 is staged as MARK at 40 000 ticks, with a horizon of 100 and no late window. -/
def slotReady : State :=
  { inSync with sched := { inSync.sched with slots := vupd inSync.sched.slots 3 fun x => { x with staged := { angl := 40000, ctl1 := 0x0700, hor := 100 } } } }

/-- Slot 3 is pending with these words. -/
def slotPending : State :=
  { slotReady with sched := { slotReady.sched with slots := vupd slotReady.sched.slots 3 fun x => { x with live := { angl := 40000, ctl1 := 0x0700, hor := 100 }, st := .pending, ref := .wait 589824 } } }

/-- Its evaluation round has come. -/
def slotDue : State := { slotPending with clk := { slotPending.clk with fcyc := 6 } }

/-- Window 2 of three strobes from 33 000 to 60 000 ticks runs, and a_0 was crossed in this tick. -/
def winOn : State :=
  { inSync with sys := { inSync.sys with oe := true }, sched := { inSync.sched with nowAngle := 33010 }, cpc := { inSync.cpc with wins := vupd inSync.cpc.wins 2 fun x => { x with live := { start := 33000, stop := 60000, count := 3, en := true }, cross := true } } }

/-- Channel 2 is a shaped channel in mode 2 with a scale of 250, in a state, its level high. -/
def shaped (st : ChSt) : State :=
  { ready with sys := { ready.sys with oe := true }, chan := vupd ready.chan 2 fun c => { c with cfg := { c.cfg with mode := 2, scale := 250 }, st := st, drv := true } }

/-- Channel 2 with its pulse and regulation replaced by functions of themselves. -/
def pulsed (f : Pulse → Pulse) (g : Reg → Reg) (s : State) : State := updChan 2 (fun c => { c with pulse := f c.pulse, reg := g c.reg }) s

/-- Line 2 replaced by a function of itself. -/
def lined (f : Line → Line) (s : State) : State := { s with lines := vupd s.lines 2 f }

/-- Channel 2 runs a Brass program, and its issue cycle falls in this tick. -/
def progOn : State :=
  { shaped .prog with clk := { ready.clk with fcyc := 2 }, chan := vupd (shaped .prog).chan 2 fun c => { c with cfg := { c.cfg with mode := 3 }, drv := false, prog := { c.prog with run := true, entry := 1, next := 1 } } }

/-- Its entry holds one instruction. -/
def progAt (w : BitVec 32) : State :=
  { progOn with brass := { progOn.brass with code := vput progOn.brass.code 0 w, dir := vput progOn.brass.dir 1 ⟨0, 2, 0⟩ } }

/-- Channel 2 alone drives, in trip group 1; the others are in group 3. -/
def driven : State :=
  { shaped .peak with trip := { (shaped .peak).trip with group := vput (Vector.replicate 12 3) 2 1 }, pins := { (shaped .peak).pins with outs := Vector.replicate 3 { drv := vput (Vector.replicate 12 false) 2 true } } }

/-- Timer 3 replaced by a function of itself, and selected. -/
def timed (f : Timer → Timer) : State := { ready with tim := { sel := 3, t := vupd ready.tim.t 3 f } }

/-- Channel 1 has its model enabled with a new parameter set and a hot winding, and waiting ambients; the tick falls in this TB tick. -/
def therm1 : State :=
  { ready with therm := { ready.therm with amb := some (320, 100), ch := vupd ready.therm.ch 1 fun c => { c with waiting := some (vput (vput c.live 7 100) 0 0x0801), init := some 2000, e2 := 50 } } }

/-- Source 5 has a severity and an event waits, source 7 another. -/
def faulty (sev : Nat) : State :=
  { ready with flt := { ready.flt with sev := vput ready.flt.sev 5 sev, queue := [⟨0, 5, 0, 9, false⟩, ⟨0, 7, 0, 1, false⟩] } }

/-- An open record and one record of the history. -/
def recorded : State :=
  { ready with flt := { ready.flt with openRec := some ⟨3, 0, 2, 1, 5, 6, 7, 8, 1, 8⟩, hist := [⟨1, 2, 3, 4⟩] } }

/-- A member with number 3 on a locked ring, its clock judged and in use. -/
def joined : State :=
  { inSync with link := { st := .member, node := 3, ringSize := 5, lock := true, credits := Vector.replicate 32 3 }, clk := { inSync.clk with rckok := true, sel := true, srcRck := true } }

/-- The master of a ring of five. -/
def master : State :=
  { inSync with link := { st := .master, lock := true, enumerated := true, ringSize := 5, loopDelay := 130, credits := Vector.replicate 32 3 } }

/-- A member whose mirror is valid and supplies the angle, and whose next record is overdue. -/
def mirrored : State :=
  { joined with link := { joined.link with mir := { p := { joined.pred with tk := 900000 }, pos := 5, cfgOk := true, stateSeen := true, applied := 2, valid := true, rstate := .sync, ring := true, eff := .sync } } }

/-- Key words 0 to 15 are written. -/
def keyed : State :=
  { ready with sec := { ready.sec with keys := vmapi (fun i _ => if i.val < 16 then 0x1234 else 0xFFFF) ready.sec.keys } }

/-- The lifecycle is LOCKED. -/
def locked : State :=
  { keyed with sec := { keyed.sec with keys := vput keyed.sec.keys 16 0x4C4B, lc := 1 } }

/-- A probe is attached. -/
def probed : State :=
  { ready with dbg := { attached := true } }

/-- Tables of an emitted 60 - 2 wheel at 1 000 rev/min over ten steps, with one cam of two edges. -/
def emitSet : State :=
  { ready with emit := { ready.emit with win := vput (vput (vput (vput (vput (vput (vput ready.emit.win 0 0x023C) 1 128) 4 10000) 8 2) 16 8000) 18 20000) 144 10000 |> (vput · 145 10) } }

/-- The emitter runs in the first step of its segment, which ends in this tick. -/
def emitting : State :=
  { emitSet with emit := { emitSet.emit with tab := emitSet.emit.win, run := true, nseg := 1, step := 1, p := 5, t0 := 980000, len := 20000, spd := 10000 } }

/-- The legacy face, its outputs enabled, its decoder in SYNC. -/
def leg : State :=
  { inSync with sys := { face := .legacy, boot := 1 }, leg := { ready := true, oe := true, decen := true, louten := 0xFF } }

/-- Slot 15 is due with an action on channel 7. -/
def legDue (act : Nat) : State :=
  { leg with leg := { leg.leg with slots := vupd leg.leg.slots 15 fun x => { x with armed := true, act := act, ch := 7, lf := 20000 } } }

/-- Channel 7 runs a pulse in a phase that ends in this tick, high in its PWM period. -/
def legIn (st : LChSt) : State :=
  { leg with leg := { leg.leg with ch := vupd leg.leg.ch 7 fun c => { c with st := st, phaseEnd := some 1000000, want := true, highEnd := some 1000000 } } }

/-- The samples of a frame on a quiet line: two high ones, and then four of each bit. -/
def samplesOf (f : BitVec 20) : BitVec 82 := BitVec.ofFnLE fun k : Fin 82 => decide (k.val < 2) || f.getLsbD ((k.val - 2) / 4)

/-- A check of the right answer to the challenge 5, whatever the unique identifier is. -/
def rightCheck : Check := ⟨answerOf (expectedAnswer locked.sec 5), 5, false, true⟩

/-- A check of a wrong one. -/
def wrongCheck : Check := ⟨notBytes (expectedAnswer locked.sec 5), 5, true, false⟩

/-- A check that ends in this tick. -/
def answering (k : Check) : State :=
  { locked with sec := { locked.sec with chk := some k, fails := 254 } }

/-- The expected answer in a check. -/
theorem answering_expected (k : Check) (x : BitVec 128) :
    expectedAnswer (answering k).sec x = expectedAnswer locked.sec x := expectedAnswer_keys _ _ _ rfl

/-- The right one is right. -/
theorem right_is_right : bytesLE 16 rightCheck.answer = expectedAnswer (answering rightCheck).sec rightCheck.chal := by
  rw [answering_expected]
  exact bytesLE_answerOf _ (expectedAnswer_length _ _)

/-- The wrong one is wrong. -/
theorem wrong_is_wrong : bytesLE 16 wrongCheck.answer ≠ expectedAnswer (answering wrongCheck).sec wrongCheck.chal := by
  rw [answering_expected]
  exact bytesLE_notBytes (expectedAnswer locked.sec 5)

/-! ### Witnesses of the hypotheses -/

theorem wit_IdleStepTicks :
    (∃ (s : State), s.pending = [] ∧ s.sys.wakeReq = none ∧ s.sys.dbgRef = none ∧ fclkRuns s = true ∧ s.bus.rdyWait = [] ∧ s.clk.phase = 0) ∧
    (∃ (s : State), s.pending = [] ∧ s.sys.wakeReq = none ∧ s.sys.dbgRef = none ∧ fclkRuns s = true ∧ s.bus.rdyWait = [] ∧ s.clk.phase ≠ 0 ∧ isNative s = true) ∧
    (∃ (s : State), s.pending = [] ∧ s.sys.wakeReq = none ∧ s.sys.dbgRef = none ∧ fclkRuns s = true ∧ s.bus.rdyWait ≠ []) ∧
    (∃ (s : State), s.pending = [] ∧ s.sys.wakeReq = none ∧ s.sys.dbgRef = none ∧ fclkRuns s = false) :=
  ⟨⟨ready, by decide⟩,
   ⟨{ ready with clk := { ready.clk with phase := 3 } }, by decide⟩,
   ⟨{ ready with bus := { ready.bus with rdyWait := [.oeSet] } }, by decide⟩,
   ⟨State.reset, by decide⟩⟩

theorem wit_CommandsKeepQueue : ∃ (c : Instr) (s t : State), exec c s = .next t :=
  ⟨.tbCapture, { ready with pending := [.bootDone] }, _, rfl⟩

theorem wit_StepKeepsMemoryForm : ∃ s t : State, Memory.wf s = true ∧ step s = .next t ∧ s.pending ≠ [] :=
  ⟨{ ready with pending := [.storeCommit noArgs], store := { ready.store with dirty := true, shadow := [(3, 4)] } }, _, by decide, rfl, by decide⟩

theorem wit_MemoryReadsWrites : ∃ (d : Byte) (m : List Host.Cell), cellsFrom d 0 m = true :=
  ⟨0xFF, [(5, 1), (9, 2)], by decide⟩

theorem wit_ResetsStartBoot :
    (∃ (s : State), s.sys.vddioa = true) ∧
    (∃ (s : State), s.sys.vddioa = false) ∧
    (∃ (s : State), s.sys.porHold = true) ∧
    (∃ (s : State), s.sys.porHold = false) ∧
    (∃ (s : State), s.sys.vddioa = true ∧ s.sys.porHold = false) ∧
    (∃ (s : State), regOpen s 0x06 = true ∧ hostBus s = true) ∧
    (∃ (s : State), heard s = true ∧ dbgAnyPower s = true) :=
  ⟨⟨ready, by decide⟩,
   ⟨{ ready with sys := { ready.sys with vddioa := false } }, by decide⟩,
   ⟨{ ready with sys := { ready.sys with vddioa := false, inReset := true, porHold := true } }, by decide⟩,
   ⟨ready, by decide⟩,
   ⟨ready, by decide⟩,
   ⟨ready, by decide⟩,
   ⟨probed, by decide⟩⟩

theorem wit_BootPhases :
    (∃ (s : State), dueB0 s = true) ∧
    (∃ (s : State), inPhase s 1 = true) ∧
    (∃ (s : State), inPhase s 2 = true) ∧
    (∃ (s : State), inPhase s 3 = true ∧ s.sys.stbyWake = false) :=
  ⟨⟨{ State.reset with clk := { State.reset.clk with fcoOn := true, fcook := true } }, by decide⟩,
   ⟨{ ready with sys := { boot := 1 } }, by decide⟩,
   ⟨{ ready with sys := { boot := 2 } }, by decide⟩,
   ⟨{ ready with sys := { boot := 3 } }, by decide⟩⟩

theorem wit_BootDoneAndIdent :
    (∃ (s : State), mboxFree s = true ∧ admitted 0x01 s.mbox.args s = true ∧ s.sys.boot = 4) ∧
    (∃ (s : State), mboxFree s = true ∧ admitted 0x01 s.mbox.args s = true ∧ s.sys.boot = 5) ∧
    (∃ (a : Args) (s : State), mboxFree s = true ∧ admitted 0x02 a s = true ∧ a.a0 = 0) ∧
    (∃ (a : Args) (s : State), mboxFree s = true ∧ admitted 0x02 a s = true ∧ a.a0 = 1) :=
  ⟨⟨{ ready with sys := { boot := 4 } }, by decide⟩,
   ⟨ready, by decide⟩,
   ⟨noArgs, ready, by decide⟩,
   ⟨⟨1, 0, 0, 0⟩, ready, by decide⟩⟩

theorem wit_OutputEnable :
    (∃ (s : State), regOpen s 0x06 = true ∧ hostBus s = true ∧ s.sys.oe = false ∧ s.sys.boot = 5 ∧ s.flt.safe = false ∧ s.dbg.ptest = false ∧ s.trip.tripin = false) ∧
    (∃ (s : State), regOpen s 0x06 = true ∧ hostBus s = true ∧ s.sys.oe = false ∧ s.sys.boot = 5 ∧ s.flt.safe = false ∧ s.dbg.ptest = false ∧ s.trip.tripin = true) ∧
    (∃ (s : State), regOpen s 0x06 = true ∧ hostBus s = true ∧ (s.sys.oe = true ∨ s.flt.safe = true ∨ s.dbg.ptest = true)) ∧
    (∃ (s : State), regOpen s 0x06 = true ∧ hostBus s = true ∧ s.sys.oe = true ∧ s.dbg.ptest = false) :=
  ⟨⟨ready, by decide⟩,
   ⟨{ ready with trip := { ready.trip with tripin := true } }, by decide⟩,
   ⟨{ ready with flt := { ready.flt with safe := true } }, by decide⟩,
   ⟨shaped .hold, by decide⟩⟩

theorem wit_OutputDisable :
    (∃ (s : State), isNative s = true ∧ s.dbg.ptest = false ∧ (s.sys.oe = false ∨ s.clk.fclkOn = false ∨ s.clk.fdReset = true ∨ s.flt.safe = true ∨ blkOn s .chan = false)) ∧
    (∃ (s : State), s.dbg.ptest = true ∧ s.clk.fclkOn = false) ∧
    (∃ (s : State), s.dbg.ptest = true ∧ s.trip.tripin = true) :=
  ⟨⟨ready, by decide⟩,
   ⟨{ ready with dbg := { attached := true, ptest := true, dpin := 0xFFFF }, clk := { ready.clk with fclkOn := false } }, by decide⟩,
   ⟨{ ready with dbg := { attached := true, ptest := true, dpin := 0xFFFF }, trip := { ready.trip with tripin := true } }, by decide⟩⟩

theorem wit_LowPowerRequests :
    (∃ (w : Word) (s : State), regOpen s 0x08 = true ∧ hostBus s = true ∧ refuseReq (withPwrctl w s) false = 0) ∧
    (∃ (w : Word) (s : State), regOpen s 0x08 = true ∧ hostBus s = true ∧ refuseReq (withPwrctl w s) false ≠ 0) ∧
    (∃ (w : Word) (s : State), regOpen s 0x08 = true ∧ hostBus s = true ∧ refuseReq (withPwrctl w s) true = 0) ∧
    (∃ (w : Word) (s : State), regOpen s 0x08 = true ∧ hostBus s = true ∧ refuseReq (withPwrctl w s) true ≠ 0) :=
  ⟨⟨0x04, { ready with sys := { ready.sys with wcrank := true } }, by decide⟩,
   ⟨0, ready, by decide⟩,
   ⟨0x04, ready, by decide⟩,
   ⟨0, ready, by decide⟩⟩

theorem wit_Wakes :
    (∃ (code : Fin 8) (s : State), isNative s = true ∧ s.sys.pwr = .stop ∧ wakes s code.val false false = true) ∧
    (∃ (s : State), isNative s = true ∧ s.sys.pwr = .stop ∧ wakes s 7 false false = true) ∧
    (∃ (s : State), heard s = true ∧ dbgFull s = true ∧ s.sys.pwr = .stop ∧ s.sys.dbgRef = none) ∧
    (∃ (ref : RefEdge) (s : State), s.pending = [] ∧ isNative s = true ∧ s.sys.pwr = .stop ∧ s.sys.dbgRef = some ref) ∧
    (∃ (code : Fin 8) (s : State), s.pending = [] ∧ isNative s = true ∧ s.sys.pwr = .stop ∧ s.sys.dbgRef = none ∧ s.sys.wakeReq = some code.val ∧ wakes s code.val false false = true) ∧
    (∃ (code : Fin 8) (s : State), isNative s = true ∧ wakes s code.val false true = true ∧ s.sys.pwr = .standby) ∧
    (∃ (code : Fin 8) (s : State), isNative s = true ∧ wakes s code.val false true = true ∧ s.sys.pwr = .entering) ∧
    (∃ (code : Fin 8) (s : State), isNative s = true ∧ wakes s code.val false true = false) ∧
    (∃ (rise : Bool) (s : State), isNative s = true ∧ s.sys.inReset = false ∧ s.sys.pwr = .stop ∧ captures s .crank rise = true ∧ s.sys.coarseSeen < 4 ∧ ((s.sys.capture.filter fun e => e.src == .crank).length < 4)) ∧
    (∃ (c : Fin 4) (rise : Bool) (s : State), isNative s = true ∧ s.sys.inReset = false ∧ s.sys.pwr = .stop ∧ captures s (.cam c) rise = true ∧ s.sys.capCams < 16) ∧
    (∃ (s : State), (4 ≤ (s.sys.capture.filter fun e => e.src == .crank).length)) ∧
    (∃ (s : State), 16 ≤ s.sys.capCams) :=
  ⟨⟨3, { ready with sys := { ready.sys with pwr := .stop, wcrank := true }, clk := { ready.clk with fclkOn := false } }, by decide⟩,
   ⟨{ ready with sys := { ready.sys with pwr := .stop, wtmr := true, wtim := 3 }, clk := { ready.clk with fclkOn := false } }, by decide⟩,
   ⟨{ ready with sys := { ready.sys with pwr := .stop }, clk := { ready.clk with fclkOn := false }, dbg := { attached := true } }, by decide⟩,
   ⟨⟨3,4⟩, { ready with sys := { ready.sys with pwr := .stop, dbgRef := some ⟨3,4⟩, wakeReq := some 7 }, clk := { ready.clk with fclkOn := false } }, by decide⟩,
   ⟨3, { ready with sys := { ready.sys with pwr := .stop, wcrank := true, wakeReq := some 3 }, clk := { ready.clk with fclkOn := false } }, by decide⟩,
   ⟨3, { ready with sys := { ready.sys with pwr := .standby, wcrank := true } }, by decide⟩,
   ⟨3, { ready with sys := { ready.sys with pwr := .entering, wcrank := true, wakeLatch := some 5 } }, by decide⟩,
   ⟨4, ready, by decide⟩,
   ⟨true, { ready with sys := { ready.sys with pwr := .stop }, wheel := { cfgd := true } }, by decide⟩,
   ⟨0, true, { withCam with sys := { ready.sys with pwr := .stop, capCams := 15 } }, by decide⟩,
   ⟨{ ready with sys := { ready.sys with pwr := .stop, capture := List.replicate 4 ⟨.crank, true, 3⟩ }, wheel := { cfgd := true } }, by decide⟩,
   ⟨{ withCam with sys := { ready.sys with pwr := .stop, capCams := 16 } }, by decide⟩⟩

theorem wit_SupplyEvents :
    (∃ (s : State), isNative s = true ∧ s.sys.inReset = false ∧ s.sys.pfail = false ∧ s.sys.pwr ≠ .stop ∧ s.store.run = none ∧ s.store.dirty = true) ∧
    (∃ (s : State), isNative s = true ∧ s.sys.inReset = false ∧ s.sys.pfail = false ∧ s.sys.pwr ≠ .stop ∧ (s.store.run.isSome = true ∨ s.store.dirty = false)) ∧
    (∃ (s : State), isNative s = true ∧ s.sys.inReset = false ∧ s.sys.pfail = false ∧ s.sys.pwr = .stop) :=
  ⟨⟨{ ready with store := { ready.store with dirty := true } }, by decide⟩,
   ⟨ready, by decide⟩,
   ⟨{ ready with sys := { ready.sys with pwr := .stop }, clk := { ready.clk with fclkOn := false } }, by decide⟩⟩

theorem wit_ClockSources :
    (∃ (s : State), s.sys.porHold = false ∧ s.clk.aocok = false) ∧
    (∃ (s : State), s.clk.fcoOn = true ∧ s.clk.fcook = false ∧ s.sys.inReset = false ∧ s.sys.pwr = .run) ∧
    (∃ (s : State), supOn s = true ∧ hasRck s = true ∧ s.link.lock = true ∧ s.clk.rckok = false) ∧
    (∃ (s : State), supOn s = true ∧ s.clk.lrcLost = false ∧ s.clk.aocok = true ∧ s.sys.pwr = .run) ∧
    (∃ (s : State), supOn s = true ∧ s.clk.fcoOn = true ∧ s.clk.fcook = true ∧ s.clk.sel = false ∧ s.sys.pwr = .run ∧ s.clk.sup = .run) ∧
    (∃ (s : State), supOn s = true ∧ s.clk.lrcLost = false ∧ s.clk.aocok = true ∧ s.sys.pwr = .stop) ∧
    (∃ (s : State), supOn s = true ∧ s.clk.holdover = true ∧ s.link.lock = false) :=
  ⟨⟨{ ready with clk := { ready.clk with aocok := false } }, by decide⟩,
   ⟨{ ready with clk := { ready.clk with fcook := false } }, by decide⟩,
   ⟨{ ready with link := { st := .forward, lock := true } }, by decide⟩,
   ⟨ready, by decide⟩,
   ⟨ready, by decide⟩,
   ⟨{ ready with sys := { ready.sys with pwr := .stop }, clk := { ready.clk with fclkOn := false } }, by decide⟩,
   ⟨{ ready with clk := { ready.clk with holdover := true, sel := true } }, by decide⟩⟩

theorem wit_RateChecks :
    (∃ (count : Nat) (s : State), supOn s = true ∧ s.clk.fclkOn = true ∧ 866 ≤ count ∧ count ≤ 1296) ∧
    (∃ (count : Nat) (s : State), supOn s = true ∧ s.clk.lrcLost = false ∧ s.sys.pwr = .run ∧ (count < 866 ∨ 1296 < count)) ∧
    (∃ (s : State), liveN s = true ∧ s.clk.lrcLost = false) ∧
    (∃ (s : State), liveN s = true ∧ s.clk.lrcok = false) ∧
    (∃ (s : State), supOn s = true ∧ hasRck s = true ∧ s.clk.rckok = true ∧ s.clk.aocok = true ∧ s.clk.drw ≠ 0 ∧ s.sys.pwr = .run) :=
  ⟨⟨866, ready, by decide⟩,
   ⟨1297, ready, by decide⟩,
   ⟨ready, by decide⟩,
   ⟨{ ready with clk := { ready.clk with lrcok := false } }, by decide⟩,
   ⟨{ ready with link := { st := .forward, lock := true }, clk := { ready.clk with rckok := true } }, by decide⟩⟩

theorem wit_FllWindows :
    (∃ (s : State), s.clk.aocok = true ∧ s.clk.fcoOn = true ∧ s.sys.inReset = false ∧ s.sys.pwr = .run ∧ 0 < s.clk.fll.hold) ∧
    (∃ (count : Nat) (s : State), s.clk.aocok = true ∧ s.clk.fcoOn = true ∧ s.sys.inReset = false ∧ s.sys.pwr = .run ∧ s.clk.fll.hold = 0 ∧ ((count : Int) - 390625).natAbs ≤ 4) ∧
    (∃ (count : Nat) (s : State), s.clk.aocok = true ∧ s.clk.fcoOn = true ∧ s.sys.inReset = false ∧ s.sys.pwr = .run ∧ s.clk.fll.hold = 0 ∧ 80 < ((count : Int) - 390625).natAbs ∧ s.clk.fll.lock = true ∧ s.clk.fll.bad = 1) ∧
    (∃ (count : Nat) (s : State), s.clk.aocok = true ∧ s.clk.fcoOn = true ∧ s.sys.inReset = false ∧ s.sys.pwr = .run ∧ s.clk.fll.hold = 0 ∧ 80 < ((count : Int) - 390625).natAbs ∧ s.clk.fll.lock = true ∧ s.clk.fll.bad = 0) :=
  ⟨⟨{ ready with clk := { ready.clk with fll := { hold := 16 } } }, by decide⟩,
   ⟨390629, { ready with clk := { ready.clk with fll := { good := 3 } } }, by decide⟩,
   ⟨390706, { ready with clk := { ready.clk with fll := { lock := true, bad := 1 } } }, by decide⟩,
   ⟨390544, { ready with clk := { ready.clk with fll := { lock := true, good := 4 } } }, by decide⟩⟩

theorem wit_SwitchesAndStops :
    (∃ (s : State), supOn s = true ∧ s.clk.fclkOn = true ∧ s.sys.odStop = false) ∧
    (∃ (s : State), wantsSwitch s = true) ∧
    (∃ (s : State), supOn s = true ∧ s.clk.sup = .switching ∧ s.clk.fclkOn = true ∧ prefRck s = true) ∧
    (∃ (s : State), supOn s = true ∧ s.clk.sup = .switching ∧ s.clk.fclkOn = true ∧ prefRck s = false ∧ s.clk.fcook = true) ∧
    (∃ (s : State), s.clk.sup = .switching ∧ s.clk.fclkOn = false) :=
  ⟨⟨ready, by decide⟩,
   ⟨{ ready with link := { st := .forward, lock := true }, clk := { ready.clk with rckok := true, srcRck := true } }, by decide⟩,
   ⟨{ ready with link := { st := .forward, lock := true }, clk := { ready.clk with rckok := true, srcRck := true, sup := .switching } }, by decide⟩,
   ⟨{ ready with clk := { ready.clk with sup := .switching, sel := true } }, by decide⟩,
   ⟨{ ready with clk := { ready.clk with sup := .switching, fclkOn := false } }, by decide⟩⟩

theorem wit_Escapes :
    (∃ (rck : Bool) (s : State), supOn s = true ∧ s.clk.sup = .switching ∧ escTarget s = some rck) ∧
    (∃ (s : State), supOn s = true ∧ s.clk.sup = .switching ∧ escTarget s = none) ∧
    (∃ (rck : Bool) (s : State), supOn s = true ∧ s.clk.sup = .held ∧ escTarget s = some rck) ∧
    (∃ (s : State), supOn s = true ∧ s.clk.sup = .held ∧ s.clk.sel = false ∧ s.clk.fcook = false) ∧
    (∃ (s : State), supOn s = true ∧ s.clk.sup = .escape) :=
  ⟨⟨false, { ready with clk := { ready.clk with sup := .switching } }, by decide⟩,
   ⟨{ ready with clk := { ready.clk with sup := .switching, fcook := false, fclkOn := false } }, by decide⟩,
   ⟨true, { ready with link := { st := .forward, lock := true }, clk := { ready.clk with sup := .held, fclkOn := false, rckok := true, srcRck := true } }, by decide⟩,
   ⟨{ ready with clk := { ready.clk with sup := .held, fclkOn := false, fcook := false } }, by decide⟩,
   ⟨{ ready with clk := { ready.clk with sup := .escape, fclkOn := false, fdReset := true, anchor := 999999 } }, by decide⟩⟩

theorem wit_ClockRegisters :
    (∃ (s : State), regOpen s 0x0C = true ∧ hostBus s = true ∧ s.clk.sup = .switching) ∧
    (∃ (s : State), regOpen s 0x0C = true ∧ hostBus s = true ∧ s.clk.sup ≠ .switching) ∧
    (∃ (s : State), supRead s = true ∧ hostBus s = true ∧ s.clk.fclkOn = true) ∧
    (∃ (s : State), supRead s = true ∧ hostBus s = true ∧ s.clk.fclkOn = false) ∧
    (∃ (s : State), regOpen s 0x10 = true ∧ hostBus s = true) ∧
    (∃ (b : Fin 7) (s : State), dueGate s b = true) :=
  ⟨⟨{ ready with clk := { ready.clk with sup := .switching } }, by decide⟩,
   ⟨ready, by decide⟩,
   ⟨{ ready with clk := { ready.clk with esc := true } }, by decide⟩,
   ⟨{ ready with clk := { ready.clk with fclkOn := false, esc := true } }, by decide⟩,
   ⟨ready, by decide⟩,
   ⟨3, { ready with clk := { ready.clk with gateen := 0x77 } }, by decide⟩⟩

theorem wit_FrequencyMeter :
    (∃ (s : State), regOpen s 0x12 = true ∧ hostBus s = true ∧ blkOn s .fm = true) ∧
    (∃ (s : State), regOpen s 0x12 = true ∧ hostBus s = true ∧ blkOn s .fm = true) ∧
    (∃ (s : State), liveN s = true ∧ blkOn s .fm = true ∧ s.clk.fm.busy = true) ∧
    (∃ (s : State), regOpen s 0x12 = true ∧ hostBus s = true ∧ blkOn s .fm = false) :=
  ⟨⟨ready, by decide⟩,
   ⟨ready, by decide⟩,
   ⟨{ ready with clk := { ready.clk with fm := { busy := true } } }, by decide⟩,
   ⟨{ ready with clk := { ready.clk with gateEff := 0x3F } }, by decide⟩⟩

theorem wit_CrankEdges :
    (∃ (stamp : Tb) (s : State), s.emit.run = false ∧ captureOn s = false ∧ s.pins.crankWait = none ∧ 2 * tbSince stamp s.clk.tb < filterLen s) ∧
    (∃ (stamp : Tb) (was : Tb) (s : State), s.emit.run = false ∧ captureOn s = false ∧ s.pins.crankWait = some (s.wheel.cfg.edge, was) ∧ 2 * tbSince was stamp < filterLen s) ∧
    (∃ (stamp : Tb) (s : State), s.emit.run = true ∧ s.emit.loop = false ∧ captureOn s = false ∧ s.pins.crankWait = none ∧ filterLen s ≤ 2 * tbSince stamp s.clk.tb) ∧
    (∃ (stamp : Tb) (s : State), wheelLive s = true ∧ crankPasses stamp s = true ∧ s.sys.coarse = false ∧ s.wheel.polNext = none ∧ s.wheel.pulse = none ∧ s.wheel.dirPulse = false ∧ s.wheel.st = .nosync ∧ s.wheel.tPrev = none ∧ s.wheel.tFine = none) ∧
    (∃ (s : State), wheelLive s = true ∧ s.emit.run = false ∧ s.sys.coarse = true ∧ s.sys.coarseOff = false ∧ s.sys.coarseSeen = 0 ∧ s.wheel.polNext = none ∧ s.wheel.pulse = none ∧ s.wheel.dirPulse = false ∧ s.wheel.st = .nosync ∧ s.wheel.tPrev = none) ∧
    (∃ (stamp : Tb) (s : State), wheelLive s = true ∧ crankPasses stamp s = true ∧ s.sys.coarse = true ∧ s.sys.coarseOff = true ∧ s.sys.coarseSeen = 0 ∧ s.wheel.polNext = none ∧ s.wheel.pulse = none ∧ s.wheel.dirPulse = false ∧ s.wheel.st = .nosync ∧ s.wheel.tPrev = none) ∧
    (∃ (stamp : Tb) (t0 : Tb) (p1 : Nat) (p0 : Nat) (r : List Nat) (s : State), wheelLive s = true ∧ isNative s = true ∧ crankPasses stamp s = true ∧ s.sys.coarse = false ∧ s.wheel.polNext = none ∧ s.wheel.pulse = none ∧ s.wheel.dirPulse = false ∧ s.wheel.st = .nosync ∧ s.wheel.stallF = false ∧ s.wheel.tPrev = some t0 ∧ s.wheel.tFine = some t0 ∧ s.wheel.periods = p1 :: p0 :: r ∧ 300000 ≤ tbSince t0 stamp * s.wheel.cfg.n ∧ 7 * (s.wheel.cfg.m + 1) * p0 ≤ 10 * p1 ∧ 7 * (s.wheel.cfg.m + 1) * tbSince t0 stamp ≤ 10 * p1) ∧
    (∃ (stamp : Tb) (t0 : Tb) (p1 : Nat) (p0 : Nat) (hf : Nat) (r : List Nat) (s : State), wheelLive s = true ∧ isNative s = true ∧ crankPasses stamp s = true ∧ s.sys.coarse = false ∧ s.wheel.polNext = none ∧ s.wheel.pulse = none ∧ s.wheel.dirPulse = false ∧ s.wheel.st = .limp ∧ s.wheel.stallF = false ∧ s.wheel.tPrev = some t0 ∧ s.wheel.tFine = some t0 ∧ s.wheel.periods = p1 :: p0 :: r ∧ 300000 ≤ tbSince t0 stamp * s.wheel.cfg.n ∧ 7 * (s.wheel.cfg.m + 1) * p0 ≤ 10 * p1 ∧ 7 * (s.wheel.cfg.m + 1) * tbSince t0 stamp ≤ 10 * p1 ∧ limpHalf s stamp = some hf) ∧
    (∃ (stamp : Tb) (s : State), wheelLive s = true ∧ isNative s = true ∧ crankPasses stamp s = true ∧ s.sys.coarse = false ∧ s.wheel.pulse = none ∧ s.wheel.dirPulse = false ∧ s.wheel.st = .confirm ∧ s.wheel.bare = false ∧ s.wheel.polNext = none ∧ s.wheel.pos < lastPos s.wheel.cfg ∧ s.wheel.confcnt < 15 ∧ s.wheel.pol.badlo * s.pred.ppred ≤ 20 * tbSince s.pred.tk stamp ∧ 300000 ≤ tbSince s.pred.tk stamp * s.wheel.cfg.n) ∧
    (∃ (stamp : Tb) (s : State), wheelLive s = true ∧ isNative s = true ∧ crankPasses stamp s = true ∧ s.sys.coarse = false ∧ s.wheel.pulse = none ∧ s.wheel.dirPulse = false ∧ s.wheel.st = .sync ∧ s.wheel.bare = false ∧ s.wheel.polNext = none ∧ s.wheel.pos = lastPos s.wheel.cfg ∧ s.geom.ready = false ∧ s.wheel.pol.badlo * s.pred.ppred ≤ 20 * tbSince s.pred.tk stamp ∧ 300000 * (s.wheel.cfg.m + 1) ≤ tbSince s.pred.tk stamp * s.wheel.cfg.n ∧ 7 * (s.wheel.cfg.m + 1) * s.wheel.lastP ≤ 10 * tbSince s.pred.tk stamp) ∧
    (∃ (stamp : Tb) (s : State), wheelLive s = true ∧ isNative s = true ∧ crankPasses stamp s = true ∧ s.sys.coarse = false ∧ s.wheel.pulse = none ∧ s.wheel.dirPulse = false ∧ s.wheel.st = .sync ∧ s.wheel.bare = false ∧ s.wheel.polNext = none ∧ s.wheel.pos = lastPos s.wheel.cfg ∧ s.wheel.pol.badlo * s.pred.ppred ≤ 20 * tbSince s.pred.tk stamp ∧ 300000 * (s.wheel.cfg.m + 1) ≤ tbSince s.pred.tk stamp * s.wheel.cfg.n ∧ 10 * tbSince s.pred.tk stamp < 7 * (s.wheel.cfg.m + 1) * s.wheel.lastP) ∧
    (∃ (stamp : Tb) (s : State), wheelLive s = true ∧ isNative s = true ∧ crankPasses stamp s = true ∧ s.sys.coarse = false ∧ s.wheel.pulse = none ∧ s.wheel.dirPulse = false ∧ s.wheel.st = .sync ∧ s.wheel.bare = false ∧ s.wheel.stallF = false ∧ s.wheel.polNext = none ∧ s.wheel.pos < lastPos s.wheel.cfg ∧ s.wheel.pol.badlo * s.pred.ppred ≤ 20 * tbSince s.pred.tk stamp ∧ 300000 ≤ tbSince s.pred.tk stamp * s.wheel.cfg.n) ∧
    (∃ (stamp : Tb) (s : State), wheelLive s = true ∧ isNative s = true ∧ crankPasses stamp s = true ∧ s.sys.coarse = false ∧ s.wheel.pulse = none ∧ s.wheel.dirPulse = false ∧ s.wheel.st = .sync ∧ s.wheel.bare = false ∧ s.wheel.polNext = none ∧ s.wheel.pos < lastPos s.wheel.cfg ∧ s.wheel.pol.badlo * s.pred.ppred ≤ 20 * tbSince s.pred.tk stamp ∧ tbSince s.pred.tk stamp * s.wheel.cfg.n < 300000) ∧
    (∃ (stamp : Tb) (s : State), wheelLive s = true ∧ isNative s = true ∧ crankPasses stamp s = true ∧ s.sys.coarse = false ∧ s.wheel.pulse = none ∧ s.wheel.dirPulse = false ∧ s.wheel.st = .sync ∧ s.wheel.bare = false ∧ s.wheel.polNext = none ∧ s.wheel.badRun = 0 ∧ 20 * tbSince s.pred.tk stamp < s.wheel.pol.badlo * s.pred.ppred) :=
  ⟨⟨1000000, { inSync with wheel := { inSync.wheel with cfg := { inSync.wheel.cfg with filter := 4 } } }, by decide⟩,
   ⟨1000000, 999999, { inSync with wheel := { inSync.wheel with cfg := { inSync.wheel.cfg with filter := 4 } }, pins := { inSync.pins with crankWait := some (false, 999999) } }, by decide⟩,
   ⟨1000000, { inSync with emit := { inSync.emit with run := true } }, by decide⟩,
   ⟨1000000, { ready with wheel := { cfgd := true, cfg := { n := 60, m := 2 } } }, by decide⟩,
   ⟨{ ready with wheel := { cfgd := true, cfg := { n := 60, m := 2 } }, sys := { ready.sys with coarse := true } }, by decide⟩,
   ⟨1000000, { ready with wheel := { cfgd := true, cfg := { n := 60, m := 2 } }, sys := { ready.sys with coarse := true, coarseOff := true } }, by decide⟩,
   ⟨1000000, 990000, 30000, 10000, [], { ready with wheel := { cfgd := true, cfg := { n := 60, m := 2 }, tPrev := some 990000, tFine := some 990000, periods := [30000, 10000] } }, by decide⟩,
   ⟨1000000, 990000, 30000, 10000, 0, [], { inSync with wheel := { inSync.wheel with st := .limp, tPrev := some 990000, tFine := some 990000, periods := [30000, 10000] }, pred := { inSync.pred with th16 := 16 * 6144, ak := 0, uk := 0 } }, by decide⟩,
   ⟨1000000, { inSync with wheel := { inSync.wheel with st := .confirm, confcnt := 1 }, pred := { inSync.pred with tk := 990000 } }, by decide⟩,
   ⟨1000000, { inSync with wheel := { inSync.wheel with pos := 57, lastP := 10000 }, pred := { inSync.pred with tk := 970000 } }, by decide⟩,
   ⟨1000000, { inSync with wheel := { inSync.wheel with pos := 57, lastP := 20000 }, pred := { inSync.pred with tk := 970000 } }, by decide⟩,
   ⟨1000000, { inSync with pred := { inSync.pred with tk := 994999 } }, by decide⟩,
   ⟨999999, { inSync with pred := { inSync.pred with ppred := 100 } }, by decide⟩,
   ⟨999999, inSync, by decide⟩⟩

theorem wit_LateTeeth :
    (∃ (s : State), dueLate s = false) ∧
    (∃ (s : State), dueLate s = true ∧ isNative s = true ∧ s.wheel.st = .sync ∧ s.wheel.badRun = 0 ∧ s.wheel.syncnt < s.wheel.pol.syncap ∧ s.emit.run = false ∧ s.wheel.pos < lastPos s.wheel.cfg) ∧
    (∃ (s : State), dueLate s = true ∧ isNative s = true ∧ s.wheel.st = .sync ∧ 1 ≤ s.wheel.badRun) :=
  ⟨⟨inSync, by decide⟩,
   ⟨{ inSync with clk := { inSync.clk with tb := 1011001 } }, by decide⟩,
   ⟨{ inSync with clk := { inSync.clk with tb := 1011001 }, wheel := { inSync.wheel with badRun := 1 } }, by decide⟩⟩

theorem wit_DirectionAndTimeouts :
    (∃ (stamp : Tb) (s : State), crankPasses stamp s = true ∧ (wheelLive s = false ∨ s.wheel.dirPulse = false ∨ s.wheel.pulse = none)) ∧
    (∃ (stamp : Tb) (open_ : Tb) (per : Nat) (s : State), wheelLive s = true ∧ crankPasses stamp s = true ∧ s.wheel.dirPulse = true ∧ s.wheel.pulse = some (open_, per) ∧ s.wheel.st = .sync ∧ decide (s.wheel.thresh ≤ tbSince open_ stamp) = s.wheel.sense) ∧
    (∃ (stamp : Tb) (open_ : Tb) (per : Nat) (s : State), wheelLive s = true ∧ isNative s = true ∧ crankPasses stamp s = true ∧ s.wheel.dirPulse = true ∧ s.wheel.pulse = some (open_, per) ∧ s.wheel.st = .sync ∧ decide (s.wheel.thresh ≤ tbSince open_ stamp) = !s.wheel.sense) ∧
    (∃ (s : State), dueStall s = true ∧ s.wheel.st = .nosync ∧ s.wheel.pol.limpen = false) ∧
    (∃ (s : State), dueStall s = true ∧ isNative s = true ∧ s.wheel.st = .sync) ∧
    (∃ (s : State), dueStall s = false) ∧
    (∃ (s : State), dueLimp s = true ∧ isNative s = true) ∧
    (∃ (s : State), dueLimp s = false) :=
  ⟨⟨5, { inSync with wheel := { inSync.wheel with dirPulse := true } }, by decide⟩,
   ⟨1000999, 995000, 10000, { inSync with wheel := { inSync.wheel with dirPulse := true, pulse := some (995000, 10000) } }, by decide⟩,
   ⟨1001000, 995000, 10000, { inSync with wheel := { inSync.wheel with dirPulse := true, pulse := some (995000, 10000) } }, by decide⟩,
   ⟨{ inSync with wheel := { inSync.wheel with st := .nosync }, clk := { inSync.clk with tb := 50995000 } }, by decide⟩,
   ⟨{ inSync with clk := { inSync.clk with tb := 50995000 } }, by decide⟩,
   ⟨{ inSync with clk := { inSync.clk with tb := 50994999 } }, by decide⟩,
   ⟨{ inSync with wheel := { inSync.wheel with st := .limp, limpAt := 990000, limpPred := 7999 } }, by decide⟩,
   ⟨inSync, by decide⟩⟩

theorem wit_CamEdges :
    (∃ (c : Fin 4) (stamp : Tb) (s : State), s.emit.run = false ∧ captureOn s = false ∧ s.pins.camWait[c] = none ∧ 2 * tbSince stamp s.clk.tb < filterLen s) ∧
    (∃ (c : Fin 4) (stamp : Tb) (s : State), camPasses c stamp s = true ∧ s.cams[c].en = false) ∧
    (∃ (c : Fin 4) (rise : Bool) (stamp : Tb) (s : State), wheelLive s = true ∧ isNative s = true ∧ camPasses c stamp s = true ∧ s.sys.coarse = false ∧ s.cams[c].en = true ∧ s.cams[c].sync = true ∧ s.cams[c].uses rise = true ∧ bit s.cpc.cams[c].cfg 0 = false ∧ s.wheel.st = .gap ∧ s.wheel.cfg.two = false ∧ s.wheel.pol.gapverify = false ∧ matchesAny 737280 s.cams[c] rise (camAngle s (16 * 368640) stamp) = true ∧ matchesAny 737280 s.cams[c] rise (camAngle s (16 * 368640) stamp + 368640) = false) ∧
    (∃ (c : Fin 4) (rise : Bool) (stamp : Tb) (s : State), wheelLive s = true ∧ isNative s = true ∧ camPasses c stamp s = true ∧ s.sys.coarse = false ∧ s.cams[c].en = true ∧ s.cams[c].sync = true ∧ s.cams[c].uses rise = true ∧ bit s.cpc.cams[c].cfg 0 = false ∧ s.wheel.st = .sync ∧ s.wheel.pol.camloss = false ∧ matchesAny (cycC s.wheel.cfg) s.cams[c] rise (camAngle s (cyc16 s.wheel.cfg) stamp) = false) ∧
    (∃ (i : Fin 16) (s : State), dueClose s i = true ∧ s.wheel.winHit[i] = true) ∧
    (∃ (i : Fin 16) (s : State), dueClose s i = true ∧ s.wheel.winHit[i] = false ∧ s.wheel.pol.camloss = false) ∧
    (∃ (i : Fin 16) (s : State), dueClose s i = true ∧ s.wheel.winHit[i] = false ∧ s.wheel.pol.camloss = true) ∧
    (∃ (i : Fin 16) (s : State), dueClose s i = false) :=
  ⟨⟨2, 1000000, { ready with wheel := { ready.wheel with cfg := { ready.wheel.cfg with filter := 4 } } }, by decide⟩,
   ⟨2, 5, ready, by decide⟩,
   ⟨0, true, 1003000, { withCam with clk := { withCam.clk with tb := 1003000 }, wheel := { withCam.wheel with st := .gap } }, by decide⟩,
   ⟨0, true, 1000000, { withCam with cams := vupd withCam.cams 0 fun x => { x with edges := [⟨true, 200000⟩] } }, by decide⟩,
   ⟨0, { withCam with wheel := { withCam.wheel with prevAngle := 45000, nowAngle := 45121, winHit := Vector.replicate 16 true } }, by decide⟩,
   ⟨0, { withCam with wheel := { withCam.wheel with prevAngle := 45000, nowAngle := 45121 } }, by decide⟩,
   ⟨0, { withCam with wheel := { withCam.wheel with prevAngle := 45000, nowAngle := 45121, pol := { camloss := true } } }, by decide⟩,
   ⟨0, withCam, by decide⟩⟩

theorem wit_WheelCommands :
    (∃ (a : Args) (s : State), mboxFree s = true ∧ admitted 0x08 a s = true ∧ wheelArgsOk a = true ∧ 368640 % (wheelOf a).n = 0 ∧ 6 + (wheelOf a).m ≤ (wheelOf a).n ∧ ((wheelOf a).two = s.wheel.cfg.two ∨ strokeFree s = true)) ∧
    (∃ (a : Args) (s : State), mboxFree s = true ∧ admitted 0x08 a s = true ∧ wheelArgsOk a = true ∧ 368640 % (wheelOf a).n ≠ 0) ∧
    (∃ (a : Args) (s : State), mboxFree s = true ∧ admitted 0x08 a s = true ∧ wheelArgsOk a = true ∧ 368640 % (wheelOf a).n = 0 ∧ 6 + (wheelOf a).m ≤ (wheelOf a).n ∧ (wheelOf a).two ≠ s.wheel.cfg.two ∧ strokeFree s = false) ∧
    (∃ (a : Args) (s : State), mboxFree s = true ∧ admitted 0x08 a s = true ∧ wheelArgsOk a = false) ∧
    (∃ (a : Args) (s : State), mboxFree s = true ∧ admitted 0x09 a s = true ∧ bit a.a0 15 = false ∧ within a.a0 0x7F = true ∧ within a.a2 0xF = true ∧ a.a1.toNat + 65536 * a.a2.toNat < cycC s.wheel.cfg) ∧
    (∃ (a : Args) (s : State), mboxFree s = true ∧ admitted 0x09 a s = true ∧ bit a.a0 15 = true ∧ bit a.a0 10 = false ∧ within a.a0 0x87FF = true ∧ fld a.a0 3 2 ≠ 3 ∧ 1 ≤ a.a1.toNat ∧ a.a1.toNat ≤ 90 ∧ (camChecks a s).all id = true) ∧
    (∃ (a : Args) (s : State), mboxFree s = true ∧ admitted 0x09 a s = true ∧ bit a.a0 15 = true ∧ bit a.a0 10 = true ∧ within a.a0 0x87FF = true ∧ fld a.a0 3 2 ≠ 3 ∧ 1 ≤ a.a1.toNat ∧ a.a1.toNat ≤ 90 ∧ (camChecks a s).all id = true) :=
  ⟨⟨⟨0x023C, 4, 0, 0⟩, ready, by decide⟩,
   ⟨⟨0x0239, 4, 0, 0⟩, ready, by decide⟩,
   ⟨⟨0x063C, 4, 0, 0⟩, withCam, by decide⟩,
   ⟨⟨0x0207, 4, 0, 0⟩, ready, by decide⟩,
   ⟨⟨0x0046, 40000, 0, 0⟩, inSync, by decide⟩,
   ⟨⟨0x8024, 90, 0, 0⟩, { inSync with cams := vupd inSync.cams 0 fun x => { x with staged := vput x.staged 0 (some ⟨true, 40000⟩) } }, by decide⟩,
   ⟨⟨0x8424, 5, 0, 0⟩, { inSync with cams := vupd inSync.cams 0 fun x => { x with staged := vput x.staged 0 (some ⟨true, 40000⟩) } }, by decide⟩⟩

theorem wit_DecoderCommands :
    (∃ (a : Args) (s : State), mboxFree s = true ∧ admitted 0x0A a s = true ∧ policyArgsOk a = true ∧ (policyOf a).limpen = false ∧ s.wheel.st ≠ .limp) ∧
    (∃ (a : Args) (s : State), mboxFree s = true ∧ admitted 0x0A a s = true ∧ policyArgsOk a = true ∧ (policyOf a).limpen = true ∧ syncCam s = none) ∧
    (∃ (a : Args) (s : State), mboxFree s = true ∧ admitted 0x0B a s = true ∧ within a.a0 3 = true ∧ a.a1 ≠ 0) ∧
    (∃ (a : Args) (s : State), mboxFree s = true ∧ admitted 0x32 a s = true ∧ within a.a0 0xFF1F = true ∧ fld a.a0 0 2 < 3 ∧ fld a.a0 8 8 ≠ 0 ∧ within a.a1 0xFF1F = true ∧ fld a.a1 0 5 ≠ 0 ∧ fld a.a1 0 5 ≤ 16 ∧ fld a.a1 8 8 ≠ 0 ∧ within a.a2 0x7FFF = true ∧ a.a2 ≠ 0) :=
  ⟨⟨⟨0x0C0A ||| 0x0280, 0x3203, 0, 0⟩, inSync, by decide⟩,
   ⟨⟨0x0C0A ||| 0x0280, 0x3243, 0, 0⟩, inSync, by decide⟩,
   ⟨⟨3, 6000, 0, 0⟩, inSync, by decide⟩,
   ⟨⟨0x101D, 0x0510, 3277, 0⟩, inSync, by decide⟩⟩

theorem wit_SlotCommands :
    (∃ (i : Fin 64) (w : Word) (s : State), hostBus s = true ∧ winOpen s 1 = true ∧ slotWritable s i.val = true ∧ bit w 1 = false ∧ (refuseReason s { s.sched.slots[i].staged with ctl2 := w &&& 0x1C } = 0) ∧ s.sched.slots[i].st ≠ .armed ∧ takeRef s { s.sched.slots[i].staged with ctl2 := w &&& 0x1C } ≠ .late) ∧
    (∃ (i : Fin 64) (w : Word) (s : State), hostBus s = true ∧ winOpen s 1 = true ∧ slotWritable s i.val = true ∧ bit w 1 = false ∧ bit w 3 = false ∧ (refuseReason s { s.sched.slots[i].staged with ctl2 := w &&& 0x1C } = 0) ∧ s.sched.slots[i].st = .retired ∧ (takeRef s { s.sched.slots[i].staged with ctl2 := w &&& 0x1C } = .late) ∧ (permitted s { s.sched.slots[i].staged with ctl2 := w &&& 0x1C } = true) ∧ (∀ k : Fin 13, sepOthers s i k.val = [])) ∧
    (∃ (i : Fin 64) (w : Word) (s : State), hostBus s = true ∧ winOpen s 1 = true ∧ slotWritable s i.val = true ∧ bit w 1 = false ∧ (refuseReason s { s.sched.slots[i].staged with ctl2 := w &&& 0x1C } = 0) ∧ s.sched.slots[i].st = .armed) ∧
    (∃ (i : Fin 64) (w : Word) (s : State), hostBus s = true ∧ winOpen s 1 = true ∧ slotWritable s i.val = true ∧ bit w 1 = false ∧ refuseReason s { s.sched.slots[i].staged with ctl2 := w &&& 0x1C } ≠ 0 ∧ (laterRecs (recRank 5 i.val (refuseReason s { s.sched.slots[i].staged with ctl2 := w &&& 0x1C })) s = 0) ∧ s.rpt.fifo.length < 128) ∧
    (∃ (i : Fin 64) (s : State), hostBus s = true ∧ winOpen s 1 = true ∧ slotWritable s i.val = true ∧ s.flt.safe = false ∧ s.sched.slots[i].st = .pending ∧ laterRecs (recRank 4 i.val 3) s = 0 ∧ s.rpt.fifo.length < 128) ∧
    (∃ (i : Fin 64) (s : State), hostBus s = true ∧ winOpen s 1 = true ∧ slotWritable s i.val = true ∧ s.flt.safe = false ∧ s.sched.slots[i].st = .armed ∧ s.sched.slots[i].live.begins = true ∧ laterRecs (recRank 4 i.val (11 + b2n (bit s.sched.slots[i].cyc 0) 5)) s = 0 ∧ s.rpt.fifo.length < 128) ∧
    (∃ (i : Fin 64) (s : State), hostBus s = true ∧ winOpen s 1 = true ∧ slotWritable s i.val = true ∧ s.flt.safe = false ∧ s.sched.slots[i].st = .armed ∧ s.sched.slots[i].live.begins = false) ∧
    (∃ (i : Fin 64) (s : State), hostBus s = true ∧ winOpen s 1 = true ∧ slotWritable s i.val = true ∧ s.flt.safe = false ∧ s.sched.slots[i].st = .pending ∧ laterRecs (recRank 4 i.val 3) s = 0 ∧ 128 ≤ s.rpt.fifo.length) ∧
    (∃ (i : Fin 64) (s : State), hostBus s = true ∧ winOpen s 1 = true ∧ slotWritable s i.val = true ∧ (s.flt.safe = true ∨ s.sched.slots[i].st = .empty ∨ s.sched.slots[i].st = .retired)) ∧
    (∃ (s : State), hostBus s = true ∧ busUp s = false) ∧
    (∃ (s : State), hostBus s = true ∧ busUp s = true ∧ winOpen s 1 = false) ∧
    (∃ (i : Fin 64) (s : State), hostBus s = true ∧ winOpen s 1 = true ∧ slotWritable s i.val = false) :=
  ⟨⟨3, 0x15, slotReady, by decide⟩,
   ⟨3, 0x05, { slotReady with sched := { slotReady.sched with slots := vupd slotReady.sched.slots 3 fun x => { x with st := .retired, staged := { x.staged with angl := 30000, hor := 0xFF64 } } } }, by decide⟩,
   ⟨3, 0x15, { slotReady with sched := { slotReady.sched with slots := vupd slotReady.sched.slots 3 fun x => { x with st := .armed } } }, by decide⟩,
   ⟨3, 0x15, ready, by decide⟩,
   ⟨3, slotPending, by decide⟩,
   ⟨3, { slotPending with sched := { slotPending.sched with slots := vupd slotPending.sched.slots 3 fun x => { x with st := .armed, cyc := 1 } } }, by decide⟩,
   ⟨3, { slotPending with sched := { slotPending.sched with slots := vupd slotPending.sched.slots 3 fun x => { x with st := .armed, live := { ctl1 := 0x0490 }, waiting := some {} } } }, by decide⟩,
   ⟨3, { slotPending with rpt := { fifo := List.replicate 128 {}, lost := 63 } }, by decide⟩,
   ⟨3, slotReady, by decide⟩,
   ⟨State.reset, by decide⟩,
   ⟨{ slotPending with sys := { slotPending.sys with boot := 4 } }, by decide⟩,
   ⟨63, { ready with sec := { ready.sec with img := Vector.replicate 64 0 } }, by decide⟩⟩

theorem wit_SlotEvents :
    (∃ (i : Fin 64) (a : Tb) (l : Bool) (d : Nat) (s : State), dueEval s i = true ∧ s.sched.slots[i].ref = .wait d ∧ distC s s.sched.slots[i].live.target ≤ d + cyc16 s.wheel.cfg / 2 ∧ commitTest s s.sched.slots[i].live = some (a, l) ∧ (∀ k : Fin 13, sepOthers s i k.val = [])) ∧
    (∃ (i : Fin 64) (d : Nat) (s : State), dueEval s i = true ∧ s.sched.slots[i].ref = .wait d ∧ distC s s.sched.slots[i].live.target ≤ d + cyc16 s.wheel.cfg / 2 ∧ commitTest s s.sched.slots[i].live = none) ∧
    (∃ (i : Fin 64) (s : State), dueEval s i = false) ∧
    (∃ (i : Fin 64) (s : State), dueFire s i = true ∧ s.sched.slots[i].live.act = 7 ∧ s.sched.slots[i].waiting = none ∧ s.sched.slots[i].live.rep = false ∧ s.sched.slots[i].live.noRep = false ∧ laterRecs (recRank 1 i.val (b2n s.sched.slots[i].shift 1 + b2n (bit s.sched.slots[i].cyc 0) 5)) s = 0 ∧ s.rpt.fifo.length < 128 ∧ s.sched.slots[i].atb = s.clk.tb ∧ s.sched.slots[i].late = false) ∧
    (∃ (i : Fin 64) (n : Fin 12) (s : State), dueFire s i = true ∧ s.sched.slots[i].live.act = 3 ∧ s.sched.slots[i].live.chan = n.val ∧ s.sched.slots[i].waiting = none ∧ s.sched.slots[i].live.rep = false ∧ s.sys.oe = true ∧ s.dbg.ptest = false ∧ blkOn s .chan = true ∧ paired s n.val = false ∧ s.diag.test = none ∧ s.chan[n].cfg.mode = 1 ∧ s.chan[n].st = .low ∧ s.chan[n].drv = false ∧ s.chan[n].own = false ∧ s.chan[n].cont = false ∧ groupLatched s n = false) ∧
    (∃ (i : Fin 64) (s : State), dueFire s i = false) ∧
    (∃ (s : State), dueCycle s = true ∧ effSync s = .sync ∧ laterRecs (recRank 3 0 3) s = 0 ∧ s.rpt.fifo.length < 128) ∧
    (∃ (r : Quad) (pre : List Quad) (s : State), dueCycle s = true ∧ effSync s = .sync ∧ laterRecs (recRank 3 0 3) s = 1 ∧ s.rpt.fifo = pre ++ [r] ∧ r.w1 = s.sched.seq - 1 ∧ s.rpt.fifo.length < 128) ∧
    (∃ (s : State), dueCycle s = false) ∧
    (∃ (n : Fin 12) (s : State), duePulseEnd s n = true) ∧
    (∃ (n : Fin 12) (s : State), duePulseEnd s n = false) :=
  ⟨⟨3, 1010104, false, 589824, slotDue, by decide⟩,
   ⟨3, 589824, { slotDue with sched := { slotDue.sched with slots := vupd slotDue.sched.slots 3 fun x => { x with live := { x.live with hor := 1 } } } }, by decide⟩,
   ⟨3, ready, by decide⟩,
   ⟨3, { inSync with sched := { inSync.sched with slots := vupd inSync.sched.slots 3 fun x => { x with st := .armed, atb := 1000000, live := { ctl1 := 0x0700, hor := 10 } } } }, by decide⟩,
   ⟨3, 9, { inSync with sys := { inSync.sys with oe := true }, chan := vupd inSync.chan 9 (fun c => { c with cfg := { c.cfg with mode := 1 }, st := .low }), sched := { inSync.sched with slots := vupd inSync.sched.slots 3 fun x => { x with st := .armed, atb := 999999, live := { ctl1 := 0x0390, hor := 10 } } } }, by decide⟩,
   ⟨3, ready, by decide⟩,
   ⟨{ inSync with sched := { inSync.sched with prevAngle := 737200, nowAngle := 100 } }, by decide⟩,
   ⟨⟨1, 8, 3, 4⟩, [⟨5, 7, 7, 8⟩], { inSync with sched := { inSync.sched with prevAngle := 737200, nowAngle := 100, seq := 9, ranks := [6144], ranksAt := 1000000 }, rpt := { fifo := [⟨5, 7, 7, 8⟩, ⟨1, 8, 3, 4⟩] } }, by decide⟩,
   ⟨{ inSync with sched := { inSync.sched with prevAngle := 368740, nowAngle := 100 } }, by decide⟩,
   ⟨9, { ready with chan := vupd ready.chan 9 (fun c => { c with cfg := { c.cfg with mode := 1 }, st := .high, drv := true, pulse := { pulseEnd := some 1000000 } }) }, by decide⟩,
   ⟨9, ready, by decide⟩⟩

theorem wit_ReportReads :
    (∃ (q : Quad) (rest : List Quad) (s : State), hostBus s = true ∧ busUp s = true ∧ s.rpt.wptr = 0 ∧ s.rpt.fifo = q :: rest ∧ droppedNow s = []) ∧
    (∃ (s : State), hostBus s = true ∧ busUp s = true ∧ s.rpt.wptr = 0 ∧ s.rpt.fifo = []) ∧
    (∃ (s : State), hostBus s = true ∧ busUp s = true ∧ s.rpt.wptr ≠ 0) ∧
    (∃ (s : State), hostBus s = true ∧ busUp s = true ∧ droppedNow s = []) ∧
    (∃ (s : State), hostBus s = true ∧ busUp s = true ∧ droppedNow s ≠ []) ∧
    (∃ (s : State), hostBus s = true ∧ busUp s = false) :=
  ⟨⟨⟨1, 2, 3, 4⟩, [⟨5, 6, 7, 8⟩], { ready with rpt := { fifo := [⟨1, 2, 3, 4⟩, ⟨5, 6, 7, 8⟩] } }, by decide⟩,
   ⟨ready, by decide⟩,
   ⟨{ ready with rpt := { held := ⟨1, 2, 3, 4⟩, wptr := 3 } }, by decide⟩,
   ⟨{ ready with rpt := { lost := 63 } }, by decide⟩,
   ⟨{ ready with rpt := { lost := 63, lostWas := 62, dropped := [⟨1, 2, 3, 4⟩], dropAt := 1000000 } }, by decide⟩,
   ⟨State.reset, by decide⟩⟩

theorem wit_CamPhase :
    (∃ (c : Fin 4) (rise : Bool) (stamp : Tb) (j : Nat) (d : Nat) (d16 : Int) (s : State), wheelLive s = true ∧ camPasses c stamp s = true ∧ s.sys.coarse = false ∧ cpsLive s = true ∧ s.flt.safe = false ∧ s.cams[c].en = true ∧ s.cams[c].sync = false ∧ s.cams[c].uses rise = true ∧ bit s.cpc.cams[c].cfg 0 = true ∧ (effSync s = .confirm ∨ effSync s = .sync) ∧ s.cpc.ph.q.length < 32 ∧ bareNow s = false ∧ nearest (cyc16 s.wheel.cfg) (edgeAng (cyc16 s.wheel.cfg) (edgePred (effPred s) (effPrev s) stamp) stamp) rise 0 s.cams[c].edges none = some (j, d) ∧ d16 = signedMod (cyc16 s.wheel.cfg) (16 * (((s.cams[c].edges[j]?).map (·.angle)).getD 0 : Int) - edgeAng (cyc16 s.wheel.cfg) (edgePred (effPred s) (effPrev s) stamp) stamp)) ∧
    (∃ (c : Fin 4) (rise : Bool) (stamp : Tb) (j : Nat) (d : Nat) (d16 : Int) (s : State), wheelLive s = true ∧ camPasses c stamp s = true ∧ s.sys.coarse = false ∧ cpsLive s = true ∧ s.flt.safe = false ∧ s.cams[c].en = true ∧ s.cams[c].sync = false ∧ s.cams[c].uses rise = true ∧ bit s.cpc.cams[c].cfg 0 = true ∧ (effSync s = .confirm ∨ effSync s = .sync) ∧ s.cpc.ph.q.length < 32 ∧ bareNow s = true ∧ nearest (cyc16 s.wheel.cfg) (bareAng s (cyc16 s.wheel.cfg) stamp) rise 0 s.cams[c].edges none = some (j, d) ∧ d16 = signedMod (cyc16 s.wheel.cfg) (16 * (((s.cams[c].edges[j]?).map (·.angle)).getD 0 : Int) - bareAng s (cyc16 s.wheel.cfg) stamp)) ∧
    (∃ (c : Fin 4) (stamp : Tb) (s : State), wheelLive s = true ∧ camPasses c stamp s = true ∧ s.sys.coarse = false ∧ s.cams[c].sync = false ∧ bit s.cpc.cams[c].cfg 0 = false) :=
  ⟨⟨1, true, 1003000, 0, 69837, 69837, { withCam with cams := vupd withCam.cams 1 (fun x => { x with en := true, tol := 5, edges := [⟨true, 40000⟩] }), cpc := { withCam.cpc with cams := vupd withCam.cpc.cams 1 fun x => { x with cfg := 1 } } }, by decide⟩,
   ⟨1, true, 1003000, 0, 118989, 118989, { withCam with wheel := { withCam.wheel with st := .confirm, bare := true, tPrev := some 1000000, lastP := 10000 }, cams := vupd withCam.cams 1 (fun x => { x with en := true, tol := 5, edges := [⟨true, 40000⟩] }), cpc := { withCam.cpc with cams := vupd withCam.cpc.cams 1 fun x => { x with cfg := 1 } } }, by decide⟩,
   ⟨1, 5, inSync, by decide⟩⟩

theorem wit_AngleWindows :
    (∃ (w : Fin 8) (s : State), duePass s w = true) ∧
    (∃ (w : Fin 8) (s : State), duePass s w = false) ∧
    (∃ (w : Fin 8) (s : State), dueStrobe s w = true ∧ s.cpc.wins[w].k + 1 < s.cpc.wins[w].live.count) ∧
    (∃ (w : Fin 8) (s : State), dueStrobe s w = true ∧ s.cpc.wins[w].live.count ≤ s.cpc.wins[w].k + 1) ∧
    (∃ (w : Fin 8) (s : State), dueStrobe s w = false) ∧
    (∃ (w : Fin 8) (s : State), dueDelayed s w = true) ∧
    (∃ (w : Fin 8) (s : State), dueDelayed s w = false) ∧
    (∃ (w : Fin 8) (v : Word) (s : State), hostBus s = true ∧ winOpen s 7 = true ∧ blkOn s .cps = true ∧ cpcWritable s (32 + 8 * w.val + 3) = true ∧ (s.cpc.wins[w].active = false ∨ (winStaged s.cpc.wins[w] (v ||| 4)).en = false) ∧ (winStaged s.cpc.wins[w] (v ||| 4)).count ≠ 0 ∧ (winStaged s.cpc.wins[w] (v ||| 4)).start < cycC s.wheel.cfg ∧ (winStaged s.cpc.wins[w] (v ||| 4)).stop < cycC s.wheel.cfg) ∧
    (∃ (w : Fin 8) (v : Word) (s : State), hostBus s = true ∧ winOpen s 7 = true ∧ blkOn s .cps = true ∧ cpcWritable s (32 + 8 * w.val + 3) = true ∧ s.cpc.wins[w].active = true ∧ (winStaged s.cpc.wins[w] (v ||| 4)).en = true ∧ (winStaged s.cpc.wins[w] (v ||| 4)).count ≠ 0 ∧ (winStaged s.cpc.wins[w] (v ||| 4)).start < cycC s.wheel.cfg ∧ (winStaged s.cpc.wins[w] (v ||| 4)).stop < cycC s.wheel.cfg) ∧
    (∃ (w : Fin 8) (v : Word) (s : State), hostBus s = true ∧ winOpen s 7 = true ∧ blkOn s .cps = true ∧ cpcWritable s (32 + 8 * w.val + 3) = true ∧ ((winStaged s.cpc.wins[w] (v ||| 4)).count = 0 ∨ cycC s.wheel.cfg ≤ (winStaged s.cpc.wins[w] (v ||| 4)).start ∨ cycC s.wheel.cfg ≤ (winStaged s.cpc.wins[w] (v ||| 4)).stop)) ∧
    (∃ (w : Fin 8) (s : State), hostBus s = true ∧ winOpen s 7 = true ∧ blkOn s .cps = true ∧ cpcWritable s (32 + 8 * w.val + 3) = false) ∧
    (∃ (s : State), hostBus s = true ∧ busUp s = false) ∧
    (∃ (s : State), hostBus s = true ∧ regOpen s 0x2C = true ∧ winOpen s 7 = false) ∧
    (∃ (s : State), hostBus s = true ∧ winOpen s 7 = true ∧ blkOn s .cps = false) :=
  ⟨⟨2, winOn, by decide⟩,
   ⟨2, ready, by decide⟩,
   ⟨2, { winOn with cpc := { winOn.cpc with wins := vupd winOn.cpc.wins 2 fun x => { x with active := true, dueAt := [1000000] } } }, by decide⟩,
   ⟨2, { winOn with cpc := { winOn.cpc with wins := vupd winOn.cpc.wins 2 fun x => { x with active := true, k := 2, dueAt := [1000000] } } }, by decide⟩,
   ⟨2, ready, by decide⟩,
   ⟨2, { winOn with cpc := { winOn.cpc with wins := vupd winOn.cpc.wins 2 fun x => { x with active := true, dueAt := [999990] } } }, by decide⟩,
   ⟨2, ready, by decide⟩,
   ⟨2, 1, { inSync with cpc := { inSync.cpc with wins := vupd inSync.cpc.wins 2 fun x => { x with w0 := 100, w1 := 200, w2 := 0x0300 } } }, by decide⟩,
   ⟨2, 1, { winOn with cpc := { winOn.cpc with wins := vupd winOn.cpc.wins 2 fun x => { x with active := true, w0 := 100, w1 := 200, w2 := 0x0300 } } }, by decide⟩,
   ⟨2, 1, inSync, by decide⟩,
   ⟨2, { inSync with sec := { inSync.sec with img := Vector.replicate 64 0 } }, by decide⟩,
   ⟨State.reset, by decide⟩,
   ⟨{ ready with sys := { ready.sys with boot := 4 } }, by decide⟩,
   ⟨{ inSync with clk := { inSync.clk with gateEff := 0x7B } }, by decide⟩⟩

theorem wit_ConverterAndBuffers :
    (∃ (f : BitVec 82) (s : State), cpsLive s = true ∧ frameBegins f = true ∧ hunting s.clk.fcyc s.cdat = true ∧ (parseFrame (frameOf f)).start = false ∧ frameBad (parseFrame (frameOf f)) false = false ∧ s.cpc.strobes = []) ∧
    (∃ (f : BitVec 82) (x : Strobe) (s : State), cpsLive s = true ∧ frameBegins f = true ∧ hunting s.clk.fcyc s.cdat = true ∧ (parseFrame (frameOf f)).start = false ∧ frameBad (parseFrame (frameOf f)) false = false ∧ s.cdat.wbrk = false ∧ s.cpc.strobes = [x] ∧ tbGe (s.clk.tb - 40) (claimAt s x) = true ∧ tbGe (s.clk.tb - 40) (tbAdd (claimAt s x) 51) = false ∧ laterRecs rankConv s = 0 ∧ s.cpc.cv.q.length < 64) ∧
    (∃ (f : BitVec 82) (x : Strobe) (y : Strobe) (s : State), cpsLive s = true ∧ frameBegins f = true ∧ hunting s.clk.fcyc s.cdat = true ∧ (parseFrame (frameOf f)).start = false ∧ frameBad (parseFrame (frameOf f)) false = false ∧ s.cdat.wbrk = false ∧ s.cpc.strobes = [x, y] ∧ tbGe (s.clk.tb - 40) (claimAt s x) = true ∧ tbGe (s.clk.tb - 40) (tbAdd (claimAt s x) 51) = false ∧ tbGe (s.clk.tb - 40) (claimAt s y) = true ∧ laterRecs rankConv s = 0 ∧ s.cpc.cv.q.length < 63) ∧
    (∃ (f : BitVec 82) (x : Strobe) (s : State), cpsLive s = true ∧ frameBegins f = true ∧ hunting s.clk.fcyc s.cdat = true ∧ (parseFrame (frameOf f)).start = false ∧ frameBad (parseFrame (frameOf f)) false = true ∧ s.cdat.wbrk = false ∧ s.cdat.missing < 2 ∧ s.cpc.strobes = [x] ∧ tbGe (s.clk.tb - 40) (claimAt s x) = true ∧ tbGe (s.clk.tb - 40) (tbAdd (claimAt s x) 51) = false ∧ laterRecs rankConv s = 0 ∧ s.cpc.cv.q.length < 64) ∧
    (∃ (f : BitVec 82) (s : State), (cpsLive s = false ∨ frameBegins f = false ∨ hunting s.clk.fcyc s.cdat = false ∨ (parseFrame (frameOf f)).start = true)) ∧
    (∃ (x : Strobe) (rest : List Strobe) (s : State), s.cpc.strobes = x :: rest ∧ dueSearch s = true ∧ laterRecs rankConv s = 0 ∧ s.cpc.cv.q.length < 64) ∧
    (∃ (s : State), dueSearch s = false) ∧
    (∃ (q : Quad) (rest : List Quad) (s : State), hostBus s = true ∧ busUp s = true ∧ blkOn s .cps = true ∧ s.cpc.cv.goneNow s.clk.tb = [] ∧ s.cpc.cv.q = q :: rest) ∧
    (∃ (q : Quad) (rest : List Quad) (s : State), hostBus s = true ∧ busUp s = true ∧ blkOn s .cps = true ∧ s.cpc.ph.goneNow s.clk.tb = [] ∧ s.cpc.ph.q = q :: rest) ∧
    (∃ (s : State), hostBus s = true ∧ busUp s = true ∧ blkOn s .cps = true ∧ s.cpc.cv.goneNow s.clk.tb = [] ∧ s.cpc.cv.q = []) ∧
    (∃ (s : State), hostBus s = true ∧ busUp s = true ∧ blkOn s .cps = true ∧ s.cpc.ph.goneNow s.clk.tb = [] ∧ s.cpc.ph.q = []) ∧
    (∃ (j : Fin 4) (s : State), hostBus s = true ∧ busUp s = true ∧ blkOn s .cps = true ∧ j ≠ 0) ∧
    (∃ (s : State), hostBus s = true ∧ busUp s = true ∧ blkOn s .cps = true ∧ s.cpc.cv.goneNow s.clk.tb = []) ∧
    (∃ (s : State), hostBus s = true ∧ busUp s = true ∧ blkOn s .cps = true ∧ s.cpc.ph.goneNow s.clk.tb = []) ∧
    (∃ (s : State), hostBus s = true ∧ busUp s = true ∧ blkOn s .cps = false) :=
  ⟨⟨samplesOf 0xC0000, ready, by decide⟩,
   ⟨samplesOf 0xC0000, ⟨999950, 700, 2, false, true⟩, { ready with cpc := { ready.cpc with strobes := [⟨999950, 700, 2, false, true⟩] } }, by decide⟩,
   ⟨samplesOf 0xC0000, ⟨999950, 700, 2, false, true⟩, ⟨999955, 900, 8, true, true⟩, { ready with cpc := { ready.cpc with strobes := [⟨999950, 700, 2, false, true⟩, ⟨999955, 900, 8, true, true⟩] } }, by decide⟩,
   ⟨samplesOf 0xC0002, ⟨999950, 70000, 8, true, true⟩, { ready with cpc := { ready.cpc with strobes := [⟨999950, 70000, 8, true, true⟩] } }, by decide⟩,
   ⟨samplesOf 0xC0001, ready, by decide⟩,
   ⟨⟨999950, 70000, 8, true, true⟩, [], { ready with cpc := { ready.cpc with strobes := [⟨999950, 70000, 8, true, true⟩] } }, by decide⟩,
   ⟨ready, by decide⟩,
   ⟨⟨1, 2, 3, 4⟩, [], { ready with cpc := { ready.cpc with cv := { q := [⟨1, 2, 3, 4⟩] } } }, by decide⟩,
   ⟨⟨1, 2, 3, 4⟩, [], { ready with cpc := { ready.cpc with ph := { q := [⟨1, 2, 3, 4⟩] } } }, by decide⟩,
   ⟨ready, by decide⟩,
   ⟨ready, by decide⟩,
   ⟨3, ready, by decide⟩,
   ⟨ready, by decide⟩,
   ⟨ready, by decide⟩,
   ⟨{ ready with clk := { ready.clk with gateEff := 0x7B } }, by decide⟩⟩

theorem wit_SenseFrames :
    (∃ (s : State), chanLive s = false) ∧
    (∃ (n : Fin 8) (f : BitVec 82) (s : State), chanLive s = true ∧ s.diag.test = none ∧ (frameBegins f = false ∨ hunting s.clk.fcyc s.lines[n] = false ∨ (parseFrame (frameOf f)).start = true)) ∧
    (∃ (n : Fin 8) (f : BitVec 82) (s : State), chanLive s = true ∧ s.diag.test = none ∧ paired s n.val = false ∧ frameBegins f = true ∧ hunting s.clk.fcyc s.lines[n] = true ∧ (parseFrame (frameOf f)).start = false ∧ frameBad (parseFrame (frameOf f)) true = false ∧ s.lines[n].wbrk = false ∧ s.chan[sh n].st = .hold ∧ s.chan[sh n].pulse.blank = false ∧ s.chan[sh n].cfg.slew = 0 ∧ suspended s.chan[sh n] = false) ∧
    (∃ (n : Fin 8) (f : BitVec 82) (s : State), chanLive s = true ∧ s.diag.test = none ∧ paired s n.val = false ∧ frameBegins f = true ∧ hunting s.clk.fcyc s.lines[n] = true ∧ (parseFrame (frameOf f)).start = false ∧ frameBad (parseFrame (frameOf f)) true = false ∧ s.lines[n].wbrk = false ∧ s.chan[sh n].st = .boost ∧ s.chan[sh n].pulse.cPeak ≤ (parseFrame (frameOf f)).i) ∧
    (∃ (n : Fin 8) (f : BitVec 82) (s : State), chanLive s = true ∧ s.diag.test = none ∧ paired s n.val = false ∧ frameBegins f = true ∧ hunting s.clk.fcyc s.lines[n] = true ∧ (parseFrame (frameOf f)).start = false ∧ frameBad (parseFrame (frameOf f)) true = false ∧ s.lines[n].wbrk = false ∧ s.chan[sh n].st = .decay ∧ (parseFrame (frameOf f)).i ≤ s.chan[sh n].cfg.decthr ∧ 1 ≤ s.chan[sh n].pulse.decRun) ∧
    (∃ (n : Fin 8) (f : BitVec 82) (s : State), chanLive s = true ∧ s.diag.test = none ∧ frameBegins f = true ∧ hunting s.clk.fcyc s.lines[n] = true ∧ (parseFrame (frameOf f)).start = false ∧ frameBad (parseFrame (frameOf f)) true = true ∧ s.lines[n].missing = 0) ∧
    (∃ (l : Fin 9) (n : Fin 8) (s : State), l.val = n.val ∧ chanLive s = true ∧ s.diag.test = none ∧ deadlinePassed s s.lines[n] = true ∧ paired s n.val = false ∧ s.lines[n].missing = 2 ∧ s.lines[n].wbrk = false ∧ s.chan[sh n].cfg.mode = 2 ∧ s.chan[sh n].st ≠ .off) ∧
    (∃ (l : Fin 9) (n : Fin 8) (s : State), l.val = n.val ∧ deadlinePassed s s.lines[n] = false) ∧
    (∃ (l : Fin 9) (s : State), l.val = 8 ∧ liveN s = true ∧ blkOn s .cps = true ∧ deadlinePassed s s.cdat = true ∧ s.cdat.missing = 2 ∧ s.cdat.wbrk = false) ∧
    (∃ (l : Fin 9) (n : Fin 8) (s : State), l.val = n.val ∧ chanLive s = true ∧ s.diag.test = none ∧ paired s n.val = false ∧ s.lines[n].wbrk = false ∧ s.chan[sh n].cfg.mode = 2) ∧
    (∃ (l : Fin 9) (s : State), l.val = 8 ∧ liveN s = true ∧ blkOn s .cps = true ∧ s.cdat.wbrk = false) :=
  ⟨⟨State.reset, by decide⟩,
   ⟨2, 5, shaped .hold, by decide⟩,
   ⟨2, samplesOf 0xC0006, pulsed id (fun r => { r with target := 2048, h := 0 }) (shaped .hold), by decide⟩,
   ⟨2, samplesOf 0xC0006, pulsed (fun p => { p with cPeak := 3072 }) id (shaped .boost), by decide⟩,
   ⟨2, samplesOf 0xC0000, pulsed (fun p => { p with decRun := 1 }) id (shaped .decay), by decide⟩,
   ⟨2, samplesOf 0xC0004, lined (fun l => { l with ferr := 65535 }) (shaped .hold), by decide⟩,
   ⟨2, 2, lined (fun l => { l with missing := 2, deadline := some 1 }) (shaped .hold), by decide⟩,
   ⟨2, 2, lined (fun l => { l with missing := 2, deadline := some 2 }) (shaped .hold), by decide⟩,
   ⟨8, { ready with cdat := { missing := 2, deadline := some 0 } }, by decide⟩,
   ⟨2, 2, shaped .peak, by decide⟩,
   ⟨8, ready, by decide⟩⟩

theorem wit_PulsePhases :
    (∃ (n : Fin 8) (s : State), dueTboost s n = true) ∧
    (∃ (n : Fin 8) (s : State), dueTboost s n = false) ∧
    (∃ (n : Fin 8) (s : State), dueDeadEnd s n = true ∧ s.chan[sh n].st = .dead ∧ s.chan[sh n].pulse.peakOver = false ∧ peakDone s s.chan[sh n] = false) ∧
    (∃ (n : Fin 8) (s : State), dueDeadEnd s n = true ∧ s.chan[sh n].st = .dead ∧ s.chan[sh n].pulse.peakOver = true ∧ tholdOver s (sh n) = false) ∧
    (∃ (n : Fin 8) (s : State), dueDeadEnd s n = false) ∧
    (∃ (n : Fin 8) (s : State), dueTpeak s n = true ∧ s.chan[sh n].st = .peak) ∧
    (∃ (n : Fin 8) (s : State), dueTpeak s n = true ∧ s.chan[sh n].st = .dead) ∧
    (∃ (n : Fin 8) (s : State), dueTpeak s n = false) ∧
    (∃ (n : Fin 8) (s : State), dueThold s n = true) ∧
    (∃ (n : Fin 8) (s : State), dueThold s n = false) ∧
    (∃ (n : Fin 12) (s : State), dueMaxOn s n = true) ∧
    (∃ (n : Fin 12) (s : State), dueMaxOn s n = false) ∧
    (∃ (n : Fin 8) (s : State), dueDecay s n = true) :=
  ⟨⟨2, pulsed (fun p => { p with startAt := 999990, prof := { p.prof with tboost := 1 } }) id (shaped .boost), by decide⟩,
   ⟨2, ready, by decide⟩,
   ⟨2, pulsed (fun p => { p with exitAt := some 999991, prof := { p.prof with tpeak := 1 } }) (fun r => { r with deadTo := some 1000000 }) (shaped .dead), by decide⟩,
   ⟨2, pulsed (fun p => { p with peakOver := true, cHold := 500, cHysh := 9 }) (fun r => { r with deadTo := some 1000000 }) (shaped .dead), by decide⟩,
   ⟨2, ready, by decide⟩,
   ⟨2, pulsed (fun p => { p with exitAt := some 999990, prof := { p.prof with tpeak := 1 }, cHold := 500, cHysh := 9 }) id (shaped .peak), by decide⟩,
   ⟨2, pulsed (fun p => { p with exitAt := some 999990, prof := { p.prof with tpeak := 1 } }) id (shaped .dead), by decide⟩,
   ⟨2, ready, by decide⟩,
   ⟨2, pulsed (fun p => { p with holdAt := 999900, prof := { p.prof with thold := 1 } }) id (shaped .hold), by decide⟩,
   ⟨2, ready, by decide⟩,
   ⟨2, pulsed (fun p => { p with startAt := 998000, maxTicks := 2000 }) id (shaped .hold), by decide⟩,
   ⟨2, ready, by decide⟩,
   ⟨2, pulsed (fun p => { p with decAt := 900000 }) id (shaped .decay), by decide⟩⟩

theorem wit_ChannelCommands :
    (∃ (a : Args) (n : Fin 12) (s : State), mboxFree s = true ∧ admitted 0x10 a s = true ∧ fld a.a0 0 4 = n.val ∧ within a.a0 0xFF7F = true ∧ within a.a1 0xFFF = true ∧ a.a2 ≠ 0 ∧ (n.val < 8 ∨ fld a.a0 4 2 < 2 ∧ bit a.a0 6 = false) ∧ (fld a.a0 4 2 < 2 ∨ s.chan[n].cfg.scale ≠ 0) ∧ emitDrives s n.val = false ∧ paired s n.val = false ∧ idleX s n = true ∧ s.chan[n].cont = false ∧ lineBroken s n = false) ∧
    (∃ (a : Args) (n : Fin 12) (s : State), mboxFree s = true ∧ admitted 0x10 a s = true ∧ fld a.a0 0 4 = n.val ∧ within a.a0 0xFF7F = true ∧ within a.a1 0xFFF = true ∧ a.a2 ≠ 0 ∧ (n.val < 8 ∨ fld a.a0 4 2 < 2 ∧ bit a.a0 6 = false) ∧ (fld a.a0 4 2 < 2 ∨ s.chan[n].cfg.scale ≠ 0) ∧ emitDrives s n.val = false ∧ paired s n.val = false ∧ idleX s n = false) ∧
    (∃ (a : Args) (s : State), mboxFree s = true ∧ admitted 0x11 a s = true ∧ within a.a0 0x13F = true ∧ bit a.a0 8 = false) ∧
    (∃ (a : Args) (v : Vector Word 8) (s : State), mboxFree s = true ∧ admitted 0x11 a s = true ∧ within a.a0 0x13F = true ∧ bit a.a0 8 = true ∧ v = vput (vput s.chs.stage (2 * fld a.a0 4 2) a.a1) (2 * fld a.a0 4 2 + 1) a.a2 ∧ (profOf v).hysp ≤ (profOf v).peak ∧ (profOf v).hysh ≤ (profOf v).hold) ∧
    (∃ (a : Args) (v : Vector Word 8) (s : State), mboxFree s = true ∧ admitted 0x11 a s = true ∧ within a.a0 0x13F = true ∧ bit a.a0 8 = true ∧ v = vput (vput s.chs.stage (2 * fld a.a0 4 2) a.a1) (2 * fld a.a0 4 2 + 1) a.a2 ∧ (profOf v).peak < (profOf v).hysp) ∧
    (∃ (a : Args) (p : Fin 4) (lo : Fin 12) (up : Fin 12) (s : State), mboxFree s = true ∧ admitted 0x13 a s = true ∧ within a.a0 7 = true ∧ fld a.a0 0 2 = p.val ∧ lo.val = 2 * p.val ∧ up.val = 2 * p.val + 1 ∧ bit a.a0 2 = true ∧ s.chs.pairs[p] = false ∧ (vget s.lines lo.val {}).wbrk = false ∧ (vget s.lines up.val {}).wbrk = false ∧ s.chan[lo].st = .idle ∧ s.chan[up].st = .idle ∧ s.diag.test = none ∧ s.chan[lo].cfg.mode = 2 ∧ s.chan[lo].cfg.scale = s.chan[up].cfg.scale ∧ s.chan[lo].cfg.scale ≠ 0) ∧
    (∃ (a : Args) (p : Fin 4) (lo : Fin 12) (up : Fin 12) (s : State), mboxFree s = true ∧ admitted 0x13 a s = true ∧ within a.a0 7 = true ∧ fld a.a0 0 2 = p.val ∧ lo.val = 2 * p.val ∧ up.val = 2 * p.val + 1 ∧ bit a.a0 2 = false ∧ s.chs.pairs[p] = true ∧ (vget s.lines lo.val {}).wbrk = false ∧ s.chan[lo].st = .idle ∧ s.diag.test = none) ∧
    (∃ (a : Args) (n : Fin 12) (s : State), mboxFree s = true ∧ admitted 0x19 a s = true ∧ within a.a0 7 = true ∧ a.a1 ≠ 0 ∧ fld a.a0 0 3 = n.val ∧ paired s n.val = false ∧ idle s n = true) ∧
    (∃ (a : Args) (n : Fin 12) (s : State), mboxFree s = true ∧ admitted 0x19 a s = true ∧ within a.a0 7 = true ∧ a.a1 ≠ 0 ∧ fld a.a0 0 3 = n.val ∧ paired s n.val = false ∧ idle s n = false) :=
  ⟨⟨⟨0x0362, 20, 500, 0⟩, 2, shaped .idle, by decide⟩,
   ⟨⟨0x0362, 20, 500, 0⟩, 2, shaped .hold, by decide⟩,
   ⟨⟨0x0031, 20, 500, 0⟩, ready, by decide⟩,
   ⟨⟨0x010F, 20, 500, 0⟩, #v[20, 500, 0, 0, 0, 0, 0, 0], ready, by decide⟩,
   ⟨⟨0x0121, 20, 500, 0⟩, #v[0, 0, 0, 0, 20, 500, 0, 0], ready, by decide⟩,
   ⟨⟨0x0005, 0, 0, 0⟩, 1, 2, 3, updChan 3 (fun c => { c with st := .idle, cfg := { c.cfg with scale := 250 } }) (shaped .idle), by decide⟩,
   ⟨⟨0x0001, 0, 0, 0⟩, 1, 2, 3, { shaped .idle with chs := { (shaped .idle).chs with pairs := vupd (shaped .idle).chs.pairs 1 fun _ => true } }, by decide⟩,
   ⟨⟨0x0002, 300, 0, 0⟩, 2, shaped .idle, by decide⟩,
   ⟨⟨0x0002, 300, 0, 0⟩, 2, shaped .hold, by decide⟩⟩

theorem wit_BrassInstructions :
    (∃ (n : Fin 8) (s : State), dueIssue s n = true) ∧
    (∃ (n : Fin 8) (s : State), dueIssue s n = true) ∧
    (∃ (n : Fin 8) (s : State), dueIssue s n = true) ∧
    (∃ (n : Fin 8) (s : State), dueIssue s n = true) ∧
    (∃ (n : Fin 8) (d : BitVec 24) (abs : Bool) (s : State), dueIssue s n = true ∧ tbGe s.clk.tb ((if abs then s.chan[sh n].pulse.startAt else s.clk.tb) + BitVec.ofNat 48 (10 * d.toNat)) = false) ∧
    (∃ (n : Fin 8) (d : BitVec 24) (abs : Bool) (s : State), dueIssue s n = true ∧ tbGe s.clk.tb ((if abs then s.chan[sh n].pulse.startAt else s.clk.tb) + BitVec.ofNat 48 (10 * d.toNat)) = true) ∧
    (∃ (n : Fin 8) (s : State), dueIssue s n = true) ∧
    (∃ (n : Fin 8) (s : State), dueIssue s n = true) ∧
    (∃ (n : Fin 8) (s : State), dueIssue s n = true ∧ s.chan[sh n].breq = false) ∧
    (∃ (n : Fin 8) (s : State), dueIssue s n = true ∧ s.chan[sh n].breq = true) ∧
    (∃ (n : Fin 8) (s : State), dueIssue s n = true) ∧
    (∃ (n : Fin 8) (s : State), dueIssue s n = false) :=
  ⟨⟨2, progOn, by decide⟩,
   ⟨2, progOn, by decide⟩,
   ⟨2, progOn, by decide⟩,
   ⟨2, progOn, by decide⟩,
   ⟨2, 1, false, progOn, by decide⟩,
   ⟨2, 0, false, progOn, by decide⟩,
   ⟨2, progOn, by decide⟩,
   ⟨2, progOn, by decide⟩,
   ⟨2, progOn, by decide⟩,
   ⟨2, updChan 2 (fun c => { c with breq := true, drv := true }) progOn, by decide⟩,
   ⟨2, progOn, by decide⟩,
   ⟨2, ready, by decide⟩⟩

theorem wit_BrassCourse :
    (∃ (n : Fin 8) (s : State), dueIssue s n = true) ∧
    (∃ (n : Fin 8) (level : Word) (thr : Bool) (noslew : Bool) (s : State), dueIssue s n = true ∧ brassFetch s n = .sett level thr noslew) ∧
    (∃ (n : Fin 8) (dest : BitVec 5) (inv : Bool) (cond : BitVec 4) (level : Word) (s : State), dueIssue s n = true ∧ brassFetch s n = .br dest inv cond level) ∧
    (∃ (n : Fin 8) (s : State), dueIssue s n = true ∧ (vget s.brass.dir s.chan[sh n].prog.entry {}).len = 0) ∧
    (∃ (n : Fin 8) (s : State), dueIssue s n = false) ∧
    (∃ (n : Fin 8) (s : State), dueWaitt s n = true) ∧
    (∃ (n : Fin 8) (s : State), dueWaitt s n = false) ∧
    (∃ (n : Fin 8) (s : State), dueWaiti s n = true) ∧
    (∃ (n : Fin 8) (s : State), dueWaiti s n = false) ∧
    (∃ (a : Args) (s : State), mboxFree s = true ∧ admitted 0x12 a s = true ∧ bit a.a0 15 = false ∧ within a.a0 0x801F = true) ∧
    (∃ (a : Args) (s : State), mboxFree s = true ∧ admitted 0x12 a s = true ∧ bit a.a0 15 = true ∧ bit a.a0 8 = true ∧ within a.a0 0x810F = true ∧ within a.a1 0x3FFF = true ∧ fld a.a1 8 6 ≤ 32 ∧ fld a.a1 0 8 + fld a.a1 8 6 ≤ 256 ∧ (stagedProg s (fld a.a1 8 6)).all brassClean = true ∧ (stagedProg s (fld a.a1 8 6)).all (brassInside (fld a.a1 8 6)) = true ∧ (fld a.a1 8 6 = 0 ∨ brassCloses (vget s.brass.staged (fld a.a1 8 6 - 1) 0) = true) ∧ brassInUse s (fld a.a0 0 4) (fld a.a1 0 8) (fld a.a1 8 6) = false) ∧
    (∃ (a : Args) (s : State), mboxFree s = true ∧ admitted 0x12 a s = true ∧ bit a.a0 15 = true ∧ within a.a0 0x810F = true ∧ within a.a1 0x3FFF = true ∧ fld a.a1 8 6 ≤ 32 ∧ 256 < fld a.a1 0 8 + fld a.a1 8 6) ∧
    (∃ (s : State), hostBus s = true ∧ busUp s = true ∧ blkOn s .chan = true) ∧
    (∃ (s : State), hostBus s = true ∧ busUp s = true ∧ blkOn s .chan = false) :=
  ⟨⟨2, progOn, by decide⟩,
   ⟨2, 0x1F40, false, true, progAt 0x20021F40, by decide⟩,
   ⟨2, 3, false, 2, 5, progAt 0xA0001483, by decide⟩,
   ⟨2, progOn, by decide⟩,
   ⟨2, ready, by decide⟩,
   ⟨2, updChan 2 (fun c => { c with prog := { c.prog with wait := .time 1000000 } }) progOn, by decide⟩,
   ⟨2, progOn, by decide⟩,
   ⟨2, updChan 2 (fun c => { c with prog := { c.prog with wait := .current 5 true (some 1000000) } }) progOn, by decide⟩,
   ⟨2, progOn, by decide⟩,
   ⟨⟨0x001F, 0x1234, 0x2000, 0⟩, ready, by decide⟩,
   ⟨⟨0x8105, 0x01FF, 77, 0⟩, ready, by decide⟩,
   ⟨⟨0x8105, 0x02FF, 77, 0⟩, ready, by decide⟩,
   ⟨{ ready with brass := { ready.brass with sigirq := 0x81 } }, by decide⟩,
   ⟨{ ready with clk := { ready.clk with gateEff := 0x7E } }, by decide⟩⟩

theorem wit_TripInput :
    (∃ (s : State), liveN s = true ∧ s.trip.tripin = false ∧ tripHeard s = false) ∧
    (∃ (s : State), liveN s = true ∧ s.trip.tripin = true) ∧
    (∃ (g : Fin 4) (s : State), liveN s = true ∧ s.trip.tripin = false ∧ tripHeard s = true ∧ s.diag.test = none ∧ candidates s = [g] ∧ s.trip.latched[g] = false ∧ ahead s.trip.deadEnd[g] s.clk.tb = false ∧ ahead s.trip.blankEnd[g] s.clk.tb = false) ∧
    (∃ (g : Fin 4) (s : State), liveN s = true ∧ s.trip.tripin = false ∧ tripHeard s = true ∧ s.diag.test = none ∧ candidates s = [g] ∧ s.trip.latched[g] = false ∧ ahead s.trip.deadEnd[g] s.clk.tb = true) ∧
    (∃ (g : Fin 4) (b : Tb) (s : State), liveN s = true ∧ s.trip.tripin = false ∧ tripHeard s = true ∧ s.diag.test = none ∧ candidates s = [g] ∧ s.trip.latched[g] = false ∧ ahead s.trip.deadEnd[g] s.clk.tb = false ∧ s.trip.blankEnd[g] = some b ∧ ahead s.trip.blankEnd[g] s.clk.tb = true) ∧
    (∃ (s : State), liveN s = true) ∧
    (∃ (s : State), legLive s = true) ∧
    (∃ (g : Fin 4) (s : State), dueDeferral s g = true ∧ s.trip.tripin = true ∧ s.trip.latched[g] = false) ∧
    (∃ (g : Fin 4) (s : State), dueDeferral s g = true ∧ s.trip.tripin = false) ∧
    (∃ (g : Fin 4) (s : State), dueDeferral s g = false) ∧
    (∃ (a : Args) (s : State), mboxFree s = true ∧ admitted 0x15 a s = true ∧ within a.a0 0xF = true ∧ s.trip.tripin = false) ∧
    (∃ (a : Args) (s : State), mboxFree s = true ∧ admitted 0x15 a s = true ∧ within a.a0 0xF = true ∧ s.trip.tripin = true) :=
  ⟨⟨ready, by decide⟩,
   ⟨{ ready with trip := { ready.trip with tripin := true } }, by decide⟩,
   ⟨1, driven, by decide⟩,
   ⟨1, { driven with trip := { driven.trip with deadEnd := vput driven.trip.deadEnd 1 (some 1000001) } }, by decide⟩,
   ⟨1, 1000050, { driven with trip := { driven.trip with blankEnd := vput driven.trip.blankEnd 1 (some 1000050) } }, by decide⟩,
   ⟨ready, by decide⟩,
   ⟨{ ready with sys := { ready.sys with face := .legacy }, leg := { ready.leg with ready := true, tripin := true } }, by decide⟩,
   ⟨2, { ready with trip := { ready.trip with tripin := true, defer := vput ready.trip.defer 2 [1000000] } }, by decide⟩,
   ⟨2, { ready with trip := { ready.trip with defer := vput ready.trip.defer 2 [1000000, 1000001] } }, by decide⟩,
   ⟨2, ready, by decide⟩,
   ⟨⟨2, 0, 0, 0⟩, { driven with trip := { driven.trip with latched := vput driven.trip.latched 1 true } }, by decide⟩,
   ⟨⟨2, 0, 0, 0⟩, { ready with trip := { ready.trip with tripin := true } }, by decide⟩⟩

theorem wit_DiagRuns :
    (∃ (a : Args) (n : Fin 8) (s : State), mboxFree s = true ∧ admitted 0x14 a s = true ∧ fld a.a0 14 2 = 0 ∧ within a.a0 0xCFFF = true ∧ within a.a1 0xFFF = true ∧ within a.a2 0xFFF = true ∧ within a.a3 0xFFF = true ∧ fld a.a0 4 4 ≠ 0 ∧ fld a.a0 8 4 ≠ 0 ∧ a.a1 ≠ 0 ∧ a.a2 ≠ 0 ∧ a.a3 ≠ 0 ∧ fld a.a0 0 3 = n.val) ∧
    (∃ (a : Args) (s : State), mboxFree s = true ∧ admitted 0x14 a s = true ∧ fld a.a0 14 2 = 1 ∧ 5 ≤ fld a.a0 0 6 ∧ fld a.a0 0 6 ≤ 50 ∧ fld a.a0 6 8 ≤ 200 ∧ within a.a3 1 = true ∧ bit a.a3 0 = true ∧ (∀ p : Fin 4, s.chs.pairs[p] = false)) ∧
    (∃ (a : Args) (s : State), mboxFree s = true ∧ admitted 0x14 a s = true ∧ fld a.a0 14 2 = 1 ∧ 5 ≤ fld a.a0 0 6 ∧ fld a.a0 0 6 ≤ 50 ∧ fld a.a0 6 8 ≤ 200 ∧ within a.a3 1 = true ∧ bit a.a3 0 = false ∧ within a.a2 0xFF = true ∧ (∀ p : Fin 4, s.chs.pairs[p] = false) ∧ (∀ g : Fin 4, s.trip.latched[g] = false ∧ s.trip.defer[g] = [])) ∧
    (∃ (a : Args) (s : State), mboxFree s = true ∧ admitted 0x14 a s = true ∧ fld a.a0 14 2 = 2 ∧ within a.a0 0x81FF = true ∧ within a.a1 0xFF = true ∧ 1 ≤ fld a.a1 0 8 ∧ fld a.a1 0 8 ≤ 200 ∧ s.diag.test = none ∧ s.sys.oe = false ∧ fld a.a0 0 8 = 1 ∧ s.chs.pairs[(0 : Fin 4)] = false) ∧
    (∃ (a : Args) (s : State), mboxFree s = true ∧ admitted 0x14 a s = true ∧ fld a.a0 14 2 = 2 ∧ within a.a0 0x81FF = true ∧ within a.a1 0xFF = true ∧ 1 ≤ fld a.a1 0 8 ∧ fld a.a1 0 8 ≤ 200 ∧ s.diag.test = none ∧ bit a.a0 0 = true ∧ s.chs.pairs[(0 : Fin 4)] = false ∧ (testSkips s { mask := a.a0.setWidth 8, pulse := bit a.a0 8, tpulse := fld a.a1 0 8 } 0 = false) ∧ s.lines[(0 : Fin 8)].wbrk = false) ∧
    (∃ (d : DTest) (s : State), dueTestWait s = true ∧ s.diag.test = some d ∧ d.ch = 7 ∧ paired s 7 = false ∧ testHas s d 0 = false) ∧
    (∃ (s : State), dueTestWait s = false) ∧
    (∃ (d : DTest) (s : State), dueTestPulse s = true ∧ s.diag.test = some d ∧ tbSince d.since s.clk.tb < 10 * d.tpulse + 3) ∧
    (∃ (d : DTest) (s : State), dueTestPulse s = true ∧ s.diag.test = some d ∧ 10 * d.tpulse + 3 ≤ tbSince d.since s.clk.tb) ∧
    (∃ (s : State), dueTestPulse s = false) :=
  ⟨⟨⟨0x0FFF, 0xFFF, 1, 1⟩, 7, ready, by decide⟩,
   ⟨⟨0x7205, 0, 0, 1⟩, ready, by decide⟩,
   ⟨⟨0x4C32, 0xE4E4, 0xE4, 0⟩, ready, by decide⟩,
   ⟨⟨0x8101, 200, 0, 0⟩, ready, by decide⟩,
   ⟨⟨0x8103, 1, 0, 0⟩, { ready with sys := { ready.sys with oe := true } }, by decide⟩,
   ⟨(⟨0x80, false, 5, 7, .wait, 998000, #v[0, 0], #v[0, 0], #v[false, false], #v[0, 0], Vector.replicate 8 0⟩ : DTest), { ready with diag := { ready.diag with test := some ⟨0x80, false, 5, 7, .wait, 998000, #v[0, 0], #v[0, 0], #v[false, false], #v[0, 0], Vector.replicate 8 0⟩ } }, by decide⟩,
   ⟨ready, by decide⟩,
   ⟨(⟨0x80, true, 5, 7, .pulse, 999950, #v[0, 0], #v[0, 0], #v[false, false], #v[0, 0], Vector.replicate 8 0⟩ : DTest), { ready with chan := vupd ready.chan 7 (fun c => { c with drv := true }), diag := { ready.diag with test := some ⟨0x80, true, 5, 7, .pulse, 999950, #v[0, 0], #v[0, 0], #v[false, false], #v[0, 0], Vector.replicate 8 0⟩ } }, by decide⟩,
   ⟨(⟨0x80, true, 5, 7, .pulse, 999947, #v[0, 0], #v[0, 0], #v[false, false], #v[0, 0], Vector.replicate 8 0⟩ : DTest), { ready with diag := { ready.diag with test := some ⟨0x80, true, 5, 7, .pulse, 999947, #v[0, 0], #v[0, 0], #v[false, false], #v[0, 0], Vector.replicate 8 0⟩ } }, by decide⟩,
   ⟨ready, by decide⟩⟩

theorem wit_Temperatures :
    (∃ (s : State), dueThermal s = false) ∧
    (∃ (s : State), dueThermal s = true) ∧
    (∃ (r : Int) (s : State), liveN s = true ∧ blkOn s .therm = true ∧ -110 ≤ r ∧ r ≤ 350) ∧
    (∃ (k : Fin 4) (r : Int) (s : State), liveN s = true ∧ blkOn s .therm = true ∧ (r < -110 ∨ 350 < r) ∧ s.therm.dieval[k] = true) ∧
    (∃ (s : State), hostBus s = true ∧ busUp s = true ∧ blkOn s .therm = true) ∧
    (∃ (s : State), hostBus s = true ∧ busUp s = true ∧ blkOn s .therm = false) :=
  ⟨⟨State.reset, by decide⟩,
   ⟨therm1, by decide⟩,
   ⟨350, ready, by decide⟩,
   ⟨3, 351, { ready with therm := { ready.therm with dieval := Vector.replicate 4 true } }, by decide⟩,
   ⟨ready, by decide⟩,
   ⟨{ ready with clk := { ready.clk with gateEff := 0x7D } }, by decide⟩⟩

theorem wit_ThermalCommands :
    (∃ (a : Args) (n : Fin 8) (s : State), mboxFree s = true ∧ admitted 0x18 a s = true ∧ fld a.a0 13 3 = 0 ∧ within a.a0 0xE0FF = true ∧ fld a.a0 0 3 = n.val ∧ fld a.a0 3 5 ≤ 17) ∧
    (∃ (a : Args) (s : State), mboxFree s = true ∧ admitted 0x18 a s = true ∧ fld a.a0 13 3 = 0 ∧ within a.a0 0xE0FF = true ∧ 17 < fld a.a0 3 5) ∧
    (∃ (a : Args) (s : State), mboxFree s = true ∧ admitted 0x18 a s = true ∧ fld a.a0 13 3 = 1 ∧ within a.a0 0xE0FF = true ∧ (∀ n : Fin 8, bit a.a0 n.val = true → thApplyOk s.therm.ch[n].staged = true)) ∧
    (∃ (a : Args) (n : Fin 8) (s : State), mboxFree s = true ∧ admitted 0x18 a s = true ∧ fld a.a0 13 3 = 1 ∧ within a.a0 0xE0FF = true ∧ bit a.a0 n.val = true ∧ thApplyOk s.therm.ch[n].staged = false) ∧
    (∃ (a : Args) (s : State), mboxFree s = true ∧ admitted 0x18 a s = true ∧ fld a.a0 13 3 = 2 ∧ within a.a0 0xE000 = true ∧ ambOk a.a1 = true ∧ ambOk a.a2 = true) ∧
    (∃ (a : Args) (s : State), mboxFree s = true ∧ admitted 0x18 a s = true ∧ fld a.a0 13 3 = 3 ∧ within a.a0 0xE0FF = true ∧ ambOk a.a1 = true) ∧
    (∃ (a : Args) (s : State), mboxFree s = true ∧ admitted 0x18 a s = true ∧ fld a.a0 13 3 = 4 ∧ within a.a0 0xE000 = true ∧ a.a1.toNat ≤ 350 ∧ within a.a2 0x3F = true) :=
  ⟨⟨⟨0x008F, 5, 0, 0⟩, 7, ready, by decide⟩,
   ⟨⟨0x0097, 5, 0, 0⟩, ready, by decide⟩,
   ⟨⟨0x2083, 0, 0, 0⟩, ready, by decide⟩,
   ⟨⟨0x2083, 0, 0, 0⟩, 1, { ready with therm := { ready.therm with ch := vupd ready.therm.ch 1 fun c => { c with staged := vput c.staged 1 0 } } }, by decide⟩,
   ⟨⟨0x4000, 0x0C80, 0xFD80, 0⟩, ready, by decide⟩,
   ⟨⟨0x6081, 0xFD80, 0, 0⟩, ready, by decide⟩,
   ⟨⟨0x8000, 350, 63, 0⟩, ready, by decide⟩⟩

theorem wit_Timers :
    (∃ (k : Fin 8) (s : State), dueMatch s k = true ∧ s.tim.t[k].os = false ∧ s.tim.t[k].count ≠ s.tim.t[k].cmp ∧ s.tim.t[k].count < 4294967295) ∧
    (∃ (k : Fin 8) (s : State), dueMatch s k = true ∧ s.tim.t[k].os = true ∧ s.tim.t[k].count < 4294967295 ∧ s.tim.t[k].pld = false) ∧
    (∃ (k : Fin 8) (s : State), dueMatch s k = false) ∧
    (∃ (k : Fin 8) (s : State), dueOvf s k = true ∧ s.tim.t[k].os = false ∧ s.tim.t[k].cmp ≠ 0) ∧
    (∃ (k : Fin 8) (s : State), dueOvf s k = false) ∧
    (∃ (k : Fin 8) (s : State), dueGateStop s k = true) ∧
    (∃ (k : Fin 8) (s : State), dueGateStop s k = false) ∧
    (∃ (s : State), hostBus s = true ∧ regOpen s 0x52 = true ∧ blkOn s .tim = true ∧ s.tim.t[timSel s].en = false ∧ s.tim.t[timSel s].inc = false) ∧
    (∃ (s : State), hostBus s = true ∧ regOpen s 0x52 = true ∧ blkOn s .tim = true ∧ s.tim.t[timSel s].en = true ∧ s.tim.t[timSel s].inc = false) ∧
    (∃ (s : State), hostBus s = true ∧ regOpen s 0x52 = true ∧ blkOn s .tim = true ∧ s.tim.t[timSel s].inc = true) ∧
    (∃ (s : State), hostBus s = true ∧ regOpen s 0x56 = true ∧ blkOn s .tim = true) ∧
    (∃ (s : State), hostBus s = true ∧ regOpen s 0x5A = true ∧ blkOn s .tim = true) ∧
    (∃ (s : State), hostBus s = true ∧ regOpen s 0x5C = true ∧ blkOn s .tim = true) ∧
    (∃ (s : State), hostBus s = true ∧ regOpen s 0x52 = true ∧ blkOn s .tim = false) ∧
    (∃ (s : State), hostBus s = true ∧ regOpen s 0x56 = true ∧ blkOn s .tim = false) ∧
    (∃ (s : State), hostBus s = true ∧ regOpen s 0x5A = true ∧ blkOn s .tim = false) ∧
    (∃ (s : State), hostBus s = true ∧ regOpen s 0x5C = true ∧ blkOn s .tim = false) :=
  ⟨⟨3, timed fun x => { x with en := true, ie := true, count := 4294967294, inc := true }, by decide⟩,
   ⟨3, timed fun x => { x with en := true, os := true, count := 0, cmp := 1, inc := true }, by decide⟩,
   ⟨3, ready, by decide⟩,
   ⟨3, timed fun x => { x with en := true, ie := true, count := 4294967295, cmp := 7, pld := true, preload := 9, inc := true }, by decide⟩,
   ⟨3, ready, by decide⟩,
   ⟨3, timed fun x => { x with en := true, os := true, gsrc := 42, gateSeen := true, shut := true }, by decide⟩,
   ⟨3, ready, by decide⟩,
   ⟨timed id, by decide⟩,
   ⟨timed fun x => { x with en := true, pre := 3, residue := 2 }, by decide⟩,
   ⟨timed fun x => { x with en := true, ie := true, count := 4294967294, inc := true }, by decide⟩,
   ⟨timed fun x => { x with cntStage := 0xFFFF }, by decide⟩,
   ⟨timed fun x => { x with en := true }, by decide⟩,
   ⟨timed fun x => { x with hit := true, ovf := true }, by decide⟩,
   ⟨{ ready with clk := { ready.clk with gateEff := 0x77 } }, by decide⟩,
   ⟨{ ready with clk := { ready.clk with gateEff := 0x77 } }, by decide⟩,
   ⟨{ ready with clk := { ready.clk with gateEff := 0x77 } }, by decide⟩,
   ⟨{ ready with clk := { ready.clk with gateEff := 0x77 } }, by decide⟩⟩

theorem wit_FaultEvents :
    (∃ (s : State), collectorOn s = false) ∧
    (∃ (s : State), s.flt.queue = []) ∧
    (∃ (e : FEvent) (rest : List FEvent) (s : State), collectorOn s = true ∧ s.flt.queue = e :: rest ∧ e.src < 48 ∧ vget s.flt.sev e.src 0 = 0 ∧ s.store.run = none ∧ Memory.wf s = true) ∧
    (∃ (e : FEvent) (rest : List FEvent) (s : State), collectorOn s = true ∧ s.flt.queue = e :: rest ∧ e.src < 48 ∧ (vget s.flt.sev e.src 0 = 1 ∨ vget s.flt.sev e.src 0 = 2) ∧ vget s.flt.ring e.src false = false ∧ s.flt.hist.length < 16 ∧ s.flt.openRec = none ∧ laterRecs rankHist s = 0) ∧
    (∃ (e : FEvent) (rest : List FEvent) (r : OpenRec) (s : State), collectorOn s = true ∧ s.flt.queue = e :: rest ∧ e.src < 48 ∧ (vget s.flt.sev e.src 0 = 1 ∨ vget s.flt.sev e.src 0 = 2) ∧ vget s.flt.ring e.src false = false ∧ s.flt.hist.length = 16 ∧ s.flt.openRec = some r) ∧
    (∃ (e : FEvent) (rest : List FEvent) (s : State), collectorOn s = true ∧ s.flt.queue = e :: rest ∧ (vget s.flt.sev e.src 0 = 3 ∨ vget s.flt.sev e.src 0 = 4) ∧ s.flt.safe = false) ∧
    (∃ (e : FEvent) (rest : List FEvent) (s : State), collectorOn s = true ∧ s.flt.queue = e :: rest ∧ vget s.flt.sev e.src 0 = 5 ∧ s.flt.safe = false) ∧
    (∃ (s : State), liveN s = true ∧ s.flt.safe = false) ∧
    (∃ (s : State), watchdogOn s = true) :=
  ⟨⟨State.reset, by decide⟩,
   ⟨ready, by decide⟩,
   ⟨⟨0, 5, 0, 9, false⟩, [⟨0, 7, 0, 1, false⟩], faulty 0, by decide⟩,
   ⟨⟨0, 5, 0, 9, false⟩, [⟨0, 7, 0, 1, false⟩], faulty 2, by decide⟩,
   ⟨⟨0, 5, 0, 9, false⟩, [⟨0, 7, 0, 1, false⟩], ⟨3, 0, 2, 1, 5, 6, 7, 8, 255, 8⟩, { faulty 1 with flt := { (faulty 1).flt with hist := List.replicate 16 ⟨1, 2, 3, 4⟩, openRec := some ⟨3, 0, 2, 1, 5, 6, 7, 8, 255, 8⟩ } }, by decide⟩,
   ⟨⟨0, 20, 2, 9, false⟩, [], { driven with flt := { driven.flt with sev := vput driven.flt.sev 20 4, queue := [⟨0, 20, 2, 9, false⟩] } }, by decide⟩,
   ⟨⟨0, 5, 0, 9, false⟩, [⟨0, 7, 0, 1, false⟩], faulty 5, by decide⟩,
   ⟨shaped .peak, by decide⟩,
   ⟨ready, by decide⟩⟩

theorem wit_FaultRegisters :
    (∃ (s : State), hostBus s = true ∧ regOpen s 0x4C = true ∧ s.flt.freshNow s.clk.tb = none) ∧
    (∃ (r : OpenRec) (s : State), hostBus s = true ∧ regOpen s 0x4C = true ∧ s.flt.freshNow s.clk.tb = some r) ∧
    (∃ (m : BitVec 12) (n : Fin 12) (s : State), hostBus s = true ∧ regOpen s 0x4C = true ∧ s.flt.safe = false ∧ m.getLsbD n.val = true ∧ limitHolds s n = false ∧ isPartner s n = false ∧ s.chan[n].cont = true ∧ s.chan[n].contAt ≠ some s.clk.tb) ∧
    (∃ (m : BitVec 12) (s : State), hostBus s = true ∧ regOpen s 0x4C = true ∧ (∀ n : Fin 12, m.getLsbD n.val = true → s.chan[n].contAt = some s.clk.tb)) ∧
    (∃ (s : State), hostBus s = true ∧ regOpen s 0x4C = true ∧ s.flt.safe = true) ∧
    (∃ (s : State), hostBus s = true ∧ regOpen s 0x4C = true ∧ s.flt.histOf s.clk.tb = 0 ∧ s.flt.goneNow s.clk.tb = []) ∧
    (∃ (s : State), hostBus s = true ∧ regOpen s 0x4C = true ∧ s.flt.histOf s.clk.tb ≤ s.flt.hist.length) ∧
    (∃ (s : State), hostBus s = true ∧ regOpen s 0x4C = true ∧ s.flt.safe = false) ∧
    (∃ (s : State), s.sys.pwr = .run ∧ s.flt.safe = true) ∧
    (∃ (s : State), s.sys.pwr = .run ∧ s.sys.boot < 5) ∧
    (∃ (q : Quad) (rest : List Quad) (s : State), hostBus s = true ∧ busUp s = true ∧ s.flt.goneNow s.clk.tb = [] ∧ s.flt.hwptr = 0 ∧ s.flt.hist = q :: rest) ∧
    (∃ (s : State), hostBus s = true ∧ busUp s = true ∧ s.flt.goneNow s.clk.tb = [] ∧ s.flt.hwptr = 0 ∧ s.flt.hist = []) ∧
    (∃ (s : State), hostBus s = true ∧ busUp s = true ∧ s.flt.hwptr ≠ 0) ∧
    (∃ (s : State), hostBus s = true ∧ busUp s = true ∧ s.flt.goneNow s.clk.tb = []) ∧
    (∃ (r : OpenRec) (s : State), hostBus s = true ∧ busUp s = true ∧ s.flt.openRec = some r) ∧
    (∃ (s : State), hostBus s = true ∧ busUp s = true ∧ s.flt.openRec = none) :=
  ⟨⟨recorded, by decide⟩,
   ⟨⟨3, 0, 2, 1, 5, 6, 7, 8, 1, 8⟩, { recorded with flt := { recorded.flt with fresh := some ⟨3, 0, 2, 1, 5, 6, 7, 8, 1, 8⟩, freshAt := 1000000 } }, by decide⟩,
   ⟨0x804, 2, { ready with chan := vmapi (fun _ c => { c with cont := true }) ready.chan }, by decide⟩,
   ⟨0xFFF, { ready with chan := vmapi (fun _ c => { c with cont := true, contAt := some 1000000 }) ready.chan }, by decide⟩,
   ⟨{ ready with flt := { ready.flt with safe := true }, chan := vmapi (fun _ c => { c with cont := true }) ready.chan }, by decide⟩,
   ⟨recorded, by decide⟩,
   ⟨{ recorded with flt := { recorded.flt with hist := [{}, {}, ⟨1, 2, 3, 4⟩], histNew := 2, histAt := 1000000 } }, by decide⟩,
   ⟨{ ready with flt := { ready.flt with self := true } }, by decide⟩,
   ⟨{ ready with flt := { ready.flt with self := true, safe := true } }, by decide⟩,
   ⟨{ recorded with sys := { recorded.sys with boot := 4 } }, by decide⟩,
   ⟨⟨1, 2, 3, 4⟩, [], recorded, by decide⟩,
   ⟨ready, by decide⟩,
   ⟨{ recorded with flt := { recorded.flt with hwptr := 3, held := ⟨1, 2, 3, 4⟩ } }, by decide⟩,
   ⟨{ recorded with flt := { recorded.flt with hlost := true } }, by decide⟩,
   ⟨⟨3, 0, 2, 1, 5, 6, 7, 8, 1, 8⟩, recorded, by decide⟩,
   ⟨ready, by decide⟩⟩

theorem wit_FaultCommands :
    (∃ (a : Args) (s : State), mboxFree s = true ∧ admitted 0x20 a s = true ∧ within a.a0 0x0F3F = true ∧ fld a.a0 0 6 ≤ 46 ∧ fld a.a0 8 3 ≤ 5 ∧ firstFail (fsrcChecks (fld a.a0 0 6) (fld a.a0 8 3) (bit a.a0 11)) = none ∧ s.store.run = none) ∧
    (∃ (a : Args) (s : State), mboxFree s = true ∧ admitted 0x20 a s = true ∧ within a.a0 0x0F3F = true ∧ fld a.a0 0 6 = 38 ∧ fld a.a0 8 3 ≤ 2 ∧ bit a.a0 11 = true) ∧
    (∃ (a : Args) (k : Nat) (s : State), mboxFree s = true ∧ admitted 0x20 a s = true ∧ within a.a0 0x0F3F = true ∧ fld a.a0 0 6 ≤ 46 ∧ fld a.a0 8 3 ≤ 5 ∧ firstFail (fsrcChecks (fld a.a0 0 6) (fld a.a0 8 3) (bit a.a0 11)) = some k) ∧
    (∃ (a : Args) (s : State), mboxFree s = true ∧ admitted 0x20 a s = true ∧ 46 < fld a.a0 0 6) ∧
    (∃ (a : Args) (s : State), mboxFree s = true ∧ admitted 0x21 (fltForm 0 a) s = true ∧ within (fltForm 0 a).a0 0xC03F = true ∧ fld a.a0 0 6 ≤ 47) ∧
    (∃ (a : Args) (s : State), mboxFree s = true ∧ admitted 0x21 (fltForm 1 a) s = true ∧ within (fltForm 1 a).a0 0xC03F = true ∧ fld a.a0 0 6 ≤ 47) ∧
    (∃ (a : Args) (q : Quad) (s : State), mboxFree s = true ∧ admitted 0x21 (fltForm 2 a) s = true ∧ within (fltForm 2 a).a0 0xC01F = true ∧ s.flt.hist[fld a.a0 0 4]? = some q ∧ bit a.a0 4 = false) ∧
    (∃ (a : Args) (q : Quad) (s : State), mboxFree s = true ∧ admitted 0x21 (fltForm 2 a) s = true ∧ within (fltForm 2 a).a0 0xC01F = true ∧ s.flt.hist[fld a.a0 0 4]? = some q ∧ bit a.a0 4 = true) ∧
    (∃ (a : Args) (s : State), mboxFree s = true ∧ admitted 0x21 (fltForm 2 a) s = true ∧ within (fltForm 2 a).a0 0xC01F = true ∧ s.flt.hist.length ≤ fld a.a0 0 4) :=
  ⟨⟨⟨0x0A2E, 0, 0, 0⟩, ready, by decide⟩,
   ⟨⟨0x0926, 0, 0, 0⟩, ready, by decide⟩,
   ⟨⟨0x0926, 0, 0, 0⟩, 4, ready, by decide⟩,
   ⟨⟨0x002F, 0, 0, 0⟩, ready, by decide⟩,
   ⟨⟨47, 0, 0, 0⟩, ready, by decide⟩,
   ⟨⟨0, 0, 0, 0⟩, ready, by decide⟩,
   ⟨⟨0, 0, 0, 0⟩, ⟨1, 2, 3, 4⟩, recorded, by decide⟩,
   ⟨⟨0x0010, 0, 0, 0⟩, ⟨1, 2, 3, 4⟩, recorded, by decide⟩,
   ⟨⟨1, 0, 0, 0⟩, recorded, by decide⟩⟩

theorem wit_BusAccesses :
    (∃ (s : State), hostBus s = true ∧ regOpen s 0x2E = true) ∧
    (∃ (s : State), hostBus s = true ∧ regOpen s 0x30 = true ∧ isNative s = true) ∧
    (∃ (s : State), hostBus s = true ∧ regOpen s 0x2A = true ∧ isNative s = true) ∧
    (∃ (s : State), hostBus s = true ∧ regOpen s 0x28 = true ∧ isNative s = true) ∧
    (∃ (s : State), hostBus s = true ∧ busUp s = true) ∧
    (∃ (s : State), hostBus s = true ∧ busUp s = true) ∧
    (∃ (s : State), hostBus s = true ∧ busUp s = true ∧ fld s.bus.winsel 0 8 = 5 ∧ s.bus.winadr.toNat < 48) ∧
    (∃ (s : State), hostBus s = true ∧ busUp s = true ∧ fld s.bus.winsel 0 8 = 0) ∧
    (∃ (s : State), hostBus s = true ∧ regOpen s 0x2C = true ∧ isNative s = true ∧ (fld s.bus.winsel 0 8 = 4 ∨ fld s.bus.winsel 0 8 = 5 ∨ fld s.bus.winsel 0 8 = 8)) ∧
    (∃ (s : State), hostBus s = true ∧ busUp s = true) ∧
    (∃ (s : State), isNative s = true ∧ s.sys.inReset = false ∧ s.sys.vddioa = true ∧ s.sys.pwr = .stop ∧ s.sys.wcs = true) ∧
    (∃ (s : State), s.sys.vddioa = false) ∧
    (∃ (s : State), hostBus s = true ∧ busUp s = false) ∧
    (∃ (a : BitVec 8) (s : State), s.sys.pwr = .run ∧ isNative s = true ∧ s.sys.boot < 5 ∧ bootWrites.contains (regAddr a) = false) ∧
    (∃ (a : BitVec 8) (s : State), s.sys.pwr = .run ∧ isNative s = true ∧ s.flt.safe = true ∧ 5 ≤ s.sys.boot ∧ safeWrites.contains (regAddr a) = false) :=
  ⟨⟨{ ready with bus := { ready.bus with intstat := 0x0005 } }, by decide⟩,
   ⟨ready, by decide⟩,
   ⟨ready, by decide⟩,
   ⟨ready, by decide⟩,
   ⟨inSync, by decide⟩,
   ⟨ready, by decide⟩,
   ⟨{ ready with bus := { ready.bus with winsel := 5, winadr := 47 } }, by decide⟩,
   ⟨{ ready with bus := { ready.bus with winadr := 0xFFFF } }, by decide⟩,
   ⟨{ ready with bus := { ready.bus with winsel := 8, winadr := 3 } }, by decide⟩,
   ⟨{ inSync with bus := { inSync.bus with winsel := 4, winadr := 0xFFFF } }, by decide⟩,
   ⟨{ ready with sys := { ready.sys with pwr := .stop, wcs := true } }, by decide⟩,
   ⟨{ ready with sys := { ready.sys with vddioa := false } }, by decide⟩,
   ⟨State.reset, by decide⟩,
   ⟨6, { ready with sys := { boot := 4 } }, by decide⟩,
   ⟨0x0C, { ready with flt := { ready.flt with safe := true } }, by decide⟩⟩

theorem wit_MailboxCourse :
    (∃ (s : State), mboxFree s = true ∧ regOpen s 0x1C = true) ∧
    (∃ (s : State), mboxFree s = true) ∧
    (∃ (a : BitVec 8) (s : State), hostBus s = true ∧ regOpen s 0x18 = true ∧ s.mbox.busy = true ∧ (regAddr a = 0x18 ∨ regAddr a = 0x1A ∨ regAddr a = 0x1C ∨ regAddr a = 0x1E ∨ regAddr a = 0x20)) ∧
    (∃ (c : Cmd) (s : State), hostBus s = true ∧ regOpen s 0x18 = true ∧ s.mbox.busy = false ∧ s.mbox.run = some c) ∧
    (∃ (a : BitVec 8) (s : State), regOpen s 0x18 = true ∧ s.sys.vddioa = true ∧ s.sys.pwr = .entering ∧ regAddr a = 0x18) ∧
    (∃ (c : Cmd) (s : State), coreOn s = true ∧ s.mbox.run = none ∧ s.mbox.waiting = some c) ∧
    (∃ (c : Cmd) (cs : List Cmd) (s : State), coreOn s = true ∧ s.mbox.run = none ∧ s.mbox.waiting = none ∧ s.mbox.remote = c :: cs) ∧
    (∃ (s : State), (coreOn s = false ∨ s.mbox.run.isSome = true ∨ (s.mbox.waiting = none ∧ s.mbox.remote = []))) ∧
    (∃ (c : Cmd) (s : State), coreOn s = true ∧ s.mbox.run = some c ∧ c.sender = .host ∧ s.mbox.cut = true) ∧
    (∃ (s : State), s.mbox.cut = false) :=
  ⟨⟨ready, by decide⟩,
   ⟨ready, by decide⟩,
   ⟨0x21, { ready with mbox := { busy := true } }, by decide⟩,
   ⟨⟨.ring 1 4, 8, ⟨1, 0, 0, 0⟩⟩, { ready with mbox := { run := some ⟨.ring 1 4, 8, ⟨1, 0, 0, 0⟩⟩ } }, by decide⟩,
   ⟨0x18, { ready with sys := { ready.sys with pwr := .entering } }, by decide⟩,
   ⟨⟨.host, 8, ⟨1, 0, 0, 0⟩⟩, { ready with mbox := { busy := true, waiting := some ⟨.host, 8, ⟨1, 0, 0, 0⟩⟩, remote := [⟨.ring 1 4, 8, ⟨1, 0, 0, 0⟩⟩] } }, by decide⟩,
   ⟨⟨.ring 1 4, 8, ⟨1, 0, 0, 0⟩⟩, [], { ready with mbox := { remote := [⟨.ring 1 4, 8, ⟨1, 0, 0, 0⟩⟩] } }, by decide⟩,
   ⟨ready, by decide⟩,
   ⟨⟨.host, 8, ⟨1, 0, 0, 0⟩⟩, { ready with mbox := { busy := true, run := some ⟨.host, 8, ⟨1, 0, 0, 0⟩⟩, committed := true, cut := true } }, by decide⟩,
   ⟨ready, by decide⟩⟩

theorem wit_MailboxChecks :
    (∃ (code : Byte) (s : State), mboxFree s = true ∧ assignedCodes.contains code.toNat = false) ∧
    (∃ (code : Byte) (s : State), mboxFree s = true ∧ assignedCodes.contains code.toNat = true ∧ classOf code.toNat ≠ 0 ∧ bit (vget s.sec.img 24 0) (classOf code.toNat) = false) ∧
    (∃ (code : Byte) (s : State), mboxFree s = true ∧ assignedCodes.contains code.toNat = true ∧ (classOf code.toNat = 0 ∨ bit (vget s.sec.img 24 0) (classOf code.toNat) = true) ∧ s.sys.boot < 5 ∧ bootCodes.contains code.toNat = false) ∧
    (∃ (code : Byte) (s : State), mboxFree s = true ∧ assignedCodes.contains code.toNat = true ∧ (classOf code.toNat = 0 ∨ bit (vget s.sec.img 24 0) (classOf code.toNat) = true) ∧ (5 ≤ s.sys.boot ∨ bootCodes.contains code.toNat = true) ∧ s.flt.safe = true ∧ safeCodes.contains code.toNat = false) ∧
    (∃ (code : Byte) (s : State), mboxFree s = true ∧ assignedCodes.contains code.toNat = true ∧ (classOf code.toNat = 0 ∨ bit (vget s.sec.img 24 0) (classOf code.toNat) = true) ∧ (5 ≤ s.sys.boot ∨ bootCodes.contains code.toNat = true) ∧ (s.flt.safe = false ∨ safeCodes.contains code.toNat = true) ∧ lifecycleOk code.toNat s.mbox.args s.sec.lc = false) ∧
    (∃ (code : Byte) (b : Blk) (s : State), mboxFree s = true ∧ assignedCodes.contains code.toNat = true ∧ (classOf code.toNat = 0 ∨ bit (vget s.sec.img 24 0) (classOf code.toNat) = true) ∧ (5 ≤ s.sys.boot ∨ bootCodes.contains code.toNat = true) ∧ (s.flt.safe = false ∨ safeCodes.contains code.toNat = true) ∧ lifecycleOk code.toNat s.mbox.args s.sec.lc = true ∧ blockOf code.toNat s.mbox.args = some b ∧ blkOn s b = false) ∧
    (∃ (code : Byte) (s : State), mboxFree s = true ∧ assignedCodes.contains code.toNat = false) ∧
    (∃ (code : Byte) (a : Args) (s : State), mboxFree s = true ∧ noRow code a = true ∧ admitted code a s = true) :=
  ⟨⟨0x3F, ready, by decide⟩,
   ⟨0x08, { ready with sec := { ready.sec with img := vput ready.sec.img 24 0xFFFD } }, by decide⟩,
   ⟨0x08, { ready with sys := { boot := 4 } }, by decide⟩,
   ⟨0x08, { ready with flt := { ready.flt with safe := true } }, by decide⟩,
   ⟨0x3C, ready, by decide⟩,
   ⟨0x2A, .link, { ready with clk := { ready.clk with gateEff := 0x6F } }, by decide⟩,
   ⟨0x3F, ready, by decide⟩,
   ⟨0x18, ⟨0xA000, 0, 0, 0⟩, ready, by decide⟩⟩

theorem wit_LinkSlots :
    (∃ (s : State), linkLive s = true ∧ s.link.lock = false ∧ s.link.st = .unlocked) ∧
    (∃ (s : State), linkLive s = true ∧ s.link.lock = true ∧ s.link.st ≠ .master) ∧
    (∃ (s : State), linkLive s = true ∧ s.link.lock = true ∧ s.link.st = .master) ∧
    (∃ (up : Bool) (s : State), breaks s up = true ∧ s.link.st = .master) ∧
    (∃ (up : Bool) (s : State), breaks s up = true ∧ s.link.st ≠ .master) ∧
    (∃ (up : Bool) (s : State), breaks s up = false ∧ breaksAgain s up = false) ∧
    (∃ (up : Bool) (s : State), breaksAgain s up = true) ∧
    (∃ (f : Frame) (fs : List Frame) (s : State), linkLive s = true ∧ s.link.st = .master ∧ s.link.k.getLsbD 0 = true ∧ s.link.fwd = f :: fs) ∧
    (∃ (s : State), linkLive s = true ∧ s.link.st = .master ∧ endpoint s = false ∧ s.link.k.getLsbD 0 = false ∧ s.link.out = []) ∧
    (∃ (o : OutFrame) (os : List OutFrame) (f : Frame) (s : State), endpoint s = true ∧ s.link.st = .master ∧ s.link.k.getLsbD 0 = false ∧ s.link.out = o :: os ∧ o.stamp = none ∧ o.rank ≠ rankJoin ∧ crcState f = .good ∧ fSrc f ≠ 0 ∧ fVoid f = false ∧ fSeen f = false ∧ f.ext.toNat / 64 = 0 ∧ fHc f < 31) ∧
    (∃ (f : Frame) (s : State), linkLive s = true ∧ follows s = true ∧ s.link.lock = true ∧ crcState f = .good ∧ f.ty ≠ 9 ∧ f.ext.toNat / 64 = 0 ∧ fHc f < 31) ∧
    (∃ (f : Frame) (s : State), linkLive s = true ∧ follows s = true ∧ s.link.lock = true ∧ f.ext.toNat / 64 = 0 ∧ fHc f < 31) ∧
    (∃ (s : State), linkLive s = true ∧ follows s = true ∧ s.link.lock = true) ∧
    (∃ (o : OutFrame) (os : List OutFrame) (s : State), linkLive s = true ∧ s.link.st = .member ∧ s.link.open_ = true ∧ s.link.out = o :: os) ∧
    (∃ (s : State), (s.link.st ≠ .member ∨ s.link.open_ = false)) ∧
    (∃ (f : Frame) (s : State), endpoint s = true ∧ crcState f = .wrong) ∧
    (∃ (s : State), endpoint s = true) ∧
    (∃ (f : Frame) (s : State), accepts s f = true ∧ (f.ty = 0 ∨ 12 ≤ f.ty)) :=
  ⟨⟨{ ready with link := { st := .unlocked, rejoin := true, brk := true } }, by decide⟩,
   ⟨joined, by decide⟩,
   ⟨master, by decide⟩,
   ⟨false, { master with link := { master.link with lock := false } }, by decide⟩,
   ⟨true, { joined with link := { joined.link with out := [⟨8, mkFrame 7 3 0 false 5, none⟩] } }, by decide⟩,
   ⟨false, joined, by decide⟩,
   ⟨false, { joined with link := { joined.link with st := .unlocked, node := 0, lock := false, brk := true }, clk := { joined.clk with rckok := true } }, by decide⟩,
   ⟨mkFrame 7 3 1 false 5, [], { master with link := { master.link with k := 1, fwd := [mkFrame 7 3 1 false 5], out := [⟨8, mkFrame 7 0 3 false 9, none⟩] } }, by decide⟩,
   ⟨{ master with link := { master.link with k := 2, brk := true } }, by decide⟩,
   ⟨⟨8, mkFrame 7 0 3 false 9, none⟩, [], mkFrame 7 3 1 false 5, { master with link := { master.link with k := 2, out := [⟨8, mkFrame 7 0 3 false 9, none⟩] } }, by decide⟩,
   ⟨mkFrame 7 3 1 false 5, joined, by decide⟩,
   ⟨mkFrame 7 3 1 false 5, joined, by decide⟩,
   ⟨joined, by decide⟩,
   ⟨⟨8, mkFrame 7 3 0 false 5, none⟩, [], { joined with link := { joined.link with open_ := true, out := [⟨8, mkFrame 7 3 0 false 5, none⟩] } }, by decide⟩,
   ⟨joined, by decide⟩,
   ⟨⟨0x7180, 0, 5, 0⟩, joined, by decide⟩,
   ⟨joined, by decide⟩,
   ⟨mkFrame 12 0 3 false 5, joined, by decide⟩⟩

theorem wit_LinkFrames :
    (∃ (f : Frame) (g : Frame) (s : State), accepts s f = true ∧ f.ty = 1 ∧ follows s = true ∧ s.wheel.cfgd = true ∧ accepts s g = true ∧ g.ty = 2 ∧ payBits f.payload 23 3 ≤ 5) ∧
    (∃ (f : Frame) (rx : RxSlot) (s : State), accepts s f = true ∧ f.ty = 1 ∧ follows s = true ∧ s.wheel.cfgd = true ∧ geomOf s rx = none) ∧
    (∃ (f : Frame) (s : State), accepts s f = true ∧ f.ty = 3 ∧ follows s = true) ∧
    (∃ (f : Frame) (lo : BitVec 32) (s : State), accepts s f = true ∧ f.ty = 4 ∧ follows s = true ∧ s.link.mir.state1 = some lo) ∧
    (∃ (f : Frame) (s : State), accepts s f = true ∧ f.ty = 4 ∧ follows s = true ∧ s.link.mir.state1 = none) ∧
    (∃ (f : Frame) (s : State), accepts s f = true ∧ f.ty = 4 ∧ follows s = true ∧ payBits f.payload 24 3 ≤ 5) ∧
    (∃ (f : Frame) (s : State), accepts s f = true ∧ f.ty = 5 ∧ follows s = true ∧ s.wheel.cfgd = true ∧ f.payload ≠ configPayload s.wheel.cfg) ∧
    (∃ (f : Frame) (s : State), accepts s f = true ∧ f.ty = 5 ∧ follows s = true ∧ s.wheel.cfgd = true ∧ f.payload = configPayload s.wheel.cfg) ∧
    (∃ (s : State), dueMissing s = true ∧ s.link.mir.valid = true ∧ s.link.mir.missing = 0) ∧
    (∃ (s : State), dueMissing s = true ∧ s.link.mir.valid = true ∧ 1 ≤ s.link.mir.missing) ∧
    (∃ (s : State), dueMissing s = false) ∧
    (∃ (f : Frame) (s : State), accepts s f = true ∧ f.ty = 6) ∧
    (∃ (f : Frame) (s : State), accepts s f = true ∧ f.ty = 7 ∧ fBc f = false ∧ ((s.link.rx.filter fun x => x.src == fSrc f).length < 4)) ∧
    (∃ (f : Frame) (s : State), accepts s f = true ∧ f.ty = 11 ∧ fBc f = false ∧ ((s.link.rx.filter fun x => x.src == fSrc f).length < 4)) ∧
    (∃ (f : Frame) (s : State), accepts s f = true ∧ f.ty = 8 ∧ fBc f = false ∧ s.link.sendWait = none) ∧
    (∃ (f : Frame) (s : State), accepts s f = true ∧ f.ty = 10 ∧ fBc f = false) ∧
    (∃ (f : Frame) (s : State), f.ty = 9 ∧ endpoint s = true ∧ crcState f = .good ∧ fVoid f = false ∧ f.ext.toNat / 64 = 0 ∧ (s.link.st = .joining ∨ s.link.st = .member) ∧ f.payload.getLsbD 5 = false ∧ s.link.sendWait = none) ∧
    (∃ (f : Frame) (s : State), f.ty = 9 ∧ endpoint s = true ∧ crcState f = .good ∧ fVoid f = false ∧ f.ext.toNat / 64 = 0 ∧ (s.link.st = .joining ∨ s.link.st = .member) ∧ f.payload.getLsbD 5 = true) ∧
    (∃ (s : State), s.link.st = .forward) ∧
    (∃ (f : Frame) (s : State), f.ty = 9 ∧ endpoint s = true ∧ crcState f = .good ∧ fVoid f = false ∧ f.ext.toNat / 64 = 0 ∧ s.link.st = .master ∧ s.link.joining = false) :=
  ⟨⟨mkFrame 1 0 0 true 0x01807005, mkFrame 2 0 0 true 0x00030002, joined, by decide⟩,
   ⟨mkFrame 1 0 0 true 0x01807005, .empty false, joined, by decide⟩,
   ⟨mkFrame 3 0 0 true 77, joined, by decide⟩,
   ⟨mkFrame 4 0 0 true 0x0B0007FF, 7, { joined with link := { joined.link with mir := { joined.link.mir with state1 := some 7 } } }, by decide⟩,
   ⟨mkFrame 4 0 0 true 0x0B0007FF, joined, by decide⟩,
   ⟨mkFrame 4 0 0 true 0x0B0007FF, joined, by decide⟩,
   ⟨mkFrame 5 0 0 true 5, joined, by decide⟩,
   ⟨mkFrame 5 0 0 true (configPayload joined.wheel.cfg), joined, by decide⟩,
   ⟨mirrored, by decide⟩,
   ⟨{ mirrored with link := { mirrored.link with mir := { mirrored.link.mir with missing := 1 } } }, by decide⟩,
   ⟨joined, by decide⟩,
   ⟨mkFrame 6 0 0 true 0x12340105, joined, by decide⟩,
   ⟨mkFrame 7 0 3 false 5, joined, by decide⟩,
   ⟨mkFrame 11 0 3 false 5, joined, by decide⟩,
   ⟨mkFrame 8 0 3 false 1, joined, by decide⟩,
   ⟨mkFrame 10 0 3 false 0x05123418, joined, by decide⟩,
   ⟨mkFrame 9 0 0 true 31, { joined with link := { joined.link with st := .joining, node := 0 } }, by decide⟩,
   ⟨mkFrame 9 0 0 true 32, { joined with link := { joined.link with st := .joining, node := 0 } }, by decide⟩,
   ⟨{ joined with link := { joined.link with st := .forward, node := 0 } }, by decide⟩,
   ⟨mkFrame 9 0 0 true 5, master, by decide⟩⟩

theorem wit_LinkCommands :
    (∃ (a : Args) (s : State), mboxFree s = true ∧ admitted 0x28 a s = true ∧ within a.a0 0xFF37 = true ∧ fld a.a0 0 2 = 1 ∧ s.link.st = .off ∧ s.dbg.ptest = false) ∧
    (∃ (a : Args) (s : State), mboxFree s = true ∧ admitted 0x28 a s = true ∧ within a.a0 0xFF37 = true ∧ fld a.a0 0 2 = 2 ∧ s.link.st = .off ∧ s.dbg.ptest = false) ∧
    (∃ (a : Args) (s : State), mboxFree s = true ∧ admitted 0x28 a s = true ∧ within a.a0 0xFF37 = true ∧ (fld a.a0 0 2 = 1 ∨ fld a.a0 0 2 = 2) ∧ (s.link.st ≠ .off ∨ s.dbg.ptest = true)) ∧
    (∃ (a : Args) (s : State), mboxFree s = true ∧ admitted 0x28 a s = true ∧ within a.a0 0xFF37 = true ∧ fld a.a0 0 2 = 0) ∧
    (∃ (a : Args) (s : State), mboxFree s = true ∧ admitted 0x28 a s = true ∧ within a.a0 0xFF37 = true ∧ fld a.a0 0 2 = 3 ∧ fld a.a0 4 2 = 1) ∧
    (∃ (a : Args) (s : State), mboxFree s = true ∧ admitted 0x28 a s = true ∧ within a.a0 0xFF37 = true ∧ fld a.a0 0 2 = 3 ∧ fld a.a0 4 2 = 0 ∧ s.link.st = .master) ∧
    (∃ (a : Args) (s : State), mboxFree s = true ∧ admitted 0x28 a s = true ∧ within a.a0 0xFF37 = true ∧ fld a.a0 0 2 = 3 ∧ fld a.a0 4 2 = 2) ∧
    (∃ (s : State), mboxFree s = true ∧ admitted 0x29 s.mbox.args s = true ∧ (s.link.st = .off ∨ s.link.st = .unlocked)) ∧
    (∃ (s : State), mboxFree s = true ∧ admitted 0x29 s.mbox.args s = true ∧ (s.link.st = .forward ∨ s.link.st = .member) ∧ s.link.sendWait = none) ∧
    (∃ (s : State), mboxFree s = true ∧ admitted 0x29 s.mbox.args s = true ∧ s.link.st = .master) ∧
    (∃ (f : Frame) (c : Cmd) (s : State), f.ty = 9 ∧ endpoint s = true ∧ crcState f = .good ∧ fVoid f = false ∧ f.ext.toNat / 64 = 0 ∧ f.payload.getLsbD 5 = false ∧ s.link.st = .master ∧ s.link.joining = true ∧ s.link.joinAt.isSome = true ∧ coreOn s = true ∧ s.mbox.run = some c ∧ c.sender = .host ∧ c.code = 0x29 ∧ s.mbox.committed = true ∧ s.mbox.cut = false ∧ s.link.sendWait = none) ∧
    (∃ (o : OutFrame) (os : List OutFrame) (s : State), linkLive s = true ∧ s.link.st = .master ∧ s.link.k.getLsbD 0 = false ∧ s.link.out = o :: os ∧ o.stamp = none ∧ o.rank = rankJoin) ∧
    (∃ (f : Frame) (c : Cmd) (s : State), f.ty = 9 ∧ endpoint s = true ∧ crcState f = .good ∧ fVoid f = false ∧ f.ext.toNat / 64 = 0 ∧ s.link.st = .master ∧ s.link.joining = true ∧ s.link.joinAt.isSome = true ∧ s.dbg.halted = true ∧ s.mbox.run = some c ∧ c.code = 0x29 ∧ s.mbox.committed = true ∧ s.mbox.cut = false ∧ s.link.sendWait = none) ∧
    (∃ (s : State), dueJoin s = false) ∧
    (∃ (c : Cmd) (s : State), dueJoin s = true ∧ coreOn s = true ∧ s.mbox.run = some c ∧ c.sender = .host ∧ c.code = 0x29 ∧ s.mbox.committed = true ∧ s.mbox.cut = false) ∧
    (∃ (a : Args) (s : State), mboxFree s = true ∧ admitted 0x2A (linkForm 0 a) s = true ∧ within (linkForm 0 a).a0 0xC11F = true ∧ onRing s = true ∧ dstOk s (fld a.a0 0 5) = true ∧ 0 < vget s.link.credits (fld a.a0 0 5) 0) ∧
    (∃ (a : Args) (s : State), mboxFree s = true ∧ admitted 0x2A (linkForm 0 a) s = true ∧ within (linkForm 0 a).a0 0xC11F = true ∧ onRing s = false) ∧
    (∃ (a : Args) (s : State), mboxFree s = true ∧ admitted 0x2A (linkForm 0 a) s = true ∧ within (linkForm 0 a).a0 0xC11F = true ∧ onRing s = true ∧ dstOk s (fld a.a0 0 5) = true ∧ vget s.link.credits (fld a.a0 0 5) 0 = 0 ∧ bit a.a0 8 = true) ∧
    (∃ (a : Args) (s : State), mboxFree s = true ∧ admitted 0x2A (linkForm 0 a) s = true ∧ within (linkForm 0 a).a0 0xC11F = true ∧ onRing s = true ∧ dstOk s (fld a.a0 0 5) = true ∧ vget s.link.credits (fld a.a0 0 5) 0 = 0 ∧ bit a.a0 8 = false) ∧
    (∃ (f : Frame) (o : OutFrame) (c : Cmd) (s : State), accepts s f = true ∧ f.ty = 8 ∧ fBc f = false ∧ s.link.sendWait = some (fSrc f, o) ∧ o.frame.ty = 7 ∧ coreOn s = true ∧ s.mbox.run = some c ∧ c.sender = .host ∧ c.code = 0x2A ∧ s.mbox.committed = true ∧ s.mbox.cut = false ∧ s.flt.safe = false ∧ blkOn s .link = true ∧ dstOk s (fSrc f) = true) ∧
    (∃ (a : Args) (s : State), mboxFree s = true ∧ admitted 0x2A (linkForm 2 a) s = true ∧ within (linkForm 2 a).a0 0xC11F = true ∧ onRing s = true ∧ dstOk s (fld a.a0 0 5) = true ∧ 0 < vget s.link.credits (fld a.a0 0 5) 0) ∧
    (∃ (a : Args) (m : RxMsg) (rest : List RxMsg) (s : State), mboxFree s = true ∧ admitted 0x2A (linkForm 1 a) s = true ∧ within (linkForm 1 a).a0 0xC000 = true ∧ onRing s = true ∧ s.link.rx = m :: rest) ∧
    (∃ (a : Args) (s : State), mboxFree s = true ∧ admitted 0x2A (linkForm 1 a) s = true ∧ within (linkForm 1 a).a0 0xC000 = true ∧ s.link.rx = []) ∧
    (∃ (a : Args) (s : State), mboxFree s = true ∧ admitted 0x2A (linkForm 3 a) s = true ∧ within (linkForm 3 a).a0 0xC000 = true) :=
  ⟨⟨⟨0x0A05, 0, 0, 0⟩, ready, by decide⟩,
   ⟨⟨0x0002, 0, 0, 0⟩, ready, by decide⟩,
   ⟨⟨0x0001, 0, 0, 0⟩, joined, by decide⟩,
   ⟨⟨0x0000, 0, 0, 0⟩, mirrored, by decide⟩,
   ⟨⟨0x0013, 0, 0, 0⟩, { joined with link := { joined.link with crcErr := 5, codeViol := 65535 } }, by decide⟩,
   ⟨⟨0x0003, 0, 0, 0⟩, master, by decide⟩,
   ⟨⟨0x0023, 0, 0, 0⟩, master, by decide⟩,
   ⟨ready, by decide⟩,
   ⟨joined, by decide⟩,
   ⟨master, by decide⟩,
   ⟨mkFrame 9 0 0 true 5, ⟨.host, 0x29, noArgs⟩, { master with link := { master.link with joining := true, joinAt := some 999000 }, mbox := { busy := true, run := some ⟨.host, 0x29, noArgs⟩, committed := true } }, by decide⟩,
   ⟨⟨rankJoin, mkFrame 9 0 0 true 1, none⟩, [], { master with link := { master.link with k := 2, joining := true, out := [⟨rankJoin, mkFrame 9 0 0 true 1, none⟩] } }, by decide⟩,
   ⟨mkFrame 9 0 0 true 5, ⟨.host, 0x29, noArgs⟩, { master with dbg := { attached := true, halted := true }, link := { master.link with joining := true, joinAt := some 999000 }, mbox := { busy := true, run := some ⟨.host, 0x29, noArgs⟩, committed := true } }, by decide⟩,
   ⟨master, by decide⟩,
   ⟨⟨.host, 0x29, noArgs⟩, { master with link := { master.link with joining := true, joinAt := some 990000 }, mbox := { busy := true, run := some ⟨.host, 0x29, noArgs⟩, committed := true } }, by decide⟩,
   ⟨⟨0x0000, 5, 6, 0⟩, joined, by decide⟩,
   ⟨⟨0x0000, 5, 6, 0⟩, ready, by decide⟩,
   ⟨⟨0x0100, 5, 6, 0⟩, { joined with link := { joined.link with credits := vput joined.link.credits 0 0 } }, by decide⟩,
   ⟨⟨0x0000, 5, 6, 0⟩, { joined with link := { joined.link with credits := vput joined.link.credits 0 0 } }, by decide⟩,
   ⟨mkFrame 8 0 3 false 1, ⟨rankHost, mkFrame 7 3 0 false 5, none⟩, ⟨.host, 0x2A, noArgs⟩, { joined with link := { joined.link with credits := vput joined.link.credits 0 0, sendWait := some (0, ⟨rankHost, mkFrame 7 3 0 false 5, none⟩) }, mbox := { busy := true, run := some ⟨.host, 0x2A, noArgs⟩, committed := true } }, by decide⟩,
   ⟨⟨0x0004, 0xAA21, 6, 0⟩, joined, by decide⟩,
   ⟨⟨0, 0, 0, 0⟩, ⟨0, true, 7⟩, [], { joined with link := { joined.link with rx := [⟨0, true, 7⟩] } }, by decide⟩,
   ⟨⟨0, 0, 0, 0⟩, joined, by decide⟩,
   ⟨⟨0, 0, 0, 0⟩, { joined with link := { joined.link with rxHold := ⟨1, false, 0xABCD1234⟩ } }, by decide⟩⟩

theorem wit_CommittedRecordIsValid : ∃ (c : Commit) (s : State), s.store.run = some c ∧ s.store.yielded = false :=
  ⟨⟨true, .host false, false, 7, 0⟩, { ready with store := { ready.store with run := some ⟨true, .host false, false, 7, 0⟩, shadow := [(10, 1), (20, 3)] } }, by decide⟩

theorem wit_StoreCommands :
    (∃ (a : Args) (s : State), mboxFree s = true ∧ admitted 0x30 a s = true ∧ within a.a0 1 = true ∧ a.a1.toNat ≤ 1022 ∧ s.store.run = none) ∧
    (∃ (a : Args) (s : State), mboxFree s = true ∧ admitted 0x30 a s = true ∧ (within a.a0 1 = false ∨ 1022 < a.a1.toNat)) ∧
    (∃ (a : Args) (s : State), mboxFree s = true ∧ admitted 0x30 a s = true ∧ within a.a0 1 = true ∧ a.a1.toNat ≤ 1022 ∧ s.store.run.isSome = true ∧ readWaits s = true) ∧
    (∃ (a : Args) (c : Commit) (s : State), mboxFree s = true ∧ admitted 0x30 a s = true ∧ within a.a0 1 = true ∧ a.a1.toNat ≤ 1022 ∧ s.store.run = some c ∧ s.sys.pfail = false ∧ c.cause ≠ .pfail) ∧
    (∃ (c : Cmd) (s : State), liveN s = true ∧ s.mbox.run = some c ∧ c.sender = .host ∧ c.code = 0x30 ∧ s.mbox.committed = true ∧ s.mbox.cut = false ∧ s.dbg.halted = false ∧ s.store.run.isSome = true ∧ s.store.yielded = true) ∧
    (∃ (s : State), s.store.yielded = true) ∧
    (∃ (c : Cmd) (s : State), liveN s = true ∧ s.mbox.run = some c ∧ c.code = 0x30 ∧ s.mbox.committed = true ∧ readWaits s = true) ∧
    (∃ (c : Cmd) (s : State), liveN s = true ∧ s.mbox.run = some c ∧ c.sender = .host ∧ c.code = 0x30 ∧ s.mbox.committed = true ∧ s.mbox.cut = false ∧ s.dbg.halted = false ∧ s.store.run = none) ∧
    (∃ (a : Args) (s : State), mboxFree s = true ∧ (admitted 0x31 { a with a0 := a.a0 &&& 0xFFFC } s = true) ∧ within a.a0 7 = true ∧ s.store.run = none ∧ (s.store.dirty = true ∨ bit a.a0 2 = true)) ∧
    (∃ (a : Args) (s : State), mboxFree s = true ∧ (admitted 0x31 { a with a0 := a.a0 &&& 0xFFFC } s = true) ∧ within a.a0 7 = true ∧ s.store.run = none ∧ s.store.dirty = false ∧ bit a.a0 2 = false) ∧
    (∃ (a : Args) (s : State), mboxFree s = true ∧ (admitted 0x31 { a with a0 := (a.a0 &&& 0xFFFC) ||| 1 } s = true) ∧ within a.a0 7 = true ∧ s.store.run = none) ∧
    (∃ (c : Commit) (s : State), s.store.run = some c ∧ s.store.yielded = false ∧ c.second = false) ∧
    (∃ (c : Commit) (s : State), s.store.run = some c ∧ s.store.yielded = false ∧ c.second = true ∧ s.store.queue = [] ∧ isNative s = true) ∧
    (∃ (c : Commit) (b : Bool) (m : Cmd) (s : State), s.store.run = some c ∧ s.store.yielded = false ∧ c.cause = .host b ∧ s.mbox.run = some m ∧ m.sender = .host ∧ m.code = 0x31 ∧ s.mbox.committed = true ∧ s.mbox.cut = false ∧ s.dbg.halted = false ∧ s.store.queue = []) ∧
    (∃ (c : Commit) (b : Bool) (m : Cmd) (s : State), s.store.run = some c ∧ s.store.yielded = false ∧ c.second = true ∧ c.cause = .host b ∧ s.mbox.run = some m ∧ m.sender = .host ∧ m.code = 0x31 ∧ s.mbox.committed = true ∧ s.mbox.cut = false ∧ s.dbg.halted = false ∧ s.store.queue = []) ∧
    (∃ (s : State), s.store.run = none) :=
  ⟨⟨⟨1, 1022, 0, 0⟩, { ready with store := { ready.store with bankB := [(2044, 5)] } }, by decide⟩,
   ⟨⟨1, 1023, 0, 0⟩, ready, by decide⟩,
   ⟨⟨1, 5, 0, 0⟩, { ready with sys := { ready.sys with pfail := true }, store := { ready.store with run := some ⟨true, .host false, false, 7, 0⟩ } }, by decide⟩,
   ⟨⟨1, 5, 0, 0⟩, ⟨true, .host false, false, 7, 0⟩, { ready with store := { ready.store with run := some ⟨true, .host false, false, 7, 0⟩ } }, by decide⟩,
   ⟨⟨.host, 0x30, ⟨1, 5, 0, 0⟩⟩, { ready with store := { ready.store with run := some ⟨true, .host false, false, 7, 3⟩, yielded := true }, mbox := { busy := true, run := some ⟨.host, 0x30, ⟨1, 5, 0, 0⟩⟩, committed := true } }, by decide⟩,
   ⟨{ ready with store := { ready.store with run := some ⟨true, .host false, false, 7, 3⟩, yielded := true } }, by decide⟩,
   ⟨⟨.host, 0x30, ⟨1, 5, 0, 0⟩⟩, { ready with sys := { ready.sys with pfail := true }, store := { ready.store with run := some ⟨true, .pfail, false, 7, 0⟩ }, mbox := { busy := true, run := some ⟨.host, 0x30, ⟨1, 5, 0, 0⟩⟩, committed := true } }, by decide⟩,
   ⟨⟨.host, 0x30, ⟨1, 5, 0, 0⟩⟩, { ready with mbox := { busy := true, run := some ⟨.host, 0x30, ⟨1, 5, 0, 0⟩⟩, committed := true } }, by decide⟩,
   ⟨⟨4, 0, 0, 0⟩, ready, by decide⟩,
   ⟨⟨0, 0, 0, 0⟩, ready, by decide⟩,
   ⟨⟨0, 0, 0, 0⟩, ready, by decide⟩,
   ⟨⟨true, .host false, false, 7, 0⟩, { ready with store := { ready.store with run := some ⟨true, .host false, false, 7, 0⟩ } }, by decide⟩,
   ⟨⟨true, .safe, true, 7, 0⟩, { ready with store := { ready.store with run := some ⟨true, .safe, true, 7, 0⟩ } }, by decide⟩,
   ⟨⟨true, .host true, false, 65543, 0⟩, true, ⟨.host, 0x31, ⟨4, 0, 0, 0⟩⟩, { ready with store := { ready.store with run := some ⟨true, .host true, false, 65543, 0⟩ }, mbox := { busy := true, run := some ⟨.host, 0x31, ⟨4, 0, 0, 0⟩⟩, committed := true } }, by decide⟩,
   ⟨⟨true, .host true, true, 7, 0⟩, true, ⟨.host, 0x31, ⟨4, 0, 0, 0⟩⟩, { ready with store := { ready.store with run := some ⟨true, .host true, true, 7, 0⟩ }, mbox := { busy := true, run := some ⟨.host, 0x31, ⟨4, 0, 0, 0⟩⟩, committed := true } }, by decide⟩,
   ⟨ready, by decide⟩⟩

theorem wit_SecurityCommands :
    (∃ (a : Args) (s : State), mboxFree s = true ∧ (admitted 0x3E { a with a0 := a.a0 &&& 0x7FFF } s = true) ∧ within a.a0 0x800F = true ∧ keyWritten s.sec (fld a.a0 0 4) = false ∧ a.a1 ≠ 0xFFFF ∧ s.sec.adv = none) ∧
    (∃ (a : Args) (s : State), mboxFree s = true ∧ (admitted 0x3E { a with a0 := a.a0 &&& 0x7FFF } s = true) ∧ within a.a0 0x800F = true ∧ keyWritten s.sec (fld a.a0 0 4) = true ∧ s.sec.adv = none) ∧
    (∃ (a : Args) (s : State), mboxFree s = true ∧ (admitted 0x3E { a with a0 := a.a0 ||| 0x8000 } s = true) ∧ within a.a0 0x8003 = true ∧ fld a.a0 0 2 = 1 ∧ a.a1 = 0x4C43 ∧ s.sec.lc = 0 ∧ keyComplete s.sec = true ∧ keyWritten s.sec 16 = false ∧ s.sec.adv = none) ∧
    (∃ (a : Args) (s : State), mboxFree s = true ∧ (admitted 0x3E { a with a0 := a.a0 ||| 0x8000 } s = true) ∧ within a.a0 0x8003 = true ∧ (fld a.a0 0 2 = 1 ∨ fld a.a0 0 2 = 2) ∧ a.a1 ≠ 0x4C43 ∧ s.sec.adv = none) ∧
    (∃ (a : Args) (w : Fin 16) (v : Word) (s : State), mboxFree s = true ∧ (admitted 0x3E { a with a0 := a.a0 &&& 0x7FFF } s = true) ∧ within a.a0 0x800F = true ∧ keyWritten s.sec (fld a.a0 0 4) = false ∧ a.a1 ≠ 0xFFFF ∧ s.sec.adv = some (.key w.val v) ∧ s.sec.keys[w.val]'(by omega) = 0xFFFF ∧ w.val ≠ fld a.a0 0 4) ∧
    (∃ (w : Fin 16) (v : Word) (s : State), liveN s = true ∧ s.sec.adv = some (.key w.val v) ∧ s.sec.keys[w.val]'(by omega) = 0xFFFF) ∧
    (∃ (s : State), liveN s = true ∧ s.sec.adv = some (.lock 1) ∧ s.sec.keys[17] = 0xFFFF ∧ s.sec.keys[16] = 0xFFFF) ∧
    (∃ (s : State), liveN s = true ∧ s.sec.adv = some .seal) ∧
    (∃ (s : State), liveN s = true ∧ s.sec.adv = some (.lock 2) ∧ coreOn s = true ∧ s.mbox.cut = false ∧ s.sec.keys[17] = 0xFFFF ∧ s.sec.keys[16] = 0xFFFF) ∧
    (∃ (s : State), s.sec.adv = some .sealNext ∧ coreOn s = false) ∧
    (∃ (d : Advance) (s : State), liveN s = true ∧ s.sec.adv = some d ∧ (d ≠ .sealNext ∨ coreOn s = true)) ∧
    (∃ (s : State), inPhase s 3 = true) ∧
    (∃ (a : Args) (s : State), mboxFree s = true ∧ admitted 0x3C a s = true ∧ within a.a0 7 = true ∧ bit a.a0 2 = true ∧ s.sec.unlk = false ∧ s.sys.boot = 5 ∧ s.clk.aocok = true ∧ s.sec.lockout = false) ∧
    (∃ (a : Args) (s : State), mboxFree s = true ∧ admitted 0x3C a s = true ∧ within a.a0 7 = true ∧ bit a.a0 2 = true ∧ s.sec.unlk = false ∧ s.sys.boot = 5 ∧ s.clk.aocok = true ∧ s.sec.lockout = true) ∧
    (∃ (a : Args) (s : State), mboxFree s = true ∧ admitted 0x3D a s = true ∧ s.sec.chal = none) ∧
    (∃ (a : Args) (x : BitVec 128) (s : State), mboxFree s = true ∧ admitted 0x3D a s = true ∧ s.sec.chal = some x ∧ s.sec.ansM = none) ∧
    (∃ (a : Args) (x : BitVec 128) (lo : BitVec 64) (s : State), mboxFree s = true ∧ admitted 0x3D a s = true ∧ s.sec.chal = some x ∧ s.sec.ansM = some lo) ∧
    (∃ (k : Check) (s : State), liveN s = true ∧ s.sec.chk = some k ∧ bytesLE 16 k.answer = expectedAnswer s.sec k.chal) ∧
    (∃ (k : Check) (s : State), liveN s = true ∧ s.sec.chk = some k ∧ bytesLE 16 k.answer ≠ expectedAnswer s.sec k.chal ∧ s.sec.fails < 255) ∧
    (∃ (s : State), s.sec.lockout = true ∧ s.clk.aocok = true) :=
  ⟨⟨⟨15, 0x1234, 0, 0⟩, ready, by decide⟩,
   ⟨⟨15, 0x1234, 0, 0⟩, keyed, by decide⟩,
   ⟨⟨1, 0x4C43, 0, 0⟩, keyed, by decide⟩,
   ⟨⟨2, 0x4C44, 0, 0⟩, keyed, by decide⟩,
   ⟨⟨3, 0x1234, 0, 0⟩, 15, 5, { ready with sec := { ready.sec with adv := some (.key 15 5) } }, by decide⟩,
   ⟨15, 0x1234, { ready with sec := { ready.sec with adv := some (.key 15 0x1234) } }, by decide⟩,
   ⟨{ keyed with sec := { keyed.sec with adv := some (.lock 1) } }, by decide⟩,
   ⟨{ locked with sec := { locked.sec with adv := some .seal } }, by decide⟩,
   ⟨{ keyed with sec := { keyed.sec with adv := some (.lock 2) } }, by decide⟩,
   ⟨{ keyed with sec := { keyed.sec with adv := some .sealNext }, dbg := { attached := true, halt := true, halted := true } }, by decide⟩,
   ⟨.key 15 0x1234, { ready with sec := { ready.sec with adv := some (.key 15 0x1234) } }, by decide⟩,
   ⟨{ ready with sys := { boot := 3 } }, by decide⟩,
   ⟨⟨7, 0, 0, 0⟩, locked, by decide⟩,
   ⟨⟨4, 0, 0, 0⟩, { locked with sec := { locked.sec with lockout := true } }, by decide⟩,
   ⟨⟨1, 2, 3, 4⟩, locked, by decide⟩,
   ⟨⟨1, 2, 3, 4⟩, 5, { locked with sec := { locked.sec with chal := some 5 } }, by decide⟩,
   ⟨⟨1, 2, 3, 4⟩, 5, 9, { locked with sec := { locked.sec with chal := some 5, ansM := some 9 } }, by decide⟩,
   ⟨rightCheck, answering rightCheck, by decide, rfl, right_is_right⟩,
   ⟨wrongCheck, answering wrongCheck, by decide, rfl, wrong_is_wrong, by decide⟩,
   ⟨{ locked with sec := { locked.sec with lockout := true } }, by decide⟩⟩

theorem wit_DebugPort :
    (∃ (s : State), dbgOn s = true ∧ s.dbg.attached = false) ∧
    (∃ (s : State), dbgOn s = true ∧ s.dbg.attached = true) ∧
    (∃ (s : State), heard s = true) ∧
    (∃ (s : State), heard s = false) ∧
    (∃ (s : State), dbgOn s = true ∧ s.dbg.attached = true ∧ s.mbox.ready = none ∧ s.link.sendWait = none ∧ s.diag.test = none) ∧
    (∃ (s : State), heard s = true ∧ s.mbox.ready = none ∧ s.link.sendWait = none ∧ s.diag.test = none) ∧
    (∃ (s : State), heard s = true) ∧
    (∃ (s : State), heard s = true ∧ dbgFull s = true ∧ dbgRun s = true ∧ s.sys.pwr = .run) ∧
    (∃ (s : State), heard s = true ∧ dbgFull s = true ∧ dbgRun s = true ∧ s.mbox.ready = none ∧ s.link.sendWait = none ∧ s.diag.test = none) ∧
    (∃ (c : Cmd) (st : Nat) (q0 : Nat) (q1 : Nat) (s : State), heard s = true ∧ dbgFull s = true ∧ dbgRun s = true ∧ s.mbox.ready = some (st, q0, q1) ∧ s.mbox.run = some c ∧ c.sender = .host ∧ s.link.sendWait = none ∧ s.diag.test = none) ∧
    (∃ (s : State), heard s = true ∧ dbgFull s = false ∧ fclkRuns s = true) ∧
    (∃ (s : State), heard s = true ∧ s.sec.lc = 0 ∧ dbgRun s = true ∧ s.dbg.ptest = false ∧ ptestOk s = true) ∧
    (∃ (s : State), heard s = true ∧ s.sec.lc = 0 ∧ dbgRun s = true ∧ s.dbg.ptest = false ∧ ptestOk s = false) ∧
    (∃ (s : State), heard s = true ∧ s.sec.lc = 0 ∧ dbgRun s = true) ∧
    (∃ (s : State), heard s = true ∧ dbgUnlock s = true ∧ s.sec.lc = 1 ∧ s.sec.unlk = false ∧ s.sys.boot = 5 ∧ s.clk.aocok = true ∧ s.sec.lockout = false ∧ s.flt.safe = false) ∧
    (∃ (s : State), heard s = true ∧ s.dbg.err = true) ∧
    (∃ (x : BitVec 128) (s : State), heard s = true ∧ s.dbg.err = false ∧ dbgUnlock s = true ∧ s.sec.chal = some x) ∧
    (∃ (s : State), heard s = true ∧ s.dbg.err = false ∧ dbgUnlock s = true ∧ s.dbg.ans.length < 7) ∧
    (∃ (x : BitVec 128) (s : State), heard s = true ∧ s.dbg.err = false ∧ dbgUnlock s = true ∧ s.dbg.ans.length = 7 ∧ s.sec.chal = some x) ∧
    (∃ (s : State), heard s = true ∧ s.dbg.err = false ∧ dbgFull s = true ∧ dbgRun s = true) ∧
    (∃ (s : State), heard s = true) ∧
    (∃ (s : State), heard s = true) ∧
    (∃ (s : State), heard s = true ∧ s.dbg.err = false ∧ dbgFull s = true ∧ dbgRun s = true) ∧
    (∃ (s : State), heard s = true ∧ s.dbg.err = false ∧ dbgFull s = true ∧ dbgRun s = true) ∧
    (∃ (s : State), heard s = true ∧ s.dbg.err = false ∧ hwrOk s = true ∧ dbgWaking s = false ∧ regOpen s 0x30 = true) ∧
    (∃ (a : BitVec 6) (s : State), heard s = true ∧ s.dbg.err = false ∧ hwrOk s = true ∧ dbgWaking s = false ∧ a.toNat ≤ 47) ∧
    (∃ (a : BitVec 6) (s : State), heard s = true ∧ s.dbg.err = false ∧ s.sys.pwr = .standby ∧ fclkRuns s = false ∧ dbgWaking s = false ∧ a.toNat ≤ 47) ∧
    (∃ (a : BitVec 6) (s : State), heard s = true ∧ 14 < a.toNat) ∧
    (∃ (s : State), heard s = true ∧ s.sec.lc = 0 ∧ dbgRun s = true ∧ s.sys.pwr = .run ∧ s.dbg.ptest = false) ∧
    (∃ (s : State), heard s = true ∧ s.dbg.err = false ∧ dbgFull s = true ∧ dbgWaking s = true) :=
  ⟨⟨{ ready with dbg := { ready.dbg with halt := true } }, by decide⟩,
   ⟨{ ready with dbg := { attached := true, ignoring := true } }, by decide⟩,
   ⟨probed, by decide⟩,
   ⟨ready, by decide⟩,
   ⟨{ probed with dbg := { probed.dbg with halt := true, halted := true, ptest := true, dwadr := 7 } }, by decide⟩,
   ⟨probed, by decide⟩,
   ⟨{ probed with dbg := { probed.dbg with err := true } }, by decide⟩,
   ⟨probed, by decide⟩,
   ⟨{ probed with dbg := { probed.dbg with halt := true, halted := true } }, by decide⟩,
   ⟨⟨.host, 0x14, noArgs⟩, 0, 1, 2, { probed with dbg := { probed.dbg with halt := true, halted := true }, mbox := { busy := true, run := some ⟨.host, 0x14, noArgs⟩, committed := true, ready := some (0, 1, 2) } }, by decide⟩,
   ⟨{ probed with sec := { probed.sec with lc := 2 } }, by decide⟩,
   ⟨probed, by decide⟩,
   ⟨{ probed with sys := { probed.sys with oe := true } }, by decide⟩,
   ⟨{ probed with dbg := { probed.dbg with ptest := true } }, by decide⟩,
   ⟨{ probed with sec := { probed.sec with lc := 1 } }, by decide⟩,
   ⟨{ probed with dbg := { probed.dbg with err := true } }, by decide⟩,
   ⟨5, { probed with dbg := { probed.dbg with p := 7 }, sec := { probed.sec with lc := 1, chal := some 5 } }, by decide⟩,
   ⟨probed, by decide⟩,
   ⟨5, { probed with dbg := { probed.dbg with ans := [1, 2, 3, 4, 5, 6, 7] }, sec := { probed.sec with lc := 1, chal := some 5 } }, by decide⟩,
   ⟨probed, by decide⟩,
   ⟨probed, by decide⟩,
   ⟨{ probed with dbg := { probed.dbg with err := true } }, by decide⟩,
   ⟨probed, by decide⟩,
   ⟨probed, by decide⟩,
   ⟨probed, by decide⟩,
   ⟨47, probed, by decide⟩,
   ⟨24, { probed with sys := { probed.sys with pwr := .standby }, clk := { probed.clk with fclkOn := false } }, by decide⟩,
   ⟨15, probed, by decide⟩,
   ⟨{ probed with dbg := { probed.dbg with err := true } }, by decide⟩,
   ⟨{ probed with dbg := { probed.dbg with dwk := true }, sys := { probed.sys with fromStby := true, boot := 3 } }, by decide⟩⟩

theorem wit_WheelEmitter :
    (∃ (a : Args) (s : State), mboxFree s = true ∧ admitted 0x38 a s = true ∧ within a.a0 0x03FF = true ∧ s.emit.run = true) ∧
    (∃ (a : Args) (n : Fin 12) (s : State), mboxFree s = true ∧ admitted 0x38 a s = true ∧ within a.a0 0x03FF = true ∧ s.emit.run = false ∧ 8 ≤ n.val ∧ n.val ≤ 8 + fld a.a0 2 2 ∧ s.chan[n].cfg.mode ≠ 0) ∧
    (∃ (a : Args) (k : Nat) (s : State), mboxFree s = true ∧ admitted 0x38 a s = true ∧ within a.a0 0x03FF = true ∧ s.emit.run = false ∧ (∀ n : Fin 12, 8 ≤ n.val → n.val ≤ 8 + fld a.a0 2 2 → s.chan[n].cfg.mode = 0) ∧ firstFail (emChecks s.emit.win (bit a.a0 1) (fld a.a0 2 2) (fld a.a0 4 5 + 1)) = some k) ∧
    (∃ (a : Args) (s : State), mboxFree s = true ∧ admitted 0x38 a s = true ∧ within a.a0 0x03FF = true ∧ s.emit.run = false ∧ (∀ n : Fin 12, 8 ≤ n.val → n.val ≤ 8 + fld a.a0 2 2 → s.chan[n].cfg.mode = 0) ∧ firstFail (emChecks s.emit.win (bit a.a0 1) (fld a.a0 2 2) (fld a.a0 4 5 + 1)) = none) ∧
    (∃ (s : State), mboxFree s = true ∧ admitted 0x39 s.mbox.args s = true) ∧
    (∃ (s : State), dueStep s = false) ∧
    (∃ (s : State), dueStep s = true ∧ s.emit.ncam = 0 ∧ s.emit.step = 0) ∧
    (∃ (s : State), dueStep s = true ∧ s.emit.ncam = 0 ∧ 0 < s.emit.step ∧ s.emit.step < emLen s.emit.tab s.emit.seg ∧ s.emit.holding = false) ∧
    (∃ (s : State), dueStep s = true ∧ s.emit.ncam = 0 ∧ 0 < s.emit.step ∧ emLen s.emit.tab s.emit.seg ≤ s.emit.step ∧ s.emit.nseg ≤ s.emit.seg + 1 ∧ s.emit.cycle = false ∧ s.emit.holding = false) ∧
    (∃ (s : State), dueStep s = true ∧ s.emit.ncam = 0 ∧ 0 < s.emit.step ∧ emLen s.emit.tab s.emit.seg ≤ s.emit.step ∧ s.emit.seg + 1 < s.emit.nseg ∧ s.emit.holding = false) ∧
    (∃ (s : State), dueStep s = true ∧ s.emit.ncam = 0 ∧ 0 < s.emit.step ∧ emLen s.emit.tab s.emit.seg ≤ s.emit.step ∧ s.emit.nseg ≤ s.emit.seg + 1 ∧ s.emit.cycle = true ∧ s.emit.holding = false) ∧
    (∃ (s : State), dueStep s = true ∧ 0 < s.emit.step ∧ s.emit.loop = false) ∧
    (∃ (c : Fin 3) (s : State), dueCam s c = true) ∧
    (∃ (c : Fin 3) (s : State), dueCam s c = true ∧ s.emit.loop = false) ∧
    (∃ (c : Fin 3) (s : State), dueCam s c = false) :=
  ⟨⟨⟨0, 0, 0, 0⟩, { ready with emit := { ready.emit with run := true } }, by decide⟩,
   ⟨⟨12, 0, 0, 0⟩, 11, { ready with chan := vupd ready.chan 11 fun c => { c with cfg := { c.cfg with mode := 1 } } }, by decide⟩,
   ⟨⟨0, 0, 0, 0⟩, 1, ready, by decide⟩,
   ⟨⟨0x0205, 0, 0, 0⟩, emitSet, by decide⟩,
   ⟨emitting, by decide⟩,
   ⟨ready, by decide⟩,
   ⟨{ emitting with emit := { emitting.emit with step := 0 } }, by decide⟩,
   ⟨emitting, by decide⟩,
   ⟨{ emitting with emit := { emitting.emit with step := 10 } }, by decide⟩,
   ⟨{ emitting with emit := { emitting.emit with step := 10, nseg := 2 } }, by decide⟩,
   ⟨{ emitting with emit := { emitting.emit with step := 10, cycle := true } }, by decide⟩,
   ⟨{ emitting with emit := { emitting.emit with ncam := 1 } }, by decide⟩,
   ⟨0, { emitting with emit := { emitting.emit with ncam := 1, p := 1, t0 := 990000, loop := true } }, by decide⟩,
   ⟨0, { emitting with emit := { emitting.emit with ncam := 1, p := 1, t0 := 990000 } }, by decide⟩,
   ⟨0, ready, by decide⟩⟩

theorem wit_LegacyRegisters :
    (∃ (s : State), isNative s = false ∧ fclkRuns s = true ∧ s.sys.boot = 1 ∧ s.leg.ready = false) ∧
    (∃ (s : State), isNative s = false ∧ fclkRuns s = true ∧ s.sys.boot = 1 ∧ s.leg.ready = false) ∧
    (∃ (v : Byte) (s : State), legLive s = true ∧ s.sys.vddioa = true ∧ s.leg.oe = true ∧ v.getLsbD 0 = false ∧ s.leg.decen = v.getLsbD 1) ∧
    (∃ (s : State), legLive s = true ∧ s.sys.vddioa = true ∧ s.leg.oe = false ∧ s.leg.decen = false) ∧
    (∃ (v : Byte) (s : State), legLive s = true ∧ s.sys.vddioa = true ∧ v.toNat % 8 = 7) ∧
    (∃ (v : Byte) (s : State), legLive s = true ∧ s.sys.vddioa = true ∧ v.toNat % 8 = 2 ∧ v &&& 0x3F ≠ s.leg.wheel) ∧
    (∃ (s : State), legLive s = true ∧ s.sys.vddioa = true) ∧
    (∃ (v : Byte) (s : State), legLive s = true ∧ s.sys.vddioa = true ∧ v.getLsbD 3 = false ∧ (s.wheel.st ≠ .sync ∨ cycC s.wheel.cfg ≤ 64 * s.leg.evang.toNat)) ∧
    (∃ (s : State), legLive s = true ∧ s.sys.vddioa = true ∧ s.wheel.st = .sync ∧ 64 * s.leg.evang.toNat < cycC s.wheel.cfg) ∧
    (∃ (v : Byte) (s : State), legLive s = true ∧ s.sys.vddioa = true ∧ v.getLsbD 2 = false) ∧
    (∃ (s : State), legLive s = true ∧ s.sys.vddioa = true) ∧
    (∃ (s : State), legLive s = true ∧ s.sys.vddioa = true) ∧
    (∃ (s : State), legLive s = true ∧ s.sys.vddioa = true) ∧
    (∃ (s : State), legLive s = true ∧ s.sys.vddioa = true) ∧
    (∃ (s : State), legLive s = true ∧ s.sys.vddioa = true ∧ (freshLeg s).getLsbD 5 = true) ∧
    (∃ (s : State), legLive s = true ∧ s.sys.vddioa = true ∧ (freshLeg s).getLsbD 5 = false) ∧
    (∃ (s : State), legLive s = true ∧ s.sys.vddioa = true) ∧
    (∃ (s : State), legLive s = true ∧ s.sys.vddioa = true) ∧
    (∃ (s : State), legLive s = true ∧ s.sys.vddioa = true) ∧
    (∃ (s : State), legLive s = true ∧ s.sys.vddioa = true) ∧
    (∃ (s : State), (legLive s = false ∨ s.sys.vddioa = false)) ∧
    (∃ (s : State), isNative s = false ∧ s.sys.inReset = false) :=
  ⟨⟨{ leg with leg := { leg.leg with ready := false }, sys := { leg.sys with boot := 1 } }, by decide⟩,
   ⟨{ leg with leg := { leg.leg with ready := false }, sys := { leg.sys with boot := 1 } }, by decide⟩,
   ⟨2, { leg with leg := { leg.leg with ch := Vector.replicate 8 { st := .set } } }, by decide⟩,
   ⟨{ leg with leg := { leg.leg with oe := false, decen := false } }, by decide⟩,
   ⟨7, leg, by decide⟩,
   ⟨0x1A, leg, by decide⟩,
   ⟨{ leg with leg := { leg.leg with ch := Vector.replicate 8 { st := .set } } }, by decide⟩,
   ⟨5, { leg with wheel := { leg.wheel with st := .nosync } }, by decide⟩,
   ⟨{ leg with leg := { leg.leg with evang := 11519, evsel := 15, evch := 0x17 } }, by decide⟩,
   ⟨8, { leg with leg := { leg.leg with slots := vupd leg.leg.slots 0 fun x => { x with armed := true } } }, by decide⟩,
   ⟨leg, by decide⟩,
   ⟨leg, by decide⟩,
   ⟨{ leg with leg := { leg.leg with profsel := 3, profbyte := 5 } }, by decide⟩,
   ⟨{ leg with leg := { leg.leg with profsel := 3, profbyte := 7 } }, by decide⟩,
   ⟨{ leg with leg := { leg.leg with triplat := true, fresh := 0x20, freshAt := leg.clk.tb } }, by decide⟩,
   ⟨{ leg with leg := { leg.leg with triplat := true } }, by decide⟩,
   ⟨{ leg with leg := { leg.leg with lost := true, tim := true, fresh := 0x80, freshAt := leg.clk.tb } }, by decide⟩,
   ⟨leg, by decide⟩,
   ⟨{ leg with leg := { leg.leg with timsel := 1 } }, by decide⟩,
   ⟨{ leg with leg := { leg.leg with timsel := 1 } }, by decide⟩,
   ⟨ready, by decide⟩,
   ⟨leg, by decide⟩⟩

theorem wit_LegacyCourse :
    (∃ (i : Fin 16) (s : State), dueLFire s i = true ∧ (s.leg.oe = false ∨ s.leg.triplat = true)) ∧
    (∃ (i : Fin 16) (n : Fin 8) (s : State), dueLFire s i = true ∧ s.leg.oe = true ∧ s.leg.triplat = false ∧ s.leg.louten.getLsbD n.val = true ∧ s.leg.slots[i].ch = n.val ∧ s.leg.slots[i].act = 2 ∧ s.leg.ch[n].st = .idle) ∧
    (∃ (i : Fin 16) (n : Fin 8) (s : State), dueLFire s i = true ∧ s.leg.oe = true ∧ s.leg.triplat = false ∧ s.leg.louten.getLsbD n.val = true ∧ s.leg.slots[i].ch = n.val ∧ s.leg.slots[i].act = 0 ∧ s.leg.ch[n].st = .idle ∧ ((vget s.leg.profs s.leg.slots[i].prof (Vector.replicate 8 0))[0]) ≠ 0) ∧
    (∃ (i : Fin 16) (n : Fin 8) (s : State), dueLFire s i = true ∧ s.leg.oe = true ∧ s.leg.triplat = false ∧ s.leg.louten.getLsbD n.val = true ∧ s.leg.slots[i].ch = n.val ∧ ((s.leg.slots[i].act = 1 ∧ s.leg.ch[n].st.runs = true) ∨ (s.leg.slots[i].act = 3 ∧ s.leg.ch[n].st = .set))) ∧
    (∃ (i : Fin 16) (s : State), dueLFire s i = false) ∧
    (∃ (n : Fin 8) (s : State), dueLPhase s n = true ∧ s.leg.ch[n].st = .boost) ∧
    (∃ (n : Fin 8) (s : State), dueLPhase s n = true ∧ s.leg.ch[n].st = .dead ∧ lprof s s.leg.ch[n] 1 ≠ 0) ∧
    (∃ (n : Fin 8) (s : State), dueLPhase s n = true ∧ s.leg.ch[n].st = .peak) ∧
    (∃ (n : Fin 8) (s : State), dueLPhase s n = false) ∧
    (∃ (n : Fin 8) (s : State), dueLPwm s n = true ∧ reached s.leg.ch[n].perEnd s.clk.tb = false) ∧
    (∃ (n : Fin 8) (s : State), dueLPwm s n = true ∧ reached s.leg.ch[n].perEnd s.clk.tb = true) ∧
    (∃ (n : Fin 8) (s : State), dueLPwm s n = false) ∧
    (∃ (n : Fin 8) (s : State), dueLMaxon s n = true) ∧
    (∃ (n : Fin 8) (s : State), dueLMaxon s n = false) ∧
    (∃ (s : State), legLive s = true ∧ s.leg.tripin = false) ∧
    (∃ (s : State), dueLTrip s = true) ∧
    (∃ (k : Fin 2) (s : State), dueLMatch s k = true ∧ s.leg.timers[k].count < 65535 ∧ s.leg.timers[k].count ≠ s.leg.timers[k].cmp) ∧
    (∃ (t : LTimer), t.clrm = true ∧ t.count = t.cmp) ∧
    (∃ (t : LTimer), (t.clrm = false ∨ t.count ≠ t.cmp)) ∧
    (∃ (k : Fin 2) (s : State), dueLMatch s k = false) ∧
    (∃ (k : Fin 2) (s : State), dueLOvf s k = true) ∧
    (∃ (k : Fin 2) (s : State), dueLOvf s k = false) :=
  ⟨⟨15, { legDue 2 with leg := { (legDue 2).leg with oe := false } }, by decide⟩,
   ⟨15, 7, legDue 2, by decide⟩,
   ⟨15, 7, { legDue 0 with leg := { (legDue 0).leg with profs := Vector.replicate 4 (Vector.replicate 8 9) } }, by decide⟩,
   ⟨15, 7, { legDue 3 with leg := { (legDue 3).leg with ch := vupd (legDue 3).leg.ch 7 fun c => { c with st := .set } } }, by decide⟩,
   ⟨15, leg, by decide⟩,
   ⟨7, legIn .boost, by decide⟩,
   ⟨7, { legIn .dead with leg := { (legIn .dead).leg with profs := Vector.replicate 4 (Vector.replicate 8 9) } }, by decide⟩,
   ⟨7, legIn .peak, by decide⟩,
   ⟨7, leg, by decide⟩,
   ⟨7, legIn .hold, by decide⟩,
   ⟨7, { legIn .hold with leg := { (legIn .hold).leg with ch := vupd (legIn .hold).leg.ch 7 fun c => { c with perEnd := some 1000000 } } }, by decide⟩,
   ⟨7, leg, by decide⟩,
   ⟨7, { legIn .hold with leg := { (legIn .hold).leg with ch := vupd (legIn .hold).leg.ch 7 fun c => { c with maxEnd := some 1000000 } } }, by decide⟩,
   ⟨7, leg, by decide⟩,
   ⟨legIn .hold, by decide⟩,
   ⟨{ leg with leg := { leg.leg with tripin := true } }, by decide⟩,
   ⟨1, { leg with leg := { leg.leg with timers := vupd leg.leg.timers 1 fun t => { t with en := true, clrm := true, ie := true, count := 65534, cmp := 65535, inc := true } } }, by decide⟩,
   ⟨{ clrm := true, count := 7, cmp := 7 }, by decide⟩,
   ⟨{ count := 65535, cmp := 65535 }, by decide⟩,
   ⟨1, leg, by decide⟩,
   ⟨1, { leg with leg := { leg.leg with timers := vupd leg.leg.timers 1 fun t => { t with en := true, ie := true, count := 65535, cmp := 7, inc := true } } }, by decide⟩,
   ⟨1, leg, by decide⟩⟩

/-! ### Ill-formed commands are refused: one for each check of `Instr.wf` -/

theorem test_wf_cam_forms : (Instr.camSetEdge ⟨0x8000, 0, 0, 0⟩).wf = false ∧ (Instr.camSetHeader noArgs).wf = false := by decide

theorem test_wf_brass_forms : (Instr.brassLoadInstruction ⟨0x8000, 0, 0, 0⟩).wf = false ∧ (Instr.brassLoadHeader noArgs).wf = false := by
  decide

theorem test_wf_diag_forms : (Instr.diagRunChan ⟨0x4000, 0, 0, 0⟩).wf = false ∧ (Instr.diagRunTrip noArgs).wf = false ∧
    (Instr.diagRunTest noArgs).wf = false := by decide

theorem test_wf_therm_forms : (Instr.thermSetStage ⟨0x2000, 0, 0, 0⟩).wf = false ∧ (Instr.thermSetApply noArgs).wf = false ∧
    (Instr.thermSetAmb noArgs).wf = false ∧ (Instr.thermSetInit noArgs).wf = false ∧ (Instr.thermSetDie noArgs).wf = false := by decide

theorem test_wf_fault_forms : (Instr.fltReadCount ⟨0x4000, 0, 0, 0⟩).wf = false ∧ (Instr.fltReadClear noArgs).wf = false ∧
    (Instr.fltReadHist noArgs).wf = false := by decide

theorem test_wf_role_forms : (Instr.linkRole ⟨3, 0, 0, 0⟩).wf = false ∧ (Instr.linkRoleQuery ⟨2, 0, 0, 0⟩).wf = false := by decide

theorem test_wf_send_forms : (Instr.linkSend ⟨0x4000, 0, 0, 0⟩).wf = false ∧ (Instr.linkSendRecv noArgs).wf = false ∧
    (Instr.linkSendRemote noArgs).wf = false ∧ (Instr.linkSendData noArgs).wf = false := by decide

theorem test_wf_store_forms : (Instr.storeCommit ⟨1, 0, 0, 0⟩).wf = false ∧ (Instr.storeCommitClear noArgs).wf = false := by decide

theorem test_wf_lifecycle_forms : (Instr.lifecycleAdvanceKey ⟨0x8000, 0, 0, 0⟩).wf = false ∧
    (Instr.lifecycleAdvanceStep noArgs).wf = false := by decide

theorem test_wf_unassigned : (Instr.unassignedCommand 0x08 noArgs).wf = false ∧ (Instr.unassignedCommand 0x14 noArgs).wf = false ∧
    (Instr.unassignedCommand 0x18 ⟨0x8000, 0, 0, 0⟩).wf = false ∧ (Instr.unassignedCommand 0x31 ⟨1, 0, 0, 0⟩).wf = false := by decide

theorem test_wf_wakes : (Instr.wakeFromStop 0 ⟨1, 1⟩).wf = false ∧ (Instr.wakeFromStandby 2).wf = false := by decide

theorem test_wf_requests : (Instr.stopRequest 2 1).wf = false ∧ (Instr.standbyRequest 1 1).wf = false ∧
    (Instr.fmStart 0x0400).wf = false ∧ (Instr.fmAbort 0x0600).wf = false := by decide

theorem test_wf_slots : (Instr.slotGo 3 2).wf = false ∧ (Instr.slotCancel 3 3).wf = false ∧ (Instr.windowApply 2 3).wf = false ∧
    (Instr.timerRearm 0).wf = false := by decide

theorem test_wf_legacy : (Instr.legacyArm 8).wf = false ∧ (Instr.legacyCancel 12).wf = false := by decide

theorem test_wf_branch : (Instr.br 2 0 false 13 0).wf = false := by decide

theorem test_wf_frames : (Instr.toothRecord ⟨0x2000, 0, 0, 0⟩ (.empty true) 0).wf = false ∧ (Instr.state1 ⟨0, 0, 0, 0⟩).wf = false ∧
    (Instr.state2 ⟨0, 0, 0, 0⟩).wf = false ∧ (Instr.config ⟨0, 0, 0, 0⟩).wf = false ∧ (Instr.faultFrame ⟨0, 0, 0, 0⟩).wf = false ∧
    (Instr.hostFrame ⟨0, 0, 0, 0⟩).wf = false ∧ (Instr.creditFrame ⟨0, 0, 0, 0⟩).wf = false ∧ (Instr.joinFrame ⟨0, 0, 0, 0⟩ 9).wf = false ∧
    (Instr.remoteFrame ⟨0, 0, 0, 0⟩).wf = false ∧ (Instr.replyFrame ⟨0, 0, 0, 0⟩).wf = false ∧
    (Instr.reservedFrame ⟨0x1000, 0, 0, 0⟩).wf = false ∧ (Instr.linkFrameError (.empty false)).wf = false := by decide

/-! ### Worked examples of the spec -/

/-- The predictor before tooth 12 of the example of Angle prediction between teeth. -/
def beforeTwelve : Pred :=
  { th16 := 1081360, tk := 1000000, ak := 98320, uk := 5716402, sF := -300000, o2 := true, nA := 98288, ppred := 33300, havePrev := true, slopes := 9, teeth := 200 }

/-- The wheel of that example. -/
def wheel602 : WheelCfg := { n := 60, m := 2 }

/-- Tooth 12 of that example: sF, th16, nA and Ppred. -/
theorem test_example_prediction :
    (let p := predTooth wheel602 (fun _ => true) ⟨1033300, 12, 0, 0, 16, 0⟩ beforeTwelve
     (p.uk, p.sF, p.th16, p.nA, p.ppred)) = (5684125, -311072, 1179648, 98304, 33134) := by decide

/-- ANGLE 100 µs after tooth 12, SPEED, and the residual of tooth 13. -/
theorem test_example_angle :
    predAng (cyc16 wheel602) { beforeTwelve with th16 := 1179648, tk := 0, nA := 98304, ppred := 33134 } 10000 / 16 = 75582 ∧
      speedOf (some 5684125) = 6005 ∧ residual 33110 33134 = -47 := by decide

/-- The tick of the example of On-chip temperature, thermal models and throttling. -/
theorem test_example_thermal :
    (let c : ThCh := { live := #v[0x0801, 3000, 3930, 20000, 100, 8000, 400, 2400, 80, 2880, 0, 0, 100, 100, 0, 1, 0, 48], tw := 100 * 4294967296, th := 95 * 4294967296, e2 := 1000000000 }
     let d := thModel 1440 0 1000 c
     (d.tw - c.tw, d.th - c.th, nodeWord d.tw, d.pc)) = (231344, 20132, 1600, 1577) := by decide

/-- Word 4 of the listing of Brass microcode sequencer, and three more of its words. -/
theorem test_example_brass :
    brassDecode 0x81F42EE0 = .waiti 12000 false 250 ∧ brassDecode 0x20022EE0 = .sett 12000 false true ∧
      brassDecode 0x61001770 = .waitt 6000 true ∧ brassDecode 0xE0000005 = .sig 1 1 false ∧ brassDecode 0 = .stop := by decide

/-- code(12 000) at 6 104 µA per code (R151). -/
theorem test_example_code :
    codeOf { ready with chan := vupd ready.chan 0 fun c => { c with cfg := { c.cfg with scale := 6104 } } } 0 12000 = 1966 := by decide

/-- The frame of the example of The Dergor link: header, EXT and CRC. -/
theorem test_example_frame : mkFrame 1 0 0 true 0x0591115E = ⟨0x1000, 0x08, 0x0591115E, 0x99⟩ := by decide

/-- The profile of the example of Built-in wheel emitter: S_1 and P_1. -/
theorem test_example_emitter :
    (let t : EmTab := Vector.replicate 272 0 |> (vput · 0 0x023C) |> (vput · 4 2000) |> (vput · 144 6000) |> (vput · 145 600)
     (emSpeed t 2000 0 1, emPeriod t 2006, emPeriod t 6000)) = (2006, 99700, 33333) := by decide

/-- The message of WHEEL_SET in the example of Firmware command set: N 60 is applied, N 62 is refused by check 1 and a set reserved
bit is refused before any check. -/
theorem test_example_wheel_set :
    ((cmdWheelSet ⟨0x023C, 0x0014, 0, 0⟩ ready).status = 0 ∧ (cmdWheelSet ⟨0x023C, 0x0014, 0, 0⟩ ready).st.wheel.cfg.n = 60) ∧
      ((cmdWheelSet ⟨0x023E, 0x0014, 0, 0⟩ ready).status = 0x17 ∧ (cmdWheelSet ⟨0x023E, 0x0014, 0, 0⟩ ready).q0 = 1) ∧
      (cmdWheelSet ⟨0x123C, 0x0014, 0, 0⟩ ready).status = 0x16 := by decide

/-- The bytes of a challenge and of the identifier, in the order of the message M. -/
theorem test_example_message : bytesLE 16 (wordsLE [0x3A91, 0x07E2, 0xC45D, 0x1B60, 0x8F27, 0xD30C, 0x5AE8, 0x0416]) =
    [0x91, 0x3A, 0xE2, 0x07, 0x5D, 0xC4, 0x60, 0x1B, 0x27, 0x8F, 0x0C, 0xD3, 0xE8, 0x5A, 0x16, 0x04] := by decide

/-- The legacy firing tick of the example of Legacy mode: angle 300 °CA at TB 10 000 000, target 350 °CA. -/
theorem test_example_legacy_arm :
    legFire { leg with clk := { leg.clk with tb := 10000000 }, pred := { leg.pred with th16 := 4915200, tk := 10000000, uk := 5688832, nA := 98304, ppred := 33333 } } 5600 = 205556 := by decide

/-! ### Single steps -/

/-- BOOT_DONE is served at the front of the queue. -/
theorem test_step_bootDone :
    (match step { ready with sys := { boot := 4 }, pending := [.bootDone, .tbCapture] } with
     | .next t => (t.sys.boot, t.pending, t.mbox.status)
     | _ => (0, [], 1)) = (5, [.tbCapture], 0) := by decide

/-- TB advances by one on an empty queue. -/
theorem test_step_idle :
    (match step ready with | .next t => (t.clk.tb, t.pending) | _ => (0, [])) = (1000001, []) := by decide

/-- A MARK slot fires: its record carries the slot in word 0. -/
theorem test_step_slot_fire :
    (match step { slotPending with sched := { slotPending.sched with slots := vupd slotPending.sched.slots 3 fun x => { x with st := .armed, atb := 1000000 } }, pending := [.slotFire 3] } with
     | .next t => ((vget t.sched.slots 3 {}).st, t.rpt.fifo.map (·.w0))
     | _ => (.empty, [])) = (.retired, [0x0031]) := by decide

end Sys2Proof.Tests
end

/-! What every reset leaves (R340, R361, R370), and each kind of reset by its row (R4, R415, R513, R534). -/

namespace Sys2Proof.Machine

/-! ### A key word that is being written -/

@[simp] theorem settleKey_sys (s : State) : (settleKey s).sys = s.sys := (congrArg State.sys (settleKey_but s) :)
@[simp] theorem settleKey_clk (s : State) : (settleKey s).clk = s.clk := (congrArg State.clk (settleKey_but s) :)

/-- Without a running advance no key word is being written (R361). -/
theorem settleKey_idle {s : State} (h : s.sec.adv = none) : settleKey s = s := by
  unfold settleKey
  rw [h]

/-- A running advance takes one free value, whatever that value decides. -/
theorem settleKey_free_running {s : State} {a : Advance} (h : s.sec.adv = some a) : (settleKey s).free = s.free + 1 := by
  unfold settleKey
  rw [h]
  dsimp only
  split
  · cases a <;> rfl
  · rfl

/-! ### A running commit -/

@[simp] theorem cutCommit_sys (s : State) : (cutCommit s).sys = s.sys := (congrArg State.sys (cutCommit_but s) :)
@[simp] theorem cutCommit_clk (s : State) : (cutCommit s).clk = s.clk := (congrArg State.clk (cutCommit_but s) :)
@[simp] theorem cutCommit_sec (s : State) : (cutCommit s).sec = s.sec := (congrArg State.sec (cutCommit_but s) :)

/-- Without a running commit a reset cuts nothing short. -/
theorem cutCommit_idle {s : State} (h : s.store.run = none) : cutCommit s = s := by
  unfold cutCommit
  rw [h]

/-- The contents of a bank stay when the other one is replaced. -/
theorem bank_setBank_other {b c : Bool} (m : List Host.Cell) (s : State) (h : c ≠ b) : bank (setBank c m s) b = bank s b := by
  cases b <;> cases c
  · exact absurd rfl h
  · rfl
  · rfl
  · exact absurd rfl h

/-- A cut commit spoils its target alone (R370). -/
theorem bank_cutCommit {s : State} {b : Bool} (h : s.store.run.map (·.target) ≠ some b) : bank (cutCommit s) b = bank s b := by
  unfold cutCommit
  split
  next c hc =>
    rw [hc] at h
    exact bank_setBank_other _ _ fun e => h (congrArg some e)
  next => rfl

/-! ### Every reset -/

/-- Every reset leaves the AOC domain as R309 and R340 say. -/
@[simp] theorem resetTo_clk (por : Bool) (cause : Nat) (mode : Bool) (s : State) :
    (resetTo por cause mode s).clk = resetClk por s.clk := by
  simp [resetTo]

/-- But for a power-on reset the AOC domain keeps its judgement (R309). -/
theorem resetTo_aocok (cause : Nat) (mode : Bool) (s : State) : (resetTo false cause mode s).clk.aocok = s.clk.aocok := by
  simp [resetClk]

/-- The free values that a reset takes are those of the key word and of the commit that it cuts. -/
theorem resetTo_free (por : Bool) (cause : Nat) (mode : Bool) (s : State) :
    (resetTo por cause mode s).free = (cutCommit (settleKey s)).free := rfl

/-- A reset keeps a bank that no commit was writing (R340, R370). -/
theorem bank_resetTo {s : State} {b : Bool} (por : Bool) (cause : Nat) (mode : Bool) (h : s.store.run.map (·.target) ≠ some b) :
    bank (resetTo por cause mode s) b = bank s b :=
  calc bank (resetTo por cause mode s) b
    _ = bank (cutCommit (settleKey s)) b := rfl
    _ = bank (settleKey s) b := bank_cutCommit (by rwa [settleKey_store])
    _ = bank s b := by unfold bank; rw [settleKey_store]

/-- A reset keeps the key area when no key word was being written (R340, R361). -/
theorem resetTo_keys {s : State} (por : Bool) (cause : Nat) (mode : Bool) (h : s.sec.adv = none) :
    (resetTo por cause mode s).sec.keys = s.sec.keys := by
  simp [resetTo, resetSec, settleKey_idle h]

/-- Every reset starts the boot with its cause, and MODE, which reads low without VDDIOA, selects the face (R4, R340, R513). -/
theorem resetTo_afterReset (por : Bool) (cause : Nat) (mode : Bool) (s : State) :
    afterReset cause (mode && s.sys.vddioa) s (resetTo por cause mode s) := by
  have hclk : (resetTo por cause mode s).clk.tb = 0 ∧ (resetTo por cause mode s).clk.fclkOn = false ∧
      (resetTo por cause mode s).clk.gateen = 0x7F := by
    rw [resetTo_clk]
    cases por <;> exact ⟨rfl, rfl, rfl⟩
  have hface : (resetTo por cause mode s).sys.face = if mode && s.sys.vddioa then Face.native else Face.legacy := by
    simp [resetTo]
  obtain ⟨htb, hfclk, hgate⟩ := hclk
  exact ⟨rfl, rfl, rfl, hface, rfl, rfl, htb, hfclk, hgate, rfl, rfl, rfl, rfl, rfl, rfl, rfl, rfl, rfl, rfl, rfl, rfl, rfl,
    rfl, rfl, rfl, rfl, fun _ => bank_resetTo por cause mode, resetTo_keys por cause mode, resetTo_pending por cause mode s⟩

/-- While VDDIOA is present the level of MODE alone selects the face (R4). -/
theorem resetTo_afterReset_supplied {s : State} (por : Bool) (cause : Nat) (mode : Bool) (h : s.sys.vddioa = true) :
    afterReset cause mode s (resetTo por cause mode s) := by
  simpa [h] using resetTo_afterReset por cause mode s

/-! ### Each kind of reset -/

/-- With VDDIOA present a power-on reset completes at once (R534). -/
theorem powerOn_supplied {s : State} (mode : Bool) (h : s.sys.vddioa = true) : powerOn mode s = resetTo true 0 mode s := by
  simp [powerOn, resetTo, h]

/-- Without VDDIOA a power-on reset waits exactly when the rise is the first, which the next free value decides (R534, log 9). -/
theorem powerOn_unsupplied {s : State} (mode : Bool) (h : s.sys.vddioa = false) :
    (powerOn mode s).sys.inReset = Config.firstRise (cutCommit (settleKey s)).free ∧
      (powerOn mode s).sys.porHold = Config.firstRise (cutCommit (settleKey s)).free := by
  simp [powerOn, h, resetTo_free]

/-- A power-on reset keeps a bank that no commit was writing, whether or not it waits for VDDIOA. -/
theorem bank_powerOn {s : State} {b : Bool} (mode : Bool) (h : s.store.run.map (·.target) ≠ some b) :
    bank (powerOn mode s) b = bank s b := by
  rw [← bank_resetTo true 0 mode h]
  unfold powerOn
  split <;> rfl

/-- RESET# resets the device while VDDIOA is present and no power-on reset waits (R340, R513). -/
theorem exec_resetPin {s : State} (mode : Bool) (hv : s.sys.vddioa = true) (hp : s.sys.porHold = false) :
    exec (.resetPin mode) s = .next (resetTo false 1 mode s) := by
  simp [exec, execResetPin, hv, hp]

/-- The reset request of SYSCTL, when the write takes place, resets the device (R415). -/
theorem exec_resetRequest {s : State} (mode : Bool) (hr : regOpen s 0x06 = true) (hb : hostBus s = true) :
    exec (.resetRequest mode) s = .next (resetTo false 2 mode s) := by
  simp only [hostBus, Bool.and_eq_true, beq_iff_eq] at hb
  obtain ⟨hrun, hv⟩ := hb
  have hw : sysctlDo 0x5A02 mode s = resetTo false 2 mode s := by
    simp [sysctlDo, hr, writeSysctl, bit, fld]
  change Host.Outcome.next (hostRow (.resetRequest mode) (sysctlDo 0x5A02 mode) s) = _
  rw [hostRow_run _ _ hrun hv, hw]

/-- DRESET, heard and permitted, resets the device (R340, R399). -/
theorem exec_dreset {s : State} (mode : Bool) (hh : heard s = true) (hp : dbgAnyPower s = true) :
    exec (.dreset mode) s = .next (resetTo false 3 mode (ack 1 s)) := by
  simp [exec, execDreset, dctl, txn, hh, hp]

/-! ### The clauses of `Obligations.ResetsStartBoot` -/

/-- With VDDIOA present a power-on reset starts the boot with cause 0 and a fresh AOC domain (R340). -/
theorem powerOnReset_starts_boot (mode : Bool) (s : State) (h : s.sys.vddioa = true) :
    ∃ t, exec (.powerOnReset mode) s = .next t ∧ afterReset 0 mode s t ∧ t.clk = {} :=
  ⟨powerOn mode s, rfl, by
    rw [powerOn_supplied mode h]
    exact ⟨resetTo_afterReset_supplied true 0 mode h, by simp [resetClk]⟩⟩

/-- The return of VDDIOA releases a power-on reset that waited for it (R534). -/
theorem vddioaReturn_starts_boot (mode : Bool) (s : State) (h : s.sys.porHold = true) :
    ∃ t, exec (.vddioaReturn mode) s = .next t ∧ afterReset 0 mode s t := by
  let r : State := { s with sys := { s.sys with vddioa := true }, pins := { s.pins with mode := mode } }
  exact ⟨resetTo true 0 mode r, by simp [exec, execVddioaReturn, h, r], resetTo_afterReset_supplied (s := r) true 0 mode rfl⟩

/-- When no power-on reset waits, the return of VDDIOA is seen by the pins alone (R513). -/
theorem vddioaReturn_unheld (mode : Bool) (s : State) (h : s.sys.porHold = false) :
    exec (.vddioaReturn mode) s =
      .next { s with sys := { s.sys with vddioa := true }, pins := { s.pins with mode := mode } } := by
  simp [exec, execVddioaReturn, h]

/-- RESET# starts the boot with cause 1 and keeps the judgement of AOC (R309, R340). -/
theorem resetPin_starts_boot (mode : Bool) (s : State) (hv : s.sys.vddioa = true) (hp : s.sys.porHold = false) :
    ∃ t, exec (.resetPin mode) s = .next t ∧ afterReset 1 mode s t ∧ t.clk.aocok = s.clk.aocok :=
  ⟨_, exec_resetPin mode hv hp, resetTo_afterReset_supplied false 1 mode hv, resetTo_aocok 1 mode s⟩

/-- A reset request starts the boot with cause 2 and keeps the judgement of AOC (R309, R415). -/
theorem resetRequest_starts_boot (mode : Bool) (s : State) (hr : regOpen s 0x06 = true) (hb : hostBus s = true) :
    ∃ t, exec (.resetRequest mode) s = .next t ∧ afterReset 2 mode s t ∧ t.clk.aocok = s.clk.aocok :=
  have hv : s.sys.vddioa = true := (Bool.and_eq_true_iff.mp hb).2
  ⟨_, exec_resetRequest mode hr hb, resetTo_afterReset_supplied false 2 mode hv, resetTo_aocok 2 mode s⟩

/-- DRESET starts the boot with cause 3 and keeps the judgement of AOC (R309, R340). -/
theorem dreset_starts_boot (mode : Bool) (s : State) (hh : heard s = true) (hp : dbgAnyPower s = true) :
    ∃ t, exec (.dreset mode) s = .next t ∧ afterReset 3 (mode && s.sys.vddioa) s t ∧ t.clk.aocok = s.clk.aocok :=
  ⟨_, exec_dreset mode hh hp, resetTo_afterReset false 3 mode (ack 1 s), resetTo_aocok 3 mode (ack 1 s)⟩

/-- A native device that has lost VDDIOA while a key word is being written, its next free value the n-th. -/
def advancingUnsupplied (n : Nat) : State :=
  { State.reset with sys := { State.reset.sys with vddioa := false }, sec := { State.reset.sec with adv := some .seal }, free := n }

/-- The key word takes the n-th free value, so that the (n + 1)-th decides whether the rise is the first (R361, R534). -/
theorem powerOn_advancingUnsupplied (mode : Bool) (n : Nat) :
    (powerOn mode (advancingUnsupplied n)).sys.porHold = Config.firstRise (n + 1) := by
  have hk : (settleKey (advancingUnsupplied n)).free = n + 1 := settleKey_free_running (a := .seal) rfl
  have hc : cutCommit (settleKey (advancingUnsupplied n)) = settleKey (advancingUnsupplied n) :=
    cutCommit_idle (by rw [settleKey_store]; rfl)
  rw [(powerOn_unsupplied mode rfl).2, hc, hk]

/-- The free value of the rise, when no commit is running: the next one, or with a key word in writing the one after it. -/
theorem firstRise_settleKey {s : State} (hc : ∀ n, Config.firstRise (n + 1) = Config.firstRise n) :
    Config.firstRise (settleKey s).free = Config.firstRise s.free := by
  cases ha : s.sec.adv with
  | none => rw [settleKey_idle ha]
  | some a => rw [settleKey_free_running ha, hc]

/-- What the statement comes to: its clause on a power-on reset without VDDIOA names the next free value also while a key
word is being written, where that value decides the key word, and the one after it the rise. Every other part of the statement
holds; whether consecutive draws of the opaque `Config.firstRise` agree is what the model leaves open (log 9). -/
theorem resetsStartBoot_iff_firstRise_constant :
    Obligations.ResetsStartBoot ↔ ∀ n, Config.firstRise (n + 1) = Config.firstRise n := by
  constructor
  · rintro ⟨-, hwait, -⟩ n
    obtain ⟨t, ht, -, hfirst, -⟩ := hwait true (advancingUnsupplied n) rfl
    obtain rfl : powerOn true (advancingUnsupplied n) = t := Host.Outcome.next.inj ht
    rw [← powerOn_advancingUnsupplied true n, hfirst rfl]
    rfl
  · intro hc
    refine ⟨powerOnReset_starts_boot, fun mode s hv => ⟨powerOn mode s, rfl, ?_, fun hrun => ?_, fun b => bank_powerOn mode⟩,
      vddioaReturn_starts_boot, vddioaReturn_unheld, resetPin_starts_boot, resetRequest_starts_boot, dreset_starts_boot⟩
    · obtain ⟨hreset, hhold⟩ := powerOn_unsupplied mode hv
      rw [hreset, hhold]
    · have hcut : cutCommit (settleKey s) = settleKey s := cutCommit_idle (by rwa [settleKey_store])
      rw [(powerOn_unsupplied mode hv).2, hcut, firstRise_settleKey hc]

end Sys2Proof.Machine

/-! The rows of the wheel decoder (R28 to R65): crank and cam edges, deadlines, timeouts, and its commands. -/

namespace Sys2Proof.Machine

/-! ### Blocks outside a mask -/

section
variable {m : Nat} {s t : State}

theorem sys_of_but (h : m.testBit 0 = false) (e : but m t = but m s) : t.sys = s.sys := by
  simpa only [but, h, Bool.false_eq_true, if_false] using congrArg State.sys e
theorem wheel_of_but (h : m.testBit 2 = false) (e : but m t = but m s) : t.wheel = s.wheel := by
  simpa only [but, h, Bool.false_eq_true, if_false] using congrArg State.wheel e
theorem cams_of_but (h : m.testBit 3 = false) (e : but m t = but m s) : t.cams = s.cams := by
  simpa only [but, h, Bool.false_eq_true, if_false] using congrArg State.cams e
theorem pred_of_but (h : m.testBit 4 = false) (e : but m t = but m s) : t.pred = s.pred := by
  simpa only [but, h, Bool.false_eq_true, if_false] using congrArg State.pred e
theorem predPrev_of_but (h : m.testBit 5 = false) (e : but m t = but m s) : t.predPrev = s.predPrev := by
  simpa only [but, h, Bool.false_eq_true, if_false] using congrArg State.predPrev e
theorem chan_of_but (h : m.testBit 11 = false) (e : but m t = but m s) : t.chan = s.chan := by
  simpa only [but, h, Bool.false_eq_true, if_false] using congrArg State.chan e
theorem sched_of_but (h : m.testBit 8 = false) (e : but m t = but m s) : t.sched = s.sched := by
  simpa only [but, h, Bool.false_eq_true, if_false] using congrArg State.sched e
theorem tim_of_but (h : m.testBit 19 = false) (e : but m t = but m s) : t.tim = s.tim := by
  simpa only [but, h, Bool.false_eq_true, if_false] using congrArg State.tim e
theorem flt_of_but (h : m.testBit 20 = false) (e : but m t = but m s) : t.flt = s.flt := by
  simpa only [but, h, Bool.false_eq_true, if_false] using congrArg State.flt e
theorem bus_of_but (h : m.testBit 25 = false) (e : but m t = but m s) : t.bus = s.bus := by
  simpa only [but, h, Bool.false_eq_true, if_false] using congrArg State.bus e
theorem mbox_of_but (h : m.testBit 26 = false) (e : but m t = but m s) : t.mbox = s.mbox := by
  simpa only [but, h, Bool.false_eq_true, if_false] using congrArg State.mbox e
theorem emit_of_but (h : m.testBit 28 = false) (e : but m t = but m s) : t.emit = s.emit := by
  simpa only [but, h, Bool.false_eq_true, if_false] using congrArg State.emit e
theorem store_of_but (h : m.testBit 22 = false) (e : but m t = but m s) : t.store = s.store := by
  simpa only [but, h, Bool.false_eq_true, if_false] using congrArg State.store e
theorem pending_of_but (h : m.testBit 31 = false) (e : but m t = but m s) : t.pending = s.pending := by
  simpa only [but, h, Bool.false_eq_true, if_false] using congrArg State.pending e

end

/-! ### Events that wait (R245, R246) -/

/-- An event of a native device waits for the collector. -/
theorem raise_waits {s : State} (src ch : Nat) (det : Word) (h : isNative s = true) : waits (raise src ch det s) src ch det := by
  rw [raise_native src ch det h]
  exact ⟨_, mem_insertEvent_self _ _, rfl, rfl, rfl⟩

/-- A further event leaves those that wait waiting. -/
theorem waits_raise {s : State} {src ch : Nat} {det : Word} (src' ch' : Nat) (det' : Word) (h : waits s src ch det) :
    waits (raise src' ch' det' s) src ch det := by
  obtain ⟨e, he, hfields⟩ := h
  refine ⟨e, ?_, hfields⟩
  unfold raise raiseC
  split
  · exact (mem_insertEvent _ _ _).mpr (.inr he)
  · exact he

/-- What leaves the collector as it is leaves its waiting events. -/
theorem waits_of_flt {s t : State} {src ch : Nat} {det : Word} (e : t.flt = s.flt) (h : waits s src ch det) : waits t src ch det := by
  unfold waits
  rwa [e]

/-! ### Interrupt conditions stay (R423) -/

/-- Every condition that INTSTAT shows in `s` it shows in `t`. -/
def intsStay (s t : State) : Prop := ∀ i, bit s.bus.intstat i = true → bit t.bus.intstat i = true

theorem intsStay_of_bus {s t : State} (e : t.bus = s.bus) : intsStay s t := fun i h => by rwa [e]

theorem intsStay.trans {s t u : State} (h : intsStay s t) (h' : intsStay t u) : intsStay s u := fun i hi => h' i (h i hi)

theorem setInt_intsStay (b : Nat) (s : State) : intsStay s (setInt b s) := fun i h => by
  simp only [bit] at h
  simp [bit, h]

/-- A condition that occurs is shown. -/
theorem bit_setInt {b : Nat} (s : State) (hb : b < 16) : bit (setInt b s).bus.intstat b = true := by
  rw [bit, setInt_bit b b s hb]
  simp

theorem enterFifo_intsStay (j : Nat) (r : Quad) (s : State) : intsStay s (enterFifo j r s) := by
  unfold enterFifo
  dsimp only
  split
  · exact setInt_intsStay 0 _
  · split
    · exact intsStay_of_bus rfl
    · exact setInt_intsStay 0 _

theorem takeSeq_bus (rank : Nat) (s : State) : (takeSeq rank s).2.bus = s.bus := by
  simp only [takeSeq, makeRoom]
  split <;> rfl

theorem pushRec_intsStay (ty src flags : Nat) (w2 w3 : Word) (s : State) : intsStay s (pushRec ty src flags w2 w3 s) := by
  unfold pushRec
  split
  · exact (intsStay_of_bus (takeSeq_bus _ s)).trans (enterFifo_intsStay _ _ _)
  · exact intsStay_of_bus rfl

theorem foldSt_intsStay {α : Type} (xs : List α) (f : α → State → State) (hf : ∀ x s, intsStay s (f x s)) (s : State) :
    intsStay s (foldSt xs f s) := by
  unfold foldSt
  induction xs generalizing s with
  | nil => exact intsStay_of_bus rfl
  | cons x xs ih => exact (hf x s).trans (ih (f x s))

theorem arm_intsStay (i : Fin 64) (a : Tb) (late : Bool) (past : Option Nat) (cyc : Word) (s : State) : intsStay s (arm i a late past cyc s) :=
  intsStay_of_bus rfl

theorem cancelRec_intsStay (i : Fin 64) (reason : Nat) (armed cyc0 : Bool) (w : SlotW) (s : State) :
    intsStay s (cancelRec i reason armed cyc0 w s) := pushRec_intsStay _ _ _ _ _ s

theorem lateSlot_intsStay (i : Fin 64) (s : State) : intsStay s (lateSlot i s) := by
  unfold lateSlot
  dsimp only
  split
  · have hrec : ∀ f t, intsStay t (updSlot i f (cancelRec i 5 false (bit (cycleOf s s.sched.slots[i].live.target true) 0) s.sched.slots[i].live t)) :=
      fun f t => (cancelRec_intsStay _ _ _ _ _ t).trans (intsStay_of_bus (updSlot_bus i f _))
    exact (intsStay_of_bus (t := { s with sched := { s.sched with cntDrop := satInc s.sched.cntDrop 65535 } }) rfl).trans (hrec _ _)
  · exact arm_intsStay _ _ _ _ _ s

theorem settleLate_intsStay (s : State) : intsStay s (settleLate s) := by
  unfold settleLate
  exact foldSt_intsStay _ lateSlot lateSlot_intsStay s

theorem permitSlots_bus (s : State) : (permitSlots s).bus = s.bus := by
  unfold permitSlots
  rfl

theorem applyPermission_intsStay (s : State) : intsStay s (applyPermission s) := by
  unfold applyPermission
  exact (intsStay_of_bus (permitSlots_bus s)).trans (settleLate_intsStay _)

theorem bulkRec_intsStay (reason n armed : Nat) (s : State) : intsStay s (bulkRec reason n armed s) := by
  unfold bulkRec
  split
  · exact intsStay_of_bus rfl
  · exact pushRec_intsStay _ _ _ _ _ s

theorem deviceCancel_intsStay (reason : Nat) (pendingToo : Bool) (s : State) : intsStay s (deviceCancel reason pendingToo s) :=
  (intsStay_of_bus (s := s) (t := { s with sched := { s.sched with slots := vmapi (fun _ x => (cancelSlot pendingToo x).1) s.sched.slots } }) rfl).trans
    (bulkRec_intsStay _ _ _ _)

theorem onEffChange_intsStay (old new : Sync) (s : State) : intsStay s (onEffChange old new s) := by
  have hlast : ∀ t, intsStay t (windowsCheck (if new.lost then resetAverages t else t)) := fun t => by
    split <;> exact intsStay_of_bus rfl
  unfold onEffChange
  split
  · exact intsStay_of_bus rfl
  · refine intsStay.trans ?_ (hlast _)
    split
    · exact deviceCancel_intsStay 1 true s
    · split
      · exact (deviceCancel_intsStay 1 false s).trans (applyPermission_intsStay _)
      · exact applyPermission_intsStay s

/-! ### What a change of the sync state leaves alone -/

@[simp] theorem raise_sys (src ch : Nat) (det : Word) (s : State) : (raise src ch det s).sys = s.sys := sys_of_but rfl (raise_but src ch det s)
@[simp] theorem raise_wheel (src ch : Nat) (det : Word) (s : State) : (raise src ch det s).wheel = s.wheel := wheel_of_but rfl (raise_but src ch det s)
@[simp] theorem raise_pred (src ch : Nat) (det : Word) (s : State) : (raise src ch det s).pred = s.pred := pred_of_but rfl (raise_but src ch det s)
@[simp] theorem raise_cams (src ch : Nat) (det : Word) (s : State) : (raise src ch det s).cams = s.cams := cams_of_but rfl (raise_but src ch det s)
@[simp] theorem raise_bus (src ch : Nat) (det : Word) (s : State) : (raise src ch det s).bus = s.bus := bus_of_but rfl (raise_but src ch det s)

@[simp] theorem syncRec_sys (cause : Nat) (old new : Sync) (s : State) : (syncRec cause old new s).sys = s.sys := sys_of_but rfl (syncRec_but cause old new s)
@[simp] theorem syncRec_wheel (cause : Nat) (old new : Sync) (s : State) : (syncRec cause old new s).wheel = s.wheel := wheel_of_but rfl (syncRec_but cause old new s)
@[simp] theorem syncRec_pred (cause : Nat) (old new : Sync) (s : State) : (syncRec cause old new s).pred = s.pred := pred_of_but rfl (syncRec_but cause old new s)
@[simp] theorem syncRec_cams (cause : Nat) (old new : Sync) (s : State) : (syncRec cause old new s).cams = s.cams := cams_of_but rfl (syncRec_but cause old new s)
@[simp] theorem syncRec_flt (cause : Nat) (old new : Sync) (s : State) : (syncRec cause old new s).flt = s.flt := flt_of_but rfl (syncRec_but cause old new s)

@[simp] theorem enterSync_sys (new : Sync) (s : State) : (enterSync new s).sys = s.sys := sys_of_but rfl (enterSync_but new s)
@[simp] theorem enterSync_cams (new : Sync) (s : State) : (enterSync new s).cams = s.cams := cams_of_but rfl (enterSync_but new s)
@[simp] theorem enterSync_flt (new : Sync) (s : State) : (enterSync new s).flt = s.flt := flt_of_but rfl (enterSync_but new s)

@[simp] theorem afterSync_wheel (old new eff : Sync) (s : State) : (afterSync old new eff s).wheel = s.wheel := wheel_of_but rfl (afterSync_but old new eff s)
@[simp] theorem afterSync_pred (old new eff : Sync) (s : State) : (afterSync old new eff s).pred = s.pred := pred_of_but rfl (afterSync_but old new eff s)
@[simp] theorem afterSync_flt (old new eff : Sync) (s : State) : (afterSync old new eff s).flt = s.flt := flt_of_but rfl (afterSync_but old new eff s)

@[simp] theorem resetAverages_cams (s : State) : (resetAverages s).cams = s.cams := by
  unfold resetAverages
  rfl

@[simp] theorem windowsCheck_cams (s : State) : (windowsCheck s).cams = s.cams := cams_of_but rfl (windowsCheck_but s)
@[simp] theorem applyPermission_cams (s : State) : (applyPermission s).cams = s.cams := cams_of_but rfl (applyPermission_but s)
@[simp] theorem deviceCancel_cams (reason : Nat) (pendingToo : Bool) (s : State) : (deviceCancel reason pendingToo s).cams = s.cams :=
  cams_of_but rfl (deviceCancel_but reason pendingToo s)

/-- A change of the effective state resets the averages of the cams, and leaves the cams themselves. -/
theorem onEffChange_cams (old new : Sync) (s : State) : (onEffChange old new s).cams = s.cams := by
  unfold onEffChange
  split
  · rfl
  · rw [windowsCheck_cams]
    (repeat' split) <;> simp

theorem afterSync_cams (old new eff : Sync) (s : State) : (afterSync old new eff s).cams = s.cams := by
  have hsend : ∀ t, (sendState t).cams = t.cams := fun t => cams_of_but rfl (sendState_but t)
  have hnote : ∀ t, (noteEff t).cams = t.cams := fun _ => rfl
  unfold afterSync
  split
  · dsimp only
    split
    · rw [hsend, hnote, onEffChange_cams]
    · rw [hnote, onEffChange_cams]
  · split <;> rfl

theorem afterSync_intsStay (old new eff : Sync) (s : State) (h : isNative s = true) : intsStay s (afterSync old new eff s) := by
  have hsend : ∀ t, (sendState t).bus = t.bus := fun t => bus_of_but rfl (sendState_but t)
  unfold afterSync
  rw [if_pos h]
  refine (onEffChange_intsStay eff (effSync s) s).trans ?_
  dsimp only
  split
  · exact intsStay_of_bus ((hsend _).trans rfl)
  · exact intsStay_of_bus rfl

/-! ### Changes of the sync state (R46, R53) -/

/-- The decoder has entered a state. -/
def entered (new : Sync) (s : State) : State := enterSync new (updWheel (fun w => { w with st := new }) s)

theorem isNative_entered (new : Sync) (s : State) : isNative (entered new s) = isNative s := by simp [entered, isNative]

/-- The record of an entry, and for NOSYNC its event. -/
def reported (new : Sync) (cause : Nat) (s : State) : State :=
  let r := syncRec cause s.wheel.st new (entered new s)
  if new == .nosync then raise 5 0 (w16 (cause + 16 * s.wheel.st.code)) r else r

@[simp] theorem reported_sys (new : Sync) (cause : Nat) (s : State) : (reported new cause s).sys = s.sys := by
  unfold reported
  split <;> simp [entered]
@[simp] theorem reported_wheel (new : Sync) (cause : Nat) (s : State) : (reported new cause s).wheel = (entered new s).wheel := by
  unfold reported
  split <;> simp
@[simp] theorem reported_pred (new : Sync) (cause : Nat) (s : State) : (reported new cause s).pred = (entered new s).pred := by
  unfold reported
  split <;> simp
@[simp] theorem reported_cams (new : Sync) (cause : Nat) (s : State) : (reported new cause s).cams = s.cams := by
  unfold reported
  split <;> simp [entered]

theorem changeSync_same {new : Sync} {s : State} (cause : Nat) (h : s.wheel.st = new) : changeSync new cause s = s := by
  simp [changeSync, h]

/-- A change to another state enters it, reports it, and shows it to the rest of the device. -/
theorem changeSync_other {new : Sync} {s : State} (cause : Nat) (h : s.wheel.st ≠ new) :
    changeSync new cause s = afterSync s.wheel.st new (effSync s) (reported new cause s) := by
  unfold changeSync
  rw [if_neg (by simpa using h)]
  rfl

/-- The decoder after a change to another state. -/
theorem changeSync_wheel {new : Sync} {s : State} (cause : Nat) (h : s.wheel.st ≠ new) :
    (changeSync new cause s).wheel = (entered new s).wheel := by
  rw [changeSync_other cause h, afterSync_wheel, reported_wheel]

/-- The predictor after a change to another state. -/
theorem changeSync_pred {new : Sync} {s : State} (cause : Nat) (h : s.wheel.st ≠ new) :
    (changeSync new cause s).pred = (entered new s).pred := by
  rw [changeSync_other cause h, afterSync_pred, reported_pred]

@[simp] theorem changeSync_cams (new : Sync) (cause : Nat) (s : State) : (changeSync new cause s).cams = s.cams := by
  by_cases h : s.wheel.st = new
  · rw [changeSync_same cause h]
  · rw [changeSync_other cause h, afterSync_cams, reported_cams]

@[simp] theorem changeSync_st (new : Sync) (cause : Nat) (s : State) : (changeSync new cause s).wheel.st = new := by
  by_cases h : s.wheel.st = new
  · rw [changeSync_same cause h, h]
  · rw [changeSync_wheel cause h]
    cases new <;> rfl

/-- A field of the decoder that no entry changes stays over a change of state. -/
theorem changeSync_field {α : Type} (f : Wheel → α) (hf : ∀ new s, f (entered new s).wheel = f s.wheel)
    (new : Sync) (cause : Nat) (s : State) : f (changeSync new cause s).wheel = f s.wheel := by
  by_cases h : s.wheel.st = new
  · rw [changeSync_same cause h]
  · rw [changeSync_wheel cause h, hf]

@[simp] theorem changeSync_cfg (new : Sync) (cause : Nat) (s : State) : (changeSync new cause s).wheel.cfg = s.wheel.cfg :=
  changeSync_field (·.cfg) (fun new _ => by cases new <;> rfl) new cause s
@[simp] theorem changeSync_stallF (new : Sync) (cause : Nat) (s : State) : (changeSync new cause s).wheel.stallF = s.wheel.stallF :=
  changeSync_field (·.stallF) (fun new _ => by cases new <;> rfl) new cause s

/-- A change of the sync state sets SYNC in INTSTAT (R53). -/
theorem changeSync_int {new : Sync} {s : State} (cause : Nat) (hn : isNative s = true) (h : s.wheel.st ≠ new) :
    bit (changeSync new cause s).bus.intstat 1 = true := by
  have hrec : bit (reported new cause s).bus.intstat 1 = true := by
    have hset : bit (syncRec cause s.wheel.st new (entered new s)).bus.intstat 1 = true := by
      unfold syncRec
      rw [if_pos (by rwa [isNative_entered])]
      exact bit_setInt _ (by decide)
    unfold reported
    split
    · rwa [raise_bus]
    · exact hset
  rw [changeSync_other cause h]
  exact afterSync_intsStay _ _ _ _ (by simpa [isNative] using hn) 1 hrec

/-- An event that waits before a change of state waits after it. -/
theorem waits_changeSync {s : State} {src ch : Nat} {det : Word} (new : Sync) (cause : Nat) (h : waits s src ch det) :
    waits (changeSync new cause s) src ch det := by
  by_cases hs : s.wheel.st = new
  · rwa [changeSync_same cause hs]
  · have hrec : waits (syncRec cause s.wheel.st new (entered new s)) src ch det := waits_of_flt (by simp [entered]) h
    rw [changeSync_other cause hs]
    refine waits_of_flt (afterSync_flt _ _ _ _) ?_
    unfold reported
    split
    · exact waits_raise _ _ _ hrec
    · exact hrec

/-- The entry into NOSYNC raises source 5, whose detail names the cause and the state before it (R53). -/
theorem changeSync_nosync_waits {s : State} (cause : Nat) (hn : isNative s = true) (h : s.wheel.st ≠ .nosync) :
    waits (changeSync .nosync cause s) 5 0 (w16 (cause + 16 * s.wheel.st.code)) := by
  rw [changeSync_other cause h]
  exact waits_of_flt (afterSync_flt _ _ _ _) (raise_waits _ _ _ (by simpa [isNative, entered] using hn))

/-! ### Late teeth (R40, R41) -/

/-- A bad tooth of a native device (R39 to R41). -/
theorem badTooth_native {s : State} (p : Nat) (h : isNative s = true) :
    badTooth p s = learnSpoil (raise 0 0 (w16 p) (updWheel (fun w => { w with badRun := w.badRun + 1 }) s)) := by
  have hn : isNative (learnSpoil (raise 0 0 (w16 p) (updWheel (fun w => { w with badRun := w.badRun + 1 }) s))) = true := by
    simpa [isNative, learnSpoil] using h
  unfold badTooth
  dsimp only
  rw [if_pos hn]

/-- Its event waits, with the position as detail. -/
theorem badTooth_waits {s : State} (p : Nat) (h : isNative s = true) : waits (badTooth p s) 0 0 (w16 p) := by
  rw [badTooth_native p h]
  exact waits_of_flt rfl (raise_waits (s := updWheel _ s) 0 0 (w16 p) h)

@[simp] theorem badTooth_wheel (p : Nat) (s : State) : (badTooth p s).wheel = { s.wheel with badRun := s.wheel.badRun + 1 } := by
  unfold badTooth
  dsimp only
  split <;> simp [learnSpoil, noteLeg]

@[simp] theorem badTooth_pred (p : Nat) (s : State) : (badTooth p s).pred = s.pred := pred_of_but rfl (badTooth_but p s)
@[simp] theorem badTooth_sys (p : Nat) (s : State) : (badTooth p s).sys = s.sys := sys_of_but rfl (badTooth_but p s)

/-- The decoder after a synthetic tooth at a position other than 0. -/
theorem synthUpdate_wheel {p : Nat} (s : State) (hp : p ≠ 0) :
    (synthUpdate p s).wheel =
      { s.wheel with syncnt := s.wheel.syncnt + 1, pos := p, tPrev := some (tbAdd s.pred.tk s.pred.ppred), lastP := s.pred.ppred, lastG := span s.wheel.cfg p } := by
  have hrec : ∀ syn stamp t, (recordTooth syn stamp p t).wheel = t.wheel := fun syn stamp t => wheel_of_but rfl (recordTooth_but syn stamp p t)
  unfold synthUpdate
  rw [if_neg hp, hrec]
  simp [setPred, moveTo, halfAt, hp]

/-- The predictor after it (R71). -/
theorem synthUpdate_pred {p : Nat} (s : State) (hp : p ≠ 0) : ∃ i, (synthUpdate p s).pred = predSynth s.wheel.cfg i s.pred := by
  have hrec : ∀ syn stamp t, (recordTooth syn stamp p t).pred = t.pred := fun syn stamp t => pred_of_but rfl (recordTooth_but syn stamp p t)
  unfold synthUpdate
  rw [if_neg hp, hrec]
  exact ⟨_, rfl⟩

theorem synthUpdate_predPrev {p : Nat} (s : State) (hp : p ≠ 0) : (synthUpdate p s).predPrev = s.pred := by
  have hrec : ∀ syn stamp t, (recordTooth syn stamp p t).predPrev = t.predPrev := fun syn stamp t => predPrev_of_but rfl (recordTooth_but syn stamp p t)
  unfold synthUpdate
  rw [if_neg hp, hrec]
  rfl


/-! ### The clauses of `Obligations.LateTeeth` -/

/-- Before the deadline the row changes nothing (R40). -/
theorem lateToothDeadline_early {s : State} (h : dueLate s = false) : exec .lateToothDeadline s = .next s :=
  congrArg Host.Outcome.next (if_neg (by simp [h]))

theorem exec_lateToothDeadline {s : State} (h : dueLate s = true) : exec .lateToothDeadline s = .next (opLate s) :=
  congrArg Host.Outcome.next (if_pos h)

/-- The first missing tooth of SYNC becomes a synthetic one while the cap allows (R40, R41). -/
theorem opLate_first {s : State} (hst : s.wheel.st = .sync) (hbad : s.wheel.badRun = 0) (hcap : s.wheel.syncnt < syncap s) :
    opLate s = synthUpdate (nextPos s.wheel.cfg s.wheel.pos) (badTooth (nextPos s.wheel.cfg s.wheel.pos) s) := by
  have hcap' : ∀ p, s.wheel.syncnt < syncap (badTooth p s) := fun p => by
    simpa [syncap, emit_of_but rfl (badTooth_but p s)] using hcap
  unfold opLate
  simp [hbad, hcap', inputBad, hst]

/-- The second bad tooth in a row loses the position (R41). -/
theorem opLate_second {s : State} (hbad : 1 ≤ s.wheel.badRun) :
    opLate s = input 4 (badTooth (nextPos s.wheel.cfg s.wheel.pos) s) := by
  unfold opLate
  simp [hbad]

theorem input_late_sync {s : State} (h : s.wheel.st = .sync) : input 4 s = changeSync .nosync 4 s := by
  simp [input, r46, Sync.tracks, h]

theorem lateToothDeadline_first (s : State) (hdue : dueLate s = true) (hn : isNative s = true) (hst : s.wheel.st = .sync)
    (hbad : s.wheel.badRun = 0) (hcap : s.wheel.syncnt < s.wheel.pol.syncap) (hemit : s.emit.run = false) (hpos : s.wheel.pos < lastPos s.wheel.cfg) :
    ∃ t, exec .lateToothDeadline s = .next t ∧ t.wheel.st = .sync ∧ t.wheel.pos = s.wheel.pos + 1 ∧
      t.wheel.half = s.wheel.half ∧ t.wheel.syncnt = s.wheel.syncnt + 1 ∧ t.wheel.badRun = 1 ∧ t.pred.syn = true ∧
      t.pred.tk = s.pred.tk + BitVec.ofNat 48 s.pred.ppred ∧ t.pred.uk = pace s.pred.ppred s.pred.nA ∧ t.predPrev = s.pred ∧
      waits t 0 0 (w16 (s.wheel.pos + 1)) ∧ t.chan = s.chan ∧ t.sched = s.sched ∧ t.store = s.store ∧ t.mbox = s.mbox ∧ t.pending = s.pending := by
  have hnext : nextPos s.wheel.cfg s.wheel.pos = s.wheel.pos + 1 := if_neg (Nat.ne_of_lt hpos)
  have hop := opLate_first hst hbad (by simpa [syncap, hemit] using hcap)
  rw [hnext] at hop
  have hp : s.wheel.pos + 1 ≠ 0 := Nat.succ_ne_zero _
  obtain ⟨i, hpred⟩ := synthUpdate_pred (badTooth (s.wheel.pos + 1) s) hp
  have hwheel := synthUpdate_wheel (badTooth (s.wheel.pos + 1) s) hp
  refine ⟨opLate s, exec_lateToothDeadline hdue, ?_⟩
  rw [hop]
  refine ⟨?_, ?_, ?_, ?_, ?_, ?_, ?_, ?_, ?_, ?_, ?_, ?_, by simp, ?_, by simp⟩
  · rw [hwheel, badTooth_wheel]
    exact hst
  · rw [hwheel]
  · rw [hwheel, badTooth_wheel]
  · rw [hwheel, badTooth_wheel]
  · rw [hwheel, badTooth_wheel, hbad]
  · rw [hpred]
    rfl
  · rw [hpred, badTooth_pred]
    rfl
  · rw [hpred, badTooth_pred]
    rfl
  · rw [synthUpdate_predPrev _ hp, badTooth_pred]
  · exact waits_of_flt (flt_of_but rfl (synthUpdate_but _ _)) (badTooth_waits _ hn)
  · rw [chan_of_but rfl (synthUpdate_but _ _), chan_of_but rfl (badTooth_but _ s)]
  · rw [sched_of_but rfl (synthUpdate_but _ _), sched_of_but rfl (badTooth_but _ s)]
  · rw [mbox_of_but rfl (synthUpdate_but _ _), mbox_of_but rfl (badTooth_but _ s)]

theorem lateToothDeadline_second (s : State) (hdue : dueLate s = true) (hn : isNative s = true) (hst : s.wheel.st = .sync) (hbad : 1 ≤ s.wheel.badRun) :
    ∃ t, exec .lateToothDeadline s = .next t ∧ t.wheel.st = .nosync ∧ waits t 0 0 (w16 (nextPos s.wheel.cfg s.wheel.pos)) ∧
      waits t 5 0 0x34 ∧ t.wheel.cfg = s.wheel.cfg ∧ t.chan = s.chan ∧ t.store = s.store ∧ t.mbox = s.mbox ∧ t.pending = s.pending := by
  have hst' : (badTooth (nextPos s.wheel.cfg s.wheel.pos) s).wheel.st = .sync := by rw [badTooth_wheel]; exact hst
  have hop : opLate s = changeSync .nosync 4 (badTooth (nextPos s.wheel.cfg s.wheel.pos) s) := by
    rw [opLate_second hbad, input_late_sync hst']
  have hloss := changeSync_nosync_waits (s := badTooth (nextPos s.wheel.cfg s.wheel.pos) s) 4 (by simpa [isNative] using hn) (by simp [hst])
  rw [hst'] at hloss
  refine ⟨opLate s, exec_lateToothDeadline hdue, ?_, ?_, ?_, ?_, chan_of_but rfl (opLate_but s), opLate_store s,
    mbox_of_but rfl (opLate_but s), opLate_pending s⟩
  all_goals rw [hop]
  · exact changeSync_st _ _ _
  · exact waits_changeSync _ _ (badTooth_waits _ hn)
  · exact hloss
  · rw [changeSync_cfg, badTooth_wheel]

/-- Settles O24: the row changes nothing before the deadline, and the first and the second missing tooth are its two cases. -/
theorem lateTeeth : Obligations.LateTeeth :=
  ⟨fun _ => lateToothDeadline_early, lateToothDeadline_first, lateToothDeadline_second⟩

/-! ### Edges at the pins (R30, R33) -/

/-- A transition whose level has stood long enough passes the glitch filter at once. -/
theorem filterEdge_passes {filter : Nat} {now : Tb} (lvl : Bool) {stamp : Tb} (h : filter ≤ 2 * tbSince stamp now) :
    filterEdge filter now none lvl stamp = ([(lvl, stamp)], none) := by
  simp [filterEdge, filterLevel, h]

/-- One whose level has not stood long enough waits. -/
theorem filterEdge_waits {filter : Nat} {now : Tb} (lvl : Bool) {stamp : Tb} (h : 2 * tbSince stamp now < filter) :
    filterEdge filter now none lvl stamp = ([], some (lvl, stamp)) := by
  simp [filterEdge, filterLevel, Nat.not_le.mpr h]

/-- CRANK has a level since an instant. -/
def crankPut (lvl : Bool) (stamp : Tb) (s : State) : State := { s with pins := { s.pins with crank := s.pins.crank.put lvl stamp } }

theorem crankPin_passes {stamp : Tb} {s : State} (lvl : Bool) (h : crankPasses stamp s = true) :
    crankPin lvl stamp s = ([(lvl, stamp)], crankPut lvl stamp s) := by
  simp only [crankPasses, Bool.and_eq_true, Option.isNone_iff_eq_none, decide_eq_true_eq] at h
  obtain ⟨⟨_, hwait⟩, hlen⟩ := h
  unfold crankPin crankPut
  rw [hwait, filterEdge_passes lvl hlen, ← hwait]

/-- An edge that passes the filter outside the wake capture reaches the decoder while it takes its inputs (R30, R59). -/
theorem crankRow_passes {tooth : Bool} {stamp : Tb} {s : State} (h : crankPasses stamp s = true) (hc : (tooth && captureOn s) = false) :
    crankRow tooth stamp s =
      if wheelLive s then crankEdge (tooth != s.wheel.cfg.edge, stamp) (crankPut (tooth != s.wheel.cfg.edge) stamp s)
      else crankPut (tooth != s.wheel.cfg.edge) stamp s := by
  have hrun : s.emit.run = false := by
    simp only [crankPasses, Bool.and_eq_true, Bool.not_eq_true'] at h
    exact h.1.1
  have hpin : pinIn s = wheelLive s := by simp [pinIn, hrun]
  have hin : crankIn tooth stamp s =
      (if wheelLive s then [(tooth != s.wheel.cfg.edge, stamp)] else [], crankPut (tooth != s.wheel.cfg.edge) stamp s) := by
    simp [crankIn, loopIn, hrun, crankPin_passes _ h, hpin]
  unfold crankRow
  rw [hc, hin]
  cases wheelLive s <;> rfl

/-- The edge that ends a tooth pulse (R43): the decoder takes it in PULSE mode. -/
theorem exec_directionCodeEdge {stamp : Tb} {s : State} (h : crankPasses stamp s = true) :
    exec (.directionCodeEdge stamp) s =
      .next (if wheelLive s && s.wheel.dirPulse then opCode stamp (crankPut s.wheel.cfg.edge stamp s) else crankPut s.wheel.cfg.edge stamp s) := by
  change Host.Outcome.next (crankRow false stamp s) = _
  rw [crankRow_passes h rfl]
  cases wheelLive s <;> simp [crankEdge, crankPut]

/-! ### Codes of direction-coded pulses (R43, R46, R52) -/

/-- A pulse whose width is that of the forward sense closes with a forward code. -/
theorem opCode_forward {stamp t : Tb} {per : Nat} {s : State} (h : s.wheel.pulse = some (t, per))
    (hcode : decide (s.wheel.thresh ≤ tbSince t stamp) = s.wheel.sense) :
    opCode stamp s = forwardCode t (updWheel (fun w => { w with pulse := none }) s) := by
  simp [opCode, h, hcode]

/-- One of the other width closes with a reverse code. -/
theorem opCode_reverse {stamp t : Tb} {per : Nat} {s : State} (h : s.wheel.pulse = some (t, per))
    (hcode : decide (s.wheel.thresh ≤ tbSince t stamp) = !s.wheel.sense) :
    opCode stamp s = reverseCode (updWheel (fun w => { w with pulse := none }) s) := by
  simp [opCode, h, hcode]

theorem forwardCode_sync (stamp : Tb) {s : State} (h : s.wheel.st = .sync) : forwardCode stamp s = s := by
  simp [forwardCode, h]

/-- A reverse code in SYNC (R46, R52). -/
theorem reverseCode_sync {s : State} (h : s.wheel.st = .sync) :
    reverseCode s = changeSync .reverse 8 (reverseInd (updWheel (fun w => { w with periods := [] }) s)) := by
  simp [reverseCode, reverseTest, reverseInd, input, r46, h]

/-! ### The clauses of `Obligations.DirectionAndTimeouts` -/

theorem directionCodeEdge_pin (stamp : Tb) (s : State) (hp : crankPasses stamp s = true)
    (h : wheelLive s = false ∨ s.wheel.dirPulse = false ∨ s.wheel.pulse = none) :
    exec (.directionCodeEdge stamp) s = .next { s with pins := { s.pins with crank := s.pins.crank.put s.wheel.cfg.edge stamp } } := by
  rw [exec_directionCodeEdge hp]
  change _ = Host.Outcome.next (crankPut s.wheel.cfg.edge stamp s)
  congr 1
  split
  next hc =>
    simp only [Bool.and_eq_true] at hc
    have hpulse : s.wheel.pulse = none := by simpa [hc] using h
    unfold opCode
    simp [crankPut, hpulse]
  next => rfl

theorem directionCodeEdge_forward (stamp open_ : Tb) (per : Nat) (s : State) (hlive : wheelLive s = true) (hp : crankPasses stamp s = true)
    (hdir : s.wheel.dirPulse = true) (hpulse : s.wheel.pulse = some (open_, per)) (hst : s.wheel.st = .sync)
    (hcode : decide (s.wheel.thresh ≤ tbSince open_ stamp) = s.wheel.sense) :
    exec (.directionCodeEdge stamp) s =
      .next { s with pins := { s.pins with crank := s.pins.crank.put s.wheel.cfg.edge stamp }, wheel := { s.wheel with pulse := none } } := by
  rw [exec_directionCodeEdge hp, if_pos (by rw [hlive, hdir]; rfl), opCode_forward (s := crankPut s.wheel.cfg.edge stamp s) hpulse hcode,
    forwardCode_sync _ (by exact hst)]
  rfl

theorem directionCodeEdge_reverse (stamp open_ : Tb) (per : Nat) (s : State) (hlive : wheelLive s = true) (hn : isNative s = true)
    (hp : crankPasses stamp s = true) (hdir : s.wheel.dirPulse = true) (hpulse : s.wheel.pulse = some (open_, per)) (hst : s.wheel.st = .sync)
    (hcode : decide (s.wheel.thresh ≤ tbSince open_ stamp) = !s.wheel.sense) :
    ∃ t, exec (.directionCodeEdge stamp) s = .next t ∧ t.wheel.st = .reverse ∧ t.wheel.dir = true ∧ t.wheel.pulse = none ∧
      t.wheel.pos = s.wheel.pos ∧ t.wheel.half = s.wheel.half ∧ waits t 6 0 0 ∧ bit t.bus.intstat 1 = true ∧ t.pred = s.pred ∧
      t.chan = s.chan ∧ t.store = s.store ∧ t.mbox = s.mbox ∧ t.pending = s.pending := by
  let v := updWheel (fun w => { w with pulse := none, periods := [] }) (crankPut s.wheel.cfg.edge stamp s)
  have hother : (reverseInd v).wheel.st ≠ .reverse := by simp [reverseInd, v, crankPut, hst]
  have hexec : exec (.directionCodeEdge stamp) s = .next (changeSync .reverse 8 (reverseInd v)) := by
    rw [exec_directionCodeEdge hp, if_pos (by rw [hlive, hdir]; rfl), opCode_reverse (s := crankPut s.wheel.cfg.edge stamp s) hpulse hcode,
      reverseCode_sync (by exact hst)]
    rfl
  have hwheel : (changeSync .reverse 8 (reverseInd v)).wheel = { s.wheel with pulse := none, periods := [], dir := true, st := .reverse } := by
    rw [changeSync_wheel 8 hother]
    simp [entered, enterSync, learnSpoil, reverseInd, v, crankPut]
  have hbut : but 707790748 (changeSync .reverse 8 (reverseInd v)) = but 707790748 s :=
    (but_le (by decide) (changeSync_but .reverse 8 (reverseInd v))).trans ((but_le (by decide) (reverseInd_but v)).trans rfl)
  refine ⟨_, hexec, changeSync_st _ _ _, by rw [hwheel], by rw [hwheel], by rw [hwheel], by rw [hwheel],
    waits_changeSync _ _ (raise_waits _ _ _ hn), ?_, ?_, chan_of_but rfl hbut, store_of_but rfl hbut, mbox_of_but rfl hbut, pending_of_but rfl hbut⟩
  · exact changeSync_int 8 (by simpa [isNative, reverseInd, v, crankPut] using hn) hother
  · rw [changeSync_pred 8 hother]
    simp [entered, enterSync, learnSpoil, reverseInd, v, crankPut]

/-! ### Timeouts (R50, R51) -/

/-- Limp matching needs LIMPEN (R51). -/
theorem limpTry_disabled (cam : Cam) {s : State} (h : s.wheel.pol.limpen = false) : limpTry cam s = s := by
  simp [limpTry, h]

/-- A limp-capable pattern has two edges or more (R51). -/
theorem two_le_of_limpCapable {c : Nat} {es : List CamEdge} (h : limpCapable c es = true) : 2 ≤ es.length := by
  simp only [limpCapable, Bool.and_eq_true, decide_eq_true_eq] at h
  exact h.1

/-- Limp matching needs as many intervals as the pattern has edges, so that without history nothing matches (R51). -/
theorem limpTry_without_history (cam : Cam) {s : State} (h : s.wheel.limpHist = []) : limpTry cam s = s := by
  unfold limpTry
  dsimp only
  split
  next hall =>
    simp only [Bool.and_eq_true, beq_iff_eq, h] at hall
    obtain ⟨⟨_, hcap⟩, hlen⟩ := hall
    have htwo := two_le_of_limpCapable hcap
    simp [measured] at hlen
    omega
  next => rfl

/-- The history of sync-cam edges is forgotten at the entry into NOSYNC (R51). -/
theorem changeSync_nosync_limpHist {s : State} (cause : Nat) (h : s.wheel.st ≠ .nosync) : (changeSync .nosync cause s).wheel.limpHist = [] := by
  rw [changeSync_wheel cause h]
  rfl

theorem exec_stallTimeout {s : State} (h : dueStall s = true) : exec .stallTimeout s = .next (opStall s) :=
  congrArg Host.Outcome.next (if_pos h)

theorem exec_stallTimeout_early {s : State} (h : dueStall s = false) : exec .stallTimeout s = .next s :=
  congrArg Host.Outcome.next (if_neg (by simp [h]))

theorem exec_limpCamTimeout {s : State} (h : dueLimp s = true) : exec .limpCamTimeout s = .next (input 7 (raise 2 0 0 s)) :=
  congrArg Host.Outcome.next (if_pos h)

theorem exec_limpCamTimeout_early {s : State} (h : dueLimp s = false) : exec .limpCamTimeout s = .next s :=
  congrArg Host.Outcome.next (if_neg (by simp [h]))

/-- The stall is noted (R50). -/
def stalled (s : State) : State := updWheel (fun w => { w with stallF := true }) s

/-- A stall that completes no limp matching is its input alone (R46, R50). -/
theorem opStall_input {s : State} (h : ∀ cam, limpTry cam (input 9 (stalled s)) = input 9 (stalled s)) : opStall s = input 9 (stalled s) := by
  unfold stalled at h ⊢
  unfold opStall
  dsimp only
  split
  · rw [h, ite_self]
  · rfl

/-- In NOSYNC with LIMPEN 0 the stall is noted and nothing else (R50). -/
theorem opStall_nosync {s : State} (hst : s.wheel.st = .nosync) (hlimp : s.wheel.pol.limpen = false) : opStall s = stalled s := by
  have hin : input 9 (stalled s) = stalled s := changeSync_same 9 (by simp [stalled, r46, Sync.tracks, hst])
  rw [opStall_input fun cam => by rw [hin, limpTry_disabled cam (by exact hlimp)], hin]

/-- In SYNC it loses the position (R46, R50). -/
theorem opStall_sync {s : State} (hst : s.wheel.st = .sync) : opStall s = changeSync .nosync 9 (stalled s) := by
  have hin : input 9 (stalled s) = changeSync .nosync 9 (stalled s) := by simp [stalled, input, r46, Sync.tracks, hst]
  have hhist := changeSync_nosync_limpHist (s := stalled s) 9 (by simp [stalled, hst])
  rw [opStall_input fun cam => by rw [hin, limpTry_without_history cam hhist], hin]

theorem stallTimeout_sync (s : State) (hdue : dueStall s = true) (hn : isNative s = true) (hst : s.wheel.st = .sync) :
    ∃ t, exec .stallTimeout s = .next t ∧ t.wheel.st = .nosync ∧ t.wheel.stallF = true ∧ waits t 5 0 0x39 ∧
      bit t.bus.intstat 1 = true ∧ t.wheel.cfg = s.wheel.cfg ∧ t.chan = s.chan ∧ t.store = s.store ∧ t.pending = s.pending := by
  have hother : (stalled s).wheel.st ≠ .nosync := by simp [stalled, hst]
  have hloss := changeSync_nosync_waits (s := stalled s) 9 hn hother
  rw [show (stalled s).wheel.st = .sync from hst] at hloss
  refine ⟨_, by rw [exec_stallTimeout hdue, opStall_sync hst], changeSync_st _ _ _, ?_, hloss, changeSync_int 9 hn hother, ?_,
    chan_of_but rfl (changeSync_but _ _ _), ?_, ?_⟩ <;> simp [stalled]

theorem limpCamTimeout_due (s : State) (hdue : dueLimp s = true) (hn : isNative s = true) :
    ∃ t, exec .limpCamTimeout s = .next t ∧ t.wheel.st = .nosync ∧ waits t 2 0 0 ∧ waits t 5 0 0x47 ∧
      t.wheel.cfg = s.wheel.cfg ∧ t.chan = s.chan ∧ t.store = s.store ∧ t.pending = s.pending := by
  have hst : s.wheel.st = .limp := by
    simp only [dueLimp, Bool.and_eq_true, beq_iff_eq] at hdue
    exact hdue.1.2
  have hin : input 7 (raise 2 0 0 s) = changeSync .nosync 7 (raise 2 0 0 s) := by simp [input, r46, hst]
  have hloss := changeSync_nosync_waits (s := raise 2 0 0 s) 7 (by simpa [isNative] using hn) (by simp [hst])
  rw [raise_wheel, hst] at hloss
  refine ⟨_, by rw [exec_limpCamTimeout hdue, hin], changeSync_st _ _ _, waits_changeSync _ _ (raise_waits 2 0 0 hn), hloss, ?_, ?_, ?_, ?_⟩
  · simp
  · rw [chan_of_but rfl (changeSync_but _ _ _), chan_of_but rfl (raise_but _ _ _ _)]
  · simp
  · simp

/-- Settles O25: the codes of a pulse, and the two timeouts, each with the row whose time has not come. -/
theorem directionAndTimeouts : Obligations.DirectionAndTimeouts := by
  refine ⟨directionCodeEdge_pin, directionCodeEdge_forward, directionCodeEdge_reverse, fun s hdue hst hlimp => ?_, stallTimeout_sync,
    fun _ => exec_stallTimeout_early, limpCamTimeout_due, fun _ => exec_limpCamTimeout_early⟩
  rw [exec_stallTimeout hdue, opStall_nosync hst hlimp]
  rfl

/-! ### Cam edges at the pins (R33) -/

/-- A cam has a level since an instant. -/
def camPut (c : Fin 4) (rise : Bool) (stamp : Tb) (s : State) : State :=
  { s with pins := { s.pins with cam := vupd s.pins.cam c (PinIn.put rise stamp) } }

theorem camPut_but (c : Fin 4) (rise : Bool) (stamp : Tb) (s : State) : but 134217728 (camPut c rise stamp s) = but 134217728 s := rfl

/-- An entry replaced by itself. -/
theorem vupd_const_self {α : Type} {n : Nat} {v : Vector α n} {i : Fin n} {x : α} (h : v[i] = x) : vupd v i (fun _ => x) = v := by
  subst h
  simp [vupd]

@[simp] theorem camPut_wheel (c : Fin 4) (rise : Bool) (stamp : Tb) (s : State) : (camPut c rise stamp s).wheel = s.wheel := rfl
@[simp] theorem gAct_camPut (c : Fin 4) (rise : Bool) (stamp : Tb) (s : State) (p : Nat) : gAct (camPut c rise stamp s) p = gAct s p := rfl
@[simp] theorem camAngle_camPut (c : Fin 4) (rise : Bool) (stamp : Tb) (s : State) (m : Nat) (t : Tb) :
    camAngle (camPut c rise stamp s) m t = camAngle s m t := rfl

theorem camPin_passes {c : Fin 4} {stamp : Tb} {s : State} (rise : Bool) (h : camPasses c stamp s = true) :
    camPin c rise stamp s = ([(rise, stamp)], camPut c rise stamp s) := by
  simp only [camPasses, Bool.and_eq_true, Option.isNone_iff_eq_none, decide_eq_true_eq] at h
  obtain ⟨⟨_, hwait⟩, hlen⟩ := h
  unfold camPin camPut
  rw [hwait, filterEdge_passes rise hlen]
  dsimp only
  rw [vupd_const_self hwait]

/-- While the emitter is at rest no edge comes from it (R507). -/
theorem loopCam_rest {s : State} (c : Nat) (h : s.emit.run = false) : loopCam s c = none := by
  simp [loopCam, h]

theorem camPasses_rest {c : Fin 4} {stamp : Tb} {s : State} (h : camPasses c stamp s = true) : s.emit.run = false := by
  simp only [camPasses, Bool.and_eq_true, Bool.not_eq_true'] at h
  exact h.1.1

/-- A cam edge that passes the filter, outside the wake capture (R33). -/
theorem camRow_passes {c : Fin 4} {stamp : Tb} {s : State} (rise : Bool) (h : camPasses c stamp s = true) (hc : captureOn s = false) :
    camRow c rise stamp s = if wheelLive s then takeCam c rise stamp (camPut c rise stamp s) else camPut c rise stamp s := by
  have hrun := camPasses_rest h
  have hpin : pinIn (camPut c rise stamp s) = wheelLive s := by simp [pinIn, wheelLive, fclkRuns, isNative, camPut, hrun]
  have hpin' : pinIn s = wheelLive s := hpin
  have hin : camIn c rise stamp s = (if wheelLive s then [(rise, stamp)] else [], camPut c rise stamp s) := by
    simp [camIn, loopCam_rest _ hrun, camPin_passes rise h, hpin']
  unfold camRow
  rw [hc, hin]
  cases wheelLive s <;> rfl

/-- In the wake capture it is taken without the filter, with a coarse stamp (R353). -/
theorem camRow_captured {c : Fin 4} {stamp : Tb} {s : State} (rise : Bool) (h : camPasses c stamp s = true) (hc : captureOn s = true) :
    camRow c rise stamp s = if wheelLive s then takeCam c rise (coarseStamp s stamp) (camPut c rise stamp s) else camPut c rise stamp s := by
  have hrun := camPasses_rest h
  have hwait : s.pins.camWait[c] = none := by
    simp only [camPasses, Bool.and_eq_true, Option.isNone_iff_eq_none] at h
    exact h.1.2
  have hpin : pinIn (camPut c rise stamp s) = wheelLive s := by simp [pinIn, wheelLive, fclkRuns, isNative, camPut, hrun]
  unfold camRow
  rw [hc, loopCam_rest _ hrun]
  simp only [Bool.true_and, bne_iff_ne, ne_eq, reduceCtorEq, not_false_eq_true, if_true]
  unfold camCaptured
  dsimp only
  rw [vupd_const_self hwait]
  change (if pinIn (camPut c rise stamp s) then takeCam c rise (coarseStamp (camPut c rise stamp s) stamp) (camPut c rise stamp s) else camPut c rise stamp s) = _
  rw [hpin]
  rfl

/-- A cam that is not enabled is no input (R33). -/
theorem takeCam_disabled {c : Fin 4} {s : State} (rise : Bool) (t : Tb) (h : s.cams[c].en = false) : takeCam c rise t s = s := by
  simp only [Fin.getElem_fin] at h
  simp [takeCam, camEdge, h]

/-! ### The sync cam (R34, R35, R42, R48) -/

/-- A fine edge of the sync cam of a native device that CPS does not measure is an input of the sync cam alone (R47, R120). -/
theorem takeCam_sync {c : Fin 4} {rise : Bool} {s : State} (t : Tb) (hn : isNative s = true) (hfine : s.sys.coarse = false)
    (hen : s.cams[c].en = true) (hsync : s.cams[c].sync = true) (huse : s.cams[c].uses rise = true) (hcfg : bit s.cpc.cams[c].cfg 0 = false) :
    takeCam c rise t s = syncCamEdge s.cams[c] rise t true s := by
  have hmeas : measureEdge c rise t s = s := by
    unfold measureEdge
    dsimp only
    rw [if_pos (by rw [hcfg]; simp)]
  unfold takeCam
  rw [if_pos (by rw [hfine]; rfl)]
  unfold camEdge
  dsimp only
  rw [if_neg (by rw [hn, hen, huse]; simp), if_pos rfl, hmeas, if_pos hsync]

/-- The half of the last tooth that puts it next to the angle of an edge (R48). -/
def halfNear (s : State) (a : Nat) : Nat :=
  if cycDist 737280 (a % 737280) (theta16 s.wheel.cfg 0 s.wheel.pos (gAct s s.wheel.pos) / 16) < 184320 then 0 else 1

@[simp] theorem halfNear_camPut (c : Fin 4) (rise : Bool) (stamp : Tb) (s : State) (a : Nat) : halfNear (camPut c rise stamp s) a = halfNear s a := rfl

/-- An edge that the first candidate half alone explains resolves the half (R35, R48). -/
theorem camResolve_first {cam : Cam} {rise : Bool} {t : Tb} {s : State} (htwo : s.wheel.cfg.two = false) (hgv : s.wheel.pol.gapverify = false)
    (h0 : matchesAny 737280 cam rise (camAngle s (16 * 368640) t) = true)
    (h1 : matchesAny 737280 cam rise (camAngle s (16 * 368640) t + 368640) = false) :
    camResolve cam rise t s = changeSync .confirm 6 (resolveHalf (halfNear s (camAngle s (16 * 368640) t)) s) := by
  unfold camResolve
  dsimp only
  rw [if_neg (by simp [htwo]), h0, h1]
  simp [hgv, halfNear]

/-- An edge that matches no programmed one is inconsistent (R35, R42). -/
theorem camConsistent_missed {cam : Cam} {rise : Bool} {t : Tb} {s : State}
    (h : matchesAny (cycC s.wheel.cfg) cam rise (camAngle s (cyc16 s.wheel.cfg) t) = false) :
    camConsistent cam rise t s = input 7 (raise 2 0 0 s) := by
  unfold camConsistent
  dsimp only
  rw [if_neg (by simp [h])]

/-- Once the half is resolved the decoder confirms it, from the same position and with th16 in that half (R48, R72). -/
theorem changeSync_resolveHalf (cause h : Nat) {s : State} (hst : s.wheel.st ≠ .confirm) :
    let t := changeSync .confirm cause (resolveHalf h s)
    t.wheel.pos = s.wheel.pos ∧ t.wheel.confcnt = 0 ∧ t.wheel.half = h ∧ t.pred.th16 = theta16 s.wheel.cfg h s.wheel.pos (gAct s s.wheel.pos) := by
  have hother : (resolveHalf h s).wheel.st ≠ .confirm := hst
  dsimp only
  rw [changeSync_wheel cause hother, changeSync_pred cause hother]
  exact ⟨rfl, rfl, rfl, rfl⟩

/-- With CAMLOSS 0 an inconsistent cam edge costs no position (R42, R46). -/
theorem input_camError_kept {s : State} (hst : s.wheel.st = .confirm ∨ s.wheel.st = .sync) (hloss : s.wheel.pol.camloss = false) : input 7 s = s := by
  refine changeSync_same 7 ?_
  rcases hst with h | h <;> simp [r46, h, hloss]

/-- With CAMLOSS 1 it does. -/
theorem input_camError_lost {s : State} (hst : s.wheel.st = .confirm ∨ s.wheel.st = .sync) (hloss : s.wheel.pol.camloss = true) :
    input 7 s = changeSync .nosync 7 s := by
  rcases hst with h | h <;> simp [input, r46, h, hloss]

/-- The match of programmed edge i is forgotten as its window closes (R42). -/
def shutWindow (i : Fin 16) (s : State) : State :=
  updWheel (fun w => { w with winHit := vupd w.winHit i fun _ => false, winShut := vupd w.winShut i fun _ => some s.clk.tb }) s

/-- A window that was matched closes without more. -/
theorem opClose_hit {i : Fin 16} {s : State} (h : s.wheel.winHit[i] = true) : opClose i s = shutWindow i s := by
  unfold opClose
  rw [h]
  rfl

/-- One that was not is an inconsistent edge of the cam. -/
theorem opClose_missed {i : Fin 16} {s : State} (h : s.wheel.winHit[i] = false) : opClose i s = input 7 (raise 2 0 0 (shutWindow i s)) := by
  unfold opClose
  rw [h]
  rfl

/-- Windows close on a native device in CONFIRM and SYNC alone (R42). -/
theorem native_and_st_of_dueClose {i : Fin 16} {s : State} (h : dueClose s i = true) :
    isNative s = true ∧ (s.wheel.st = .confirm ∨ s.wheel.st = .sync) := by
  simp only [dueClose, Bool.and_eq_true, Bool.or_eq_true, beq_iff_eq] at h
  obtain ⟨⟨⟨⟨_, hn⟩, hst⟩, _⟩, _⟩ := h
  exact ⟨hn, hst⟩

theorem exec_camWindowClose {i : Fin 16} {s : State} (h : dueClose s i = true) : exec (.camWindowClose i) s = .next (opClose i s) :=
  congrArg Host.Outcome.next (if_pos h)

theorem exec_camWindowClose_early {i : Fin 16} {s : State} (h : dueClose s i = false) : exec (.camWindowClose i) s = .next s :=
  congrArg Host.Outcome.next (if_neg (by simp [h]))

/-! ### The clauses of `Obligations.CamEdges` -/

theorem camEdge_waits (c : Fin 4) (rise : Bool) (stamp : Tb) (s : State) (hemit : s.emit.run = false) (hcap : captureOn s = false)
    (hwait : s.pins.camWait[c] = none) (hlen : 2 * tbSince stamp s.clk.tb < filterLen s) :
    exec (.camEdge c rise stamp) s =
      .next { s with pins := { s.pins with cam := vupd s.pins.cam c (PinIn.put rise stamp), camWait := vupd s.pins.camWait c fun _ => some (rise, stamp) } } := by
  change Host.Outcome.next (camRow c rise stamp s) = _
  simp [camRow, hcap, camIn, loopCam_rest _ hemit, camPin, hwait, filterEdge_waits rise hlen, foldSt]

theorem camEdge_disabled (c : Fin 4) (rise : Bool) (stamp : Tb) (s : State) (hp : camPasses c stamp s = true) (hen : s.cams[c].en = false) :
    exec (.camEdge c rise stamp) s = .next { s with pins := { s.pins with cam := vupd s.pins.cam c (PinIn.put rise stamp) } } := by
  have htake : ∀ t, takeCam c rise t (camPut c rise stamp s) = camPut c rise stamp s := fun t => takeCam_disabled rise t hen
  change Host.Outcome.next (camRow c rise stamp s) = .next (camPut c rise stamp s)
  congr 1
  cases hc : captureOn s with
  | false => rw [camRow_passes rise hp hc, htake, ite_self]
  | true => rw [camRow_captured rise hp hc, htake, ite_self]

/-- Outside the capture a fine edge of the sync cam reaches the decoder. -/
theorem exec_camEdge_sync {c : Fin 4} {rise : Bool} {stamp : Tb} {s : State} (hlive : wheelLive s = true) (hn : isNative s = true)
    (hp : camPasses c stamp s = true) (hfine : s.sys.coarse = false) (hen : s.cams[c].en = true) (hsync : s.cams[c].sync = true)
    (huse : s.cams[c].uses rise = true) (hcfg : bit s.cpc.cams[c].cfg 0 = false) :
    exec (.camEdge c rise stamp) s = .next (syncCamEdge s.cams[c] rise stamp true (camPut c rise stamp s)) := by
  change Host.Outcome.next (camRow c rise stamp s) = _
  rw [camRow_passes rise hp (by simp [captureOn, hfine]), if_pos hlive,
    takeCam_sync (s := camPut c rise stamp s) stamp hn hfine hen hsync huse hcfg]
  rfl

theorem camEdge_gap (c : Fin 4) (rise : Bool) (stamp : Tb) (s : State) (hlive : wheelLive s = true) (hn : isNative s = true)
    (hp : camPasses c stamp s = true) (hfine : s.sys.coarse = false) (hen : s.cams[c].en = true) (hsync : s.cams[c].sync = true)
    (huse : s.cams[c].uses rise = true) (hcfg : bit s.cpc.cams[c].cfg 0 = false) (hst : s.wheel.st = .gap) (htwo : s.wheel.cfg.two = false)
    (hgv : s.wheel.pol.gapverify = false) (h0 : matchesAny 737280 s.cams[c] rise (camAngle s (16 * 368640) stamp) = true)
    (h1 : matchesAny 737280 s.cams[c] rise (camAngle s (16 * 368640) stamp + 368640) = false) :
    ∃ t, exec (.camEdge c rise stamp) s = .next t ∧ t.wheel.st = .confirm ∧ t.wheel.pos = s.wheel.pos ∧ t.wheel.confcnt = 0 ∧
      t.wheel.half = halfNear s (camAngle s (16 * 368640) stamp) ∧
      t.pred.th16 = theta16 s.wheel.cfg t.wheel.half s.wheel.pos (gAct s s.wheel.pos) ∧ t.chan = s.chan ∧ t.store = s.store ∧
      t.mbox = s.mbox ∧ t.pending = s.pending := by
  have hexec : exec (.camEdge c rise stamp) s =
      .next (changeSync .confirm 6 (resolveHalf (halfNear s (camAngle s (16 * 368640) stamp)) (camPut c rise stamp s))) := by
    rw [exec_camEdge_sync hlive hn hp hfine hen hsync huse hcfg]
    unfold syncCamEdge
    rw [show (camPut c rise stamp s).wheel.st = .gap from hst]
    dsimp only
    rw [camResolve_first (s := camPut c rise stamp s) htwo hgv (by rwa [camAngle_camPut]) (by rwa [camAngle_camPut]), camAngle_camPut,
      halfNear_camPut]
  have hother : (camPut c rise stamp s).wheel.st ≠ .confirm := by simp [camPut, hst]
  have hbut : ∀ h, but 707790748 (changeSync .confirm 6 (resolveHalf h (camPut c rise stamp s))) = but 707790748 s := fun h =>
    (but_le (by decide) (changeSync_but _ _ _)).trans ((but_le (by decide) (resolveHalf_but h _)).trans (but_le (by decide) (camPut_but c rise stamp s)))
  obtain ⟨hpos, hcnt, hhalf, hth⟩ := changeSync_resolveHalf 6 (halfNear s (camAngle s (16 * 368640) stamp)) hother
  rw [camPut_wheel] at hpos
  rw [camPut_wheel, gAct_camPut] at hth
  refine ⟨_, hexec, changeSync_st _ _ _, hpos, hcnt, hhalf, ?_, chan_of_but rfl (hbut _), store_of_but rfl (hbut _), mbox_of_but rfl (hbut _),
    pending_of_but rfl (hbut _)⟩
  rw [hhalf]
  exact hth

theorem camEdge_inconsistent (c : Fin 4) (rise : Bool) (stamp : Tb) (s : State) (hlive : wheelLive s = true) (hn : isNative s = true)
    (hp : camPasses c stamp s = true) (hfine : s.sys.coarse = false) (hen : s.cams[c].en = true) (hsync : s.cams[c].sync = true)
    (huse : s.cams[c].uses rise = true) (hcfg : bit s.cpc.cams[c].cfg 0 = false) (hst : s.wheel.st = .sync) (hloss : s.wheel.pol.camloss = false)
    (hmiss : matchesAny (cycC s.wheel.cfg) s.cams[c] rise (camAngle s (cyc16 s.wheel.cfg) stamp) = false) :
    ∃ t, exec (.camEdge c rise stamp) s = .next t ∧ t.wheel = s.wheel ∧ waits t 2 0 0 ∧ { quietly s t with pins := s.pins } = s := by
  have hexec : exec (.camEdge c rise stamp) s = .next (raise 2 0 0 (camPut c rise stamp s)) := by
    rw [exec_camEdge_sync hlive hn hp hfine hen hsync huse hcfg]
    unfold syncCamEdge
    rw [show (camPut c rise stamp s).wheel.st = .sync from hst]
    dsimp only
    rw [if_pos rfl, camConsistent_missed (s := camPut c rise stamp s) hmiss, input_camError_kept (.inr (by simp [camPut, hst])) (by simpa [camPut] using hloss)]
  refine ⟨_, hexec, by simp [camPut], raise_waits 2 0 0 hn, ?_⟩
  rw [raise_native (s := camPut c rise stamp s) 2 0 0 hn]
  rfl

theorem camWindowClose_hit (i : Fin 16) (s : State) (hdue : dueClose s i = true) (hhit : s.wheel.winHit[i] = true) :
    ∃ t, exec (.camWindowClose i) s = .next t ∧ t.wheel.winHit[i] = false ∧ t.wheel.winShut[i] = some s.clk.tb ∧
      { t with wheel := { t.wheel with winHit := s.wheel.winHit, winShut := s.wheel.winShut } } = s :=
  ⟨shutWindow i s, by rw [exec_camWindowClose hdue, opClose_hit hhit], vupd_same _ i _, vupd_same _ i _, rfl⟩

theorem camWindowClose_kept (i : Fin 16) (s : State) (hdue : dueClose s i = true) (hmiss : s.wheel.winHit[i] = false)
    (hloss : s.wheel.pol.camloss = false) :
    ∃ t, exec (.camWindowClose i) s = .next t ∧ t.wheel.st = s.wheel.st ∧ waits t 2 0 0 ∧
      { quietly s t with wheel := { t.wheel with winHit := s.wheel.winHit, winShut := s.wheel.winShut } } = s := by
  obtain ⟨hn, hst⟩ := native_and_st_of_dueClose hdue
  refine ⟨raise 2 0 0 (shutWindow i s), ?_, by simp [shutWindow], raise_waits 2 0 0 hn, ?_⟩
  · rw [exec_camWindowClose hdue, opClose_missed hmiss, input_camError_kept (by simpa [shutWindow] using hst) (by simpa [shutWindow] using hloss)]
  · rw [raise_native (s := shutWindow i s) 2 0 0 hn]
    rfl

theorem camWindowClose_lost (i : Fin 16) (s : State) (hdue : dueClose s i = true) (hmiss : s.wheel.winHit[i] = false)
    (hloss : s.wheel.pol.camloss = true) :
    ∃ t, exec (.camWindowClose i) s = .next t ∧ t.wheel.st = .nosync ∧ waits t 2 0 0 ∧ t.chan = s.chan ∧ t.store = s.store ∧
      t.pending = s.pending := by
  obtain ⟨hn, hst⟩ := native_and_st_of_dueClose hdue
  refine ⟨changeSync .nosync 7 (raise 2 0 0 (shutWindow i s)), ?_, changeSync_st _ _ _, waits_changeSync _ _ (raise_waits 2 0 0 hn),
    ?_, by simp [shutWindow], by simp [shutWindow]⟩
  · rw [exec_camWindowClose hdue, opClose_missed hmiss, input_camError_lost (by simpa [shutWindow] using hst) (by simpa [shutWindow] using hloss)]
  · rw [chan_of_but rfl (changeSync_but _ _ _), chan_of_but rfl (raise_but _ _ _ _)]
    rfl

/-- Settles O26: the pin, the two states that read a sync-cam edge, and the close of a window with each of its outcomes. -/
theorem camEdges : Obligations.CamEdges :=
  ⟨camEdge_waits, camEdge_disabled, camEdge_gap, camEdge_inconsistent, camWindowClose_hit, camWindowClose_kept, camWindowClose_lost,
    fun _ _ => exec_camWindowClose_early⟩

/-! ### Commands on a free mailbox (R417, R431) -/

/-- A command without effect is answered, and changes the mailbox and INTSTAT alone. -/
theorem mboxRow_refuses {code : Byte} {op : Args → State → CmdRes} {a : Args} {s : State} (hf : mboxFree s = true) (ha : admitted code a s = true)
    {status k : Nat} (hop : op a (started code a s) = { st := started code a s, status := status, q0 := k }) :
    answered (mboxRow code op a s) status k 0 ∧ { mboxRow code op a s with mbox := s.mbox, bus := s.bus } = s := by
  rw [mboxRow_ends code op a s hf ha (by rw [hop]), hop]
  refine ⟨endCmd_answered code a _ _ _ _ rfl, ?_⟩
  rw [endCmd_host code a _ _ _ _ rfl]
  rfl

/-- A command that takes effect at once is answered, and what it leaves beside the mailbox and INTSTAT is its effect. -/
theorem mboxRow_completes {code : Byte} {op : Args → State → CmdRes} {a : Args} {s u : State} (hf : mboxFree s = true) (ha : admitted code a s = true)
    (hop : op a (started code a s) = { st := u }) (hm : u.mbox = (started code a s).mbox) :
    answered (mboxRow code op a s) 0 0 0 ∧ ∃ m b, mboxRow code op a s = { u with mbox := m, bus := b } := by
  have hrun : u.mbox.run = some ⟨.host, code, a⟩ := by rw [hm]; rfl
  rw [mboxRow_ends code op a s hf ha (by rw [hop]), hop]
  exact ⟨endCmd_answered code a _ _ _ _ hrun, _, _, endCmd_host code a _ _ _ _ hrun⟩

/-- A first check that fails is the one that is named (R431). -/
theorem firstFail_first {c : Bool} (cs : List Bool) (h : c = false) : firstFail (c :: cs) = some 1 := by
  simp [firstFail, List.findIdx_cons, h]

/-- Behind a check that holds the number counts on (R431). -/
theorem firstFail_next {c : Bool} (cs : List Bool) (h : c = true) : firstFail (c :: cs) = (firstFail cs).map (· + 1) := by
  simp only [firstFail, List.findIdx_cons, h, Bool.not_true, cond_false, List.length_cons, Nat.add_lt_add_iff_right]
  split <;> rfl

/-- Code 12 takes every state to NOSYNC (R46). -/
theorem input_reset (s : State) : input 12 s = changeSync .nosync 12 s := by simp [input, r46]

/-! ### WHEEL_SET (R60, R61, R441) -/

/-- The decoder with a new wheel: it searches for the gap again (R60). -/
theorem applyWheel_wheel (a : Args) (s : State) : ∃ start args,
    (applyWheel a s).wheel = { (clearSearch (input 12 s)).wheel with cfg := wheelOf a, cfgd := true, stallFrom := start, args := args } := by
  have htable : ∀ c t, (wheelTable c t).wheel = t.wheel := fun c t => wheel_of_but rfl (wheelTable_but c t)
  unfold applyWheel
  dsimp only
  rw [htable]
  split <;> exact ⟨_, _, rfl⟩

/-- What WHEEL_SET does when its arguments and checks hold. -/
theorem cmdWheelSet_ok {a : Args} {s : State} (hargs : wheelArgsOk a = true) (hn : 368640 % (wheelOf a).n = 0) (hm : 6 + (wheelOf a).m ≤ (wheelOf a).n)
    (hstroke : (wheelOf a).two = s.wheel.cfg.two ∨ strokeFree s = true) :
    cmdWheelSet a s = { st := checkConfig (sendConfig (applyWheel a s)) } := by
  refine checked_ok _ _ s _ hargs ?_
  rcases hstroke with h | h <;> simp [hn, hm, h]

/-- Its first check: N divides a revolution. -/
theorem cmdWheelSet_check1 {a : Args} {s : State} (hargs : wheelArgsOk a = true) (hn : 368640 % (wheelOf a).n ≠ 0) :
    cmdWheelSet a s = checkFail 1 s :=
  checked_fails _ _ _ 1 hargs (firstFail_first _ (by simpa using hn))

/-- Its third check: STROKE changes while nothing depends on it. -/
theorem cmdWheelSet_check3 {a : Args} {s : State} (hargs : wheelArgsOk a = true) (hn : 368640 % (wheelOf a).n = 0)
    (hm : 6 + (wheelOf a).m ≤ (wheelOf a).n) (htwo : (wheelOf a).two ≠ s.wheel.cfg.two) (hstroke : strokeFree s = false) :
    cmdWheelSet a s = checkFail 3 s := by
  refine checked_fails _ _ _ 3 hargs ?_
  rw [firstFail_next _ (by simpa using hn), firstFail_next _ (by simpa using hm), firstFail_first _ (by simp [htwo, hstroke])]
  rfl

theorem wheelSet_accepted (a : Args) (s : State) (hf : mboxFree s = true) (ha : admitted 0x08 a s = true) (hargs : wheelArgsOk a = true)
    (hn : 368640 % (wheelOf a).n = 0) (hm : 6 + (wheelOf a).m ≤ (wheelOf a).n) (hstroke : (wheelOf a).two = s.wheel.cfg.two ∨ strokeFree s = true) :
    ∃ t, exec (.wheelSet a) s = .next t ∧ answered t 0 0 0 ∧ t.wheel.cfg = wheelOf a ∧ t.wheel.cfgd = true ∧ t.wheel.st = .nosync ∧
      t.wheel.periods = [] ∧ t.wheel.tPrev = none ∧ t.chan = s.chan ∧ t.tim = s.tim ∧ t.pending = s.pending := by
  have hop := cmdWheelSet_ok (s := started 0x08 a s) hargs hn hm hstroke
  have hbut : but 577767388 (checkConfig (sendConfig (applyWheel a (started 0x08 a s)))) = but 577767388 (started 0x08 a s) := by
    have h := cmdWheelSet_but a (started 0x08 a s)
    rwa [hop] at h
  have hwheel : (checkConfig (sendConfig (applyWheel a (started 0x08 a s)))).wheel = (applyWheel a (started 0x08 a s)).wheel := by
    rw [wheel_of_but rfl (checkConfig_but _), wheel_of_but rfl (sendConfig_but _)]
  obtain ⟨hans, m, b, hrow⟩ := mboxRow_completes hf ha hop (mbox_of_but rfl hbut)
  obtain ⟨start, args, happ⟩ := applyWheel_wheel a (started 0x08 a s)
  refine ⟨mboxRow 0x08 cmdWheelSet a s, rfl, hans, ?_⟩
  rw [hrow]
  dsimp only
  rw [hwheel, happ, input_reset]
  refine ⟨rfl, rfl, changeSync_st _ _ _, rfl, rfl, (chan_of_but rfl hbut :), (tim_of_but rfl hbut :), ?_⟩
  simp [started]

theorem wheelSet_check1 (a : Args) (s : State) (hf : mboxFree s = true) (ha : admitted 0x08 a s = true) (hargs : wheelArgsOk a = true)
    (hn : 368640 % (wheelOf a).n ≠ 0) :
    ∃ t, exec (.wheelSet a) s = .next t ∧ answered t 0x17 1 0 ∧ { t with mbox := s.mbox, bus := s.bus } = s :=
  ⟨_, rfl, mboxRow_refuses hf ha (cmdWheelSet_check1 hargs hn)⟩

theorem wheelSet_check3 (a : Args) (s : State) (hf : mboxFree s = true) (ha : admitted 0x08 a s = true) (hargs : wheelArgsOk a = true)
    (hn : 368640 % (wheelOf a).n = 0) (hm : 6 + (wheelOf a).m ≤ (wheelOf a).n) (htwo : (wheelOf a).two ≠ s.wheel.cfg.two) (hstroke : strokeFree s = false) :
    ∃ t, exec (.wheelSet a) s = .next t ∧ answered t 0x17 3 0 ∧ { t with mbox := s.mbox, bus := s.bus } = s := by
  exact ⟨_, rfl, mboxRow_refuses hf ha (cmdWheelSet_check3 (s := started 0x08 a s) hargs hn hm htwo hstroke)⟩

theorem wheelSet_badArg (a : Args) (s : State) (hf : mboxFree s = true) (ha : admitted 0x08 a s = true) (hargs : wheelArgsOk a = false) :
    ∃ t, exec (.wheelSet a) s = .next t ∧ answered t 0x16 0 0 ∧ { t with mbox := s.mbox, bus := s.bus } = s :=
  ⟨_, rfl, mboxRow_refuses hf ha (checked_badArg _ _ _ hargs)⟩

/-! ### CAM_SET (R62, R441) -/

/-- A word with bit 15 clear is its low 15 bits. -/
theorem and_low15 {w : Word} (h : bit w 15 = false) : w &&& 0x7FFF = w := by
  have hmask : ∀ i : Fin 15, (0x7FFF : Word).getLsbD i = true := by decide
  refine BitVec.eq_of_getLsbD_eq fun i hi => ?_
  rw [BitVec.getLsbD_and]
  rcases Nat.lt_succ_iff_lt_or_eq.mp hi with hlt | rfl
  · rw [hmask ⟨i, hlt⟩, Bool.and_true]
  · rw [show w.getLsbD 15 = false from h, Bool.false_and]

/-- A word with bit 15 set contains that bit. -/
theorem or_bit15 {w : Word} (h : bit w 15 = true) : w ||| 0x8000 = w := by
  have hmask : ∀ i : Fin 15, (0x8000 : Word).getLsbD i = false := by decide
  refine BitVec.eq_of_getLsbD_eq fun i hi => ?_
  rw [BitVec.getLsbD_or]
  rcases Nat.lt_succ_iff_lt_or_eq.mp hi with hlt | rfl
  · rw [hmask ⟨i, hlt⟩, Bool.or_false]
  · rw [show w.getLsbD 15 = true from h, Bool.true_or]

theorem exec_camSetEdge {a : Args} (s : State) (h : bit a.a0 15 = false) : exec (.camSetEdge a) s = .next (mboxRow 0x09 cmdCamSet a s) := by
  change Host.Outcome.next (mboxRow 0x09 cmdCamSet { a with a0 := a.a0 &&& 0x7FFF } s) = _
  rw [and_low15 h]

theorem exec_camSetHeader {a : Args} (s : State) (h : bit a.a0 15 = true) : exec (.camSetHeader a) s = .next (mboxRow 0x09 cmdCamSet a s) := by
  change Host.Outcome.next (mboxRow 0x09 cmdCamSet { a with a0 := a.a0 ||| 0x8000 } s) = _
  rw [or_bit15 h]

/-- The edge form stages one edge (R62). -/
theorem cmdCamSet_edge {a : Args} {s : State} (hform : bit a.a0 15 = false) (h0 : within a.a0 0x7F = true) (h2 : within a.a2 0xF = true)
    (hang : a.a1.toNat + 65536 * a.a2.toNat < cycC s.wheel.cfg) :
    cmdCamSet a s = { st := { s with cams := vupd s.cams (camNo (fld a.a0 0 2)) fun x => { x with staged := vput x.staged (fld a.a0 2 4) (some ⟨bit a.a0 6, a.a1.toNat + 65536 * a.a2.toNat⟩) } } } := by
  unfold cmdCamSet
  rw [if_neg (by simp [hform])]
  exact checked_ok _ _ s _ (by simp [h0, h2]) (by simp [hang])

/-- A tolerance fits its seven bits. -/
theorem within_low7 {w : Word} (h : w.toNat ≤ 90) : within w 0x7F = true := by
  have hall : ∀ n : Fin 91, within (BitVec.ofNat 16 n.val) 0x7F = true := by decide
  have hw := hall ⟨w.toNat, by omega⟩
  rwa [BitVec.ofNat_toNat, BitVec.setWidth_eq] at hw

/-- The header form, when its arguments and checks hold (R62, R441). -/
theorem cmdCamSet_header {a : Args} {s : State} (hform : bit a.a0 15 = true) (h0 : within a.a0 0x87FF = true) (hmode : fld a.a0 3 2 ≠ 3)
    (hlo : 1 ≤ a.a1.toNat) (hhi : a.a1.toNat ≤ 90) (hchecks : (camChecks a s).all id = true) :
    cmdCamSet a s = { st := if bit a.a0 10 then applyCam a s else s } := by
  unfold cmdCamSet
  rw [if_pos hform]
  exact checked_ok _ _ s _ (by simp [h0, hmode, within_low7 hhi, hlo, hhi]) hchecks

/-- The applied pattern; the other cams stay (R62). -/
theorem applyCam_cams (a : Args) (s : State) :
    (applyCam a s).cams = vupd s.cams (camNo (fld a.a0 0 2)) fun x => camOf a ((stagedEdges x (fld a.a0 6 4 + 1)).getD []) x := by
  have hin : (if s.cams[camNo (fld a.a0 0 2)].sync || bit a.a0 5 then input 12 s else s).cams = s.cams := by
    split
    · exact changeSync_cams _ _ _
    · rfl
  unfold applyCam
  dsimp only
  rw [updWheel_cams, hin]

/-- A new sync cam restarts the decoder (R62). -/
theorem applyCam_st {a : Args} (s : State) (h : bit a.a0 5 = true) : (applyCam a s).wheel.st = .nosync := by
  unfold applyCam
  dsimp only
  rw [if_pos (by simp [h]), input_reset]
  exact changeSync_st _ _ _

theorem camSetEdge_accepted (a : Args) (s : State) (hf : mboxFree s = true) (ha : admitted 0x09 a s = true) (hform : bit a.a0 15 = false)
    (h0 : within a.a0 0x7F = true) (h2 : within a.a2 0xF = true) (hang : a.a1.toNat + 65536 * a.a2.toNat < cycC s.wheel.cfg) :
    ∃ t, exec (.camSetEdge a) s = .next t ∧ answered t 0 0 0 ∧
      t.cams = vupd s.cams (camNo (fld a.a0 0 2)) (fun x => { x with staged := vput x.staged (fld a.a0 2 4) (some ⟨bit a.a0 6, a.a1.toNat + 65536 * a.a2.toNat⟩) }) ∧
      { t with mbox := s.mbox, bus := s.bus, cams := s.cams } = s := by
  obtain ⟨hans, m, b, hrow⟩ := mboxRow_completes hf ha (cmdCamSet_edge (s := started 0x09 a s) hform h0 h2 hang) rfl
  refine ⟨_, exec_camSetEdge s hform, hans, ?_⟩
  rw [hrow]
  exact ⟨rfl, rfl⟩

theorem camSetHeader_checked (a : Args) (s : State) (hf : mboxFree s = true) (ha : admitted 0x09 a s = true) (hform : bit a.a0 15 = true)
    (happly : bit a.a0 10 = false) (h0 : within a.a0 0x87FF = true) (hmode : fld a.a0 3 2 ≠ 3) (hlo : 1 ≤ a.a1.toNat) (hhi : a.a1.toNat ≤ 90)
    (hchecks : (camChecks a s).all id = true) :
    ∃ t, exec (.camSetHeader a) s = .next t ∧ answered t 0 0 0 ∧ { t with mbox := s.mbox, bus := s.bus } = s := by
  have hop := cmdCamSet_header (s := started 0x09 a s) hform h0 hmode hlo hhi hchecks
  rw [if_neg (by simp [happly])] at hop
  exact ⟨_, exec_camSetHeader s hform, mboxRow_refuses hf ha hop⟩

theorem camSetHeader_applied (a : Args) (s : State) (hf : mboxFree s = true) (ha : admitted 0x09 a s = true) (hform : bit a.a0 15 = true)
    (happly : bit a.a0 10 = true) (h0 : within a.a0 0x87FF = true) (hmode : fld a.a0 3 2 ≠ 3) (hlo : 1 ≤ a.a1.toNat) (hhi : a.a1.toNat ≤ 90)
    (hchecks : (camChecks a s).all id = true) :
    ∃ t, exec (.camSetHeader a) s = .next t ∧ answered t 0 0 0 ∧
      t.cams = vupd s.cams (camNo (fld a.a0 0 2)) (fun x => camOf a ((stagedEdges x (fld a.a0 6 4 + 1)).getD []) x) ∧
      (bit a.a0 5 = true → t.wheel.st = .nosync) ∧ t.chan = s.chan ∧ t.store = s.store ∧ t.pending = s.pending := by
  have hop := cmdCamSet_header (s := started 0x09 a s) hform h0 hmode hlo hhi hchecks
  rw [if_pos happly] at hop
  have hbut := applyCam_but a (started 0x09 a s)
  obtain ⟨hans, m, b, hrow⟩ := mboxRow_completes hf ha hop (mbox_of_but rfl hbut)
  refine ⟨_, exec_camSetHeader s hform, hans, ?_⟩
  rw [hrow]
  exact ⟨applyCam_cams a _, applyCam_st _, (chan_of_but rfl hbut :), (store_of_but rfl hbut :), (pending_of_but rfl hbut :)⟩

/-- Settles O27: WHEEL_SET by its checks in their order, and CAM_SET by its two forms. -/
theorem wheelCommands : Obligations.WheelCommands :=
  ⟨wheelSet_accepted, wheelSet_check1, wheelSet_check3, wheelSet_badArg, camSetEdge_accepted, camSetHeader_checked, camSetHeader_applied⟩

/-! ### SYNC_POLICY, DIR_SET and LEARN_CTL (R63, R64, R83) -/

/-- Outside LIMP an accepted policy waits for the next crank tooth edge, and does nothing else (R63). -/
theorem applyPolicy_waits {a : Args} {s : State} (hst : s.wheel.st ≠ .limp) :
    applyPolicy a s = updWheel (fun w => { w with polNext := some (policyOf a), args := { w.args with policy := a } }) s := by
  unfold applyPolicy
  dsimp only
  rw [if_neg (by simp [hst])]

theorem syncPolicy_accepted (a : Args) (s : State) (hf : mboxFree s = true) (ha : admitted 0x0A a s = true) (hargs : policyArgsOk a = true)
    (hlimp : (policyOf a).limpen = false) (hst : s.wheel.st ≠ .limp) :
    ∃ t, exec (.syncPolicy a) s = .next t ∧ answered t 0 0 0 ∧
      t.wheel = { s.wheel with polNext := some (policyOf a), args := { s.wheel.args with policy := a } } ∧
      { t with mbox := s.mbox, bus := s.bus, wheel := s.wheel } = s := by
  have hop : cmdSyncPolicy a (started 0x0A a s) = { st := applyPolicy a (started 0x0A a s) } := checked_ok _ _ _ _ hargs (by simp [hlimp])
  rw [applyPolicy_waits (s := started 0x0A a s) hst] at hop
  obtain ⟨hans, m, b, hrow⟩ := mboxRow_completes hf ha hop rfl
  refine ⟨mboxRow 0x0A cmdSyncPolicy a s, rfl, hans, ?_⟩
  rw [hrow]
  exact ⟨rfl, rfl⟩

/-- LIMPEN needs a limp-capable sync cam (R63). -/
theorem cmdSyncPolicy_check1 {a : Args} {s : State} (hargs : policyArgsOk a = true) (hlimp : (policyOf a).limpen = true) (hcam : syncCam s = none) :
    cmdSyncPolicy a s = checkFail 1 s :=
  checked_fails _ _ _ 1 hargs (firstFail_first _ (by simp [hlimp, hcam]))

theorem syncPolicy_refused (a : Args) (s : State) (hf : mboxFree s = true) (ha : admitted 0x0A a s = true) (hargs : policyArgsOk a = true)
    (hlimp : (policyOf a).limpen = true) (hcam : syncCam s = none) :
    ∃ t, exec (.syncPolicy a) s = .next t ∧ answered t 0x17 1 0 ∧ { t with mbox := s.mbox, bus := s.bus } = s :=
  ⟨_, rfl, mboxRow_refuses hf ha (cmdSyncPolicy_check1 (s := started 0x0A a s) hargs hlimp hcam)⟩

theorem dirSet_accepted (a : Args) (s : State) (hf : mboxFree s = true) (ha : admitted 0x0B a s = true) (h0 : within a.a0 3 = true) (h1 : a.a1 ≠ 0) :
    ∃ t, exec (.dirSet a) s = .next t ∧ answered t 0 0 0 ∧ t.wheel.st = .nosync ∧ t.wheel.dirPulse = bit a.a0 0 ∧
      t.wheel.sense = bit a.a0 1 ∧ t.wheel.thresh = a.a1.toNat ∧ t.wheel.pulse = none ∧ t.wheel.cfg = s.wheel.cfg ∧ t.chan = s.chan ∧
      t.store = s.store ∧ t.pending = s.pending := by
  have hop : cmdDirSet a (started 0x0B a s) = { st := applyDir a (started 0x0B a s) } := checked_ok _ _ _ _ (by simpa [h0] using h1) rfl
  have hbut := applyDir_but a (started 0x0B a s)
  obtain ⟨hans, m, b, hrow⟩ := mboxRow_completes hf ha hop (mbox_of_but rfl hbut)
  refine ⟨mboxRow 0x0B cmdDirSet a s, rfl, hans, ?_⟩
  rw [hrow]
  refine ⟨?_, rfl, rfl, rfl, rfl, ?_, (chan_of_but rfl hbut :), (store_of_but rfl hbut :), (pending_of_but rfl hbut :)⟩
  · simp [applyDir, input_reset]
  · simp [applyDir, input_reset, started]

/-- An entry of the mapped table is the function of the old one. -/
theorem vmapi_getElem {α β : Type} {n : Nat} (f : Fin n → α → β) (v : Vector α n) (i : Fin n) : (vmapi f v)[i] = f i v[i] := by
  simp [vmapi]

/-- The arguments of LEARN_CTL lie in their ranges (R83, R455). -/
theorem cmdLearnCtl_ok {a : Args} {s : State} (h0 : within a.a0 0xFF1F = true) (hmode : fld a.a0 0 2 < 3) (hcyc : fld a.a0 8 8 ≠ 0)
    (h1 : within a.a1 0xFF1F = true) (hblend : fld a.a1 0 5 ≠ 0) (hblend' : fld a.a1 0 5 ≤ 16) (hsteady : fld a.a1 8 8 ≠ 0)
    (h2 : within a.a2 0x7FFF = true) (hres : a.a2 ≠ 0) : cmdLearnCtl a s = { st := applyLearn a s } := by
  unfold cmdLearnCtl
  exact checked_ok _ _ s _ (by simpa [h0, h1, h2, Nat.ne_of_lt hmode, hcyc, hblend, hblend', hsteady] using hres) rfl

theorem learnCtl_accepted (a : Args) (s : State) (hf : mboxFree s = true) (ha : admitted 0x32 a s = true) (h0 : within a.a0 0xFF1F = true)
    (hmode : fld a.a0 0 2 < 3) (hcyc : fld a.a0 8 8 ≠ 0) (h1 : within a.a1 0xFF1F = true) (hblend : fld a.a1 0 5 ≠ 0)
    (hblend' : fld a.a1 0 5 ≤ 16) (hsteady : fld a.a1 8 8 ≠ 0) (h2 : within a.a2 0x7FFF = true) (hres : a.a2 ≠ 0) :
    ∃ t, exec (.learnCtl a) s = .next t ∧ answered t 0 0 0 ∧
      t.geom.learn.mode = fld a.a0 0 2 ∧ t.geom.learn.cycles = fld a.a0 8 8 ∧ t.geom.learn.blend = fld a.a1 0 5 ∧ t.geom.learn.steady = fld a.a1 8 8 ∧
      t.geom.learn.resth = a.a2.toNat ∧ t.geom.learn.resrep = bit a.a0 2 ∧ t.geom.learn.counted = 0 ∧ t.geom.learn.sums = Vector.replicate 256 0 ∧
      (∀ p : Fin 256, (t.geom.e[p]).act = (s.geom.e[p]).act ∧ (t.geom.e[p]).shd = (if bit a.a0 3 then 0 else (s.geom.e[p]).shd) ∧
        (t.geom.e[p]).rmax = (if bit a.a0 4 then 0 else (s.geom.e[p]).rmax)) ∧
      { t with mbox := s.mbox, bus := s.bus, wheel := s.wheel, geom := s.geom } = s := by
  have hop := cmdLearnCtl_ok (s := started 0x32 a s) h0 hmode hcyc h1 hblend hblend' hsteady h2 hres
  obtain ⟨hans, m, b, hrow⟩ := mboxRow_completes hf ha hop rfl
  refine ⟨mboxRow 0x32 cmdLearnCtl a s, rfl, hans, ?_⟩
  rw [hrow]
  refine ⟨rfl, rfl, rfl, rfl, rfl, rfl, rfl, rfl, fun p => ?_, rfl⟩
  unfold applyLearn
  dsimp only
  rw [vmapi_getElem]
  exact ⟨rfl, rfl, rfl⟩

/-- Settles O28: SYNC_POLICY accepted and refused, DIR_SET, and LEARN_CTL field by field. -/
theorem decoderCommands : Obligations.DecoderCommands :=
  ⟨syncPolicy_accepted, syncPolicy_refused, dirSet_accepted, learnCtl_accepted⟩

/-! ### A gap found in LIMP (R46, R51, R72) -/

/-- With a started predictor the limp angle is the predictor's alone (R76). -/
theorem limpHalf_started {s t : State} {stamp : Tb} (hs : s.wheel.st = .limp) (hb : s.wheel.bare = false) (hst : t.wheel.st = s.wheel.st)
    (hbare : t.wheel.bare = s.wheel.bare) (hcfg : t.wheel.cfg = s.wheel.cfg) (hpred : t.pred = s.pred) : limpHalf t stamp = limpHalf s stamp := by
  simp [limpHalf, localAng16, hs, hb, hst, hbare, hcfg, hpred]

/-- The predictor starts at position 1 in a half (R72). -/
def gapStart (stamp : Tb) (per h : Nat) (s : State) : State :=
  let u := updWheel (fun w => { w with pos := 1, half := h, tPrev := some stamp, lastP := per, lastG := 1, badRun := 0, syncnt := 0, periods := [], limpHist := [], bare := false }) s
  let b := beginPred (predStart s.wheel.cfg per (toothIn u stamp 1 h)) u
  learnLost { b with spd := some b.pred.uk }

theorem gapStart_wheel (stamp : Tb) (per h : Nat) (s : State) : (gapStart stamp per h s).wheel =
    { s.wheel with pos := 1, half := h, tPrev := some stamp, lastP := per, lastG := 1, badRun := 0, syncnt := 0, periods := [], limpHist := [], bare := false } := rfl

theorem gapStart_tk (stamp : Tb) (per h : Nat) (s : State) : (gapStart stamp per h s).pred.tk = stamp := rfl

theorem gapStart_but (stamp : Tb) (per h : Nat) (s : State) : but 244 (gapStart stamp per h s) = but 244 s := rfl

/-- In the half near the limp angle the gap leads straight into CONFIRM (R46, R72; log 16). -/
theorem gapFound_limp {stamp : Tb} {per hf : Nat} {s : State} (hst : s.wheel.st = .limp) (hhalf : limpHalf s stamp = some hf) :
    gapFound stamp per true s =
      sendRecord false true stamp 1 (predHalf (changeSync .confirm 2 (gapStart stamp per hf s))) (changeSync .confirm 2 (gapStart stamp per hf s)) := by
  simp [gapFound, gapStart, hst, hhalf]

/-- An edge of the search with the periods that it leaves (R37). -/
def searched (stamp : Tb) (ps : List Nat) (s : State) : State :=
  updWheel (fun w => { w with tPrev := some stamp, periods := ps, lastP := ps.head?.getD 0, lastG := 1, tFine := some stamp }) s

/-- A long period between two short ones ends the search in LIMP (R37). -/
theorem searchEdge_limp {stamp t0 : Tb} {p1 p0 : Nat} {r : List Nat} {s : State} (hst : s.wheel.st = .limp) (hprev : s.wheel.tPrev = some t0)
    (hfine : s.wheel.tFine = some t0) (hper : s.wheel.periods = p1 :: p0 :: r) (hn : isNative s = true) (hslow : 300000 ≤ tbSince t0 stamp * s.wheel.cfg.n)
    (h0 : 7 * (s.wheel.cfg.m + 1) * p0 ≤ 10 * p1) (h2 : 7 * (s.wheel.cfg.m + 1) * tbSince t0 stamp ≤ 10 * p1) :
    searchEdge stamp true s = gapFound stamp (tbSince t0 stamp) true (searched stamp [tbSince t0 stamp, p1, p0] s) := by
  have hspeed : tooFast s (tbSince t0 stamp) 1 = false := by simp [tooFast, speedLimit, hn, hslow]
  have hpace : searchPace (tbSince t0 stamp) s = s := by simp [searchPace, hst]
  have hperiods : searchPeriods stamp true s.wheel = [tbSince t0 stamp, p1, p0] := by simp [searchPeriods, hprev, hfine, hper]
  have hgap : gapConfirmed s.wheel.cfg.m [tbSince t0 stamp, p1, p0] = true := by simp [gapConfirmed, h0, h2]
  unfold searchEdge
  rw [hfine]
  dsimp only
  rw [hpace, hspeed]
  simp [hperiods, hgap, searched]

/-- A tooth edge that ends the search in LIMP, judged (R46, R72). -/
theorem judgeEdge_limp {stamp t0 : Tb} {p1 p0 hf : Nat} {r : List Nat} {s : State} (hbare : s.wheel.bare = false) (hst : s.wheel.st = .limp)
    (hprev : s.wheel.tPrev = some t0) (hfine : s.wheel.tFine = some t0) (hper : s.wheel.periods = p1 :: p0 :: r) (hn : isNative s = true)
    (hslow : 300000 ≤ tbSince t0 stamp * s.wheel.cfg.n) (h0 : 7 * (s.wheel.cfg.m + 1) * p0 ≤ 10 * p1)
    (h2 : 7 * (s.wheel.cfg.m + 1) * tbSince t0 stamp ≤ 10 * p1) (hhalf : limpHalf s stamp = some hf) :
    let t := judgeEdge stamp true s
    t.wheel.st = .confirm ∧ t.wheel.confcnt = 0 ∧ t.wheel.pos = 1 ∧ t.wheel.half = hf ∧ t.wheel.dirPulse = s.wheel.dirPulse ∧ t.pred.tk = stamp ∧
      bit t.bus.intstat 1 = true ∧ but 573573116 t = but 573573116 s := by
  have hw := searchEdge_limp hst hprev hfine hper hn hslow h0 h2
  have hwst : (searched stamp [tbSince t0 stamp, p1, p0] s).wheel.st = .limp := hst
  have hwdir : (searched stamp [tbSince t0 stamp, p1, p0] s).wheel.dirPulse = s.wheel.dirPulse := rfl
  have hwnat : isNative (searched stamp [tbSince t0 stamp, p1, p0] s) = true := hn
  have hwbut : but 4 (searched stamp [tbSince t0 stamp, p1, p0] s) = but 4 s := updWheel_but _ s
  have hwhalf : limpHalf (searched stamp [tbSince t0 stamp, p1, p0] s) stamp = some hf := by
    rw [← hhalf]
    exact limpHalf_started hst hbare rfl rfl rfl rfl
  generalize searched stamp [tbSince t0 stamp, p1, p0] s = w at *
  have hjudge : judgeEdge stamp true s = searchEdge stamp true s := by simp [judgeEdge, hst]
  have hgbut := gapStart_but stamp (tbSince t0 stamp) hf w
  have hg := gapStart_wheel stamp (tbSince t0 stamp) hf w
  have htk := gapStart_tk stamp (tbSince t0 stamp) hf w
  have hgnat : isNative (gapStart stamp (tbSince t0 stamp) hf w) = true := hwnat
  rw [hw, gapFound_limp hwst hwhalf] at hjudge
  generalize gapStart stamp (tbSince t0 stamp) hf w = g at *
  have hother : g.wheel.st ≠ .confirm := by rw [hg]; simp [hwst]
  have hsend := sendRecord_but false true stamp 1 (predHalf (changeSync .confirm 2 g)) (changeSync .confirm 2 g)
  have hwheel : (judgeEdge stamp true s).wheel = (entered .confirm g).wheel := by
    rw [hjudge, wheel_of_but rfl hsend, changeSync_wheel 2 hother]
  have hpred : (judgeEdge stamp true s).pred = g.pred := by
    rw [hjudge, pred_of_but rfl hsend, changeSync_pred 2 hother]
    rfl
  dsimp only
  rw [hwheel, hpred]
  refine ⟨rfl, rfl, ?_, ?_, ?_, htk, ?_, ?_⟩
  · rw [show (entered .confirm g).wheel.pos = g.wheel.pos from rfl, hg]
  · rw [show (entered .confirm g).wheel.half = g.wheel.half from rfl, hg]
  · rw [show (entered .confirm g).wheel.dirPulse = g.wheel.dirPulse from rfl, hg, hwdir]
  · rw [hjudge, bus_of_but rfl hsend]
    exact changeSync_int 2 hgnat hother
  · rw [hjudge]
    exact (but_le (by decide) hsend).trans ((but_le (by decide) (changeSync_but .confirm 2 g)).trans
      ((but_le (by decide) hgbut).trans (but_le (by decide) hwbut)))

/-- A fine tooth edge that the decoder takes with no policy waiting, no stall and no direction coding is judged, and the stall time
restarts (R50). -/
theorem exec_crankToothEdge {stamp : Tb} {s : State} (hlive : wheelLive s = true) (hp : crankPasses stamp s = true) (hfine : s.sys.coarse = false)
    (hpol : s.wheel.polNext = none) (hpulse : s.wheel.pulse = none) (hstall : s.wheel.stallF = false) :
    let u := updWheel (fun w => { w with stallFrom := some stamp }) (crankPut (!s.wheel.cfg.edge) stamp s)
    (judgeEdge stamp true u).wheel.dirPulse = false → exec (.crankToothEdge stamp) s = .next (judgeEdge stamp true u) := by
  intro u hdir
  have hnote : noteEdge stamp (crankPut (!s.wheel.cfg.edge) stamp s) = u := by
    simp [noteEdge, takePolicy, crankPut, updWheel, hpol, hstall, u]
  change Host.Outcome.next (crankRow true stamp s) = _
  rw [crankRow_passes hp (by simp [captureOn, hfine]), if_pos hlive]
  have htake : takeTooth stamp (crankPut (!s.wheel.cfg.edge) stamp s) = toothEdge stamp true (crankPut (!s.wheel.cfg.edge) stamp s) := by
    simp [takeTooth, countCoarse, crankPut, hfine]
  have hpulse' : u.wheel.pulse = none := hpulse
  simp only [crankEdge, Bool.true_bne]
  rw [if_pos (by simp [crankPut]), htake]
  unfold toothEdge
  rw [hnote]
  dsimp only
  rw [hpulse']
  dsimp only
  rw [if_neg (by simp [hdir])]

/-- The clause of `Obligations.CrankEdges` on a gap found in LIMP holds where `bare` is 0, as the entry into NOSYNC leaves it,
from which R51 enters LIMP. -/
theorem crankToothEdge_limp (stamp t0 : Tb) (p1 p0 hf : Nat) (r : List Nat) (s : State) (hbare : s.wheel.bare = false) (hlive : wheelLive s = true)
    (hn : isNative s = true) (hp : crankPasses stamp s = true) (hfine : s.sys.coarse = false) (hpol : s.wheel.polNext = none) (hpulse : s.wheel.pulse = none)
    (hdir : s.wheel.dirPulse = false) (hst : s.wheel.st = .limp) (hstall : s.wheel.stallF = false) (hprev : s.wheel.tPrev = some t0)
    (htfine : s.wheel.tFine = some t0) (hper : s.wheel.periods = p1 :: p0 :: r) (hslow : 300000 ≤ tbSince t0 stamp * s.wheel.cfg.n)
    (h0 : 7 * (s.wheel.cfg.m + 1) * p0 ≤ 10 * p1) (h2 : 7 * (s.wheel.cfg.m + 1) * tbSince t0 stamp ≤ 10 * p1) (hhalf : limpHalf s stamp = some hf) :
    ∃ t, exec (.crankToothEdge stamp) s = .next t ∧ t.wheel.st = .confirm ∧ t.wheel.confcnt = 0 ∧ t.wheel.pos = 1 ∧
      t.wheel.half = hf ∧ t.pred.tk = stamp ∧ bit t.bus.intstat 1 = true ∧ t.chan = s.chan ∧ t.store = s.store ∧ t.mbox = s.mbox ∧ t.pending = s.pending := by
  obtain ⟨hconf, hcnt, hpos, hh, hd, htk, hint, hbut⟩ :=
    judgeEdge_limp (s := updWheel (fun w => { w with stallFrom := some stamp }) (crankPut (!s.wheel.cfg.edge) stamp s))
      hbare hst hprev htfine hper hn hslow h0 h2 ((limpHalf_started hst hbare rfl rfl rfl rfl).trans hhalf)
  have hexec := exec_crankToothEdge hlive hp hfine hpol hpulse hstall (by rw [hd]; exact hdir)
  exact ⟨_, hexec, hconf, hcnt, hpos, hh, htk, hint, (chan_of_but rfl hbut :), (store_of_but rfl hbut :), (mbox_of_but rfl hbut :), (pending_of_but rfl hbut :)⟩

/-- LIMP with `bare` set, one period of a wheel of eight positions after the tooth at position 0. -/
def bareLimp : State :=
  { State.reset with
    sys := { boot := 5 }
    clk := { fclkOn := true, tb := 1000000 }
    wheel := { cfgd := true, cfg := { n := 8, m := 1 }, st := .limp, bare := true, tPrev := some 900000, tFine := some 900000, periods := [300000, 100000], lastP := 100000 } }

/-- Before the edge the angle carried on from the previous tooth lies near position 1 in half 0. -/
theorem bareLimp_near : limpHalf bareLimp 1000000 = some 0 := by decide

/-- The edge becomes the previous tooth before the gap asks for the half: the angle has not been carried on from it, no half lies
near, and the gap leads into GAP. -/
theorem bareLimp_gap : (crankRow true 1000000 bareLimp).wheel.st = .gap := by decide

/-- Refutes O23: its clause on a gap found in LIMP does not ask for `bare` to be 0. With `bare` set the limp angle comes from the
previous tooth, which the edge itself replaces, so that a half near before the edge is near no more and LIMP becomes GAP, not
CONFIRM. `crankToothEdge_limp` proves the clause with `bare` 0. -/
theorem not_crankEdges : ¬ Obligations.CrankEdges := by
  rintro ⟨-, -, -, -, -, -, -, hlimp, -⟩
  obtain ⟨t, ht, hst, -⟩ := hlimp 1000000 900000 300000 100000 0 [] bareLimp (by decide) (by decide) (by decide) rfl rfl rfl rfl rfl rfl rfl rfl rfl
    (by decide) (by decide) (by decide) bareLimp_near
  obtain rfl : crankRow true 1000000 bareLimp = t := Host.Outcome.next.inj ht
  rw [bareLimp_gap] at hst
  cases hst

end Sys2Proof.Machine

/-! The accesses of the host bus (R404, R412, R418, R419, R424, R427): when a row of the bus is its access, and what the registers
and the window access do. -/

namespace Sys2Proof.Machine

/-! ### A row of the host bus (R355, R513) -/

theorem hostBus_iff {s : State} : hostBus s = true ↔ s.sys.pwr = .run ∧ s.sys.vddioa = true := by
  simp [hostBus]

/-- A supplied bus in RUN makes the row its access. -/
theorem hostRow_hostBus {s : State} (i : Instr) (f : State → State) (h : hostBus s = true) : hostRow i f s = f s := by
  obtain ⟨hrun, hv⟩ := hostBus_iff.mp h
  exact hostRow_run i f hrun hv

/-- Without VDDIOA no access takes place (R513). -/
theorem hostRow_unsupplied {s : State} (i : Instr) (f : State → State) (h : s.sys.vddioa = false) : hostRow i f s = s := by
  simp [hostRow, h]

/-- RDY holds the row back and the wake is asked for (R355). -/
theorem hostRow_held {s : State} (i : Instr) (f : State → State) (h : rdyHeld s = true) : hostRow i f s = holdRows [i] s := by
  have hv : s.sys.vddioa = true := by
    simp only [rdyHeld, csWakes, Bool.and_eq_true] at h
    obtain ⟨⟨⟨-, hv⟩, -⟩, -⟩ := h
    exact hv
  simp [hostRow, hv, h]

/-- In RUN a row whose access changes nothing changes nothing, with or without VDDIOA. -/
theorem hostRow_noop {s : State} (i : Instr) {f : State → State} (hrun : s.sys.pwr = .run) (hf : f s = s) : hostRow i f s = s := by
  cases hv : s.sys.vddioa with
  | false => exact hostRow_unsupplied i f hv
  | true => rw [hostRow_run i f hrun hv, hf]

/-- A read while registers answer gives its word and has its side effect (R323). -/
theorem hostRead_answered {s : State} (i : Instr) (f : State → Word × State) (h : hostBus s = true) (hu : busUp s = true) :
    hostRead i f s = putData (f s).1 (f s).2 := by
  rw [hostRead, hostRow_hostBus i _ h, readIf_answered f s hu]

/-- A read while no register answers gives 0x0000 alone (R323, R344). -/
theorem hostRead_silent {s : State} (i : Instr) (f : State → Word × State) (h : hostBus s = true) (hu : busUp s = false) :
    hostRead i f s = putData 0 s := by
  rw [hostRead, hostRow_hostBus i _ h, readIf_silent f s hu]

/-! ### Register writes (R404, R410, R412) -/

/-- A native write is a row of the bus at the even address (R404). -/
theorem opHostWrite_native {s : State} (a : BitVec 8) (w : Word) (h : isNative s = true) :
    opHostWrite a w s = hostRow (.registerWrite a w) (writeReg .host (regAddr a) w) s :=
  if_pos h

/-- Without VDDIOA a write of either face has no effect (R513). -/
theorem opHostWrite_unsupplied {s : State} (a : BitVec 8) (w : Word) (h : s.sys.vddioa = false) : opHostWrite a w s = s := by
  unfold opHostWrite
  split
  · exact hostRow_unsupplied _ _ h
  · simp [legDo, h]

/-- A write that takes place writes the register at the even address. -/
theorem exec_registerWrite {s : State} (a : BitVec 8) (w : Word) (hb : hostBus s = true) (hn : isNative s = true) :
    exec (.registerWrite a w) s = .next (writeReg .host (regAddr a) w s) := by
  change Host.Outcome.next (opHostWrite a w s) = _
  rw [opHostWrite_native a w hn, hostRow_hostBus _ _ hb]

/-- A write that does not reach its register has no effect (R260, R342). -/
theorem writeReg_closed {p : Path} {a : Nat} {w : Word} {s : State} (h : regOpen s a = false) : writeReg p a w s = s := by
  simp [writeReg, h]

theorem exec_registerWrite_closed {s : State} (a : BitVec 8) (w : Word) (hrun : s.sys.pwr = .run) (hn : isNative s = true)
    (hc : regOpen s (regAddr a) = false) : exec (.registerWrite a w) s = .next s := by
  change Host.Outcome.next (opHostWrite a w s) = _
  rw [opHostWrite_native a w hn, hostRow_noop _ hrun (writeReg_closed hc)]

/-- In the boot window the registers outside the list of R342 are closed. -/
theorem regOpen_boot {s : State} {a : Nat} (hboot : s.sys.boot < 5) (ha : bootWrites.contains a = false) : regOpen s a = false := by
  have hlate : decide (5 ≤ s.sys.boot) = false := decide_eq_false (by omega)
  rw [regOpen, hlate, ha, Bool.or_false, Bool.and_false, Bool.false_and]

/-- In the safe state the registers outside the list of R260 are closed. -/
theorem regOpen_safe {s : State} {a : Nat} (hsafe : s.flt.safe = true) (ha : safeWrites.contains a = false) : regOpen s a = false := by
  rw [regOpen, hsafe, ha, Bool.not_true, Bool.or_false, Bool.and_false]

theorem writeReg_intstat {p : Path} {w : Word} {s : State} (h : regOpen s 0x2E = true) : writeReg p 0x2E w s = clearInts w s := by
  simp [writeReg, h]

theorem writeReg_inten {p : Path} {w : Word} {s : State} (h : regOpen s 0x30 = true) :
    writeReg p 0x30 w s = { s with bus := { s.bus with inten := w &&& 0x1FFF } } := by
  simp [writeReg, h]

theorem writeReg_winsel {w : Word} {s : State} (h : regOpen s 0x28 = true) :
    writeReg .host 0x28 w s = { s with bus := { s.bus with winsel := w &&& 0x00FF } } := by
  simp [writeReg, h, writePointer]

theorem writeReg_winadr {w : Word} {s : State} (h : regOpen s 0x2A = true) :
    writeReg .host 0x2A w s = { s with bus := { s.bus with winadr := w } } := by
  simp [writeReg, h, writePointer]

theorem writeReg_windat {p : Path} {w : Word} {s : State} (h : regOpen s 0x2C = true) : writeReg p 0x2C w s = writeWindat p w s := by
  simp [writeReg, h]

/-! ### The window access (R418 to R420) -/

/-- GEOM, FSRC and SHADOW are read-only (R420). -/
theorem writeWin_readOnly {space : Nat} (p : Path) (off : Nat) (w : Word) (s : State) (h : space = 4 ∨ space = 5 ∨ space = 8) :
    writeWin p space off w s = s := by
  unfold writeWin
  obtain rfl | rfl | rfl := h <;> exact ite_self s

/-- A write of WINDAT to a read-only space moves only the pointer (R419). -/
theorem writeWindat_readOnly {w : Word} {s : State} (h : fld s.bus.winsel 0 8 = 4 ∨ fld s.bus.winsel 0 8 = 5 ∨ fld s.bus.winsel 0 8 = 8) :
    writeWindat .host w s = { s with bus := { s.bus with winadr := s.bus.winadr + 1 } } := by
  rw [writeWindat, writeWin_readOnly _ _ _ _ h]
  rfl

/-- The severity table stands in the first 48 words of FSRC (R268). -/
theorem readFsrc_severity {off : Nat} (p : Path) (s : State) (h : off < 48) :
    readFsrc p off s = (w16 (vget s.flt.sev off 0 + b2n (vget s.flt.ring off false) 3), s) :=
  if_pos h

theorem exec_windatRead {s : State} (hb : hostBus s = true) (hu : busUp s = true) :
    exec .windatRead s = .next (putData (readWindat .host s).1 (readWindat .host s).2) :=
  congrArg Host.Outcome.next (hostRead_answered _ _ hb hu)

/-- A read of WINDAT whose word changes nothing moves only the pointer (R419). -/
theorem exec_windatRead_pure {s : State} {v : Word} (hb : hostBus s = true) (hu : busUp s = true)
    (hr : readWin .host (fld s.bus.winsel 0 8) s.bus.winadr.toNat s = (v, s)) :
    exec .windatRead s = .next { s with bus := { s.bus with data := v, winadr := s.bus.winadr + 1 } } := by
  rw [exec_windatRead hb hu, readWindat, hr]
  rfl

/-! ### The clauses of `Obligations.BusAccesses` -/

/-- A write of INTSTAT clears, but for a condition of the same tick (R424). -/
theorem interruptClear_clears (w : Word) (s : State) (hb : hostBus s = true) (ho : regOpen s 0x2E = true) :
    exec (.interruptClear w) s = .next { s with bus := { s.bus with intstat := s.bus.intstat &&& ~~~(w &&& ~~~freshInts s) } } := by
  change Host.Outcome.next (hostRow (.interruptClear w) (writeReg .host 0x2E w) s) = _
  rw [hostRow_hostBus _ _ hb, writeReg_intstat ho, clearInts]

theorem registerWrite_inten (w : Word) (s : State) (hb : hostBus s = true) (ho : regOpen s 0x30 = true) (hn : isNative s = true) :
    exec (.registerWrite 0x30 w) s = .next { s with bus := { s.bus with inten := w &&& 0x1FFF } } := by
  rw [exec_registerWrite _ w hb hn]
  exact congrArg Host.Outcome.next (writeReg_inten ho)

/-- AD0 is ignored: the odd address writes WINADR (R404). -/
theorem registerWrite_winadr (w : Word) (s : State) (hb : hostBus s = true) (ho : regOpen s 0x2A = true) (hn : isNative s = true) :
    exec (.registerWrite 0x2B w) s = .next { s with bus := { s.bus with winadr := w } } := by
  rw [exec_registerWrite _ w hb hn]
  exact congrArg Host.Outcome.next (writeReg_winadr ho)

theorem registerWrite_winsel (w : Word) (s : State) (hb : hostBus s = true) (ho : regOpen s 0x28 = true) (hn : isNative s = true) :
    exec (.registerWrite 0x28 w) s = .next { s with bus := { s.bus with winsel := w &&& 0x00FF } } := by
  rw [exec_registerWrite _ w hb hn]
  exact congrArg Host.Outcome.next (writeReg_winsel ho)

theorem registerWrite_windat_readOnly (w : Word) (s : State) (hb : hostBus s = true) (ho : regOpen s 0x2C = true) (hn : isNative s = true)
    (hsel : fld s.bus.winsel 0 8 = 4 ∨ fld s.bus.winsel 0 8 = 5 ∨ fld s.bus.winsel 0 8 = 8) :
    exec (.registerWrite 0x2C w) s = .next { s with bus := { s.bus with winadr := s.bus.winadr + 1 } } := by
  rw [exec_registerWrite _ w hb hn, ← writeWindat_readOnly (w := w) hsel]
  exact congrArg Host.Outcome.next (writeReg_windat ho)

/-- ANGLE_L captures its upper word on the host's path (R85). -/
theorem angleCapture_captures (s : State) (hb : hostBus s = true) (hu : busUp s = true) :
    exec .angleCapture s = .next { s with bus := { s.bus with data := w16 (angle s), angH := angleHWord s } } :=
  congrArg Host.Outcome.next (hostRead_answered .angleCapture (readAngleL .host) hb hu)

/-- TB_0 captures the upper words on the host's path (R427). -/
theorem tbCapture_captures (s : State) (hb : hostBus s = true) (hu : busUp s = true) :
    exec .tbCapture s = .next { s with bus := { s.bus with data := s.clk.tb.setWidth 16, tbH := (s.clk.tb >>> 16).setWidth 32 } } :=
  congrArg Host.Outcome.next (hostRead_answered .tbCapture (readTb0 .host) hb hu)

theorem windatRead_severity (s : State) (hb : hostBus s = true) (hu : busUp s = true) (hsel : fld s.bus.winsel 0 8 = 5)
    (hoff : s.bus.winadr.toNat < 48) :
    exec .windatRead s = .next { s with bus :=
      { s.bus with data := w16 (vget s.flt.sev s.bus.winadr.toNat 0 + b2n (vget s.flt.ring s.bus.winadr.toNat false) 3), winadr := s.bus.winadr + 1 } } := by
  refine exec_windatRead_pure hb hu ?_
  rw [hsel]
  exact readFsrc_severity .host s hoff

/-- Space 0 has no window and reads 0 (R418). -/
theorem windatRead_space0 (s : State) (hb : hostBus s = true) (hu : busUp s = true) (hsel : fld s.bus.winsel 0 8 = 0) :
    exec .windatRead s = .next { s with bus := { s.bus with data := 0, winadr := s.bus.winadr + 1 } } := by
  refine exec_windatRead_pure hb hu ?_
  rw [hsel]
  rfl

/-- In STOP with WCS 1 the write waits behind RDY and asks for the wake with code 6 (R355, log 31). -/
theorem registerWrite_held (a : BitVec 8) (w : Word) (s : State) (hn : isNative s = true) (hr : s.sys.inReset = false) (hv : s.sys.vddioa = true)
    (hstop : s.sys.pwr = .stop) (hwcs : s.sys.wcs = true) :
    ∃ t, exec (.registerWrite a w) s = .next t ∧
      t.sys.wakeReq = some (min (s.sys.wakeReq.getD 6) 6) ∧ t.bus.rdyWait = s.bus.rdyWait ++ [.registerWrite a w] ∧
      { t with sys := { t.sys with wakeReq := s.sys.wakeReq }, bus := { t.bus with rdyWait := s.bus.rdyWait } } = s := by
  have hheld : rdyHeld s = true := by simp [rdyHeld, csWakes, hn, hr, hv, hstop, hwcs]
  refine ⟨holdRows [.registerWrite a w] s, ?_, rfl, rfl, rfl⟩
  change Host.Outcome.next (opHostWrite a w s) = _
  rw [opHostWrite_native a w hn, hostRow_held _ _ hheld]

/-- Without VDDIOA no access takes place (R513). -/
theorem busAccess_unsupplied (a : BitVec 8) (w : Word) (s : State) (hv : s.sys.vddioa = false) :
    exec (.registerWrite a w) s = .next s ∧ exec .windatRead s = .next s ∧ exec .tbCapture s = .next s ∧ exec .angleCapture s = .next s :=
  ⟨congrArg Host.Outcome.next (opHostWrite_unsupplied a w hv), congrArg Host.Outcome.next (hostRow_unsupplied _ _ hv),
    congrArg Host.Outcome.next (hostRow_unsupplied _ _ hv), congrArg Host.Outcome.next (hostRow_unsupplied _ _ hv)⟩

/-- While no register answers, reads give 0x0000 and capture nothing (R323, R344). -/
theorem busRead_silent (s : State) (hb : hostBus s = true) (hu : busUp s = false) :
    exec .angleCapture s = .next { s with bus := { s.bus with data := 0 } } ∧ exec .tbCapture s = .next { s with bus := { s.bus with data := 0 } } ∧
      exec .windatRead s = .next { s with bus := { s.bus with data := 0 } } :=
  ⟨congrArg Host.Outcome.next (hostRead_silent _ _ hb hu), congrArg Host.Outcome.next (hostRead_silent _ _ hb hu),
    congrArg Host.Outcome.next (hostRead_silent _ _ hb hu)⟩

/-- Settles O48: each access by the rule of its row and of its register or window. -/
theorem busAccesses : Obligations.BusAccesses :=
  ⟨interruptClear_clears, registerWrite_inten, registerWrite_winadr, registerWrite_winsel, angleCapture_captures, tbCapture_captures,
    windatRead_severity, windatRead_space0, registerWrite_windat_readOnly, fun _ hb hu => exec_windatRead hb hu, registerWrite_held,
    busAccess_unsupplied, busRead_silent,
    fun a w _ hrun hn hboot ha => exec_registerWrite_closed a w hrun hn (regOpen_boot hboot ha),
    fun a w _ hrun hn hsafe _ ha => exec_registerWrite_closed a w hrun hn (regOpen_safe hsafe ha)⟩

end Sys2Proof.Machine

/-! Event slots and reports (R89 to R119): what reads of the report FIFO answer, the GO of a slot that
is late at once, and cycle starts. -/

namespace Sys2Proof.Machine

/-! ### Reads of the report FIFO (R118, R119) -/

theorem exec_reportPop {s : State} (hb : hostBus s = true) (hu : busUp s = true) :
    exec .reportPop s = .next (putData (readRptdat s).1 (readRptdat s).2) :=
  congrArg Host.Outcome.next (hostRead_answered .reportPop readRptdat hb hu)

theorem exec_rptstatRead {s : State} (hb : hostBus s = true) (hu : busUp s = true) :
    exec .rptstatRead s = .next (putData (readRptstat s).1 (readRptstat s).2) :=
  congrArg Host.Outcome.next (hostRead_answered .rptstatRead readRptstat hb hu)

/-- Without a drop in this tick a pop takes its record out and brings none in (R26). -/
theorem popRec_undropped {s : State} (q : Quad) (rest : List Quad) (hd : droppedNow s = []) :
    popRec q rest s = { s with rpt := { s.rpt with fifo := rest, held := q, wptr := 1 } } := by
  unfold popRec
  rw [hd]

/-- Whether the SEQ values stand after a read depends on SEQ and the ranks alone. -/
theorem settleSeq_rpt (q : Quad) (r : Rpt) (s : State) :
    settleSeq q { s with rpt := r } = { settleSeq q s with rpt := r } := by
  by_cases h : (s.sched.seq - q.w1).toNat ≤ (ranksNow s).length
  · have h' : (({ s with rpt := r } : State).sched.seq - q.w1).toNat ≤ (ranksNow { s with rpt := r }).length := h
    rw [settleSeq, settleSeq, if_pos h, if_pos h']
  · have h' : ¬ (({ s with rpt := r } : State).sched.seq - q.w1).toNat ≤ (ranksNow { s with rpt := r }).length := h
    rw [settleSeq, settleSeq, if_neg h, if_neg h']

@[simp] theorem settleSeq_bus (q : Quad) (s : State) : (settleSeq q s).bus = s.bus := bus_of_but rfl (settleSeq_but q s)

/-- At WPTR 0 a read takes the oldest record out and answers its word 0 (R119). -/
theorem readRptdat_pops {s : State} {q : Quad} {rest : List Quad} (hw : s.rpt.wptr = 0) (hf : s.rpt.fifo = q :: rest)
    (hd : droppedNow s = []) :
    readRptdat s = (q.w0, { settleSeq q s with rpt := { s.rpt with fifo := rest, held := q, wptr := 1 } }) := by
  rw [readRptdat, if_pos hw, hf]
  dsimp only
  rw [popRec_undropped q rest hd, settleSeq_rpt]

/-- An empty FIFO answers 0x0000 (R119). -/
theorem readRptdat_empty {s : State} (hw : s.rpt.wptr = 0) (hf : s.rpt.fifo = []) : readRptdat s = (0, s) := by
  rw [readRptdat, if_pos hw, hf]

/-- At WPTR 1 to 3 a read answers that word of the record popped last (R119). -/
theorem readRptdat_continues {s : State} (hw : s.rpt.wptr ≠ 0) :
    readRptdat s = (s.rpt.held.word s.rpt.wptr, { s with rpt := { s.rpt with wptr := (s.rpt.wptr + 1) % 4 } }) := by
  rw [readRptdat, if_neg hw]

/-- Without a drop in this tick RPTSTAT shows LOST as it stands and clears it (R118). -/
theorem readRptstat_undropped {s : State} (hd : droppedNow s = []) :
    readRptstat s = (w16 (s.rpt.fifo.length + 256 * s.rpt.wptr + 1024 * s.rpt.lost), { s with rpt := { s.rpt with lost := 0, lostWas := 0 } }) := by
  rw [readRptstat, hd]
  rfl

/-- The drops of this tick are not in the LOST that the read shows, and stand in it afterwards (R118). -/
theorem readRptstat_dropped {s : State} (hd : droppedNow s ≠ []) :
    readRptstat s = (w16 (s.rpt.fifo.length + 256 * s.rpt.wptr + 1024 * s.rpt.lostWas),
      { s with rpt := { s.rpt with lost := min 63 (droppedNow s).length, lostWas := 0 } }) := by
  have he : (droppedNow s).isEmpty = false := List.isEmpty_eq_false_iff.mpr hd
  simp [readRptstat, he]

/-! ### The clauses of `Obligations.ReportReads` -/

theorem reportPop_pops (q : Quad) (rest : List Quad) (s : State) (hb : hostBus s = true) (hu : busUp s = true) (hw : s.rpt.wptr = 0)
    (hf : s.rpt.fifo = q :: rest) (hd : droppedNow s = []) :
    exec .reportPop s =
      .next { settleSeq q s with rpt := { s.rpt with fifo := rest, held := q, wptr := 1 }, bus := { s.bus with data := q.w0 } } := by
  rw [exec_reportPop hb hu, readRptdat_pops hw hf hd, putData, settleSeq_bus]

theorem reportPop_empty (s : State) (hb : hostBus s = true) (hu : busUp s = true) (hw : s.rpt.wptr = 0) (hf : s.rpt.fifo = []) :
    exec .reportPop s = .next { s with bus := { s.bus with data := 0 } } := by
  rw [exec_reportPop hb hu, readRptdat_empty hw hf, putData]

theorem reportPop_continues (s : State) (hb : hostBus s = true) (hu : busUp s = true) (hw : s.rpt.wptr ≠ 0) :
    exec .reportPop s =
      .next { s with rpt := { s.rpt with wptr := (s.rpt.wptr + 1) % 4 }, bus := { s.bus with data := s.rpt.held.word s.rpt.wptr } } := by
  rw [exec_reportPop hb hu, readRptdat_continues hw, putData]

theorem rptstatRead_undropped (s : State) (hb : hostBus s = true) (hu : busUp s = true) (hd : droppedNow s = []) :
    exec .rptstatRead s = .next { s with rpt := { s.rpt with lost := 0, lostWas := 0 }, bus :=
      { s.bus with data := w16 (s.rpt.fifo.length + 256 * s.rpt.wptr + 1024 * s.rpt.lost) } } := by
  rw [exec_rptstatRead hb hu, readRptstat_undropped hd, putData]

theorem rptstatRead_dropped (s : State) (hb : hostBus s = true) (hu : busUp s = true) (hd : droppedNow s ≠ []) :
    ∃ t, exec .rptstatRead s = .next t ∧ t.bus.data = w16 (s.rpt.fifo.length + 256 * s.rpt.wptr + 1024 * s.rpt.lostWas) ∧
      t.rpt = { s.rpt with lost := min 63 (droppedNow s).length, lostWas := 0 } ∧
      { t with rpt := s.rpt, bus := { t.bus with data := s.bus.data } } = s := by
  rw [exec_rptstatRead hb hu, readRptstat_dropped hd]
  exact ⟨_, rfl, rfl, rfl, rfl⟩

/-- While no register answers, both read 0x0000 and change nothing else (R323). -/
theorem reportReads_silent (s : State) (hb : hostBus s = true) (hu : busUp s = false) :
    exec .reportPop s = .next { s with bus := { s.bus with data := 0 } } ∧
      exec .rptstatRead s = .next { s with bus := { s.bus with data := 0 } } :=
  ⟨congrArg Host.Outcome.next (hostRead_silent .reportPop readRptdat hb hu),
    congrArg Host.Outcome.next (hostRead_silent .rptstatRead readRptstat hb hu)⟩

/-- Settles O31: a read of RPTDAT by WPTR and the FIFO, a read of RPTSTAT by the drops of its tick. -/
theorem reportReads : Obligations.ReportReads :=
  ⟨reportPop_pops, reportPop_empty, reportPop_continues, rptstatRead_undropped, rptstatRead_dropped, by decide, reportReads_silent⟩

/-! ### Arming without a neighbour (R102) -/

theorem sepKey_lt {s : State} {w : SlotW} {k : Nat} (h : sepKey s w = some k) : k < 13 := by
  unfold sepKey at h
  split at h
  · cases h
  · split at h <;> cases h
    · decide
    · exact Nat.lt_succ_of_lt (lowerOf s (chOf w.chan)).isLt

/-- What a slot must keep its distance from is held by the other slots and the last fires. -/
theorem sepOthers_congr {s t : State} {i : Fin 64} (k : Nat) (hslots : ∀ j, j ≠ i → t.sched.slots[j] = s.sched.slots[j])
    (hlast : t.sched.lastFire = s.sched.lastFire) (hkey : ∀ w, sepKey t w = sepKey s w) : sepOthers t i k = sepOthers s i k := by
  unfold sepOthers
  rw [hlast]
  refine congrArg (· ++ _) (List.filterMap_congr fun j _ => ?_)
  by_cases hj : j = i
  · simp [hj]
  · dsimp only
    rw [hslots j hj, hkey]

/-- A slot without a neighbour in time takes its value unmoved. -/
theorem arm_alone {i : Fin 64} {s : State} (a : Tb) (late : Bool) (past : Option Nat) (cyc : Word)
    (h : ∀ k : Fin 13, sepOthers s i k.val = []) :
    arm i a late past cyc s =
      updSlot i (fun x => { x with st := .armed, hold := false, atb := a, late := late, shift := false, cyc := cyc, past := past }) s := by
  unfold arm
  dsimp only
  cases hk : sepKey s s.sched.slots[i].live with
  | none => simp
  | some k =>
    have hnone : sepOthers s i k = [] := h ⟨k, sepKey_lt hk⟩
    simp [hnone, separate]

/-! ### Slots that are late at once (R97, R99) -/

/-- A single index that a condition selects. -/
theorem vwhere_single {n : Nat} {p : Fin n → Bool} {i : Fin n} (hi : p i = true) (ho : ∀ j, j ≠ i → p j = false) : vwhere p = [i] := by
  have hp : p = (· == i) := by
    funext j
    by_cases hj : j = i
    · simp [hj, hi]
    · simp [hj, ho j hj]
  rw [vwhere, hp, List.filter_beq, (List.nodup_finRange n).count, if_pos (List.mem_finRange i)]
  rfl

/-- One slot alone that is late at once takes its outcome, and no other slot moves. -/
theorem settleLate_single {i : Fin 64} {s : State} (hi : lateNow s.sched.slots[i] = true)
    (ho : ∀ j, j ≠ i → lateNow s.sched.slots[j] = false) : settleLate s = lateSlot i s := by
  rw [settleLate, vwhere_single (p := fun j : Fin 64 => lateNow s.sched.slots[j]) hi ho]
  rfl

/-- A late slot without LATEDROP and without a neighbour is armed four ticks ahead (R101). -/
theorem lateSlot_armed {i : Fin 64} {s : State} (hdrop : s.sched.slots[i].live.lateDrop = false)
    (h : ∀ k : Fin 13, sepOthers s i k.val = []) :
    lateSlot i s = updSlot i (fun x => { x with st := .armed, hold := false, atb := tbAdd s.clk.tb 4, late := true, shift := false, cyc := cycleOf s s.sched.slots[i].live.target true, past := some (distC s s.sched.slots[i].live.target) }) s := by
  unfold lateSlot
  dsimp only
  rw [hdrop, if_neg Bool.false_ne_true, arm_alone _ _ _ _ h]

/-! ### GO of a slot (R95 to R97, R418, R419) -/

/-- Where window SLOT takes a write, so do WINADR and WINDAT (R260, R342). -/
theorem regOpen_of_winOpen {s : State} (h : winOpen s 1 = true) : regOpen s 0x2A = true ∧ regOpen s 0x2C = true := by
  have hu : busUp s = true := by
    simp only [winOpen, Bool.and_eq_true] at h
    exact h.1.1
  simp [regOpen, hu, bootWrites, safeWrites]

/-- The state in which a GO is judged: the pointer stands at word 4 of the slot, whose control bits are staged. -/
def goStaged (i : Fin 64) (w : Word) (s : State) : State :=
  updSlot i (fun x => { x with staged := { x.staged with ctl2 := w &&& 0x1C } })
    { s with bus := { s.bus with winsel := w16 1, winadr := w16 (8 * i.val + 4) } }

/-- An access leaves the host's pointer behind its word. -/
theorem wordDone_stepWinadr (space off : Nat) (t : State) (hsel : t.bus.winsel = w16 space) (hadr : t.bus.winadr = w16 off) :
    wordDone space off (stepWinadr .host t) = true := by
  have hnext : w16 (off + 1) = w16 off + 1 := BitVec.ofNat_add off 1
  simp [wordDone, stepWinadr, hsel, hadr, hnext]

theorem pointAt_open {s : State} (space off : Nat) (h : regOpen s 0x2A = true) :
    pointAt space off s = { s with bus := { s.bus with winsel := w16 space, winadr := w16 off } } := by
  rw [pointAt, if_pos h]

/-- Bit 0 of the word, which makes the row a GO, is no control bit that is staged, and no CANCEL. -/
theorem ctl2_or_go (w : Word) : (w ||| 1) &&& 0x1C = w &&& 0x1C ∧ bit (w ||| 1) 0 = true ∧ bit (w ||| 1) 1 = bit w 1 :=
  ⟨by rw [BitVec.and_or_distrib_right]; simp, by simp [bit], by simp [bit]⟩

theorem lateDrop_staged (x : SlotW) (w : Word) : SlotW.lateDrop { x with ctl2 := w &&& 0x1C } = bit w 3 := by
  simp [SlotW.lateDrop, bit]

/-- GO without CANCEL acts on the staged words (R95). -/
theorem writeCtl2_go {i : Fin 64} {w : Word} (s : State) (h : bit w 1 = false) :
    writeCtl2 i (w ||| 1) s = slotGo i (updSlot i (fun x => { x with staged := { x.staged with ctl2 := w &&& 0x1C } }) s) := by
  obtain ⟨hkept, hgo, hcancel⟩ := ctl2_or_go w
  unfold writeCtl2
  rw [hkept, hcancel, h, hgo]
  rfl

/-- A permitted write of word 4 of a slot. -/
theorem hostSlotWrite_ctl2 {i : Fin 64} {s : State} (p : Path) (w : Word) (hw : winOpen s 1 = true) (hp : slotWritable s i.val = true) :
    hostSlotWrite p (8 * i.val + 4) w s = writeCtl2 i w s := by
  have hlt : 8 * i.val + 4 < 512 := by omega
  have hidx : (8 * i.val + 4) / 8 = i.val := by omega
  have hword : (8 * i.val + 4) % 8 = 4 := by omega
  unfold hostSlotWrite
  rw [dif_pos hlt]
  simp only [hidx, hword, hw, hp]
  rfl

/-- The row of a GO that the bus, the window and the image let through. -/
theorem exec_slotGo {i : Fin 64} {w : Word} {s : State} (hb : hostBus s = true) (hw : winOpen s 1 = true) (hp : slotWritable s i.val = true)
    (hc : bit w 1 = false) : exec (.slotGo i w) s = .next (stepWinadr .host (slotGo i (goStaged i w s))) := by
  obtain ⟨hadr, hdat⟩ := regOpen_of_winOpen hw
  change Host.Outcome.next (windowWrite (.slotGo i w) 1 (8 * i.val + 4) (hostSlotWrite .host (8 * i.val + 4) (w ||| 1)) s) = _
  rw [windowWrite, hostRow_hostBus _ _ hb, if_pos hdat, pointAt_open _ _ hadr]
  refine congrArg (fun u => Host.Outcome.next (stepWinadr .host u)) ((hostSlotWrite_ctl2 .host (w ||| 1) ?_ ?_).trans (writeCtl2_go _ hc))
  · exact hw
  · exact hp

/-- The slot with the words of its GO staged. -/
theorem goStaged_same (i : Fin 64) (w : Word) (s : State) :
    (goStaged i w s).sched.slots[i] = { s.sched.slots[i] with staged := { s.sched.slots[i].staged with ctl2 := w &&& 0x1C } } := vupd_same _ _ _

theorem goStaged_other (w : Word) (s : State) {i j : Fin 64} (h : j ≠ i) : (goStaged i w s).sched.slots[j] = s.sched.slots[j] :=
  vupd_other _ _ _ _ h.symm

/-- An accepted GO of a slot that is not armed enters PENDING (R97). -/
theorem slotGo_pends {i : Fin 64} {s : State} (hr : refuseReason s s.sched.slots[i].staged = 0) (hst : s.sched.slots[i].st ≠ .armed) :
    slotGo i s = settleLate (updSlot i (pend s s.sched.slots[i].staged) s) := by
  unfold slotGo
  dsimp only
  rw [hr, if_neg (by decide), if_neg (by simpa using hst)]

/-- A slot that pends late and unheld takes its outcome in the same tick, when no other slot is late at once. -/
theorem slotGo_late {i : Fin 64} {s : State} (hr : refuseReason s s.sched.slots[i].staged = 0) (hst : s.sched.slots[i].st = .retired)
    (href : takeRef s s.sched.slots[i].staged = .late) (hperm : permitted s s.sched.slots[i].staged = true)
    (halone : ∀ j, j ≠ i → lateNow s.sched.slots[j] = false) :
    slotGo i s = lateSlot i (updSlot i (pend s s.sched.slots[i].staged) s) := by
  have hlate : lateNow (pend s s.sched.slots[i].staged s.sched.slots[i]) = true := by
    simp only [pend, lateNow, hst, hperm, href]
    rfl
  rw [slotGo_pends hr (by rw [hst]; decide)]
  refine settleLate_single ((congrArg lateNow (vupd_same _ _ _)).trans hlate) fun j hj => ?_
  exact (congrArg lateNow (vupd_other _ _ _ _ hj.symm)).trans (halone j hj)

/-- GO of a retired slot that is late at once arms it four ticks ahead, in the tick of its GO, when no other slot is late at once. -/
theorem exec_slotGo_late (i : Fin 64) (w : Word) (s : State) (hb : hostBus s = true) (hw : winOpen s 1 = true) (hp : slotWritable s i.val = true)
    (hc : bit w 1 = false) (hdrop : bit w 3 = false)
    (hr : refuseReason s { s.sched.slots[i].staged with ctl2 := w &&& 0x1C } = 0) (hst : s.sched.slots[i].st = .retired)
    (href : takeRef s { s.sched.slots[i].staged with ctl2 := w &&& 0x1C } = .late)
    (hperm : permitted s { s.sched.slots[i].staged with ctl2 := w &&& 0x1C } = true)
    (hsep : ∀ k : Fin 13, sepOthers s i k.val = []) (halone : ∀ j, j ≠ i → lateNow s.sched.slots[j] = false) :
    ∃ t, exec (.slotGo i w) s = .next t ∧ t.sched.slots[i].st = .armed ∧
      t.sched.slots[i].live = { s.sched.slots[i].staged with ctl2 := w &&& 0x1C } ∧ t.sched.slots[i].late = true ∧
      t.sched.slots[i].atb = s.clk.tb + 4 ∧ wordDone 1 (8 * i.val + 4) t = true ∧ { besidePointer s t with sched := s.sched } = s := by
  have hsame := goStaged_same i w s
  let p := updSlot i (pend (goStaged i w s) (goStaged i w s).sched.slots[i].staged) (goStaged i w s)
  have hpend : p.sched.slots[i] = pend (goStaged i w s) (goStaged i w s).sched.slots[i].staged (goStaged i w s).sched.slots[i] := vupd_same _ _ _
  have hsep' : ∀ k : Fin 13, sepOthers p i k.val = [] := fun k => by
    rw [← hsep k]
    refine sepOthers_congr k.val (fun j hj => ?_) rfl fun _ => rfl
    exact (vupd_other _ _ _ _ hj.symm).trans (goStaged_other w s hj)
  have hgo : slotGo i (goStaged i w s) = lateSlot i p := by
    refine slotGo_late ?_ ?_ ?_ ?_ fun j hj => ?_
    · rw [hsame]; exact hr
    · rw [hsame]; exact hst
    · rw [hsame]; exact href
    · rw [hsame]; exact hperm
    · rw [goStaged_other w s hj]; exact halone j hj
  have hkept : p.sched.slots[i].live.lateDrop = false := by
    rw [hpend, hsame]
    exact (lateDrop_staged _ _).trans hdrop
  have harmed : ∀ f, updSlot i f p = { s with sched := { s.sched with slots := vupd p.sched.slots i f }, bus := { s.bus with winsel := w16 1, winadr := w16 (8 * i.val + 4) } } :=
    fun _ => rfl
  refine ⟨_, exec_slotGo hb hw hp hc, ?_⟩
  rw [hgo, lateSlot_armed hkept hsep', harmed]
  have hslot := fun f => vupd_same p.sched.slots i f
  refine ⟨congrArg Slot.st (hslot _), (congrArg Slot.live (hslot _)).trans ?_, congrArg Slot.late (hslot _), congrArg Slot.atb (hslot _), ?_, rfl⟩
  · rw [hpend, hsame]
    rfl
  · exact wordDone_stepWinadr 1 (8 * i.val + 4) _ rfl rfl

/-! ### Cycle starts (R110, R114, R290) -/

/-- A cycle start of this tick that no STATE2 has counted. -/
theorem cycNow_counts {s : State} (hdue : dueCycle s = true) (hc : cycCounts s = true) (h : s.link.mir.cycAt ≠ some s.clk.tb) :
    cycNow s = s.sched.cyc + 1 := by
  simp [cycNow, hdue, hc, h]

/-- The unit's own angle of this tick has been looked at. -/
def angleSeen (s : State) : State := { s with sched := { s.sched with prevAngle := s.sched.nowAngle } }

/-- And CYC has counted in this tick. -/
def cycleCounted (s : State) : State :=
  { s with sched := { s.sched with prevAngle := s.sched.nowAngle, cyc := s.sched.cyc + 1, cycAt := s.clk.tb, cycPrev := s.sched.cyc } }

theorem setCyc_counted (s : State) : setCyc (s.sched.cyc + 1) (angleSeen s) = cycleCounted s := by
  have hne : (angleSeen s).sched.cyc ≠ s.sched.cyc + 1 := by simp [angleSeen]
  rw [setCyc, if_neg (by simpa using hne)]
  rfl

/-- A cycle start that counts on the unit's own angle: CYC of this tick, and its record. -/
theorem opCycleStart_own {s : State} (hmir : s.link.mir.valid = false) (hc : cycCounts s = true) :
    opCycleStart s = pushRec 3 0 (effSync s).code (cycNow s) (tbLo s.clk.tb) (setCyc (cycNow s) (angleSeen s)) := by
  unfold opCycleStart
  dsimp only
  rw [hmir, hc, if_neg Bool.false_ne_true, if_pos rfl]
  rfl

theorem exec_cycleStart {s : State} (h : dueCycle s = true) : exec .cycleStart s = .next (opCycleStart s) := by
  change Host.Outcome.next (if dueCycle s then opCycleStart s else s) = _
  rw [if_pos h]

/-- A cycle start in SYNC without a valid mirror, no STATE2 having counted it: CYC counts and the CYCLE record is appended. -/
theorem exec_cycleStart_counts (s : State) (hdue : dueCycle s = true) (hsync : effSync s = .sync) (hmir : s.link.mir.valid = false)
    (hcnt : s.link.mir.cycAt ≠ some s.clk.tb) (hlater : laterRecs (recRank 3 0 3) s = 0) (hroom : s.rpt.fifo.length < 128) :
    ∃ t, exec .cycleStart s = .next t ∧ t.sched.cyc = s.sched.cyc + 1 ∧
      t.rpt.fifo = s.rpt.fifo ++ [⟨w16 (3 + 1024 * 3), s.sched.seq, s.sched.cyc + 1, tbLo s.clk.tb⟩] ∧ t.sched.slots = s.sched.slots ∧
      { quietly s t with sched := s.sched, rpt := s.rpt } = s := by
  have hn : isNative s = true := by
    simp only [dueCycle, liveN, Bool.and_eq_true] at hdue
    exact hdue.1.1
  have hc : cycCounts s = true := by simp [cycCounts, hmir, hsync]
  have hrec : opCycleStart s = pushRec 3 0 3 (s.sched.cyc + 1) (tbLo s.clk.tb) (cycleCounted s) := by
    rw [opCycleStart_own hmir hc, hsync, cycNow_counts hdue hc hcnt, setCyc_counted]
    rfl
  obtain ⟨rs, hpush⟩ := pushRec_room (s := cycleCounted s) 3 0 3 (s.sched.cyc + 1) (tbLo s.clk.tb) hn hlater hroom
  rw [exec_cycleStart hdue, hrec, hpush]
  refine ⟨_, rfl, rfl, rfl, rfl, ?_⟩
  unfold quietly setInt cycleCounted
  rfl

/-! ### Where the statements on commands and events of slots fail -/

/-- SET of channel 9 at 30 000 ticks, with a late window of 255 steps. -/
def setBehind : SlotW := { angl := 30000, ctl1 := 0x0390, hor := 0xFF64 }

/-- A wheel in SYNC at 33 792 ticks, channel 9 timed and low. Slot 2 is an armed MARK that is due, with a SET behind the angle
waiting; slot 3 is retired, with the same SET staged. -/
def markDue : State :=
  { State.reset with
    sys := { boot := 5 }
    clk := { fclkOn := true, tb := 1000000 }
    sec := { img := Vector.replicate 64 0xFFFF }
    wheel := { cfgd := true, cfg := { n := 60, m := 2 }, st := .sync, pos := 5 }
    pred := { th16 := 491520, tk := 995000, ak := 98304, uk := 1706666, nA := 98304, ppred := 10000, havePrev := true }
    chan := vupd State.reset.chan 9 fun c => { c with cfg := { c.cfg with mode := 1 }, st := .low }
    sched := { slots := vput (vput (Vector.replicate 64 {}) 2 { st := .armed, atb := 1000000, live := { ctl1 := 0x0700 }, waiting := some setBehind }) 3 { st := .retired, staged := setBehind } } }

/-- The MARK has fired, and its slot is pending with the SET, which is late at once (R99, R107). -/
def lateBeside : State := fireSlot 2 markDue

theorem exec_markDue : exec (.slotFire 2) markDue = .next lateBeside := by
  have hdue : dueFire markDue 2 = true := by decide
  change Host.Outcome.next (if dueFire markDue 2 then fireSlot 2 markDue else markDue) = _
  rw [if_pos hdue]
  rfl

/-- The GO of slot 3. -/
def goBeside : State :=
  windowWrite (.slotGo 3 1) 1 28 (hostSlotWrite .host 28 1) lateBeside

/-- Slot 2 takes its outcome first, and slot 3 keeps the distance of R102 from it. -/
theorem goBeside_atb : goBeside.sched.slots[2].atb = 1000004 ∧ goBeside.sched.slots[3].atb = 1000024 := by decide

/-- Refutes O29: its clause on a GO that is late at once asks for no other armed slot on the channel, but not for no other slot that
is itself late at once. Such a slot of a lower index is armed four ticks ahead first, so that the slot of the GO is armed 20 ticks
after it (R102), not four ticks ahead. `exec_slotGo_late` proves the clause with no other slot late at once. -/
theorem not_slotCommands : ¬ Obligations.SlotCommands := by
  rintro ⟨-, hlate, -⟩
  obtain ⟨t, ht, -, -, -, hatb, -⟩ := hlate 3 1 lateBeside (by decide) (by decide) (by decide) rfl rfl (by decide) (by decide) (by decide)
    (by decide) (by decide)
  obtain rfl : goBeside = t := Host.Outcome.next.inj ht
  have hfour : goBeside.sched.slots[3].atb = 1000004 := hatb
  rw [goBeside_atb.2] at hfour
  exact absurd hfour (by decide)

/-- A follower whose mirror is valid and in SYNC, and passes its cycle start in the tick in which a STATE2 has set CYC to 5. -/
def mirrorCounted : State :=
  { State.reset with
    sys := { boot := 5 }
    clk := { fclkOn := true, tb := 1000000 }
    wheel := { cfgd := true, cfg := { n := 60, m := 2 } }
    sched := { cyc := 5 }
    link := { st := .member, mir := { cfgOk := true, stateSeen := true, applied := 2, valid := true, rstate := .sync, ring := true, eff := .sync, prevAngle := 737200, nowAngle := 100, cycAt := some 1000000 } } }

/-- The cycle start does not count a second time (R290). -/
theorem mirrorCounted_cyc : (opCycleStart mirrorCounted).sched.cyc = 5 := by decide

/-- Refutes O30: its clause on a cycle start in SYNC does not ask whether a STATE2 of the same tick has counted it. On a follower it
may have, and CYC then stays (R290). `exec_cycleStart_counts` proves the clause for a unit without a valid mirror, no STATE2 having
counted. -/
theorem not_slotEvents : ¬ Obligations.SlotEvents := by
  rintro ⟨-, -, -, -, -, -, hcycle, -⟩
  have hdue : dueCycle mirrorCounted = true := by decide
  obtain ⟨t, ht, hcyc, -⟩ := hcycle mirrorCounted hdue rfl (by decide) (by decide)
  obtain rfl : opCycleStart mirrorCounted = t := Host.Outcome.next.inj ((exec_cycleStart hdue).symm.trans ht)
  rw [mirrorCounted_cyc] at hcyc
  exact absurd hcyc (by decide)

end Sys2Proof.Machine

/-! Cam phase and angle windows (R120 to R130): the entry of a measured cam edge, the passes and strobes of a window, and the
outcomes of APPLY. -/

namespace Sys2Proof.Machine

/-! ### A measured cam edge (R120 to R123, R139) -/

/-- The angle at which a measured edge stands, in 1/16 tick (R121; log 16). -/
def measuredAng (s : State) (t : Tb) : Nat :=
  if bareNow s then bareAng s (cyc16 s.wheel.cfg) t else edgeAng (cyc16 s.wheel.cfg) (edgePred (effPred s) (effPrev s) t) t

/-- PH, UNM and the index of a measured edge of cam c (R122). -/
def measuredPhase (c : Fin 4) (rise : Bool) (t : Tb) (s : State) : Nat × Int × Bool :=
  phaseOf (cyc16 s.wheel.cfg) s.cams[c].tol (measuredAng s t) rise s.cams[c].edges s.free

/-- What an edge leaves of its unit: an unmatched one moves nothing (R122, R123). -/
def unitAfter (ph : Int) (unm : Bool) (x : CpcCam) : CpcCam := if unm then x else matchEdge ph x

/-- The entry of an edge that leaves OUT as `out` (R139). -/
def phaseEntry (c : Fin 4) (rise : Bool) (t : Tb) (j : Nat) (ph : Int) (unm out : Bool) (s : State) : Quad :=
  ⟨i16 ph, w16 (c.val + 4 * j + b2n rise 6 + b2n unm 7 + b2n out 8 + 32768), tbLo t, cycOf s t⟩

/-- The unit of cam c measures: the block runs, EN is 1, and the state is CONFIRM or SYNC (R120). -/
def measuring (s : State) (c : Fin 4) : Bool :=
  cpsLive s && bit s.cpc.cams[c].cfg 0 && !s.flt.safe && (effSync s == .confirm || effSync s == .sync)

/-- With EN 0 no edge moves anything of the unit (R120). -/
theorem measureEdge_disabled {c : Fin 4} {s : State} (rise : Bool) (t : Tb) (h : bit s.cpc.cams[c].cfg 0 = false) : measureEdge c rise t s = s := by
  unfold measureEdge
  dsimp only
  rw [if_pos (by rw [h]; simp)]

/-- CYC at a stamp does not depend on the interrupt conditions. -/
@[simp] theorem cycOf_setIntIf (c : Bool) (b : Nat) (s : State) (t : Tb) : cycOf (setIntIf c b s) t = cycOf s t := by
  cases c <;> rfl

/-- A measured edge replaces its unit, shows a change of OUT and writes its entry. -/
theorem measureEdge_measuring {c : Fin 4} {rise : Bool} {s : State} {t : Tb} {j : Nat} {ph : Int} {unm : Bool} (hm : measuring s c = true)
    (hph : measuredPhase c rise t s = (j, ph, unm)) :
    let y := unitAfter ph unm s.cpc.cams[c]
    measureEdge c rise t s = pushPhase (phaseEntry c rise t j ph unm y.out s)
      (setIntIf (y.out != s.cpc.cams[c].out) 6 (updCpc c (fun _ => y) { s with free := s.free + 1 })) := by
  have hruns : ¬ (!measuring s c) = true := by simp [hm]
  unfold measuring at hruns
  unfold measuredPhase measuredAng at hph
  unfold measureEdge
  dsimp only
  rw [if_neg hruns, hph]
  dsimp only
  rw [cycOf_setIntIf]
  rfl

/-- An entry that finds room in the cam-phase buffer is appended. -/
theorem pushPhase_room {s : State} (q : Quad) (h : s.cpc.ph.q.length < 32) :
    ∃ b, pushPhase q s = { s with cpc := { s.cpc with ph := { s.cpc.ph with q := s.cpc.ph.q ++ [q] } }, bus := b } := by
  have hpush : bufPush 32 s.clk.tb q s.cpc.ph = { s.cpc.ph with q := s.cpc.ph.q ++ [q] } := if_pos h
  unfold pushPhase
  rw [hpush]
  exact setIntIf_changes _ _ _

/-- A measured edge that finds room leaves its unit and its entry, a free value and interrupt conditions. -/
theorem measureEdge_room {c : Fin 4} {rise : Bool} {s : State} {t : Tb} {j : Nat} {ph : Int} {unm : Bool} (hm : measuring s c = true)
    (hph : measuredPhase c rise t s = (j, ph, unm)) (hroom : s.cpc.ph.q.length < 32) :
    let y := unitAfter ph unm s.cpc.cams[c]
    ∃ b, measureEdge c rise t s =
      { s with
        cpc := { s.cpc with cams := vupd s.cpc.cams c fun _ => y, ph := { s.cpc.ph with q := s.cpc.ph.q ++ [phaseEntry c rise t j ph unm y.out s] } }
        bus := b
        free := s.free + 1 } := by
  intro y
  obtain ⟨b, hout⟩ := setIntIf_changes (y.out != s.cpc.cams[c].out) 6 (updCpc c (fun _ => y) { s with free := s.free + 1 })
  obtain ⟨b', hpush⟩ := pushPhase_room (s := { updCpc c (fun _ => y) { s with free := s.free + 1 } with bus := b }) (phaseEntry c rise t j ph unm y.out s) hroom
  exact ⟨b', by rw [measureEdge_measuring hm hph, hout, hpush]; rfl⟩

/-- The signed distance from an angle to programmed edge j (R122). -/
def edgeDist (c16 a j : Nat) (es : List CamEdge) : Int := signedMod c16 (16 * (((es[j]?).map (·.angle)).getD 0 : Int) - a)

/-- The programmed edge that lies nearest gives the index, PH and UNM (R122). -/
theorem phaseOf_nearest {c16 a j d : Nat} {rise : Bool} {es : List CamEdge} {d16 : Int} (tol draw : Nat)
    (hnear : nearest c16 a rise 0 es none = some (j, d)) (hd : d16 = edgeDist c16 a j es) :
    phaseOf c16 tol a rise es draw = (j, satS 16 (sar (d16 + 128) 8), decide (16384 * tol < d16.natAbs)) := by
  subst hd
  unfold phaseOf
  rw [hnear]
  rfl

/-- A matched edge makes the average valid and is counted (R123, R125). -/
theorem matchEdge_valid_cnt (ph : Int) (x : CpcCam) : (matchEdge ph x).valid = true ∧ (matchEdge ph x).cnt = satInc x.cnt 255 := by
  unfold matchEdge
  dsimp only
  split <;> exact ⟨rfl, rfl⟩

/-! ### The clauses of `Obligations.CamPhase` -/

/-- A fine edge of a cam that is not the sync cam is an input of its cam-phase unit alone (R33, R120). -/
theorem takeCam_unsynced {c : Fin 4} {rise : Bool} {t : Tb} {s : State} (hfine : s.sys.coarse = false) (hsync : s.cams[c].sync = false) :
    takeCam c rise t s = if isNative s && s.cams[c].en && s.cams[c].uses rise then measureEdge c rise t s else s := by
  unfold takeCam camEdge
  dsimp only
  rw [hfine, hsync]
  cases isNative s && s.cams[c].en && s.cams[c].uses rise <;> rfl

theorem exec_camEdge_unsynced {c : Fin 4} {rise : Bool} {stamp : Tb} {s : State} (hlive : wheelLive s = true) (hp : camPasses c stamp s = true)
    (hfine : s.sys.coarse = false) (hsync : s.cams[c].sync = false) :
    exec (.camEdge c rise stamp) s = .next
      (if isNative s && s.cams[c].en && s.cams[c].uses rise then measureEdge c rise stamp (camPut c rise stamp s) else camPut c rise stamp s) := by
  change Host.Outcome.next (camRow c rise stamp s) = _
  rw [camRow_passes rise hp (by simp [captureOn, hfine]), if_pos hlive, takeCam_unsynced (s := camPut c rise stamp s) hfine hsync]
  rfl

theorem camEdge_unmeasured (c : Fin 4) (rise : Bool) (stamp : Tb) (s : State) (hlive : wheelLive s = true) (hp : camPasses c stamp s = true)
    (hfine : s.sys.coarse = false) (hsync : s.cams[c].sync = false) (hcfg : bit s.cpc.cams[c].cfg 0 = false) :
    exec (.camEdge c rise stamp) s = .next (camPut c rise stamp s) := by
  rw [exec_camEdge_unsynced hlive hp hfine hsync, measureEdge_disabled (s := camPut c rise stamp s) rise stamp hcfg, ite_self]

/-- `t` is `s` behind a measured edge of cam c next to programmed edge j: what stands in the buffer and the unit, and that
nothing else moves but the pin, interrupt conditions and a free value. -/
def edgeMeasured (c : Fin 4) (rise : Bool) (stamp : Tb) (j : Nat) (d16 : Int) (s t : State) : Prop :=
  t.cpc.ph.q = s.cpc.ph.q ++ [⟨i16 (satS 16 (sar (d16 + 128) 8)),
      w16 (c.val + 4 * j + b2n rise 6 + b2n (decide (16384 * s.cams[c].tol < d16.natAbs)) 7 + b2n t.cpc.cams[c].out 8 + 32768),
      tbLo stamp, cycOf s stamp⟩] ∧
    t.cpc.cams[c] = (if 16384 * s.cams[c].tol < d16.natAbs then s.cpc.cams[c] else matchEdge (satS 16 (sar (d16 + 128) 8)) s.cpc.cams[c]) ∧
    (d16.natAbs ≤ 16384 * s.cams[c].tol → t.cpc.cams[c].valid = true ∧ t.cpc.cams[c].cnt = satInc s.cpc.cams[c].cnt 255) ∧
    (∀ k : Fin 4, k ≠ c → t.cpc.cams[k] = s.cpc.cams[k]) ∧ t.cpc.wins = s.cpc.wins ∧ t.cpc.cv = s.cpc.cv ∧
    { t with pins := s.pins, cpc := s.cpc, bus := s.bus, free := s.free } = s

/-- Whatever gives the angle, an edge that CPS measures writes its entry and moves its unit by it. -/
theorem camEdge_measured {c : Fin 4} {rise : Bool} {stamp : Tb} {j d : Nat} {d16 : Int} {s : State} (hlive : wheelLive s = true)
    (hp : camPasses c stamp s = true) (hfine : s.sys.coarse = false) (hcps : cpsLive s = true) (hsafe : s.flt.safe = false)
    (hen : s.cams[c].en = true) (hsync : s.cams[c].sync = false) (huse : s.cams[c].uses rise = true) (hcfg : bit s.cpc.cams[c].cfg 0 = true)
    (hst : effSync s = .confirm ∨ effSync s = .sync) (hroom : s.cpc.ph.q.length < 32)
    (hnear : nearest (cyc16 s.wheel.cfg) (measuredAng s stamp) rise 0 s.cams[c].edges none = some (j, d))
    (hd : d16 = edgeDist (cyc16 s.wheel.cfg) (measuredAng s stamp) j s.cams[c].edges) :
    ∃ t, exec (.camEdge c rise stamp) s = .next t ∧ edgeMeasured c rise stamp j d16 s t := by
  have hn : isNative s = true := by
    simp only [cpsLive, liveN, Bool.and_eq_true] at hcps
    obtain ⟨⟨hn, -⟩, -⟩ := hcps
    exact hn
  have hm : measuring s c = true := by
    simp only [measuring, hcps, hcfg, hsafe, Bool.and_eq_true, Bool.or_eq_true, beq_iff_eq]
    exact ⟨⟨⟨trivial, trivial⟩, rfl⟩, hst⟩
  have hph := phaseOf_nearest s.cams[c].tol s.free hnear hd
  obtain ⟨b, ht⟩ := measureEdge_room (s := camPut c rise stamp s) hm hph hroom
  have hexec : exec (.camEdge c rise stamp) s = .next (measureEdge c rise stamp (camPut c rise stamp s)) := by
    rw [exec_camEdge_unsynced hlive hp hfine hsync, if_pos (by rw [hn, hen, huse]; rfl)]
  refine ⟨_, hexec.trans (congrArg Host.Outcome.next ht), ?_, ?_, fun hle => ?_, fun k hk => vupd_other _ _ _ _ hk.symm, rfl, rfl, rfl⟩
  · dsimp only
    rw [vupd_same]
    rfl
  · dsimp only
    rw [vupd_same, unitAfter]
    simp only [decide_eq_true_eq]
    rfl
  · dsimp only
    rw [vupd_same, unitAfter, if_neg (by simpa using hle)]
    exact matchEdge_valid_cnt _ _

/-- Settles O32: the angle of the edge is the predictor's or, where coarse edges give the position, the one that ANGLE shows. -/
theorem camPhase : Obligations.CamPhase := by
  refine ⟨?_, ?_, camEdge_unmeasured⟩
  · intro c rise stamp j d d16 s hlive hp hfine hcps hsafe hen hsync huse hcfg hst hroom hbare hnear hd
    have hang : measuredAng s stamp = edgeAng (cyc16 s.wheel.cfg) (edgePred (effPred s) (effPrev s) stamp) stamp := if_neg (by simp [hbare])
    exact camEdge_measured hlive hp hfine hcps hsafe hen hsync huse hcfg hst hroom (by rwa [hang]) (by rwa [hang])
  · intro c rise stamp j d d16 s hlive hp hfine hcps hsafe hen hsync huse hcfg hst hroom hbare hnear hd
    have hang : measuredAng s stamp = bareAng s (cyc16 s.wheel.cfg) stamp := if_pos hbare
    exact camEdge_measured hlive hp hfine hcps hsafe hen hsync huse hcfg hst hroom (by rwa [hang]) (by rwa [hang])

/-! ### Passes of an angle window (R127) -/

/-- What the travel makes due changes the list of due strobes alone. -/
theorem dueStrobes_changes (c : Nat) (tb : Tb) (x : Win) : ∃ l, dueStrobes c tb x = { x with dueAt := l } := by
  unfold dueStrobes
  split <;> exact ⟨_, rfl⟩

/-- Strobe 0 stands at a_0 (R126). -/
theorem strobeAt_zero (c : Nat) (x : WinLive) : strobeAt c x 0 = 0 := by simp [strobeAt]

/-- At the start of a pass strobe 0 is due at once, whatever the travel (R127). -/
theorem dueStrobes_head {c : Nat} {x : Win} (tb : Tb) (hact : x.active = true) (hk : x.k = 0) (hdue : x.dueAt = []) (hcount : 0 < x.live.count) :
    (dueStrobes c tb x).dueAt.head? = some tb := by
  have hmem : 0 ∈ (List.range x.live.count).filter fun k => decide (strobeAt c x.live k ≤ x.trav) := by
    simp [strobeAt_zero, hcount]
  have hpos := List.length_pos_of_mem hmem
  unfold dueStrobes
  rw [if_pos hact]
  dsimp only
  rw [hk, hdue, List.nil_append, List.length_nil, List.head?_replicate, if_neg (by omega)]

/-- A window at the begin of a pass, before its travel makes strobes due (R127). -/
def begunPass (c now : Nat) (x : Win) : Win :=
  { x with cross := false, active := true, k := 0, trav := (now + c - x.live.start % c) % c, dueAt := [] }

theorem opPassStart_win (w : Fin 8) (s : State) :
    (opPassStart w s).cpc.wins[w] = dueStrobes (cycC s.wheel.cfg) s.clk.tb (begunPass (cycC s.wheel.cfg) s.sched.nowAngle s.cpc.wins[w]) :=
  vupd_same _ _ _

theorem windowPassStart_due (w : Fin 8) (s : State) (h : duePass s w = true) :
    ∃ t, exec (.windowPassStart w) s = .next t ∧ t.cpc.wins[w].active = true ∧ t.cpc.wins[w].k = 0 ∧ t.cpc.wins[w].cross = false ∧
      t.cpc.wins[w].trav = (s.sched.nowAngle + cycC s.wheel.cfg - s.cpc.wins[w].live.start % cycC s.wheel.cfg) % cycC s.wheel.cfg ∧
      (0 < s.cpc.wins[w].live.count → t.cpc.wins[w].dueAt.head? = some s.clk.tb) ∧ (∀ v : Fin 8, v ≠ w → t.cpc.wins[v] = s.cpc.wins[v]) ∧
      { t with cpc := { t.cpc with wins := s.cpc.wins } } = s := by
  obtain ⟨l, hl⟩ := dueStrobes_changes (cycC s.wheel.cfg) s.clk.tb (begunPass (cycC s.wheel.cfg) s.sched.nowAngle s.cpc.wins[w])
  have hwin := (opPassStart_win w s).trans hl
  refine ⟨opPassStart w s, congrArg Host.Outcome.next (if_pos h), congrArg Win.active hwin, congrArg Win.k hwin, congrArg Win.cross hwin,
    congrArg Win.trav hwin, fun hcount => ?_, fun v hv => vupd_other _ _ _ _ hv.symm, rfl⟩
  rw [opPassStart_win]
  exact dueStrobes_head s.clk.tb rfl rfl rfl hcount

theorem windowPassStart_early (w : Fin 8) (s : State) (h : duePass s w = false) : exec (.windowPassStart w) s = .next s :=
  congrArg Host.Outcome.next (if_neg (by simp [h]))

/-! ### Strobes of an angle window (R128, R129) -/

/-- A window behind its next strobe, before the pass may end (R128). -/
def strobed (x : Win) : Win := { x with k := x.k + 1, dueAt := x.dueAt.drop 1 }

/-- The last strobe ends the pass (R129). -/
theorem opStrobe_win (w : Fin 8) (dly : Bool) (s : State) :
    (opStrobe w dly s).cpc.wins[w] = if s.cpc.wins[w].live.count ≤ s.cpc.wins[w].k + 1 then endPass (strobed s.cpc.wins[w]) else strobed s.cpc.wins[w] :=
  vupd_same _ _ _

theorem opStrobe_other {w v : Fin 8} (dly : Bool) (s : State) (h : v ≠ w) : (opStrobe w dly s).cpc.wins[v] = s.cpc.wins[v] :=
  vupd_other _ _ _ _ h.symm

/-- A pass that ends leaves no copy waiting: it has taken effect (R129, R130). -/
theorem endPass_fields (x : Win) : (endPass x).active = false ∧ (endPass x).copy = none ∧ (endPass x).live = x.copy.getD x.live ∧
    (endPass x).k = x.k ∧ (endPass x).w3 = x.w3 := by
  unfold endPass
  dsimp only
  split <;> exact ⟨rfl, rfl, rfl, rfl, rfl⟩

theorem exec_windowStrobe {w : Fin 8} {s : State} (h : dueStrobe s w = true) : exec (.windowStrobe w) s = .next (opStrobe w false s) :=
  congrArg Host.Outcome.next (if_pos h)

theorem windowStrobe_early (w : Fin 8) (s : State) (h : dueStrobe s w = false) : exec (.windowStrobe w) s = .next s :=
  congrArg Host.Outcome.next (if_neg (by simp [h]))

theorem windowStrobe_inside (w : Fin 8) (s : State) (h : dueStrobe s w = true) (hk : s.cpc.wins[w].k + 1 < s.cpc.wins[w].live.count) :
    ∃ t, exec (.windowStrobe w) s = .next t ∧ t.cpc.strobes = s.cpc.strobes ++ [⟨s.clk.tb, angle s, w.val, false, bit (cycNow s) 0⟩] ∧
      t.cpc.lastStrobe = some s.clk.tb ∧
      t.cpc.wins[w] = { s.cpc.wins[w] with k := s.cpc.wins[w].k + 1, dueAt := s.cpc.wins[w].dueAt.drop 1 } ∧
      (∀ v : Fin 8, v ≠ w → t.cpc.wins[v] = s.cpc.wins[v]) ∧ t.sched.slots = s.sched.slots ∧ t.sched.seq = s.sched.seq ∧
      { t with cpc := s.cpc, sched := s.sched } = s :=
  ⟨_, exec_windowStrobe h, rfl, rfl, (opStrobe_win w false s).trans (if_neg (by omega)), fun _ => opStrobe_other false s, rfl, rfl, rfl⟩

theorem windowStrobe_last (w : Fin 8) (s : State) (h : dueStrobe s w = true) (hk : s.cpc.wins[w].live.count ≤ s.cpc.wins[w].k + 1) :
    ∃ t, exec (.windowStrobe w) s = .next t ∧ t.cpc.strobes = s.cpc.strobes ++ [⟨s.clk.tb, angle s, w.val, false, bit (cycNow s) 0⟩] ∧
      t.cpc.wins[w].active = false ∧ t.cpc.wins[w].copy = none ∧ t.cpc.wins[w].live = s.cpc.wins[w].copy.getD s.cpc.wins[w].live ∧
      { t with cpc := s.cpc, sched := s.sched } = s := by
  have hwin := (opStrobe_win w false s).trans (if_pos hk)
  obtain ⟨hact, hcopy, hlive, -⟩ := endPass_fields (strobed s.cpc.wins[w])
  exact ⟨_, exec_windowStrobe h, rfl, (congrArg Win.active hwin).trans hact, (congrArg Win.copy hwin).trans hcopy,
    (congrArg Win.live hwin).trans hlive, rfl⟩

theorem delayedStrobeIssue_due (w : Fin 8) (s : State) (h : dueDelayed s w = true) :
    ∃ t, exec (.delayedStrobeIssue w) s = .next t ∧ t.cpc.strobes = s.cpc.strobes ++ [⟨s.clk.tb, angle s, w.val, true, bit (cycNow s) 0⟩] ∧
      t.cpc.lastStrobe = some s.clk.tb ∧ t.cpc.wins[w].k = s.cpc.wins[w].k + 1 ∧ { t with cpc := s.cpc, sched := s.sched } = s := by
  have hk : (opStrobe w true s).cpc.wins[w].k = s.cpc.wins[w].k + 1 := by
    obtain ⟨-, -, -, hend, -⟩ := endPass_fields (strobed s.cpc.wins[w])
    rw [opStrobe_win]
    split
    · exact hend
    · rfl
  exact ⟨_, congrArg Host.Outcome.next (if_pos h), rfl, rfl, hk, rfl⟩

theorem delayedStrobeIssue_early (w : Fin 8) (s : State) (h : dueDelayed s w = false) : exec (.delayedStrobeIssue w) s = .next s :=
  congrArg Host.Outcome.next (if_neg (by simp [h]))

/-! ### APPLY (R130) -/

/-- Two changes of one window are their composition. -/
theorem updWin_updWin (w : Fin 8) (f g : Win → Win) (s : State) : updWin w f (updWin w g s) = updWin w (fun x => f (g x)) s := by
  simp [updWin, vupd]

/-- A change of a window is what it does to that window as it stands. -/
theorem updWin_congr {w : Fin 8} {f g : Win → Win} {s : State} (h : f s.cpc.wins[w] = g s.cpc.wins[w]) : updWin w f s = updWin w g s := by
  simp only [updWin, vupd, h]

/-- Bit 2 of the word, which makes the row an APPLY, is no bit of WCTL that is staged. -/
theorem wctl_or_apply (v : Word) : (v ||| 4) &&& 3 = v &&& 3 ∧ bit (v ||| 4) 2 = true :=
  ⟨by rw [BitVec.and_or_distrib_right]; simp, by simp [bit]⟩

/-- The checks that a copy fails (R130). -/
def copyBad (c : Nat) (n : WinLive) : Bool := n.count = 0 || decide (c ≤ n.start) || decide (c ≤ n.stop)

theorem copyBad_iff (c : Nat) (n : WinLive) : copyBad c n = true ↔ n.count = 0 ∨ c ≤ n.start ∨ c ≤ n.stop := by
  simp [copyBad, or_assoc]

theorem not_copyBad {c : Nat} {n : WinLive} (hcount : n.count ≠ 0) (hstart : n.start < c) (hstop : n.stop < c) : ¬ copyBad c n = true := by
  rw [copyBad_iff]
  omega

/-- The window of an APPLY whose copy fails its checks (R130). -/
def copyRefused (v : Word) (x : Win) : Win := { x with w3 := v &&& 3, bad := true }

/-- The window of an APPLY whose copy takes effect at once: it ends a pass (R130). -/
def copyTaken (v : Word) (x : Win) : Win := { endPass { x with w3 := v &&& 3, copy := some (winStaged x (v ||| 4)) } with bad := false }

/-- The window of an APPLY whose copy waits for the end of the pass (R130). -/
def copyWaiting (v : Word) (x : Win) : Win := { x with w3 := v &&& 3, copy := some (winStaged x (v ||| 4)), bad := false }

/-- What an APPLY does to its window (R130). -/
theorem writeWctl_apply (w : Fin 8) (v : Word) (s : State) :
    let n := winStaged s.cpc.wins[w] (v ||| 4)
    writeWctl w (v ||| 4) s =
      if copyBad (cycC s.wheel.cfg) n then updWin w (copyRefused v) s
      else if !n.en || !s.cpc.wins[w].active then updWin w (copyTaken v) s
      else updWin w (copyWaiting v) s := by
  obtain ⟨hstaged, happly⟩ := wctl_or_apply v
  have hwin : (updWin w (fun x => { x with w3 := v &&& 3 }) s).cpc.wins[w] = { s.cpc.wins[w] with w3 := v &&& 3 } := vupd_same _ _ _
  unfold writeWctl
  dsimp only
  rw [hstaged, happly, if_neg (by decide), hwin]
  simp only [updWin_updWin]
  exact if_congr Iff.rfl rfl (if_congr Iff.rfl (updWin_congr rfl) (updWin_congr rfl))

/-- A permitted write of WCTL. -/
theorem hostCpcWrite_wctl {w : Fin 8} {s : State} (p : Path) (v : Word) (hw : winOpen s 7 = true) (hblk : blkOn s .cps = true)
    (hperm : cpcWritable s (32 + 8 * w.val + 3) = true) : hostCpcWrite p (32 + 8 * w.val + 3) v s = writeWctl w v s := by
  have hidx : (32 + 8 * w.val + 3 - 32) / 8 = w.val := by omega
  have hword : (32 + 8 * w.val + 3) % 8 = 3 := by omega
  unfold hostCpcWrite writeCpc
  rw [hw, hblk, hperm, if_neg (by decide), if_neg (by decide), if_neg (by omega), if_neg (by decide), dif_neg (by omega), dif_pos (by omega)]
  simp only [hidx, hword]

/-- A write of window CPC that the image masks is a protection violation (R389). -/
theorem hostCpcWrite_denied {s : State} {off : Nat} (p : Path) (v : Word) (hw : winOpen s 7 = true) (hblk : blkOn s .cps = true) (hoff : off < 512)
    (hperm : cpcWritable s off = false) : hostCpcWrite p off v s = deny p 2 7 s := by
  unfold hostCpcWrite
  rw [hw, hblk, hperm, if_neg (by decide), if_neg (by decide), if_neg (by omega), if_pos (by decide)]

/-- A write while the clock of the block is off is an access of a disabled block (R330). -/
theorem hostCpcWrite_gated {s : State} (p : Path) (off : Nat) (v : Word) (hw : winOpen s 7 = true) (hblk : blkOn s .cps = false) :
    hostCpcWrite p off v s = gateEvent .cps true 7 s := by
  unfold hostCpcWrite
  rw [hw, hblk, if_neg (by decide), if_pos (by decide)]

/-- A window that takes no write ignores it (R260, R342). -/
theorem hostCpcWrite_closed {s : State} (p : Path) (off : Nat) (v : Word) (hw : winOpen s 7 = false) : hostCpcWrite p off v s = s := by
  unfold hostCpcWrite
  rw [hw, if_pos (by decide)]

/-! ### The row of an APPLY (R418, R419) -/

theorem busUp_of_winOpen {s : State} {space : Nat} (h : winOpen s space = true) : busUp s = true := by
  simp only [winOpen, Bool.and_eq_true] at h
  obtain ⟨⟨hu, -⟩, -⟩ := h
  exact hu

theorem native_of_busUp {s : State} (h : busUp s = true) : isNative s = true := by
  simp only [busUp, Bool.and_eq_true] at h
  obtain ⟨⟨hn, -⟩, -⟩ := h
  exact hn

/-- WINSEL, WINADR and WINDAT are open whenever registers answer (R260, R342). -/
theorem regOpen_pointer {s : State} (h : busUp s = true) : regOpen s 0x2A = true ∧ regOpen s 0x2C = true := by
  simp [regOpen, h, bootWrites, safeWrites]

/-- The state with the pointer at WCTL of a window. -/
def atWctl (w : Fin 8) (s : State) : State :=
  { s with bus := { s.bus with winsel := w16 7, winadr := w16 (32 + 8 * w.val + 3) } }

theorem exec_windowApply {w : Fin 8} {s : State} (v : Word) (hb : hostBus s = true) (hu : busUp s = true) :
    exec (.windowApply w v) s = .next (stepWinadr .host (hostCpcWrite .host (32 + 8 * w.val + 3) (v ||| 4) (atWctl w s))) := by
  obtain ⟨hadr, hdat⟩ := regOpen_pointer hu
  change Host.Outcome.next (windowWrite (.windowApply w v) 7 (32 + 8 * w.val + 3) (hostCpcWrite .host (32 + 8 * w.val + 3) (v ||| 4)) s) = _
  rw [windowWrite, hostRow_hostBus _ _ hb, if_pos hdat, pointAt_open _ _ hadr]
  rfl

/-- A write that leaves the pointer alone ends with the pointer behind WCTL. -/
theorem wordDone_wctl {w : Fin 8} {s t : State} (h : t.bus = (atWctl w s).bus) : wordDone 7 (32 + 8 * w.val + 3) (stepWinadr .host t) = true :=
  wordDone_stepWinadr _ _ t (by rw [h]; rfl) (by rw [h]; rfl)

/-- An APPLY that reaches its window changes the window alone, as WCTL does. -/
theorem windowApply_writes {w : Fin 8} {v : Word} {s : State} {f : Win → Win} (hb : hostBus s = true) (hw : winOpen s 7 = true)
    (hblk : blkOn s .cps = true) (hperm : cpcWritable s (32 + 8 * w.val + 3) = true) (hf : writeWctl w (v ||| 4) (atWctl w s) = updWin w f (atWctl w s)) :
    ∃ t, exec (.windowApply w v) s = .next t ∧ t.cpc.wins[w] = f s.cpc.wins[w] ∧ (∀ u : Fin 8, u ≠ w → t.cpc.wins[u] = s.cpc.wins[u]) ∧
      wordDone 7 (32 + 8 * w.val + 3) t = true ∧ { besidePointer s t with cpc := { t.cpc with wins := s.cpc.wins } } = s := by
  have hwrite : hostCpcWrite .host (32 + 8 * w.val + 3) (v ||| 4) (atWctl w s) = updWin w f (atWctl w s) :=
    (hostCpcWrite_wctl (s := atWctl w s) .host (v ||| 4) hw hblk hperm).trans hf
  refine ⟨stepWinadr .host (updWin w f (atWctl w s)), ?_, vupd_same _ _ _, fun u hu => vupd_other _ _ _ _ hu.symm, wordDone_wctl rfl, ?_⟩
  · rw [exec_windowApply v hb (busUp_of_winOpen hw), hwrite]
  · dsimp only [besidePointer, stepWinadr, updWin, atWctl]

/-- An APPLY that only raises an event leaves the window alone. -/
theorem windowApply_raises {w : Fin 8} {v : Word} {s : State} {src : Nat} {det : Word} (hb : hostBus s = true) (hu : busUp s = true)
    (hwrite : hostCpcWrite .host (32 + 8 * w.val + 3) (v ||| 4) (atWctl w s) = raise src 0 det (atWctl w s)) :
    ∃ t, exec (.windowApply w v) s = .next t ∧ waits t src 0 det ∧ wordDone 7 (32 + 8 * w.val + 3) t = true ∧ besidePointer s (quietly s t) = s := by
  have hn : isNative (atWctl w s) = true := native_of_busUp hu
  refine ⟨stepWinadr .host (raise src 0 det (atWctl w s)), ?_, waits_of_flt rfl (raise_waits src 0 det hn), wordDone_wctl (raise_bus _ _ _ _), ?_⟩
  · rw [exec_windowApply v hb hu, hwrite]
  · rw [raise_native src 0 det hn]
    dsimp only [besidePointer, quietly, stepWinadr, atWctl]

/-! ### The clauses of `Obligations.AngleWindows` on APPLY -/

theorem windowApply_copies (w : Fin 8) (v : Word) (s : State) (hb : hostBus s = true) (hw : winOpen s 7 = true) (hblk : blkOn s .cps = true)
    (hperm : cpcWritable s (32 + 8 * w.val + 3) = true) (hnow : s.cpc.wins[w].active = false ∨ (winStaged s.cpc.wins[w] (v ||| 4)).en = false)
    (hcount : (winStaged s.cpc.wins[w] (v ||| 4)).count ≠ 0) (hstart : (winStaged s.cpc.wins[w] (v ||| 4)).start < cycC s.wheel.cfg)
    (hstop : (winStaged s.cpc.wins[w] (v ||| 4)).stop < cycC s.wheel.cfg) :
    ∃ t, exec (.windowApply w v) s = .next t ∧ t.cpc.wins[w].live = winStaged s.cpc.wins[w] (v ||| 4) ∧ t.cpc.wins[w].bad = false ∧
      t.cpc.wins[w].copy = none ∧ t.cpc.wins[w].active = false ∧ t.cpc.wins[w].w3 = v &&& 3 ∧ (∀ u : Fin 8, u ≠ w → t.cpc.wins[u] = s.cpc.wins[u]) ∧
      wordDone 7 (32 + 8 * w.val + 3) t = true ∧ { besidePointer s t with cpc := { t.cpc with wins := s.cpc.wins } } = s := by
  have hcopies : (!(winStaged s.cpc.wins[w] (v ||| 4)).en || !s.cpc.wins[w].active) = true := by
    simpa using hnow.symm
  obtain ⟨t, ht, hwin, hother, hdone, hframe⟩ := windowApply_writes hb hw hblk hperm
    ((writeWctl_apply w v (atWctl w s)).trans ((if_neg (not_copyBad hcount hstart hstop)).trans (if_pos hcopies)))
  obtain ⟨hact, hcopy, hlive, -, hw3⟩ := endPass_fields { s.cpc.wins[w] with w3 := v &&& 3, copy := some (winStaged s.cpc.wins[w] (v ||| 4)) }
  exact ⟨t, ht, (congrArg Win.live hwin).trans hlive, congrArg Win.bad hwin, (congrArg Win.copy hwin).trans hcopy,
    (congrArg Win.active hwin).trans hact, (congrArg Win.w3 hwin).trans hw3, hother, hdone, hframe⟩

theorem windowApply_waits (w : Fin 8) (v : Word) (s : State) (hb : hostBus s = true) (hw : winOpen s 7 = true) (hblk : blkOn s .cps = true)
    (hperm : cpcWritable s (32 + 8 * w.val + 3) = true) (hact : s.cpc.wins[w].active = true) (hen : (winStaged s.cpc.wins[w] (v ||| 4)).en = true)
    (hcount : (winStaged s.cpc.wins[w] (v ||| 4)).count ≠ 0) (hstart : (winStaged s.cpc.wins[w] (v ||| 4)).start < cycC s.wheel.cfg)
    (hstop : (winStaged s.cpc.wins[w] (v ||| 4)).stop < cycC s.wheel.cfg) :
    ∃ t, exec (.windowApply w v) s = .next t ∧
      t.cpc.wins[w] = { s.cpc.wins[w] with w3 := v &&& 3, copy := some (winStaged s.cpc.wins[w] (v ||| 4)), bad := false } ∧
      (∀ u : Fin 8, u ≠ w → t.cpc.wins[u] = s.cpc.wins[u]) ∧ wordDone 7 (32 + 8 * w.val + 3) t = true ∧
      { besidePointer s t with cpc := { t.cpc with wins := s.cpc.wins } } = s := by
  have hpass : ¬ (!(winStaged s.cpc.wins[w] (v ||| 4)).en || !s.cpc.wins[w].active) = true := by
    rw [hen, hact]
    decide
  exact windowApply_writes hb hw hblk hperm ((writeWctl_apply w v (atWctl w s)).trans ((if_neg (not_copyBad hcount hstart hstop)).trans (if_neg hpass)))

theorem windowApply_bad (w : Fin 8) (v : Word) (s : State) (hb : hostBus s = true) (hw : winOpen s 7 = true) (hblk : blkOn s .cps = true)
    (hperm : cpcWritable s (32 + 8 * w.val + 3) = true)
    (hbad : (winStaged s.cpc.wins[w] (v ||| 4)).count = 0 ∨ cycC s.wheel.cfg ≤ (winStaged s.cpc.wins[w] (v ||| 4)).start ∨
      cycC s.wheel.cfg ≤ (winStaged s.cpc.wins[w] (v ||| 4)).stop) :
    ∃ t, exec (.windowApply w v) s = .next t ∧ t.cpc.wins[w] = { s.cpc.wins[w] with w3 := v &&& 3, bad := true } ∧
      wordDone 7 (32 + 8 * w.val + 3) t = true ∧ { besidePointer s t with cpc := { t.cpc with wins := s.cpc.wins } } = s := by
  obtain ⟨t, ht, hwin, -, hdone, hframe⟩ := windowApply_writes hb hw hblk hperm ((writeWctl_apply w v (atWctl w s)).trans (if_pos ((copyBad_iff _ _).mpr hbad)))
  exact ⟨t, ht, hwin, hdone, hframe⟩

theorem windowApply_denied (w : Fin 8) (v : Word) (s : State) (hb : hostBus s = true) (hw : winOpen s 7 = true) (hblk : blkOn s .cps = true)
    (hperm : cpcWritable s (32 + 8 * w.val + 3) = false) :
    ∃ t, exec (.windowApply w v) s = .next t ∧ waits t 45 0 0x0702 ∧ wordDone 7 (32 + 8 * w.val + 3) t = true ∧ besidePointer s (quietly s t) = s :=
  windowApply_raises hb (busUp_of_winOpen hw) (hostCpcWrite_denied (s := atWctl w s) .host (v ||| 4) hw hblk (by omega) hperm)

theorem windowApply_gated (w : Fin 8) (v : Word) (s : State) (hb : hostBus s = true) (hw : winOpen s 7 = true) (hblk : blkOn s .cps = false) :
    ∃ t, exec (.windowApply w v) s = .next t ∧ waits t 46 0 0x070A ∧ wordDone 7 (32 + 8 * w.val + 3) t = true ∧ besidePointer s (quietly s t) = s :=
  windowApply_raises hb (busUp_of_winOpen hw) (hostCpcWrite_gated (s := atWctl w s) .host _ (v ||| 4) hw hblk)

/-- An ignored write moves the pointer alone (R419). -/
theorem windowApply_closed (w : Fin 8) (v : Word) (s : State) (hb : hostBus s = true) (ho : regOpen s 0x2C = true) (hw : winOpen s 7 = false) :
    ∃ t, exec (.windowApply w v) s = .next t ∧ wordDone 7 (32 + 8 * w.val + 3) t = true ∧ besidePointer s t = s := by
  have hu : busUp s = true := by
    simp only [regOpen, Bool.and_eq_true] at ho
    obtain ⟨⟨hu, -⟩, -⟩ := ho
    exact hu
  refine ⟨stepWinadr .host (atWctl w s), ?_, wordDone_wctl rfl, rfl⟩
  rw [exec_windowApply v hb hu, hostCpcWrite_closed (s := atWctl w s) .host _ (v ||| 4) hw]

/-- While no register answers the write does not take place (R323, R344). -/
theorem windowApply_silent (w : Fin 8) (v : Word) (s : State) (hb : hostBus s = true) (hu : busUp s = false) : exec (.windowApply w v) s = .next s := by
  have hdat : regOpen s 0x2C = false := by rw [regOpen, hu]; rfl
  change Host.Outcome.next (windowWrite (.windowApply w v) 7 (32 + 8 * w.val + 3) (hostCpcWrite .host (32 + 8 * w.val + 3) (v ||| 4)) s) = _
  rw [windowWrite, hostRow_hostBus _ _ hb, if_neg (by simp [hdat])]

/-- Settles O33: the start of a pass, a strobe inside it and the last one, and APPLY by what lets it through. -/
theorem angleWindows : Obligations.AngleWindows :=
  ⟨windowPassStart_due, windowPassStart_early, windowStrobe_inside, windowStrobe_last, windowStrobe_early, delayedStrobeIssue_due,
    delayedStrobeIssue_early, windowApply_copies, windowApply_waits, windowApply_bad, windowApply_denied, windowApply_silent,
    windowApply_closed, windowApply_gated⟩

end Sys2Proof.Machine

/-! What the operations on channels do to one channel (R152 to R165): the moves of BOOSTEN, the entries into the states, and the
blocks that they leave alone. -/

namespace Sys2Proof.Machine

/-! ### Blocks outside the channels -/

theorem clk_of_but {m : Nat} {s t : State} (h : m.testBit 1 = false) (e : but m t = but m s) : t.clk = s.clk := by
  simpa only [but, h, Bool.false_eq_true, if_false] using congrArg State.clk e

theorem chs_of_but {m : Nat} {s t : State} (h : m.testBit 12 = false) (e : but m t = but m s) : t.chs = s.chs := by
  simpa only [but, h, Bool.false_eq_true, if_false] using congrArg State.chs e
theorem lines_of_but {m : Nat} {s t : State} (h : m.testBit 13 = false) (e : but m t = but m s) : t.lines = s.lines := by
  simpa only [but, h, Bool.false_eq_true, if_false] using congrArg State.lines e
theorem trip_of_but {m : Nat} {s t : State} (h : m.testBit 17 = false) (e : but m t = but m s) : t.trip = s.trip := by
  simpa only [but, h, Bool.false_eq_true, if_false] using congrArg State.trip e
theorem dbg_of_but {m : Nat} {s t : State} (h : m.testBit 24 = false) (e : but m t = but m s) : t.dbg = s.dbg := by
  simpa only [but, h, Bool.false_eq_true, if_false] using congrArg State.dbg e

/-- A state that agrees outside the channels, their shared state and the trip input is the old one with these three blocks. -/
theorem eq_of_chanBut {s t : State} (h : but 137216 t = but 137216 s) : t = { s with chan := t.chan, chs := t.chs, trip := t.trip } :=
  but_ext (m := 137216) (n := 4294830079) rfl h rfl

/-- The frame of the operations on channels. -/
theorem chanFrame_of_but {s t : State} (h : but 137216 t = but 137216 s) :
    { t with chan := s.chan, chs := s.chs, trip := s.trip, diag := s.diag } = s := by
  rw [eq_of_chanBut h]

/-- What every operation of a run keeps, the run keeps. -/
theorem foldSt_keeps {α β : Type} {xs : List α} {f : α → State → State} (p : State → β) (hf : ∀ x t, p (f x t) = p t) (s : State) :
    p (foldSt xs f s) = p s := by
  unfold foldSt
  induction xs generalizing s with
  | nil => rfl
  | cons x xs ih => rw [List.foldl_cons, ih, hf]

/-! ### Moves of BOOSTEN (R152, R157) -/

/-- `d` is `c` with its level lowered or kept, and at most its force and its dead time changed: all that a change of BOOSTEN
does to a channel (R157). -/
def BoostMoved (c d : Chan) : Prop := ∃ f l e, d = { c with forced := f, drv := c.drv && l, reg := { c.reg with deadTo := e } }

theorem BoostMoved.refl (c : Chan) : BoostMoved c c := ⟨c.forced, true, c.reg.deadTo, by rw [Bool.and_true]⟩

theorem BoostMoved.trans {c d e : Chan} (h : BoostMoved c d) (h' : BoostMoved d e) : BoostMoved c e := by
  obtain ⟨f, l, t, rfl⟩ := h
  obtain ⟨f', l', t', rfl⟩ := h'
  exact ⟨f', l && l', t', by rw [← Bool.and_assoc]⟩

section
variable {c d : Chan} (h : BoostMoved c d)
include h

theorem BoostMoved.st : d.st = c.st := by obtain ⟨f, l, e, rfl⟩ := h; rfl
theorem BoostMoved.cfg : d.cfg = c.cfg := by obtain ⟨f, l, e, rfl⟩ := h; rfl
theorem BoostMoved.pulse : d.pulse = c.pulse := by obtain ⟨f, l, e, rfl⟩ := h; rfl
theorem BoostMoved.cont : d.cont = c.cont := by obtain ⟨f, l, e, rfl⟩ := h; rfl
theorem BoostMoved.target : d.reg.target = c.reg.target := by obtain ⟨f, l, e, rfl⟩ := h; rfl
theorem BoostMoved.hyst : d.reg.h = c.reg.h := by obtain ⟨f, l, e, rfl⟩ := h; rfl

/-- A low channel stays low. -/
theorem BoostMoved.drv_low (hl : c.drv = false) : d.drv = false := by
  obtain ⟨f, l, e, rfl⟩ := h
  rw [hl]
  rfl

end

/-- From `s` to `t` every channel is moved at most as BOOSTEN moves it. -/
def boostMoves (s t : State) : Prop := ∀ n : Fin 12, BoostMoved s.chan[n] t.chan[n]

theorem boostMoves.refl (s : State) : boostMoves s s := fun _ => .refl _

theorem boostMoves.trans {s t u : State} (h : boostMoves s t) (h' : boostMoves t u) : boostMoves s u := fun n => (h n).trans (h' n)

theorem updChan_self (n : Fin 12) (f : Chan → Chan) (s : State) : (updChan n f s).chan[n] = f s.chan[n] := vupd_same _ _ _

theorem updChan_other {n m : Fin 12} (f : Chan → Chan) (s : State) (h : m ≠ n) : (updChan n f s).chan[m] = s.chan[m] := vupd_other _ _ _ _ h.symm

theorem updChan_moves {n : Fin 12} {f : Chan → Chan} (hf : ∀ c, BoostMoved c (f c)) (s : State) : boostMoves s (updChan n f s) := by
  intro m
  by_cases hm : m = n
  · subst hm
    rw [updChan_self]
    exact hf _
  · rw [updChan_other f s hm]
    exact .refl _

theorem foldSt_moves {α : Type} {xs : List α} {f : α → State → State} (hf : ∀ x t, boostMoves t (f x t)) (s : State) : boostMoves s (foldSt xs f s) := by
  unfold foldSt
  induction xs generalizing s with
  | nil => exact .refl s
  | cons x xs ih => exact (hf x s).trans (ih (f x s))

theorem setDrv_self (n : Fin 12) (lvl : Bool) (s : State) : (setDrv n lvl s).chan[n] = { s.chan[n] with drv := lvl } := by
  unfold setDrv setDrv1
  split
  · by_cases hm : n = mate n
    · rw [← hm, updChan_self, updChan_self]
    · rw [updChan_other _ _ hm, updChan_self]
  · exact updChan_self _ _ _

theorem setDrv_low_moves (n : Fin 12) (s : State) : boostMoves s (setDrv n false s) := by
  have h1 : ∀ (k : Fin 12) t, boostMoves t (setDrv1 k false t) := fun k t =>
    updChan_moves (fun c => ⟨c.forced, false, c.reg.deadTo, by rw [Bool.and_false]⟩) t
  unfold setDrv
  split
  · exact (h1 n s).trans (h1 (mate n) _)
  · exact h1 n s

theorem forced_moved (c : Chan) (f : Bool) : BoostMoved c { c with forced := f } := ⟨f, true, c.reg.deadTo, by rw [Bool.and_true]⟩

theorem forceLow_moves (s : State) : boostMoves s (forceLow s) := by
  refine (foldSt_moves (xs := (List.finRange 12).filter fun n => forceable s.chan[n])
    (fun n t => (setDrv_low_moves n t).trans (updChan_moves (n := n) (fun c => forced_moved c true) _)) s).trans fun n => ?_
  unfold forceLow
  dsimp only
  rw [vmapi_getElem]
  split
  · exact .refl _
  · exact forced_moved _ false

theorem boostEnds_moves (e : Tb) (s : State) : boostMoves s (boostEnds e s) := by
  intro n
  unfold boostEnds
  dsimp only
  rw [vmapi_getElem]
  split
  · exact ⟨_, true, some e, by rw [Bool.and_true]⟩
  · exact forced_moved _ _

/-- What the channels share once BOOSTEN has followed the requests: its level, and who held a request at a fall. -/
def boostChs (old : Vector Chan 12) (s : State) : Chs :=
  let fell := s.chs.boosten && !s.chan.toList.any requests
  { s.chs with boosten := s.chan.toList.any requests, held := if fell then Vector.ofFn fun n : Fin 12 => requests old[n] else s.chs.held }

/-- BOOSTEN follows the requests, and then it forces channels low, or ends, or does neither (R157). -/
theorem boostUpdate_cases (old : Vector Chan 12) (s : State) :
    boostUpdate old s = forceLow { s with chs := boostChs old s } ∨ (∃ e, boostUpdate old s = boostEnds e { s with chs := boostChs old s }) ∨
      boostUpdate old s = { s with chs := boostChs old s } := by
  by_cases hhigh : boostHigh { s with chs := boostChs old s } = true
  · exact .inl (if_pos hhigh)
  · right
    by_cases hfell : (s.chs.boosten && !s.chan.toList.any requests && !s.pins.boost) = true
    · exact .inl ⟨_, (if_neg hhigh).trans (if_pos hfell)⟩
    · exact .inr ((if_neg hhigh).trans (if_neg hfell))

theorem boostUpdate_moves (old : Vector Chan 12) (s : State) : boostMoves s (boostUpdate old s) := by
  obtain h | ⟨e, h⟩ | h := boostUpdate_cases old s
  · rw [h]
    exact forceLow_moves { s with chs := boostChs old s }
  · rw [h]
    exact boostEnds_moves e { s with chs := boostChs old s }
  · rw [h]
    exact .refl s

/-! ### Entries into states (R155, R158, R159) -/

/-- The channel that settles is quiet, low and in its new state. -/
theorem settle_self (n : Fin 12) (st : ChSt) (s : State) : BoostMoved { quiet s.chan[n] with st := st, drv := false } (settle n st s).chan[n] := by
  have h := boostUpdate_moves s.chan (setDrv n false (updChan n (fun c => { quiet c with st := st }) s)) n
  rwa [setDrv_self, updChan_self] at h

theorem settle_other {n m : Fin 12} (st : ChSt) (s : State) (hm : m ≠ n) : BoostMoved s.chan[m] (settle n st s).chan[m] := by
  have h := (setDrv_low_moves n (updChan n (fun c => { quiet c with st := st }) s)).trans (boostUpdate_moves s.chan _) m
  rwa [updChan_other _ _ hm] at h

/-- A channel that enters DECAY is low, and its decay counts from now (R158). -/
theorem enterDecay_self (n : Fin 12) (s : State) :
    (enterDecay n s).chan[n].st = .decay ∧ (enterDecay n s).chan[n].drv = false ∧ (enterDecay n s).chan[n].pulse.decAt = s.clk.tb ∧
      (enterDecay n s).chan[n].pulse.decRun = 0 := by
  have hs := settle_self n .decay s
  have htb : (settle n .decay s).clk = s.clk := clk_of_but rfl (settle_but n .decay s)
  unfold enterDecay
  rw [updChan_self, htb]
  exact ⟨hs.st, hs.drv_low rfl, rfl, rfl⟩

/-- A channel with an active scale and none pending. -/
def scaled (sc : Nat) (c : Chan) : Chan := { c with cfg := { c.cfg with scale := sc, scpend := 0 } }

theorem scaled_own {c : Chan} (h : c.cfg.scpend = 0) : scaled c.cfg.scale c = c := by
  unfold scaled
  rw [← h]

/-- A pending scale becomes active, and none is pending then (R151). -/
theorem applyScale_self (n : Fin 12) (s : State) : ∃ sc, (applyScale n s).chan[n] = scaled sc s.chan[n] := by
  unfold applyScale
  by_cases h : s.chan[n].cfg.scpend = 0
  · rw [if_pos h]
    exact ⟨_, (scaled_own h).symm⟩
  · rw [if_neg h]
    dsimp only
    split
    · by_cases hm : n = mate n
      · rw [← hm, updChan_self, updChan_self]
        exact ⟨_, rfl⟩
      · rw [updChan_other _ _ hm, updChan_self]
        exact ⟨_, rfl⟩
    · rw [updChan_self]
      exact ⟨_, rfl⟩

theorem enterLow_self (n : Fin 12) (s : State) : (enterLow n s).chan[n].st = .low ∧ (enterLow n s).chan[n].drv = false := by
  have hs := settle_self n .low s
  obtain ⟨sc, h⟩ := applyScale_self n (settle n .low s)
  unfold enterLow
  rw [h]
  exact ⟨hs.st, hs.drv_low rfl⟩

/-- A refresh of the latest current changes nothing else of a channel (R176). -/
theorem refreshI_chan (m : Fin 8) (s : State) (k : Fin 12) : ∃ i, (refreshI m s).chan[k] = { s.chan[k] with lastI := i } := by
  unfold refreshI
  dsimp only
  by_cases hk : k = lowerOf s (sh m)
  · subst hk
    rw [updChan_self]
    exact ⟨_, rfl⟩
  · rw [updChan_other _ _ hk]
    exact ⟨_, rfl⟩

/-- The end of a fallback changes it and the latest current alone (R164). -/
theorem endFallback_self (n : Fin 12) (s : State) : ∃ fb i, (endFallback n s).chan[n] = { s.chan[n] with fallback := fb, lastI := i } := by
  unfold endFallback
  split
  · exact ⟨_, _, rfl⟩
  · dsimp only
    split
    · next hn =>
      obtain ⟨i, hi⟩ := refreshI_chan ⟨n.val, hn⟩ (updChan n (fun c => { c with fallback := none }) s) n
      rw [hi, updChan_self]
      exact ⟨_, _, rfl⟩
    · rw [updChan_self]
      exact ⟨_, _, rfl⟩

theorem enterIdle_self (n : Fin 12) (s : State) : (enterIdle n s).chan[n].st = .idle ∧ (enterIdle n s).chan[n].cfg.scpend = 0 := by
  have hs := settle_self n .idle s
  obtain ⟨sc, hsc⟩ := applyScale_self n (settle n .idle s)
  obtain ⟨fb, i, hfb⟩ := endFallback_self n (applyScale n (settle n .idle s))
  unfold enterIdle
  rw [hfb, hsc]
  exact ⟨hs.st, rfl⟩

theorem boostExit_self (n : Fin 12) (s : State) :
    (boostExit n s).chan[n].st = .dead ∧ (boostExit n s).chan[n].drv = false ∧ (boostExit n s).chan[n].pulse.exitAt = some s.clk.tb := by
  have h := boostUpdate_moves s.chan (setDrv n false (updChan n (fun c => { c with st := .dead, pulse := { c.pulse with exitAt := some s.clk.tb } }) s)) n
  rw [setDrv_self, updChan_self] at h
  exact ⟨h.st, h.drv_low rfl, congrArg Pulse.exitAt h.pulse⟩

theorem enterPeak_st (n : Fin 12) (s : State) : (enterPeak n s).chan[n].st = .peak := by
  have h := boostUpdate_moves s.chan (updChan n (fun c => { c with st := .peak }) s) n
  rw [updChan_self] at h
  exact h.st

/-- A new target is in force, and the state and the hysteresis stay (R153). -/
theorem setTarget_self (n : Fin 12) (v : Nat) (noslew : Bool) (s : State) :
    (setTarget n v noslew s).chan[n].st = s.chan[n].st ∧ (setTarget n v noslew s).chan[n].reg.h = s.chan[n].reg.h ∧
      (setTarget n v noslew s).chan[n].reg.target = v := by
  unfold setTarget
  rw [updChan_self]
  split
  · next h => exact ⟨rfl, rfl, h⟩
  · exact ⟨rfl, rfl, rfl⟩

/-- HOLD takes the throttled hold level and the hysteresis of hold (R155, R221). -/
theorem enterHold_self (n : Fin 12) (s : State) :
    (enterHold n s).chan[n].st = .hold ∧ (enterHold n s).chan[n].reg.h = s.chan[n].pulse.cHysh ∧
      (enterHold n s).chan[n].reg.target = throttled s.chan[n].pulse.cHold (stepOf s n) := by
  let u := updChan n (fun c => { c with st := .hold, reg := { c.reg with h := s.chan[n].pulse.cHysh } }) s
  have hb := boostUpdate_moves s.chan (setTarget n (throttled s.chan[n].pulse.cHold (stepOf u n)) false u) n
  obtain ⟨hst, hh, htarget⟩ := setTarget_self n (throttled s.chan[n].pulse.cHold (stepOf u n)) false u
  have hu : u.chan[n] = { s.chan[n] with st := .hold, reg := { s.chan[n].reg with h := s.chan[n].pulse.cHysh } } := updChan_self _ _ _
  rw [hu] at hst hh
  exact ⟨hb.st.trans hst, hb.hyst.trans hh, hb.target.trans htarget⟩

end Sys2Proof.Machine

namespace Sys2Proof.Machine

/-! ### Phases of a pulse (R155 to R158) -/

theorem native_of_chanLive {s : State} (h : chanLive s = true) : isNative s = true := by
  simp only [chanLive, liveN, Bool.and_eq_true] at h
  obtain ⟨⟨hn, -⟩, -⟩ := h
  exact hn

theorem tboostElapsed_due (n : Fin 8) (s : State) (h : dueTboost s n = true) :
    ∃ t, exec (.tboostElapsed n) s = .next t ∧ t.chan[sh n].st = .dead ∧ t.chan[sh n].drv = false ∧ t.chan[sh n].pulse.exitAt = some s.clk.tb ∧
      { t with chan := s.chan, chs := s.chs, trip := s.trip, diag := s.diag } = s := by
  obtain ⟨hst, hdrv, hexit⟩ := boostExit_self (sh n) s
  exact ⟨_, congrArg Host.Outcome.next (if_pos h), hst, hdrv, hexit, chanFrame_of_but (boostExit_but _ _)⟩

theorem tboostElapsed_early (n : Fin 8) (s : State) (h : dueTboost s n = false) : exec (.tboostElapsed n) s = .next s :=
  congrArg Host.Outcome.next (if_neg (by simp [h]))

/-- The channel with its dead time over (R157). -/
def deadOver (n : Fin 12) (s : State) : State := updChan n (fun c => { c with reg := { c.reg with deadTo := none } }) s

theorem deadOver_chan (n : Fin 12) (s : State) : (deadOver n s).chan[n] = { s.chan[n] with reg := { s.chan[n].reg with deadTo := none } } :=
  updChan_self _ _ _

theorem opDeadEnd_dead {n : Fin 12} {s : State} (h : s.chan[n].st = .dead) : opDeadEnd n s = leaveDead n (deadOver n s) := by
  have hst : (deadOver n s).chan[n].st = .dead := (congrArg Chan.st (deadOver_chan n s)).trans h
  exact if_pos (beq_iff_eq.mpr hst)

/-- Before TPEAK is over DEAD ends in PEAK (R155). -/
theorem leaveDead_peak {n : Fin 12} {s : State} (hover : s.chan[n].pulse.peakOver = false) (hdone : peakDone s s.chan[n] = false) :
    leaveDead n s = enterPeak n s :=
  if_neg (by rw [hover, hdone]; decide)

/-- Once TPEAK is noted, DEAD ends in HOLD while THOLD still runs (R155). -/
theorem leaveDead_hold {n : Fin 12} {s : State} (hover : s.chan[n].pulse.peakOver = true) (hthold : tholdOver s n = false) :
    leaveDead n s = enterHold n s := by
  unfold leaveDead
  rw [hover, if_pos (Bool.true_or _), if_pos rfl]
  exact if_neg (by rw [hthold]; decide)

theorem exec_deadTimeEnd_dead {n : Fin 8} {s : State} (h : dueDeadEnd s n = true) (hst : s.chan[sh n].st = .dead) :
    exec (.deadTimeEnd n) s = .next (leaveDead (sh n) (deadOver (sh n) s)) :=
  congrArg Host.Outcome.next ((if_pos h).trans (opDeadEnd_dead hst))

theorem deadTimeEnd_peak (n : Fin 8) (s : State) (h : dueDeadEnd s n = true) (hst : s.chan[sh n].st = .dead)
    (hover : s.chan[sh n].pulse.peakOver = false) (hdone : peakDone s s.chan[sh n] = false) :
    ∃ t, exec (.deadTimeEnd n) s = .next t ∧ t.chan[sh n].st = .peak ∧
      { t with chan := s.chan, chs := s.chs, trip := s.trip, diag := s.diag } = s := by
  have hleave : leaveDead (sh n) (deadOver (sh n) s) = enterPeak (sh n) (deadOver (sh n) s) :=
    leaveDead_peak (by rw [deadOver_chan]; exact hover) (by rw [deadOver_chan]; exact hdone)
  rw [exec_deadTimeEnd_dead h hst, hleave]
  exact ⟨_, rfl, enterPeak_st _ _, chanFrame_of_but (enterPeak_but _ _)⟩

theorem deadTimeEnd_hold (n : Fin 8) (s : State) (h : dueDeadEnd s n = true) (hst : s.chan[sh n].st = .dead)
    (hover : s.chan[sh n].pulse.peakOver = true) (hthold : tholdOver s (sh n) = false) :
    ∃ t, exec (.deadTimeEnd n) s = .next t ∧ t.chan[sh n].st = .hold ∧ t.chan[sh n].reg.h = s.chan[sh n].pulse.cHysh ∧
      t.chan[sh n].reg.target = throttled s.chan[sh n].pulse.cHold (stepOf s (sh n)) ∧
      { t with chan := s.chan, chs := s.chs, trip := s.trip, diag := s.diag } = s := by
  have hleave : leaveDead (sh n) (deadOver (sh n) s) = enterHold (sh n) (deadOver (sh n) s) :=
    leaveDead_hold (by rw [deadOver_chan]; exact hover) (by unfold tholdOver; rw [deadOver_chan]; exact hthold)
  obtain ⟨hhold, hh, htarget⟩ := enterHold_self (sh n) (deadOver (sh n) s)
  rw [deadOver_chan] at hh htarget
  rw [exec_deadTimeEnd_dead h hst, hleave]
  exact ⟨_, rfl, hhold, hh, htarget, chanFrame_of_but (enterHold_but _ _)⟩

theorem deadTimeEnd_early (n : Fin 8) (s : State) (h : dueDeadEnd s n = false) : exec (.deadTimeEnd n) s = .next s :=
  congrArg Host.Outcome.next (if_neg (by simp [h]))

/-- The end of TPEAK is noted in the pulse alone (R155). -/
theorem markPeakEnd_self (n : Fin 12) (s : State) :
    ∃ e, (markPeakEnd n s).chan[n] = { s.chan[n] with pulse := { s.chan[n].pulse with peakOver := true, holdAt := e } } :=
  ⟨_, updChan_self _ _ _⟩

theorem tpeakElapsed_peak (n : Fin 8) (s : State) (h : dueTpeak s n = true) (hst : s.chan[sh n].st = .peak) :
    ∃ t, exec (.tpeakElapsed n) s = .next t ∧ t.chan[sh n].st = .hold ∧ t.chan[sh n].reg.h = s.chan[sh n].pulse.cHysh ∧
      t.chan[sh n].reg.target = throttled s.chan[sh n].pulse.cHold (stepOf s (sh n)) ∧
      { t with chan := s.chan, chs := s.chs, trip := s.trip, diag := s.diag } = s := by
  obtain ⟨e, hmark⟩ := markPeakEnd_self (sh n) s
  have hop : opTpeak (sh n) s = enterHold (sh n) (markPeakEnd (sh n) s) := if_pos (by rw [hmark, hst]; rfl)
  obtain ⟨hhold, hh, htarget⟩ := enterHold_self (sh n) (markPeakEnd (sh n) s)
  rw [hmark] at hh htarget
  exact ⟨_, congrArg Host.Outcome.next ((if_pos h).trans hop), hhold, hh, htarget, chanFrame_of_but (enterHold_but _ _)⟩

theorem tpeakElapsed_dead (n : Fin 8) (s : State) (h : dueTpeak s n = true) (hst : s.chan[sh n].st = .dead) :
    ∃ t, exec (.tpeakElapsed n) s = .next t ∧ t.chan[sh n].st = .dead ∧ t.chan[sh n].pulse.peakOver = true ∧
      (∀ m : Fin 12, m ≠ sh n → t.chan[m] = s.chan[m]) ∧ { t with chan := s.chan } = s := by
  obtain ⟨e, hmark⟩ := markPeakEnd_self (sh n) s
  have hop : opTpeak (sh n) s = markPeakEnd (sh n) s := if_neg (by rw [hmark, hst]; decide)
  exact ⟨_, congrArg Host.Outcome.next ((if_pos h).trans hop), (congrArg Chan.st hmark).trans hst, congrArg (·.pulse.peakOver) hmark,
    fun _ hm => updChan_other _ _ hm, rfl⟩

theorem tpeakElapsed_early (n : Fin 8) (s : State) (h : dueTpeak s n = false) : exec (.tpeakElapsed n) s = .next s :=
  congrArg Host.Outcome.next (if_neg (by simp [h]))

theorem tholdElapsed_due (n : Fin 8) (s : State) (h : dueThold s n = true) :
    ∃ t, exec (.tholdElapsed n) s = .next t ∧ t.chan[sh n].st = .decay ∧ t.chan[sh n].drv = false ∧ t.chan[sh n].pulse.decAt = s.clk.tb ∧
      t.chan[sh n].pulse.decRun = 0 ∧ { t with chan := s.chan, chs := s.chs, trip := s.trip, diag := s.diag } = s := by
  obtain ⟨hst, hdrv, hat, hrun⟩ := enterDecay_self (sh n) s
  exact ⟨_, congrArg Host.Outcome.next (if_pos h), hst, hdrv, hat, hrun, chanFrame_of_but (enterDecay_but _ _)⟩

theorem tholdElapsed_early (n : Fin 8) (s : State) (h : dueThold s n = false) : exec (.tholdElapsed n) s = .next s :=
  congrArg Host.Outcome.next (if_neg (by simp [h]))

/-- An operation on channels behind an event changes the channels, what they share, the trip input and the waiting events. -/
theorem raisedFrame_of_but {s t : State} {src ch : Nat} {det : Word} (hn : isNative s = true) (h : but 137216 t = but 137216 (raise src ch det s)) :
    { quietly s t with chan := s.chan, chs := s.chs, trip := s.trip, diag := s.diag } = s := by
  rw [eq_of_chanBut h, raise_native src ch det hn]
  rfl

theorem raise_chan (src ch : Nat) (det : Word) (s : State) : (raise src ch det s).chan = s.chan := chan_of_but rfl (raise_but src ch det s)

/-- The max on-time ends a pulse in LOW or in DECAY, low (R156, R161). -/
theorem opMaxOn_self (n : Fin 12) (s : State) :
    (opMaxOn n s).chan[n].st = (if s.chan[n].st = .high then .low else .decay) ∧ (opMaxOn n s).chan[n].drv = false := by
  unfold opMaxOn
  simp only [raise_chan, beq_iff_eq]
  split
  · exact enterLow_self _ _
  · obtain ⟨hst, hdrv, -⟩ := enterDecay_self n (raise 13 n.val 0 s)
    exact ⟨hst, hdrv⟩

theorem opMaxOn_frame (n : Fin 12) (s : State) : but 137216 (opMaxOn n s) = but 137216 (raise 13 n.val 0 s) := by
  unfold opMaxOn
  dsimp only
  split
  · exact enterLow_but _ _
  · exact enterDecay_but _ _

theorem maxOnTime_due (n : Fin 12) (s : State) (h : dueMaxOn s n = true) :
    ∃ t, exec (.maxOnTime n) s = .next t ∧ t.chan[n].st = (if s.chan[n].st = .high then .low else .decay) ∧ t.chan[n].drv = false ∧
      waits t 13 n.val 0 ∧ { quietly s t with chan := s.chan, chs := s.chs, trip := s.trip, diag := s.diag } = s := by
  have hn : isNative s = true := by
    simp only [dueMaxOn, Bool.and_eq_true] at h
    obtain ⟨⟨hlive, -⟩, -⟩ := h
    exact native_of_chanLive hlive
  obtain ⟨hst, hdrv⟩ := opMaxOn_self n s
  have hframe := opMaxOn_frame n s
  exact ⟨_, congrArg Host.Outcome.next (if_pos h), hst, hdrv, waits_of_flt (flt_of_but rfl hframe) (raise_waits 13 n.val 0 hn),
    raisedFrame_of_but hn hframe⟩

theorem maxOnTime_early (n : Fin 12) (s : State) (h : dueMaxOn s n = false) : exec (.maxOnTime n) s = .next s :=
  congrArg Host.Outcome.next (if_neg (by simp [h]))

theorem decayTimeout_due (n : Fin 8) (s : State) (h : dueDecay s n = true) :
    ∃ t, exec (.decayTimeout n) s = .next t ∧ t.chan[sh n].st = .idle ∧ t.chan[sh n].cfg.scpend = 0 ∧
      (lineBroken s (sh n) = false → waits t 14 n.val 0) ∧
      { quietly s t with chan := s.chan, chs := s.chs, trip := s.trip, diag := s.diag } = s := by
  have hn : isNative s = true := by
    simp only [dueDecay, Bool.and_eq_true] at h
    obtain ⟨⟨hlive, -⟩, -⟩ := h
    exact native_of_chanLive hlive
  have hexec : exec (.decayTimeout n) s = .next (opDecayTimeout (sh n) s) := congrArg Host.Outcome.next (if_pos h)
  rw [hexec]
  unfold opDecayTimeout
  cases hb : lineBroken s (sh n) with
  | true =>
    obtain ⟨hst, hsc⟩ := enterIdle_self (sh n) s
    refine ⟨_, rfl, hst, hsc, fun hf => absurd hf (by decide), ?_⟩
    rw [if_pos rfl, eq_of_chanBut (enterIdle_but (sh n) s)]
    rfl
  | false =>
    obtain ⟨hst, hsc⟩ := enterIdle_self (sh n) (raise 14 n.val 0 s)
    have hframe := enterIdle_but (sh n) (raise 14 n.val 0 s)
    exact ⟨_, rfl, hst, hsc, fun _ => waits_of_flt (flt_of_but rfl hframe) (raise_waits 14 n.val 0 hn), raisedFrame_of_but hn hframe⟩

/-- Settles O36: each timeout by the entry into the state that it ends in, and nothing before its instant. -/
theorem pulsePhases : Obligations.PulsePhases :=
  ⟨tboostElapsed_due, tboostElapsed_early, deadTimeEnd_peak, deadTimeEnd_hold, deadTimeEnd_early, tpeakElapsed_peak, tpeakElapsed_dead,
    tpeakElapsed_early, tholdElapsed_due, tholdElapsed_early, maxOnTime_due, maxOnTime_early, decayTimeout_due⟩

end Sys2Proof.Machine

/-! The output enable and the output disable (R142 to R144, R201, R401). -/

namespace Sys2Proof.Machine

/-! ### The output disable (R142, R401) -/

/-- While the native outputs are disabled every pin reads low, the pin-drive test aside (R142). -/
theorem pinsLow_of_outputsOff {s : State} (hp : s.dbg.ptest = false) (h : outputsOn s = false) : pinsLow s := by
  simp [pinsLow, pinDrv, pinBoost, pinCstb, hp, h]

/-- Each condition of R142 disables the native outputs. -/
theorem outputsOff_native {s : State} (hn : isNative s = true)
    (h : s.sys.oe = false ∨ s.clk.fclkOn = false ∨ s.clk.fdReset = true ∨ s.flt.safe = true ∨ blkOn s .chan = false) : outputsOn s = false := by
  unfold outputsOn
  rw [if_pos hn]
  obtain h | h | h | h | h := h <;> simp [h]

/-- Without FCLK the pin-drive test drives no pin (R401). -/
theorem testPin_stopped {s : State} (b : Nat) (h : s.clk.fclkOn = false) : testPin s b = false := by
  simp [testPin, h]

/-- TRIP# asserted holds DRV0 to DRV11 and BOOSTEN low in the test (R401). -/
theorem testPin_tripped {s : State} {b : Nat} (h : s.trip.tripin = true) (hb : b ≤ 12) : testPin s b = false := by
  simp [testPin, h, hb]

/-- Settles O12: outside the pin-drive test by the output disable, in it by the pin itself. -/
theorem outputDisable : Obligations.OutputDisable := by
  refine ⟨fun s hn hp h => pinsLow_of_outputsOff hp (outputsOff_native hn h), fun s hp hf => ?_, fun s hp ht => ?_⟩
  · simp [pinsLow, pinDrv, pinBoost, pinCstb, hp, testPin_stopped _ hf]
  · refine ⟨fun n => ?_, ?_⟩
    · rw [pinDrv, if_pos hp, testPin_tripped ht (by omega)]
    · rw [pinBoost, if_pos hp, testPin_tripped ht (by omega)]

/-! ### Writes of SYSCTL (R142, R143, R415) -/

theorem exec_oeSet {s : State} (ho : regOpen s 0x06 = true) (hb : hostBus s = true) : exec .oeSet s = .next (oeOnOp s) := by
  change Host.Outcome.next (hostRow .oeSet (sysctlDo 0x0001 false) s) = _
  rw [hostRow_hostBus _ _ hb, sysctlDo, if_pos ho]
  rfl

theorem exec_oeClear {s : State} (ho : regOpen s 0x06 = true) (hb : hostBus s = true) : exec .oeClear s = .next (oeOffOp s) := by
  change Host.Outcome.next (hostRow .oeClear (sysctlDo 0x0000 false) s) = _
  rw [hostRow_hostBus _ _ hb, sysctlDo, if_pos ho]
  rfl

theorem native_of_regOpen {s : State} {a : Nat} (h : regOpen s a = true) : isNative s = true := by
  simp only [regOpen, Bool.and_eq_true] at h
  obtain ⟨⟨hu, -⟩, -⟩ := h
  exact native_of_busUp hu

/-- Where OE may rise, it rises and TRIP# is looked at (R143, R201). -/
theorem oeOnOp_rises {s : State} (hoe : s.sys.oe = false) (hboot : s.sys.boot = 5) (hsafe : s.flt.safe = false) (hp : s.dbg.ptest = false) :
    oeOnOp s = oeTrip (updSys (fun y => { y with oe := true }) s) :=
  if_neg (by rw [hoe, hboot, hsafe, hp]; decide)

/-- OE that is 1 stays, and in the safe state and the pin-drive test it does not rise (R260, R401). -/
theorem oeOnOp_ignored {s : State} (h : s.sys.oe = true ∨ s.flt.safe = true ∨ s.dbg.ptest = true) : oeOnOp s = s :=
  if_pos (by obtain h | h | h := h <;> simp [h])

/-! ### Trip groups that latch (R201, R206) -/

/-- What the channel operations change of the trip input is a dead time: the latches stay. -/
theorem boostUpdate_latched (old : Vector Chan 12) (s : State) : (boostUpdate old s).trip.latched = s.trip.latched := by
  have hforce : ∀ t, (forceLow t).trip = t.trip := fun t => trip_of_but rfl (forceLow_but t)
  obtain h | ⟨e, h⟩ | h := boostUpdate_cases old s
  · rw [h, hforce]
  · rw [h]
    rfl
  · rw [h]

theorem settle_latched (n : Fin 12) (st : ChSt) (s : State) : (settle n st s).trip.latched = s.trip.latched := by
  have hdrv : ∀ t, (setDrv n false t).trip = t.trip := fun t => trip_of_but rfl (setDrv_but n false t)
  unfold settle
  dsimp only
  rw [boostUpdate_latched, hdrv, updChan_trip]

theorem tripInput_latched (n : Fin 12) (s : State) : (tripInput n s).trip.latched = s.trip.latched := by
  have hdrv : (setDrv1 n false s).trip = s.trip := trip_of_but rfl (setDrv1_but n false s)
  have hsettle := settle_latched n .tripped s
  unfold tripInput
  cases s.chan[n].st <;> first | exact hsettle | rw [hdrv]

theorem tripAll_latched (s : State) : (tripAll s).trip.latched = s.trip.latched :=
  foldSt_keeps (fun t => t.trip.latched) tripInput_latched s

/-- A group is latched afterwards when it was or is named. -/
theorem foldl_latch (gs : List (Fin 4)) (v : Vector Bool 4) (g : Fin 4) :
    (gs.foldl (fun v (g : Fin 4) => v.set g true) v)[g] = (v[g] || decide (g ∈ gs)) := by
  induction gs generalizing v with
  | nil => simp
  | cons k ks ih =>
    rw [List.foldl_cons, ih]
    by_cases h : g = k
    · subst h
      simp
    · have hset : (v.set k true)[g] = v[g] := Vector.getElem_set_ne _ _ fun e => h (Fin.ext e.symm)
      rw [hset]
      simp [h]

theorem latchGroups_latched (src : Nat) (gs : List (Fin 4)) (s : State) :
    (latchGroups src gs s).trip.latched = gs.foldl (fun v (g : Fin 4) => v.set g true) s.trip.latched := by
  have hraise : ∀ ch det t, (raiseC src ch det true t).trip = t.trip := fun ch det t => trip_of_but rfl (raiseC_but src ch det true t)
  have hdrop : ∀ p t, (dropPins p t).trip = t.trip := fun p t => trip_of_but rfl (dropPins_but p t)
  unfold latchGroups
  by_cases h : gs.isEmpty = true
  · rw [if_pos h, List.isEmpty_iff.mp h]
    rfl
  · rw [if_neg h]
    dsimp only
    rw [setInt_trip, hraise, hdrop, tripAll_latched]

/-- At a rise of OE an asserted TRIP# latches every group (R201). -/
theorem oeTrip_latches {s : State} (h : s.trip.tripin = true) (g : Fin 4) : (oeTrip s).trip.latched[g] = true := by
  unfold oeTrip
  rw [if_pos h, latchGroups_latched, foldl_latch]
  cases hg : s.trip.latched[g] with
  | true => rfl
  | false =>
    have hmem : g ∈ vwhere fun g : Fin 4 => !s.trip.latched[g] := by
      rw [vwhere, List.mem_filter, hg]
      exact ⟨List.mem_finRange g, rfl⟩
    rw [decide_eq_true hmem]
    rfl

theorem oeSet_rises (s : State) (ho : regOpen s 0x06 = true) (hb : hostBus s = true) (hoe : s.sys.oe = false) (hboot : s.sys.boot = 5)
    (hsafe : s.flt.safe = false) (hp : s.dbg.ptest = false) (ht : s.trip.tripin = false) :
    exec .oeSet s = .next { s with sys := { s.sys with oe := true } } := by
  rw [exec_oeSet ho hb, oeOnOp_rises hoe hboot hsafe hp, oeTrip, if_neg (by rw [updSys_trip, ht]; decide)]
  rfl

theorem oeSet_latches (s : State) (ho : regOpen s 0x06 = true) (hb : hostBus s = true) (hoe : s.sys.oe = false) (hboot : s.sys.boot = 5)
    (hsafe : s.flt.safe = false) (hp : s.dbg.ptest = false) (ht : s.trip.tripin = true) :
    ∃ t, exec .oeSet s = .next t ∧ t.sys = { s.sys with oe := true } ∧ (∀ g : Fin 4, t.trip.latched[g] = true) ∧ t.store = s.store ∧
      t.pending = s.pending := by
  have hframe := oeTrip_but (updSys (fun y => { y with oe := true }) s)
  rw [exec_oeSet ho hb, oeOnOp_rises hoe hboot hsafe hp]
  exact ⟨_, rfl, sys_of_but rfl hframe, oeTrip_latches ht, (store_of_but rfl hframe :), (pending_of_but rfl hframe :)⟩

theorem oeSet_ignored (s : State) (ho : regOpen s 0x06 = true) (hb : hostBus s = true) (h : s.sys.oe = true ∨ s.flt.safe = true ∨ s.dbg.ptest = true) :
    exec .oeSet s = .next s := by
  rw [exec_oeSet ho hb, oeOnOp_ignored h]

/-! ### The fall of OE (R143, R144) -/

/-- The state of no channel changes (R159). -/
def statesStay (s t : State) : Prop := ∀ n : Fin 12, t.chan[n].st = s.chan[n].st

theorem statesStay.refl (s : State) : statesStay s s := fun _ => rfl

theorem statesStay.trans {s t u : State} (h : statesStay s t) (h' : statesStay t u) : statesStay s u := fun n => (h' n).trans (h n)

theorem foldSt_statesStay {α : Type} {xs : List α} {f : α → State → State} (hf : ∀ x t, statesStay t (f x t)) (s : State) :
    statesStay s (foldSt xs f s) := fun n => foldSt_keeps (fun t => t.chan[n].st) (fun x t => hf x t n) s

theorem updChan_statesStay (n : Fin 12) {f : Chan → Chan} (hf : ∀ c, (f c).st = c.st) (s : State) : statesStay s (updChan n f s) := by
  intro m
  by_cases hm : m = n
  · subst hm
    rw [updChan_self, hf]
  · rw [updChan_other f s hm]

theorem boostRise_statesStay (s : State) : statesStay s (boostRise s) := by
  intro n
  have hgroups : ∀ gs : List (Fin 4), (foldSt gs (fun g t => groupRise g.val t) s).chan = s.chan :=
    fun gs => foldSt_keeps (fun t => t.chan) (fun (g : Fin 4) t => chan_of_but rfl (groupRise_but g.val t)) s
  unfold boostRise
  dsimp only
  rw [vmapi_getElem, hgroups]
  split <;> rfl

theorem pinRise_statesStay (n : Fin 12) (s : State) : statesStay s (pinRise n s) :=
  updChan_statesStay n (f := fun c => { c with riseAt := some s.clk.tb, riseBlank := s.trip.tblank }) (fun _ => rfl) s

theorem pinFall_statesStay (n : Fin 12) (s : State) : statesStay s (pinFall n s) :=
  updChan_statesStay n (f := fun c => { c with fallAt := some s.clk.tb }) (fun _ => rfl) s

/-- The edges of the pins are noted, and leave every channel in its state. -/
theorem pinEdges_statesStay (s : State) : statesStay s (pinEdges s) := by
  have hpins : ∀ p, statesStay s { s with pins := p } := fun _ => .refl s
  have hedges : ∀ xs ys p, statesStay s (foldSt xs pinFall (foldSt ys pinRise { s with pins := p })) := fun xs ys p =>
    ((hpins p).trans (foldSt_statesStay pinRise_statesStay _)).trans (foldSt_statesStay pinFall_statesStay _)
  have hends : ∀ t, statesStay t (boostFall t) := fun t n => (boostEnds_moves _ t n).st
  unfold pinEdges
  dsimp only
  split
  · exact (hedges _ _ _).trans (boostRise_statesStay _)
  · split
    · exact (hedges _ _ _).trans (hends _)
    · exact hedges _ _ _

/-- Neither active nor high: what the fall of OE leaves a channel in (R144). -/
def Rests (c : Chan) : Prop := c.st.active = false ∧ c.st ≠ .high

/-- What the fall of OE does to one channel (R143, R144). -/
def downCh (n : Fin 12) (t : State) : State :=
  if t.chan[n].st.active then enterDecay n t else if t.chan[n].st == .high then enterLow n t else setDrv1 n false t

theorem rests_of_st {c : Chan} {st : ChSt} (h : c.st = st) (hact : st.active = false) (hhigh : st ≠ .high) : Rests c := by
  subst h
  exact ⟨hact, hhigh⟩

theorem downCh_rests (n : Fin 12) (s : State) : Rests (downCh n s).chan[n] := by
  unfold downCh
  by_cases hact : s.chan[n].st.active = true
  · rw [if_pos hact]
    obtain ⟨hst, -⟩ := enterDecay_self n s
    exact rests_of_st hst rfl (by decide)
  · rw [if_neg hact]
    by_cases hhigh : s.chan[n].st = .high
    · rw [if_pos (beq_iff_eq.mpr hhigh)]
      obtain ⟨hst, -⟩ := enterLow_self n s
      exact rests_of_st hst rfl (by decide)
    · rw [if_neg (fun h => hhigh (beq_iff_eq.mp h))]
      exact rests_of_st (congrArg Chan.st (updChan_self _ _ _)) (Bool.eq_false_iff.mpr hact) hhigh

theorem applyScale_statesStay (n : Fin 12) (s : State) : statesStay s (applyScale n s) := by
  have hscale : ∀ k sc t, statesStay t (updChan k (scaled sc) t) := fun k sc t => updChan_statesStay k (f := scaled sc) (fun _ => rfl) t
  unfold applyScale
  split
  · exact .refl s
  · dsimp only
    split
    · exact (hscale _ _ _).trans (hscale _ _ _)
    · exact hscale _ _ _

theorem downCh_other {n m : Fin 12} (s : State) (hm : m ≠ n) : (downCh n s).chan[m].st = s.chan[m].st := by
  unfold downCh
  split
  · exact (congrArg Chan.st (updChan_other _ _ hm)).trans (settle_other .decay s hm).st
  · split
    · exact (applyScale_statesStay n _ m).trans (settle_other .low s hm).st
    · exact congrArg Chan.st (updChan_other _ _ hm)

/-- A run over channels, each put to rest and none moved by another, puts every one to rest. -/
theorem foldSt_rests {ns : List (Fin 12)} {n : Fin 12} (hn : n ∈ ns) (s : State) : Rests (foldSt ns downCh s).chan[n] := by
  unfold foldSt
  induction ns using List.reverseRecOn with
  | nil => exact absurd hn (List.not_mem_nil)
  | append_singleton ks k ih =>
    rw [List.foldl_append, List.foldl_cons, List.foldl_nil]
    by_cases h : n = k
    · subst h
      exact downCh_rests n _
    · rw [Rests, downCh_other _ h]
      exact ih (by simpa [h] using hn)

theorem outputsDown_eq (s : State) : outputsDown s =
    pinEdges { foldSt (List.finRange 12) downCh s with
      cpc := { (foldSt (List.finRange 12) downCh s).cpc with strobeAt := none }
      pins := { (foldSt (List.finRange 12) downCh s).pins with outs := Vector.replicate 3 {} } } := by
  unfold outputsDown downCh
  dsimp only

/-- The edges that follow the fall at the pins leave the states of the channels (R144). -/
theorem pinEdges_dropped_st (s : State) (c : Cpc) (p : Pins) (n : Fin 12) : (pinEdges { s with cpc := c, pins := p }).chan[n].st = s.chan[n].st :=
  pinEdges_statesStay { s with cpc := c, pins := p } n

theorem outputsDown_rests (s : State) (n : Fin 12) : Rests (outputsDown s).chan[n] := by
  obtain ⟨hact, hhigh⟩ := foldSt_rests (List.mem_finRange n) s
  rw [outputsDown_eq]
  exact rests_of_st (pinEdges_dropped_st _ _ _ n) hact hhigh

theorem oeOffOp_eq {s : State} (h : s.sys.oe = true) : oeOffOp s = windowsCheck (outputsDown (updSys (fun y => { y with oe := false }) s)) :=
  if_pos h

theorem oeOffOp_rests {s : State} (h : s.sys.oe = true) (n : Fin 12) : Rests (oeOffOp s).chan[n] := by
  rw [oeOffOp_eq h, chan_of_but rfl (windowsCheck_but _)]
  exact outputsDown_rests _ n

theorem oeOffOp_sys {s : State} (h : s.sys.oe = true) : (oeOffOp s).sys = { s.sys with oe := false } := by
  have hdown := sys_of_but rfl (outputsDown_but (updSys (fun y => { y with oe := false }) s))
  rw [oeOffOp_eq h]
  exact (sys_of_but rfl (windowsCheck_but _)).trans hdown

theorem oeClear_falls (s : State) (ho : regOpen s 0x06 = true) (hb : hostBus s = true) (hoe : s.sys.oe = true) (hp : s.dbg.ptest = false) :
    ∃ t, exec .oeClear s = .next t ∧ t.sys = { s.sys with oe := false } ∧ pinsLow t ∧
      (∀ n : Fin 12, t.chan[n].st.active = false ∧ t.chan[n].st ≠ .high) ∧ t.sched = s.sched ∧ t.store = s.store ∧ t.pending = s.pending := by
  have hframe := oeOffOp_but s
  have hsys := oeOffOp_sys hoe
  have hrests := oeOffOp_rests hoe
  rw [exec_oeClear ho hb]
  generalize oeOffOp s = t at *
  have hn : isNative t = true := by
    have h := native_of_regOpen ho
    unfold isNative at h ⊢
    rwa [hsys]
  have hpt : t.dbg.ptest = false := by rwa [dbg_of_but rfl hframe]
  exact ⟨t, rfl, hsys, pinsLow_of_outputsOff hpt (outputsOff_native hn (.inl (by rw [hsys]))), hrests, sched_of_but rfl hframe,
    store_of_but rfl hframe, pending_of_but rfl hframe⟩

/-- Settles O11: a rise of OE with TRIP# at rest, asserted and where it is ignored, and the fall of OE channel by channel. -/
theorem outputEnable : Obligations.OutputEnable :=
  ⟨oeSet_rises, oeSet_latches, oeSet_ignored, oeClear_falls⟩

end Sys2Proof.Machine

namespace Sys2Proof.Machine

/-! ### Where the statement on sense frames fails (R149, R162, R163) -/

/-- The samples of a frame without stop bits: two high samples before it, and then a low line. -/
def noStopBits : BitVec 82 := 3

/-- Pair 0 regulates in HOLD at a high level, and the lower channel has counted a slot without a valid frame; the upper one
counts none, since line 0 decides for both. -/
def pairGap : State :=
  { State.reset with
    sys := { boot := 5, oe := true }
    clk := { fclkOn := true, tb := 1000000 }
    chs := { pairs := vupd State.reset.chs.pairs 0 fun _ => true }
    chan := vupd (vupd State.reset.chan 0 fun c => { c with cfg := { c.cfg with mode := 2, scale := 250 }, st := .hold, drv := true, gaps := 1 }) 1
      fun c => { c with cfg := { c.cfg with mode := 4, scale := 250 }, drv := true } }

/-- The second slot in a row without a valid frame drives both channels of the pair low (R149, R162). -/
theorem pairGap_levels : (opSenseFrame 0 noStopBits pairGap).chan[(1 : Fin 12)].drv = false := by decide

/-- Refutes O35: its clause on a frame with an error lets a channel keep its level when that channel has counted no gap. Of a pair only
the lower channel counts them, and its second one drives both channels low: the upper one falls with a count of 0. -/
theorem not_senseFrames : ¬ Obligations.SenseFrames := by
  rintro ⟨-, -, -, -, -, hbad, -⟩
  obtain ⟨t, ht, -, -, -, -, -, hlevels, -⟩ := hbad 0 noStopBits pairGap (by decide) rfl (by decide) rfl (by decide) (by decide) rfl
  obtain rfl : opSenseFrame 0 noStopBits pairGap = t := Host.Outcome.next.inj ht
  obtain ⟨-, hkeeps⟩ := hlevels 1
  have hhigh := hkeeps rfl
  rw [pairGap_levels] at hhigh
  exact absurd hhigh (by decide)

end Sys2Proof.Machine

/-! Frames of the converter and the pop ports of its buffers (R131 to R139). -/

namespace Sys2Proof.Machine

/-! ### Entries of the converter (R133, R139) -/

theorem native_of_cpsLive {s : State} (h : cpsLive s = true) : isNative s = true := by
  simp only [cpsLive, liveN, Bool.and_eq_true] at h
  obtain ⟨⟨hn, -⟩, -⟩ := h
  exact hn

/-- The entry of a strobe with an error code, a result and its value of SEQ (R133, R139). -/
def convQuad (x : Strobe) (err : Nat) (result q : Word) : Quad :=
  ⟨result, q, w16 x.angle, w16 (x.angle / 65536 + 16 * x.src + 256 * err + b2n x.dly 10 + b2n x.cyc0 11 + 32768)⟩

/-- The words of entries by their error code. -/
theorem convQuad_zero (x : Strobe) (r q : Word) :
    convQuad x 0 r q = ⟨r, q, w16 x.angle, w16 (x.angle / 65536 + 16 * x.src + b2n x.dly 10 + b2n x.cyc0 11 + 32768)⟩ := by
  simp only [convQuad, Nat.mul_zero, Nat.add_zero]

theorem convQuad_one (x : Strobe) (r q : Word) :
    convQuad x 1 r q = ⟨r, q, w16 x.angle, w16 (x.angle / 65536 + 16 * x.src + 256 + b2n x.dly 10 + b2n x.cyc0 11 + 32768)⟩ := by
  simp only [convQuad, Nat.mul_one]

theorem convQuad_two (x : Strobe) (r q : Word) :
    convQuad x 2 r q = ⟨r, q, w16 x.angle, w16 (x.angle / 65536 + 16 * x.src + 512 + b2n x.dly 10 + b2n x.cyc0 11 + 32768)⟩ := by
  simp only [convQuad, Nat.reduceMul]

theorem convQuad_three (x : Strobe) (r q : Word) :
    convQuad x 3 r q = ⟨r, q, w16 x.angle, w16 (x.angle / 65536 + 16 * x.src + 768 + b2n x.dly 10 + b2n x.cyc0 11 + 32768)⟩ := by
  simp only [convQuad, Nat.reduceMul]

/-- The state behind an entry that is the last record of its tick so far and finds room (R111, R112, R134), with the interrupt
conditions and those of their tick. -/
def convAppended (x : Strobe) (err : Nat) (result : Word) (ints fresh : Word) (at_ : Tb) (s : State) : State :=
  { s with
    sched := { s.sched with seq := s.sched.seq + 1, ranks := (ranksNow s).filter (· ≤ rankConv) ++ rankConv :: (ranksNow s).filter (rankConv < ·), ranksAt := s.clk.tb }
    cpc := { s.cpc with cv := { s.cpc.cv with q := s.cpc.cv.q ++ [convQuad x err result s.sched.seq] } }
    bus := { s.bus with intstat := ints, fresh := fresh, freshAt := at_ } }

/-- No record of the tick stands behind a converter entry, whose rank is the highest (R112). -/
theorem laterRecs_appended {x : Strobe} {err : Nat} {r i f : Word} {a : Tb} {s : State} (h : laterRecs rankConv s = 0) :
    laterRecs rankConv (convAppended x err r i f a s) = 0 := by
  have hnow : ranksNow (convAppended x err r i f a s) = (convAppended x err r i f a s).sched.ranks := if_pos (beq_self_eq_true s.clk.tb)
  have hnone : (ranksNow s).filter (rankConv < ·) = [] := List.length_eq_zero_iff.mp h
  rw [laterRecs, hnow]
  simp [convAppended, hnone]

/-- An entry that finds room in the converter buffer is appended; beside it only interrupt conditions move (R134, R136). -/
theorem pushConv_room {s : State} (q : Quad) (h : s.cpc.cv.q.length < 64) :
    ∃ i f a, pushConv q s =
      { s with cpc := { s.cpc with cv := { s.cpc.cv with q := s.cpc.cv.q ++ [q] } }, bus := { s.bus with intstat := i, fresh := f, freshAt := a } } := by
  have hfits : bufPush 64 s.clk.tb q s.cpc.cv = { s.cpc.cv with q := s.cpc.cv.q ++ [q] } := if_pos h
  unfold pushConv setIntIf
  dsimp only
  rw [hfits]
  split
  · exact ⟨_, _, _, rfl⟩
  · exact ⟨s.bus.intstat, s.bus.fresh, s.bus.freshAt, rfl⟩

/-- An entry that finds room is appended; with ERR 1 or 2 it raises source 10 and sets its condition (R132, R133). -/
theorem convEntry_room (x : Strobe) (err : Nat) (r : Word) {s : State} (hlater : laterRecs rankConv s = 0) (hroom : s.cpc.cv.q.length < 64) :
    ∃ i f a, convEntry x err r s =
      if err = 1 ∨ err = 2 then setInt 7 (raise 10 0 (w16 err) (convAppended x err r i f a s)) else convAppended x err r i f a s := by
  obtain ⟨i, f, a, h⟩ := pushConv_room (s := { s with sched := (convAppended x err r 0 0 0 s).sched }) (convQuad x err r s.sched.seq) hroom
  refine ⟨i, f, a, ?_⟩
  unfold convEntry
  rw [takeSeq_last hlater]
  simp only [Bool.or_eq_true, decide_eq_true_eq]
  exact if_congr Iff.rfl (congrArg (fun t => setInt 7 (raise 10 0 (w16 err) t)) h) h

/-- What an entry with ERR 1 or 2 leaves: itself, the event, and the condition. -/
theorem convEntry_raises {x : Strobe} {err : Nat} {s : State} (r : Word) (hn : isNative s = true) (herr : err = 1 ∨ err = 2)
    (hlater : laterRecs rankConv s = 0) (hroom : s.cpc.cv.q.length < 64) :
    (convEntry x err r s).cpc.strobes = s.cpc.strobes ∧ (convEntry x err r s).cpc.cv.q = s.cpc.cv.q ++ [convQuad x err r s.sched.seq] ∧
      waits (convEntry x err r s) 10 0 (w16 err) ∧ bit (convEntry x err r s).bus.intstat 7 = true ∧
      { quietly s (convEntry x err r s) with cpc := s.cpc, sched := s.sched } = s := by
  obtain ⟨i, f, a, h⟩ := convEntry_room x err r hlater hroom
  have hn' : isNative (convAppended x err r i f a s) = true := hn
  have hwaits := raise_waits 10 0 (w16 err) hn'
  rw [h, if_pos herr]
  refine ⟨?_, ?_, waits_of_flt rfl hwaits, bit_setInt _ (by decide), ?_⟩
  all_goals rw [raise_native _ _ _ hn']; rfl

/-- Two entries without an event, of one result, stand one behind the other (R111, R132). -/
theorem convEntry_twice (x y : Strobe) (r : Word) {s : State} (hlater : laterRecs rankConv s = 0) (hroom : s.cpc.cv.q.length < 63) :
    ∃ i f a i' f' a', convEntry y 3 r (convEntry x 0 r s) = convAppended y 3 r i' f' a' (convAppended x 0 r i f a s) := by
  obtain ⟨i, f, a, hfirst⟩ := convEntry_room x 0 r hlater (Nat.lt_succ_of_lt hroom)
  have hone : (convAppended x 0 r i f a s).cpc.cv.q.length < 64 := by
    change (s.cpc.cv.q ++ [convQuad x 0 r s.sched.seq]).length < 64
    rw [List.length_append]
    exact Nat.succ_lt_succ hroom
  obtain ⟨i', f', a', hsecond⟩ := convEntry_room y 3 r (laterRecs_appended hlater) hone
  rw [if_neg (by decide)] at hfirst hsecond
  exact ⟨i, f, a, i', f', a', by rw [hfirst, hsecond]⟩

/-! ### Which strobes a frame serves (R132) -/

theorem expired_none {s : State} {x : Strobe} {rest : List Strobe} {t : Tb} (hs : s.cpc.strobes = x :: rest)
    (h : tbGe t (tbAdd (claimAt s x) 51) = false) : expired s t = [] := by
  unfold expired
  rw [hs, List.takeWhile_cons_of_neg (by simp [h])]

theorem claimants_fresh {s : State} {t : Tb} (h : expired s t = []) : claimants s t = s.cpc.strobes.takeWhile fun x => tbGe t (claimAt s x) := by
  rw [claimants, h]
  rfl

/-- With no search over, a frame serves every strobe whose claim point it has passed. -/
theorem claimants_all {s : State} {xs : List Strobe} {t : Tb} (hes : expired s t = []) (hs : s.cpc.strobes = xs)
    (h : ∀ x ∈ xs, tbGe t (claimAt s x) = true) : claimants s t = xs := by
  rw [claimants_fresh hes, hs]
  exact List.takeWhile_eq_self_iff.mpr h

/-! ### A frame on CDAT (R131, R146) -/

/-- A receiver that does not begin here takes no frame (R146). -/
theorem opConverterFrame_ignored {f : BitVec 82} {s : State}
    (h : frameBegins f = false ∨ hunting s.clk.fcyc s.cdat = false ∨ (parseFrame (frameOf f)).start = true) : opConverterFrame f s = s :=
  if_pos (by obtain h | h | h := h <;> simp [h])

/-- The state whose line has taken the frame and whose first `k` strobes are served. -/
def frameTaken (f : BitVec 82) (k : Nat) (s : State) : State :=
  { s with cdat := cdatFrame s (parseFrame (frameOf f)), cpc := { s.cpc with strobes := s.cpc.strobes.drop k } }

/-- A frame without error leaves a line in wire break or not as it was, or ends its wire break (R148). -/
theorem cdatFrame_good {s : State} {b : FrameBits} (h : frameBad b false = false) :
    cdatFrame s b = lineValid s.clk.tb b (lineStart s.clk.fcyc s.cdat) := if_neg (by rw [h]; decide)

theorem cdatFrame_good_unbroken {s : State} {b : FrameBits} (h : frameBad b false = false) : ((cdatFrame s b).wbrk && !s.cdat.wbrk) = false := by
  rw [cdatFrame_good h]
  simp only [lineValid, lineStart]
  cases s.cdat.wbrk <;> simp

/-- A first or second frame in a row with an error breaks no line (R148). -/
theorem cdatFrame_bad_unbroken {s : State} {b : FrameBits} (h : frameBad b false = true) (hwbrk : s.cdat.wbrk = false) (hmiss : s.cdat.missing < 2) :
    ((cdatFrame s b).wbrk && !s.cdat.wbrk) = false := by
  have hcount : ¬ 3 ≤ satInc s.cdat.missing 3 := by
    unfold satInc
    split <;> omega
  unfold cdatFrame
  rw [if_pos h]
  simp [lineMissing, lineStart, hcount, hwbrk]

section
variable {f : BitVec 82} {s : State} (hbegins : frameBegins f = true) (hhunt : hunting s.clk.fcyc s.cdat = true)
  (hstart : (parseFrame (frameOf f)).start = false) (hline : ((cdatFrame s (parseFrame (frameOf f))).wbrk && !s.cdat.wbrk) = false)
  (hes : expired s (s.clk.tb - 40) = [])
include hbegins hhunt hstart hline hes

/-- A frame that no strobe claims changes its line alone. -/
theorem opConverterFrame_unclaimed (hcs : s.cpc.strobes = []) : opConverterFrame f s = { s with cdat := cdatFrame s (parseFrame (frameOf f)) } := by
  have hnone : claimants s (s.clk.tb - 40) = [] := by rw [claimants_fresh hes, hcs]; rfl
  unfold opConverterFrame
  rw [if_neg (by simp [hbegins, hhunt, hstart])]
  dsimp only
  rw [hline, hes, hnone, ite_self, if_neg Bool.false_ne_true]
  rfl

/-- The first strobe that claims the frame takes its result, or 0 with ERR 1, and the further ones ERR 3 (R132, R133). -/
theorem opConverterFrame_claimed {x : Strobe} {rest : List Strobe} (hwbrk : s.cdat.wbrk = false)
    (hcs : claimants s (s.clk.tb - 40) = x :: rest) :
    opConverterFrame f s =
      let err := if frameBad (parseFrame (frameOf f)) false then 1 else 0
      let r : Word := if err = 1 then 0 else (parseFrame (frameOf f)).result
      foldSt rest (fun y t => convEntry y 3 r t) (convEntry x err r (frameTaken f (rest.length + 1) s)) := by
  have hlen : ([] : List Strobe).length + (x :: rest).length = rest.length + 1 := Nat.zero_add _
  unfold opConverterFrame
  rw [if_neg (by simp [hbegins, hhunt, hstart])]
  dsimp only
  rw [hline, hes, hwbrk, if_neg Bool.false_ne_true, if_neg Bool.false_ne_true, hcs, hlen]
  rfl

end

section
variable {f : BitVec 82} {x : Strobe} {rest : List Strobe} {s : State} (hbegins : frameBegins f = true) (hhunt : hunting s.clk.fcyc s.cdat = true)
  (hstart : (parseFrame (frameOf f)).start = false) (hwbrk : s.cdat.wbrk = false) (hes : expired s (s.clk.tb - 40) = [])
  (hcs : claimants s (s.clk.tb - 40) = x :: rest)
include hbegins hhunt hstart hwbrk hes hcs

theorem opConverterFrame_good (hgood : frameBad (parseFrame (frameOf f)) false = false) :
    opConverterFrame f s = foldSt rest (fun y t => convEntry y 3 (parseFrame (frameOf f)).result t)
      (convEntry x 0 (parseFrame (frameOf f)).result (frameTaken f (rest.length + 1) s)) := by
  have h := opConverterFrame_claimed hbegins hhunt hstart (cdatFrame_good_unbroken hgood) hes hwbrk hcs
  rw [hgood] at h
  exact h

theorem opConverterFrame_error (hbad : frameBad (parseFrame (frameOf f)) false = true) (hmiss : s.cdat.missing < 2) :
    opConverterFrame f s = foldSt rest (fun y t => convEntry y 3 0 t) (convEntry x 1 0 (frameTaken f (rest.length + 1) s)) := by
  have h := opConverterFrame_claimed hbegins hhunt hstart (cdatFrame_bad_unbroken hbad hwbrk hmiss) hes hwbrk hcs
  rw [hbad] at h
  exact h

end

theorem exec_converterEntry {s : State} (f : BitVec 82) (h : cpsLive s = true) : exec (.converterEntry f) s = .next (opConverterFrame f s) :=
  congrArg Host.Outcome.next (if_pos h)

/-! ### The clauses of `Obligations.ConverterAndBuffers` on frames -/

theorem converterEntry_unclaimed (f : BitVec 82) (s : State) (hlive : cpsLive s = true) (hbegins : frameBegins f = true)
    (hhunt : hunting s.clk.fcyc s.cdat = true) (hstart : (parseFrame (frameOf f)).start = false) (hgood : frameBad (parseFrame (frameOf f)) false = false)
    (hnone : s.cpc.strobes = []) :
    ∃ t, exec (.converterEntry f) s = .next t ∧ t.cdat.any = true ∧ t.cdat.missing = 0 ∧ { t with cdat := s.cdat } = s := by
  have hes : expired s (s.clk.tb - 40) = [] := by
    unfold expired
    rw [hnone]
    rfl
  have hop := opConverterFrame_unclaimed hbegins hhunt hstart (cdatFrame_good_unbroken hgood) hes hnone
  rw [cdatFrame_good hgood] at hop
  exact ⟨_, (exec_converterEntry f hlive).trans (congrArg Host.Outcome.next hop), rfl, rfl, rfl⟩

/-- The only strobe claims a good frame. -/
theorem converterEntry_claimed (f : BitVec 82) (x : Strobe) (s : State) (hlive : cpsLive s = true) (hbegins : frameBegins f = true)
    (hhunt : hunting s.clk.fcyc s.cdat = true) (hstart : (parseFrame (frameOf f)).start = false) (hgood : frameBad (parseFrame (frameOf f)) false = false)
    (hwbrk : s.cdat.wbrk = false) (hx : s.cpc.strobes = [x]) (hclaim : tbGe (s.clk.tb - 40) (claimAt s x) = true)
    (hover : tbGe (s.clk.tb - 40) (tbAdd (claimAt s x) 51) = false) (hlater : laterRecs rankConv s = 0) (hroom : s.cpc.cv.q.length < 64) :
    ∃ t, exec (.converterEntry f) s = .next t ∧ t.cpc.strobes = [] ∧
      t.cpc.cv.q = s.cpc.cv.q ++ [⟨(parseFrame (frameOf f)).result, s.sched.seq, w16 x.angle, w16 (x.angle / 65536 + 16 * x.src + b2n x.dly 10 + b2n x.cyc0 11 + 32768)⟩] ∧
      t.sched.seq = s.sched.seq + 1 ∧ t.flt = s.flt ∧ { quietly s t with cdat := s.cdat, cpc := s.cpc, sched := s.sched } = s := by
  have hes := expired_none hx hover
  have hcs := claimants_all hes hx (by simpa using hclaim)
  have hop := opConverterFrame_good hbegins hhunt hstart hwbrk hes hcs hgood
  obtain ⟨i, g, a, hentry⟩ := convEntry_room (s := frameTaken f 1 s) x 0 (parseFrame (frameOf f)).result hlater hroom
  rw [exec_converterEntry f hlive, hop.trans hentry, ← convQuad_zero]
  refine ⟨_, rfl, ?_, rfl, rfl, rfl, rfl⟩
  exact congrArg (List.drop 1) hx

/-- Of two strobes that a good frame serves the second takes ERR 3. -/
theorem converterEntry_shared (f : BitVec 82) (x y : Strobe) (s : State) (hlive : cpsLive s = true) (hbegins : frameBegins f = true)
    (hhunt : hunting s.clk.fcyc s.cdat = true) (hstart : (parseFrame (frameOf f)).start = false) (hgood : frameBad (parseFrame (frameOf f)) false = false)
    (hwbrk : s.cdat.wbrk = false) (hxy : s.cpc.strobes = [x, y]) (hclaim : tbGe (s.clk.tb - 40) (claimAt s x) = true)
    (hover : tbGe (s.clk.tb - 40) (tbAdd (claimAt s x) 51) = false) (hclaim' : tbGe (s.clk.tb - 40) (claimAt s y) = true)
    (hlater : laterRecs rankConv s = 0) (hroom : s.cpc.cv.q.length < 63) :
    ∃ t, exec (.converterEntry f) s = .next t ∧ t.cpc.strobes = [] ∧
      t.cpc.cv.q = s.cpc.cv.q ++ [⟨(parseFrame (frameOf f)).result, s.sched.seq, w16 x.angle, w16 (x.angle / 65536 + 16 * x.src + b2n x.dly 10 + b2n x.cyc0 11 + 32768)⟩,
        ⟨(parseFrame (frameOf f)).result, s.sched.seq + 1, w16 y.angle, w16 (y.angle / 65536 + 16 * y.src + 768 + b2n y.dly 10 + b2n y.cyc0 11 + 32768)⟩] ∧
      t.flt = s.flt ∧ { quietly s t with cdat := s.cdat, cpc := s.cpc, sched := s.sched } = s := by
  have hes := expired_none hxy hover
  have hcs := claimants_all hes hxy (by simpa using ⟨hclaim, hclaim'⟩)
  have hop := opConverterFrame_good hbegins hhunt hstart hwbrk hes hcs hgood
  obtain ⟨i, g, a, i', g', a', hboth⟩ := convEntry_twice (s := frameTaken f 2 s) x y (parseFrame (frameOf f)).result hlater hroom
  rw [exec_converterEntry f hlive, hop, foldSt, List.foldl_cons, List.foldl_nil, List.length_singleton, hboth, ← convQuad_zero, ← convQuad_three]
  refine ⟨_, rfl, congrArg (List.drop 2) hxy, List.append_assoc _ _ _, rfl, ?_⟩
  dsimp only [quietly, convAppended, frameTaken]

/-- A frame with an error answers the strobe that claims it with 0 and ERR 1. -/
theorem converterEntry_error (f : BitVec 82) (x : Strobe) (s : State) (hlive : cpsLive s = true) (hbegins : frameBegins f = true)
    (hhunt : hunting s.clk.fcyc s.cdat = true) (hstart : (parseFrame (frameOf f)).start = false) (hbad : frameBad (parseFrame (frameOf f)) false = true)
    (hwbrk : s.cdat.wbrk = false) (hmiss : s.cdat.missing < 2) (hx : s.cpc.strobes = [x]) (hclaim : tbGe (s.clk.tb - 40) (claimAt s x) = true)
    (hover : tbGe (s.clk.tb - 40) (tbAdd (claimAt s x) 51) = false) (hlater : laterRecs rankConv s = 0) (hroom : s.cpc.cv.q.length < 64) :
    ∃ t, exec (.converterEntry f) s = .next t ∧ t.cpc.strobes = [] ∧
      t.cpc.cv.q = s.cpc.cv.q ++ [⟨0, s.sched.seq, w16 x.angle, w16 (x.angle / 65536 + 16 * x.src + 256 + b2n x.dly 10 + b2n x.cyc0 11 + 32768)⟩] ∧
      waits t 10 0 1 ∧ bit t.bus.intstat 7 = true ∧ { quietly s t with cdat := s.cdat, cpc := s.cpc, sched := s.sched } = s := by
  have hes := expired_none hx hover
  have hcs := claimants_all hes hx (by simpa using hclaim)
  have hop := opConverterFrame_error hbegins hhunt hstart hwbrk hes hcs hbad hmiss
  obtain ⟨hstrobes, hq, hwaits, hint, hframe⟩ :=
    convEntry_raises (x := x) (s := frameTaken f 1 s) 0 (native_of_cpsLive hlive) (.inl rfl) hlater hroom
  rw [← convQuad_one]
  have hexec := (exec_converterEntry f hlive).trans (congrArg Host.Outcome.next hop)
  change exec (.converterEntry f) s = .next (convEntry x 1 0 (frameTaken f 1 s)) at hexec
  generalize convEntry x 1 0 (frameTaken f 1 s) = t at *
  exact ⟨t, hexec, hstrobes.trans (congrArg (List.drop 1) hx), hq, hwaits, hint,
    congrArg (fun u : State => { u with cdat := s.cdat, cpc := s.cpc }) hframe⟩

theorem converterEntry_ignored (f : BitVec 82) (s : State)
    (h : cpsLive s = false ∨ frameBegins f = false ∨ hunting s.clk.fcyc s.cdat = false ∨ (parseFrame (frameOf f)).start = true) :
    exec (.converterEntry f) s = .next s := by
  obtain hdead | h := h
  · exact congrArg Host.Outcome.next (if_neg (by rw [hdead]; decide))
  · change Host.Outcome.next (if cpsLive s then opConverterFrame f s else s) = _
    rw [opConverterFrame_ignored h, ite_self]

theorem exec_converterSearchTimeout {x : Strobe} {rest : List Strobe} {s : State} (hs : s.cpc.strobes = x :: rest) (hdue : dueSearch s = true) :
    exec .converterSearchTimeout s = .next (convEntry x 2 0 { s with cpc := { s.cpc with strobes := rest } }) := by
  change execConverterSearchTimeout s = _
  unfold execConverterSearchTimeout
  rw [hs]
  exact congrArg Host.Outcome.next (if_pos hdue)

theorem converterSearchTimeout_due (x : Strobe) (rest : List Strobe) (s : State) (hs : s.cpc.strobes = x :: rest) (hdue : dueSearch s = true)
    (hlater : laterRecs rankConv s = 0) (hroom : s.cpc.cv.q.length < 64) :
    ∃ t, exec .converterSearchTimeout s = .next t ∧ t.cpc.strobes = rest ∧
      t.cpc.cv.q = s.cpc.cv.q ++ [⟨0, s.sched.seq, w16 x.angle, w16 (x.angle / 65536 + 16 * x.src + 512 + b2n x.dly 10 + b2n x.cyc0 11 + 32768)⟩] ∧
      waits t 10 0 2 ∧ bit t.bus.intstat 7 = true ∧ { quietly s t with cpc := s.cpc, sched := s.sched } = s := by
  have hlive : cpsLive s = true := by
    simp only [dueSearch, Bool.and_eq_true] at hdue
    obtain ⟨hlive, -⟩ := hdue
    exact hlive
  obtain ⟨hstrobes, hq, hwaits, hint, hframe⟩ :=
    convEntry_raises (x := x) (s := { s with cpc := { s.cpc with strobes := rest } }) 0 (native_of_cpsLive hlive) (.inr rfl) hlater hroom
  rw [← convQuad_two]
  have hexec := exec_converterSearchTimeout hs hdue
  generalize convEntry x 2 0 { s with cpc := { s.cpc with strobes := rest } } = t at *
  exact ⟨t, hexec, hstrobes, hq, hwaits, hint, congrArg (fun u : State => { u with cpc := s.cpc }) hframe⟩

theorem converterSearchTimeout_early (s : State) (h : dueSearch s = false) : exec .converterSearchTimeout s = .next s := by
  change execConverterSearchTimeout s = _
  unfold execConverterSearchTimeout
  split
  · exact congrArg Host.Outcome.next (if_neg (by rw [h]; decide))
  · rfl

end Sys2Proof.Machine

namespace Sys2Proof.Machine

/-! ### Reads of a window word (R418, R419) -/

/-- The state with the host's pointer at a word of window CPC. -/
def atCpc (off : Nat) (s : State) : State := { s with bus := { s.bus with winsel := w16 7, winadr := w16 off } }

/-- A read of a word of window CPC that is answered leaves its word and its side effect, and the pointer behind it. -/
theorem windowRead_answered {s : State} (i : Instr) (off : Nat) (f : State → Word × State) (hb : hostBus s = true) (hu : busUp s = true) :
    windowRead i 7 off f s = putData (f (atCpc off s)).1 (stepWinadr .host (f (atCpc off s)).2) := by
  obtain ⟨hadr, -⟩ := regOpen_pointer hu
  rw [windowRead, hostRead_answered i _ hb hu, pointAt_open 7 off hadr]
  rfl

/-! ### What a read of a buffer answers (R135, R136) -/

section
variable {b : Buf} {tb : Tb} (hgone : b.goneNow tb = [])
include hgone

theorem bufRead_pops {q : Quad} {rest : List Quad} (hq : b.q = q :: rest) : bufRead 0 tb b = (q.w0, { b with q := rest, held := q }) := by
  rw [bufRead, if_pos rfl, hgone, hq]

theorem bufRead_empty (hq : b.q = []) : bufRead 0 tb b = (0, { b with held := {} }) := by
  rw [bufRead, if_pos rfl, hgone, hq]

/-- Without a loss in this tick a pop makes no room for an entry of it (R134). -/
theorem popReaches_ungone (j cap thr : Nat) : popReaches j cap thr tb b = false := by
  rw [popReaches, hgone]
  exact Bool.and_false _

/-- Without a loss in this tick LOST reads as it stands, and is cleared (R136). -/
theorem bufStat_ungone : bufStat tb b = (w16 (b.q.length + 256 * b.lost), { b with lost := 0, lostWas := 0 }) := by
  rw [bufStat, hgone]
  rfl

end

/-- Words 1 to 3 are those of the entry taken last, and change nothing (R135). -/
theorem bufRead_held {j : Nat} (tb : Tb) (b : Buf) (hj : j ≠ 0) : bufRead j tb b = (b.held.word j, b) := if_neg hj

theorem popReaches_held {j : Nat} (cap thr : Nat) (tb : Tb) (b : Buf) (hj : j ≠ 0) : popReaches j cap thr tb b = false := by
  simp [popReaches, hj]

/-- The end of a read in SEQ touches the ranks of the tick alone. -/
theorem settleSeq_eq (q : Quad) (s : State) :
    settleSeq q s = { s with sched := if (s.sched.seq - q.w1).toNat ≤ (ranksNow s).length then { s.sched with ranks := [] } else s.sched } := by
  unfold settleSeq
  split <;> rfl

theorem readPop_conv_pops {s : State} {q : Quad} {rest : List Quad} (hgone : s.cpc.cv.goneNow s.clk.tb = []) (hq : s.cpc.cv.q = q :: rest) :
    readPop true 0 s = (q.w0, { settleSeq q s with cpc := { s.cpc with cv := { s.cpc.cv with q := rest, held := q } } }) := by
  unfold readPop
  rw [if_pos rfl, bufRead_pops hgone hq, popReaches_ungone hgone, hq]
  change (q.w0, settleSeq q { s with cpc := { s.cpc with cv := { s.cpc.cv with q := rest, held := q } } }) = _
  rw [settleSeq_eq, settleSeq_eq]
  rfl

theorem readPop_conv_empty {s : State} (hgone : s.cpc.cv.goneNow s.clk.tb = []) (hq : s.cpc.cv.q = []) :
    readPop true 0 s = (0, { s with cpc := { s.cpc with cv := { s.cpc.cv with held := {} } } }) := by
  unfold readPop
  rw [if_pos rfl, bufRead_empty hgone hq, popReaches_ungone hgone]
  exact congrArg (Prod.mk 0) (if_neg (by rw [hq]; decide))

theorem readPop_phase_pops {s : State} {q : Quad} {rest : List Quad} (hgone : s.cpc.ph.goneNow s.clk.tb = []) (hq : s.cpc.ph.q = q :: rest) :
    readPop false 0 s = (q.w0, { s with cpc := { s.cpc with ph := { s.cpc.ph with q := rest, held := q } } }) := by
  unfold readPop
  rw [if_neg Bool.false_ne_true, bufRead_pops hgone hq, popReaches_ungone hgone]
  rfl

theorem readPop_phase_empty {s : State} (hgone : s.cpc.ph.goneNow s.clk.tb = []) (hq : s.cpc.ph.q = []) :
    readPop false 0 s = (0, { s with cpc := { s.cpc with ph := { s.cpc.ph with held := {} } } }) := by
  unfold readPop
  rw [if_neg Bool.false_ne_true, bufRead_empty hgone hq, popReaches_ungone hgone]
  rfl

theorem readPop_held {s : State} {j : Nat} (conv : Bool) (hj : j ≠ 0) :
    readPop conv j s = ((if conv then s.cpc.cv else s.cpc.ph).held.word j, s) := by
  cases conv with
  | true =>
    unfold readPop
    rw [if_pos rfl, bufRead_held _ _ hj, popReaches_held _ _ _ _ hj]
    dsimp only
    rw [if_neg (by simp [hj])]
    rfl
  | false =>
    unfold readPop
    rw [if_neg Bool.false_ne_true, bufRead_held _ _ hj, popReaches_held _ _ _ _ hj]
    rfl

theorem readBufStat_conv {s : State} (hgone : s.cpc.cv.goneNow s.clk.tb = []) :
    readBufStat true s = (w16 (s.cpc.cv.q.length + 256 * s.cpc.cv.lost), { s with cpc := { s.cpc with cv := { s.cpc.cv with lost := 0, lostWas := 0 } } }) := by
  unfold readBufStat
  rw [if_pos rfl, bufStat_ungone hgone]

theorem readBufStat_phase {s : State} (hgone : s.cpc.ph.goneNow s.clk.tb = []) :
    readBufStat false s = (w16 (s.cpc.ph.q.length + 256 * s.cpc.ph.lost), { s with cpc := { s.cpc with ph := { s.cpc.ph with lost := 0, lostWas := 0 } } }) := by
  unfold readBufStat
  rw [if_neg Bool.false_ne_true, bufStat_ungone hgone]

/-! ### The rows of the buffers -/

/-- Where a pop port of a buffer begins in window CPC (R138). -/
def popPort (conv : Bool) : Nat := if conv then 256 else 128

theorem exec_bufferPop {s : State} {conv : Bool} {j : Fin 4} {w : Word} {t : State} (hb : hostBus s = true) (hu : busUp s = true)
    (hblk : blkOn s .cps = true) (hread : readPop conv j.val (atCpc (popPort conv + j.val) s) = (w, t)) :
    exec (.bufferPop conv j) s = .next (putData w (stepWinadr .host t)) := by
  have hblk' : blkOn (atCpc (popPort conv + j.val) s) .cps = true := hblk
  change Host.Outcome.next (windowRead (.bufferPop conv j) 7 (popPort conv + j.val) (gatedWindow .cps 7 (readPop conv j.val)) s) = _
  rw [windowRead_answered _ _ _ hb hu, gatedWindow, if_pos hblk', hread]

/-- The place of a status word in window CPC (R138). -/
def statPort (conv : Bool) : Nat := if conv then 98 else 99

theorem exec_bufferStatusRead {s : State} (conv : Bool) (hb : hostBus s = true) (hu : busUp s = true) :
    exec (.bufferStatusRead conv) s = .next (putData (gatedWindow .cps 7 (readBufStat conv) (atCpc (statPort conv) s)).1
      (stepWinadr .host (gatedWindow .cps 7 (readBufStat conv) (atCpc (statPort conv) s)).2)) :=
  congrArg Host.Outcome.next (windowRead_answered (.bufferStatusRead conv) (statPort conv) _ hb hu)

theorem exec_bufferStatusRead_on {s t : State} {w : Word} (conv : Bool) (hb : hostBus s = true) (hu : busUp s = true) (hblk : blkOn s .cps = true)
    (hread : readBufStat conv (atCpc (statPort conv) s) = (w, t)) :
    exec (.bufferStatusRead conv) s = .next (putData w (stepWinadr .host t)) := by
  have hblk' : blkOn (atCpc (statPort conv) s) .cps = true := hblk
  rw [exec_bufferStatusRead conv hb hu, gatedWindow, if_pos hblk', hread]

/-! ### The clauses of `Obligations.ConverterAndBuffers` on buffers -/

theorem bufferPop_conv_pops (q : Quad) (rest : List Quad) (s : State) (hb : hostBus s = true) (hu : busUp s = true) (hblk : blkOn s .cps = true)
    (hgone : s.cpc.cv.goneNow s.clk.tb = []) (hq : s.cpc.cv.q = q :: rest) :
    exec (.bufferPop true 0) s = .next { settleSeq q s with
      cpc := { s.cpc with cv := { s.cpc.cv with q := rest, held := q } }, bus := { s.bus with data := q.w0, winsel := 7, winadr := 257 } } := by
  rw [exec_bufferPop hb hu hblk (readPop_conv_pops (s := atCpc 256 s) hgone hq), settleSeq_eq, settleSeq_eq]
  rfl

theorem bufferPop_phase_pops (q : Quad) (rest : List Quad) (s : State) (hb : hostBus s = true) (hu : busUp s = true) (hblk : blkOn s .cps = true)
    (hgone : s.cpc.ph.goneNow s.clk.tb = []) (hq : s.cpc.ph.q = q :: rest) :
    exec (.bufferPop false 0) s = .next { s with
      cpc := { s.cpc with ph := { s.cpc.ph with q := rest, held := q } }, bus := { s.bus with data := q.w0, winsel := 7, winadr := 129 } } := by
  rw [exec_bufferPop hb hu hblk (readPop_phase_pops (s := atCpc 128 s) hgone hq)]
  rfl

theorem bufferPop_conv_empty (s : State) (hb : hostBus s = true) (hu : busUp s = true) (hblk : blkOn s .cps = true)
    (hgone : s.cpc.cv.goneNow s.clk.tb = []) (hq : s.cpc.cv.q = []) :
    exec (.bufferPop true 0) s = .next { s with
      cpc := { s.cpc with cv := { s.cpc.cv with held := {} } }, bus := { s.bus with data := 0, winsel := 7, winadr := 257 } } := by
  rw [exec_bufferPop hb hu hblk (readPop_conv_empty (s := atCpc 256 s) hgone hq)]
  rfl

theorem bufferPop_phase_empty (s : State) (hb : hostBus s = true) (hu : busUp s = true) (hblk : blkOn s .cps = true)
    (hgone : s.cpc.ph.goneNow s.clk.tb = []) (hq : s.cpc.ph.q = []) :
    exec (.bufferPop false 0) s = .next { s with
      cpc := { s.cpc with ph := { s.cpc.ph with held := {} } }, bus := { s.bus with data := 0, winsel := 7, winadr := 129 } } := by
  rw [exec_bufferPop hb hu hblk (readPop_phase_empty (s := atCpc 128 s) hgone hq)]
  rfl

theorem bufferPop_held (j : Fin 4) (s : State) (hb : hostBus s = true) (hu : busUp s = true) (hblk : blkOn s .cps = true) (hj : j ≠ 0) :
    exec (.bufferPop true j) s = .next { s with bus := { s.bus with data := s.cpc.cv.held.word j.val, winsel := 7, winadr := w16 (257 + j.val) } } ∧
      exec (.bufferPop false j) s = .next { s with bus := { s.bus with data := s.cpc.ph.held.word j.val, winsel := 7, winadr := w16 (129 + j.val) } } := by
  have hj' : j.val ≠ 0 := fun h => hj (Fin.ext h)
  have hnext : ∀ n, w16 (n + j.val) + 1 = w16 (n + 1 + j.val) := fun n => by
    rw [Nat.add_right_comm]
    exact (BitVec.ofNat_add _ 1).symm
  rw [exec_bufferPop hb hu hblk (readPop_held (s := atCpc (popPort true + j.val) s) true hj'),
    exec_bufferPop hb hu hblk (readPop_held (s := atCpc (popPort false + j.val) s) false hj'), ← hnext 256, ← hnext 128]
  exact ⟨rfl, rfl⟩

theorem bufferStatusRead_conv (s : State) (hb : hostBus s = true) (hu : busUp s = true) (hblk : blkOn s .cps = true)
    (hgone : s.cpc.cv.goneNow s.clk.tb = []) :
    exec (.bufferStatusRead true) s = .next { s with
      cpc := { s.cpc with cv := { s.cpc.cv with lost := 0, lostWas := 0 } }
      bus := { s.bus with data := w16 (s.cpc.cv.q.length + 256 * s.cpc.cv.lost), winsel := 7, winadr := 99 } } := by
  rw [exec_bufferStatusRead_on true hb hu hblk (readBufStat_conv (s := atCpc 98 s) hgone)]
  rfl

theorem bufferStatusRead_phase (s : State) (hb : hostBus s = true) (hu : busUp s = true) (hblk : blkOn s .cps = true)
    (hgone : s.cpc.ph.goneNow s.clk.tb = []) :
    exec (.bufferStatusRead false) s = .next { s with
      cpc := { s.cpc with ph := { s.cpc.ph with lost := 0, lostWas := 0 } }
      bus := { s.bus with data := w16 (s.cpc.ph.q.length + 256 * s.cpc.ph.lost), winsel := 7, winadr := 100 } } := by
  rw [exec_bufferStatusRead_on false hb hu hblk (readBufStat_phase (s := atCpc 99 s) hgone)]
  rfl

/-- While the clock of the block is off the read answers 0, and is an access of a disabled block (R330). -/
theorem bufferStatusRead_gated (conv : Bool) (s : State) (hb : hostBus s = true) (hu : busUp s = true) (hblk : blkOn s .cps = false) :
    ∃ t, exec (.bufferStatusRead conv) s = .next t ∧ waits t 46 0 0x070A ∧
      quietly s t = { s with bus := { s.bus with data := 0, winsel := 7, winadr := if conv then 99 else 100 } } := by
  have hn : isNative (atCpc (statPort conv) s) = true := native_of_busUp hu
  have hblk' : blkOn (atCpc (statPort conv) s) .cps = false := hblk
  have hread : gatedWindow .cps 7 (readBufStat conv) (atCpc (statPort conv) s) = (0, raise 46 0 0x070A (atCpc (statPort conv) s)) :=
    if_neg (by rw [hblk']; decide)
  have hwaits := raise_waits 46 0 0x070A hn
  rw [exec_bufferStatusRead conv hb hu, hread]
  refine ⟨_, rfl, waits_of_flt (s := raise 46 0 0x070A (atCpc (statPort conv) s)) rfl hwaits, ?_⟩
  rw [raise_native 46 0 0x070A hn]
  cases conv <;> rfl

/-- Settles O34: frames by the strobes that they serve, the end of a search, and reads of the buffers by what stands in them. -/
theorem converterAndBuffers : Obligations.ConverterAndBuffers :=
  ⟨converterEntry_unclaimed, converterEntry_claimed, converterEntry_shared, converterEntry_error, converterEntry_ignored,
    converterSearchTimeout_due, converterSearchTimeout_early, bufferPop_conv_pops, bufferPop_phase_pops, bufferPop_conv_empty,
    bufferPop_phase_empty, bufferPop_held, bufferStatusRead_conv, bufferStatusRead_phase, bufferStatusRead_gated⟩

end Sys2Proof.Machine

namespace Sys2Proof.Machine

/-! ### What the channel commands read (R141, R162, R165) -/

/-- A command with an effect of its own is answered with its status and its result, and what it leaves beside the mailbox and
INTSTAT is its effect. -/
theorem mboxRow_answers {code : Byte} {op : Args → State → CmdRes} {a : Args} {s u : State} {status k : Nat} (hf : mboxFree s = true)
    (ha : admitted code a s = true) (hop : op a (started code a s) = { st := u, status := status, q0 := k }) (hm : u.mbox = (started code a s).mbox) :
    answered (mboxRow code op a s) status k 0 ∧ ∃ m b, mboxRow code op a s = { u with mbox := m, bus := b } := by
  have hrun : u.mbox.run = some ⟨.host, code, a⟩ := by rw [hm]; rfl
  rw [mboxRow_ends code op a s hf ha (by rw [hop]), hop]
  exact ⟨endCmd_answered code a _ _ _ _ hrun, _, _, endCmd_host code a _ _ _ _ hrun⟩

/-- The states in which a channel is idle (R141). -/
def ChSt.resting : ChSt → Bool
  | .off | .idle | .low => true
  | _ => false

theorem idle_of_lowerOf {s : State} {n : Fin 12} (h : lowerOf s n = n) : idle s n = s.chan[n].st.resting := by
  unfold idle
  simp only [h]
  rfl

/-- A channel outside a pair is governed by its own state. -/
theorem lowerOf_unpaired {s : State} {n : Fin 12} (hp : paired s n.val = false) : lowerOf s n = n :=
  if_neg (by rw [hp]; decide)

theorem lowerOf_even {s : State} {n : Fin 12} (h : n.val % 2 = 0) : lowerOf s n = n := by
  unfold lowerOf
  split
  · exact Fin.ext (by dsimp only; omega)
  · rfl

theorem lineBroken_congr {s t : State} (n : Fin 12) (hl : t.lines = s.lines) (hp : t.chs.pairs = s.chs.pairs) : lineBroken t n = lineBroken s n := by
  unfold lineBroken paired
  rw [hl, hp]

theorem vupd_vupd {α : Type} {k : Nat} (v : Vector α k) (i : Fin k) (f g : α → α) : vupd (vupd v i f) i g = vupd v i (fun x => g (f x)) := by
  unfold vupd
  simp

theorem updChan_updChan (n : Fin 12) (f g : Chan → Chan) (s : State) : updChan n g (updChan n f s) = updChan n (fun c => g (f c)) s :=
  congrArg (fun c => { s with chan := c }) (vupd_vupd _ _ _ _)

/-! ### The channel that CHANNEL_SET moves (R169) -/

theorem boostUpdate_pairs (old : Vector Chan 12) (s : State) : (boostUpdate old s).chs.pairs = s.chs.pairs := by
  have hforce : ∀ t, (forceLow t).chs = t.chs := fun t => chs_of_but rfl (forceLow_but t)
  obtain h | ⟨e, h⟩ | h := boostUpdate_cases old s
  · rw [h, hforce]
    rfl
  · rw [h]
    rfl
  · rw [h]
    rfl

theorem settle_pairs (n : Fin 12) (st : ChSt) (s : State) : (settle n st s).chs.pairs = s.chs.pairs := by
  have hdrv : ∀ t, (setDrv n false t).chs = t.chs := fun t => chs_of_but rfl (setDrv_but n false t)
  unfold settle
  dsimp only
  rw [boostUpdate_pairs, hdrv, updChan_chs]

theorem settle_lines (n : Fin 12) (st : ChSt) (s : State) : (settle n st s).lines = s.lines := lines_of_but rfl (settle_but n st s)

theorem settle_lineBroken (n m : Fin 12) (st : ChSt) (s : State) : lineBroken (settle n st s) m = lineBroken s m :=
  lineBroken_congr m (settle_lines n st s) (settle_pairs n st s)

/-- Puts a channel into a state, unless it is in it. -/
def restTo (n : Fin 12) (st : ChSt) (s : State) : State := if st == s.chan[n].st then s else settle n st s

theorem restTo_lineBroken (n m : Fin 12) (st : ChSt) (s : State) : lineBroken (restTo n st s) m = lineBroken s m := by
  unfold restTo
  split
  · rfl
  · exact settle_lineBroken n m st s

theorem restTo_self (n : Fin 12) (st : ChSt) (s : State) :
    (restTo n st s).chan[n].st = st ∧ (restTo n st s).chan[n].cfg = s.chan[n].cfg ∧ (restTo n st s).chan[n].cont = s.chan[n].cont := by
  unfold restTo
  split
  · next h => exact ⟨(eq_of_beq h).symm, rfl, rfl⟩
  · have hs := settle_self n st s
    exact ⟨hs.st, hs.cfg, hs.cont⟩

/-- CHANNEL_SET's containment of a channel in mode `m` that is held or whose line is broken (R159, R165, R249). -/
def modeBreak (n : Fin 12) (m : Nat) (s : State) : State :=
  let brk := (m = 2 || m = 3) && lineBroken s n
  let s := updChan n (fun c => { c with own := brk }) s
  if m != 0 && (s.chan[n].cont || brk) then containInput n s else s

theorem channelMode_eq (n : Fin 12) (f : ChCfg → ChCfg) (s : State) :
    channelMode n f s = modeBreak n (f s.chan[n].cfg).mode
      (restTo n (restState (f s.chan[n].cfg).mode) (updChan n (fun c => { c with cfg := f c.cfg }) s)) := by
  change modeBreak n (updChan n (fun c => { c with cfg := f c.cfg }) s).chan[n].cfg.mode
    (restTo n (restState (updChan n (fun c => { c with cfg := f c.cfg }) s).chan[n].cfg.mode) (updChan n (fun c => { c with cfg := f c.cfg }) s)) = _
  rw [updChan_self]

theorem modeBreak_free {n : Fin 12} (m : Nat) {s : State} (hc : s.chan[n].cont = false) (hb : lineBroken s n = false) :
    modeBreak n m s = updChan n (fun c => { c with own := false }) s := by
  unfold modeBreak
  dsimp only
  rw [hb, Bool.and_false, updChan_self]
  exact if_neg (by rw [hc]; simp)

/-- With no containment and no broken line a channel is left at rest in its new mode (R169). -/
theorem channelMode_free {n : Fin 12} {s : State} (f : ChCfg → ChCfg) (hc : s.chan[n].cont = false) (hb : lineBroken s n = false) :
    (channelMode n f s).chan[n].cfg = f s.chan[n].cfg ∧ (channelMode n f s).chan[n].st = restState (f s.chan[n].cfg).mode := by
  have hbreak := lineBroken_congr (t := updChan n (fun c => { c with cfg := f c.cfg }) s) n rfl rfl
  obtain ⟨hst, hcfg, hcont⟩ := restTo_self n (restState (f s.chan[n].cfg).mode) (updChan n (fun c => { c with cfg := f c.cfg }) s)
  rw [updChan_self] at hcfg hcont
  rw [channelMode_eq, modeBreak_free _ (hcont.trans hc) ((restTo_lineBroken n n _ _).trans (hbreak.trans hb)), updChan_self]
  exact ⟨hcfg, hst⟩

/-- The fields that CHANNEL_SET writes (R169). -/
def setFields (a : Args) (c : ChCfg) : ChCfg :=
  { c with mode := fld a.a0 4 2, boostuse := bit a.a0 6, slew := fld a.a0 8 8, decthr := a.a1.toNat, decmax := a.a2.toNat }

/-- CHANNEL_SET on the channel that it names. -/
theorem cmdChannelSet_eq {a : Args} {n : Fin 12} (s : State) (hn : fld a.a0 0 4 = n.val) :
    cmdChannelSet a s = checked (within a.a0 0xFF7F && within a.a1 0x0FFF && a.a2 != 0)
      [!((fld a.a0 4 2 = 2 || fld a.a0 4 2 = 3) && decide (8 ≤ n.val)) && !emitDrives s n.val, !(bit a.a0 6 && decide (8 ≤ n.val)),
        !((fld a.a0 4 2 = 2 || fld a.a0 4 2 = 3) && s.chan[n].cfg.scale = 0), !paired s n.val, idleX s n] s
      { st := channelMode n (setFields a) s } := by
  obtain ⟨k, hk⟩ := n
  dsimp only at hn
  subst hn
  exact dif_pos hk

/-- A check that holds before others that hold. -/
theorem all_cons_true {c : Bool} {cs : List Bool} (h : c = true) (hs : cs.all id = true) : (c :: cs).all id = true := by
  rw [List.all_cons, hs, Bool.and_true]
  exact h

theorem not_and_of_imp {x y : Bool} (h : x = true → y = false) : (!(x && y)) = true := by
  cases hx : x
  · rfl
  · rw [h hx]
    rfl

section
variable {a : Args} {n : Fin 12} {s : State} (h0 : within a.a0 0xFF7F = true) (h1 : within a.a1 0xFFF = true) (h2 : a.a2 ≠ 0)
include h0 h1 h2

theorem channelSet_argsOk : (within a.a0 0xFF7F && within a.a1 0x0FFF && a.a2 != 0) = true := by
  rw [h0, h1, bne_iff_ne.mpr h2]
  rfl

variable (hn : fld a.a0 0 4 = n.val) (hshaped : n.val < 8 ∨ fld a.a0 4 2 < 2 ∧ bit a.a0 6 = false)
  (hscale : fld a.a0 4 2 < 2 ∨ s.chan[n].cfg.scale ≠ 0) (hemit : emitDrives s n.val = false) (hpair : paired s n.val = false)
include hn hshaped hscale hemit hpair

/-- Checks 1 to 4 of CHANNEL_SET hold: the channel has the mode, its boost and its scale, and stands alone; check 5 asks that it is idle. -/
theorem cmdChannelSet_checks : cmdChannelSet a s = checked true [true, true, true, true, idleX s n] s { st := channelMode n (setFields a) s } := by
  have hmode : (fld a.a0 4 2 = 2 || fld a.a0 4 2 = 3) = true → ¬ fld a.a0 4 2 < 2 := by
    intro h
    obtain h | h := (Bool.or_eq_true _ _).mp h <;> rw [of_decide_eq_true h] <;> decide
  have hkind : (!((fld a.a0 4 2 = 2 || fld a.a0 4 2 = 3) && decide (8 ≤ n.val))) = true :=
    not_and_of_imp fun h => decide_eq_false (Nat.not_le.mpr (hshaped.resolve_right fun h' => hmode h h'.1))
  have hboost : (!(bit a.a0 6 && decide (8 ≤ n.val))) = true :=
    not_and_of_imp fun h => decide_eq_false (Nat.not_le.mpr (hshaped.resolve_right fun h' => absurd (h.symm.trans h'.2) (by decide)))
  have hscaled : (!((fld a.a0 4 2 = 2 || fld a.a0 4 2 = 3) && s.chan[n].cfg.scale = 0)) = true :=
    not_and_of_imp fun h => decide_eq_false (hscale.resolve_left (hmode h))
  rw [cmdChannelSet_eq s hn, channelSet_argsOk h0 h1 h2, hkind, hboost, hscaled, hemit, hpair]
  rfl

end

/-! ### The two words of a profile (R170, R443) -/

/-- The staging buffer with the part that PROFILE_LOAD names replaced. -/
def stagedWith (a : Args) (s : State) : Vector Word 8 :=
  vput (vput s.chs.stage (2 * fld a.a0 4 2) a.a1) (2 * fld a.a0 4 2 + 1) a.a2

/-- The state with the two words staged. -/
def staging (a : Args) (s : State) : State := { s with chs := { s.chs with stage := stagedWith a s } }

theorem cmdProfileLoad_stages {a : Args} (s : State) (h0 : within a.a0 0x13F = true) (happly : bit a.a0 8 = false) :
    cmdProfileLoad a s = { st := staging a s } := by
  unfold cmdProfileLoad
  rw [h0, happly]
  rfl

theorem cmdProfileLoad_applies {a : Args} (s : State) (h0 : within a.a0 0x13F = true) (happly : bit a.a0 8 = true) :
    cmdProfileLoad a s = checked true [decide ((profOf (stagedWith a s)).hysp ≤ (profOf (stagedWith a s)).peak),
      decide ((profOf (stagedWith a s)).hysh ≤ (profOf (stagedWith a s)).hold)] (staging a s)
      { st := { staging a s with chs := { s.chs with stage := stagedWith a s, profs := vput s.chs.profs (fld a.a0 0 4) (profOf (stagedWith a s)) } } } := by
  unfold cmdProfileLoad
  rw [h0, happly]
  rfl

/-! ### Pairs (R162, R171) -/

/-- The lower channel of a pair. -/
def pairLo (p : Fin 4) : Fin 8 := ⟨2 * p.val, by omega⟩

/-- The upper channel of a pair. -/
def pairUp (p : Fin 4) : Fin 8 := ⟨2 * p.val + 1, by omega⟩

theorem pairUp_ne_pairLo (p : Fin 4) : sh (pairUp p) ≠ sh (pairLo p) := by
  intro h
  have hval : 2 * p.val + 1 = 2 * p.val := congrArg Fin.val h
  omega

theorem lineBroken_pairLo {p : Fin 4} {s : State} (hlo : (vget s.lines (2 * p.val) {}).wbrk = false)
    (hup : paired s (2 * p.val) = true → (vget s.lines (2 * p.val + 1) {}).wbrk = false) : lineBroken s (sh (pairLo p)) = false := by
  have hodd : 2 * p.val - 2 * p.val % 2 = 2 * p.val := by omega
  unfold lineBroken
  change (if paired s (2 * p.val) = true then (vget s.lines (2 * p.val - 2 * p.val % 2) {}).wbrk || (vget s.lines (2 * p.val - 2 * p.val % 2 + 1) {}).wbrk
    else (vget s.lines (2 * p.val) {}).wbrk) = false
  rw [hodd, hlo]
  split
  · next h => exact hup h
  · rfl

theorem paired_split {p : Fin 4} {k : Nat} {s : State} (hk : k / 2 = p.val) (h : s.chs.pairs[p] = false) : paired s k = false := by
  unfold paired vget
  rw [hk, dif_pos p.isLt]
  exact (Bool.and_eq_false_iff.mpr (.inr h))

/-- A channel whose lines are clear is not held by them. -/
theorem checkBreak_clear {n : Fin 12} {s : State} (h : lineBroken s n = false) : checkBreak n s = updChan n (fun c => { c with own := false }) s := by
  unfold checkBreak
  rw [h]
  exact if_neg Bool.false_ne_true

theorem cmdPairSet_join {a : Args} {p : Fin 4} (s : State) (hp : fld a.a0 0 2 = p.val) (hjoin : bit a.a0 2 = true) :
    cmdPairSet a s = checked (within a.a0 7)
      [(s.chan[sh (pairLo p)].st == .off || s.chan[sh (pairLo p)].st == .idle) && (s.chan[sh (pairUp p)].st == .off || s.chan[sh (pairUp p)].st == .idle),
        s.chan[sh (pairLo p)].cfg.mode == 2 || s.chan[sh (pairLo p)].cfg.mode == 3,
        s.chan[sh (pairLo p)].cfg.scale == s.chan[sh (pairUp p)].cfg.scale && s.chan[sh (pairLo p)].cfg.scale != 0] s
      { st := if s.chs.pairs[p] then s else joinPair p (pairLo p) (pairUp p) s } := by
  obtain ⟨k, hk⟩ := p
  dsimp only at hp
  subst hp
  exact if_pos hjoin

theorem cmdPairSet_split {a : Args} {p : Fin 4} (s : State) (hp : fld a.a0 0 2 = p.val) (hsplit : bit a.a0 2 = false) :
    cmdPairSet a s = checked (within a.a0 7) [!s.chs.pairs[p] || idle s (sh (pairLo p))] s
      { st := if s.chs.pairs[p] then splitPair p (pairLo p) (pairUp p) s else s } := by
  obtain ⟨k, hk⟩ := p
  dsimp only at hp
  subst hp
  exact if_neg (by rw [hsplit]; decide)

/-- Two idle channels of one scale, the lower of them shaped, are joined (R171). -/
theorem cmdPairSet_joins {a : Args} {p : Fin 4} {s : State} (hp : fld a.a0 0 2 = p.val) (hjoin : bit a.a0 2 = true) (h0 : within a.a0 7 = true)
    (hpair : s.chs.pairs[p] = false) (hil : s.chan[sh (pairLo p)].st = .idle) (hiu : s.chan[sh (pairUp p)].st = .idle)
    (hmode : s.chan[sh (pairLo p)].cfg.mode = 2) (hscale : s.chan[sh (pairLo p)].cfg.scale = s.chan[sh (pairUp p)].cfg.scale)
    (hscaled : s.chan[sh (pairLo p)].cfg.scale ≠ 0) : cmdPairSet a s = { st := joinPair p (pairLo p) (pairUp p) s } := by
  have hrest : ((s.chan[sh (pairLo p)].st == .off || s.chan[sh (pairLo p)].st == .idle) &&
      (s.chan[sh (pairUp p)].st == .off || s.chan[sh (pairUp p)].st == .idle)) = true := by
    rw [hil, hiu]
    rfl
  have hshaped : (s.chan[sh (pairLo p)].cfg.mode == 2 || s.chan[sh (pairLo p)].cfg.mode == 3) = true := by
    rw [hmode]
    rfl
  have hequal : (s.chan[sh (pairLo p)].cfg.scale == s.chan[sh (pairUp p)].cfg.scale && s.chan[sh (pairLo p)].cfg.scale != 0) = true :=
    Bool.and_eq_true_iff.mpr ⟨beq_iff_eq.mpr hscale, bne_iff_ne.mpr hscaled⟩
  rw [cmdPairSet_join s hp hjoin, checked_ok _ _ _ _ h0 (all_cons_true hrest (all_cons_true hshaped (all_cons_true hequal rfl))), hpair]
  rfl

theorem refreshI_alone {m : Fin 8} {s : State} (hp : paired s m.val = false) : ∃ i, refreshI m s = updChan (sh m) (fun c => { c with lastI := i }) s := by
  have h : ∃ i, refreshI m s = updChan (lowerOf s (sh m)) (fun c => { c with lastI := i }) s := ⟨_, rfl⟩
  rwa [lowerOf_unpaired (n := sh m) hp] at h

/-- The upper channel of the pair to be as PARTNER (R162). -/
def partnered (c : Chan) : Chan := { c with cfg := { c.cfg with mode := 4 }, fallback := none, own := false }

/-- The upper channel has become PARTNER, and is off. -/
def partnerOff (p : Fin 4) (s : State) : State := settle (sh (pairUp p)) .off (updChan (sh (pairUp p)) partnered s)

/-- The pair is enabled, before its lower channel decides on its lines. -/
def joining (p : Fin 4) (s : State) : State :=
  let s := updChan (sh (pairLo p)) (fun c => { c with fallback := none }) (partnerOff p s)
  { s with
    chs := { s.chs with pairs := vupd s.chs.pairs p fun _ => true }
    trip := { s.trip with group := vput s.trip.group (pairUp p).val (vget s.trip.group (pairLo p).val 0) } }

theorem joinPair_eq (p : Fin 4) (s : State) : joinPair p (pairLo p) (pairUp p) s = refreshI (pairLo p) (checkBreak (sh (pairLo p)) (joining p s)) := rfl

theorem joining_lines (p : Fin 4) (s : State) : (joining p s).lines = s.lines :=
  (settle_lines (sh (pairUp p)) .off (updChan (sh (pairUp p)) partnered s) :)

theorem joining_up (p : Fin 4) (s : State) : (joining p s).chan[sh (pairUp p)].cfg.mode = 4 ∧ (joining p s).chan[sh (pairUp p)].st = .off := by
  have hs := settle_self (sh (pairUp p)) .off (updChan (sh (pairUp p)) partnered s)
  have hup : (joining p s).chan[sh (pairUp p)] = (partnerOff p s).chan[sh (pairUp p)] := updChan_other _ _ (pairUp_ne_pairLo p)
  rw [updChan_self] at hs
  rw [hup]
  exact ⟨congrArg ChCfg.mode hs.cfg, hs.st⟩

theorem joining_lo (p : Fin 4) (s : State) : (joining p s).chan[sh (pairLo p)].st = s.chan[sh (pairLo p)].st := by
  have hs := settle_other (n := sh (pairUp p)) .off (updChan (sh (pairUp p)) partnered s) (pairUp_ne_pairLo p).symm
  have hlo : (joining p s).chan[sh (pairLo p)] = { (partnerOff p s).chan[sh (pairLo p)] with fallback := none } := updChan_self _ _ _
  rw [updChan_other _ _ (pairUp_ne_pairLo p).symm] at hs
  rw [hlo]
  exact hs.st

/-- The pair is joined, its upper channel is PARTNER and off, and its lower one keeps its state (R162). -/
theorem joinPair_joins {p : Fin 4} {s : State} (hlo : (vget s.lines (2 * p.val) {}).wbrk = false) (hup : (vget s.lines (2 * p.val + 1) {}).wbrk = false) :
    (joinPair p (pairLo p) (pairUp p) s).chs.pairs[p] = true ∧ (joinPair p (pairLo p) (pairUp p) s).chan[sh (pairUp p)].cfg.mode = 4 ∧
      (joinPair p (pairLo p) (pairUp p) s).chan[sh (pairUp p)].st = .off ∧
      (joinPair p (pairLo p) (pairUp p) s).chan[sh (pairLo p)].st = s.chan[sh (pairLo p)].st := by
  have hclear : lineBroken (joining p s) (sh (pairLo p)) = false :=
    lineBroken_pairLo (by rw [joining_lines]; exact hlo) fun _ => by rw [joining_lines]; exact hup
  rw [joinPair_eq, checkBreak_clear hclear]
  obtain ⟨i, hi⟩ := refreshI_chan (pairLo p) (updChan (sh (pairLo p)) (fun c => { c with own := false }) (joining p s)) (sh (pairUp p))
  obtain ⟨j, hj⟩ := refreshI_chan (pairLo p) (updChan (sh (pairLo p)) (fun c => { c with own := false }) (joining p s)) (sh (pairLo p))
  obtain ⟨hmode, hst⟩ := joining_up p s
  rw [hi, hj, updChan_self, updChan_other _ _ (pairUp_ne_pairLo p)]
  exact ⟨vupd_same _ p _, hmode, hst, joining_lo p s⟩

/-- The upper channel of the pair that was as one in mode 0 (R171). -/
def parted (c : Chan) : Chan := { c with cfg := { c.cfg with mode := 0 }, st := .off, own := false }

/-- The pair is over, before its lower channel decides on its own line. -/
def splitting (p : Fin 4) (s : State) : State :=
  updChan (sh (pairUp p)) parted
    (updChan (sh (pairLo p)) (fun c => { c with fallback := none }) { s with chs := { s.chs with pairs := vupd s.chs.pairs p fun _ => false } })

theorem splitPair_eq (p : Fin 4) (s : State) :
    splitPair p (pairLo p) (pairUp p) s = refreshI (pairUp p) (refreshI (pairLo p) (checkBreak (sh (pairLo p)) (splitting p s))) := rfl

theorem splitting_up (p : Fin 4) (s : State) : (splitting p s).chan[sh (pairUp p)].cfg.mode = 0 ∧ (splitting p s).chan[sh (pairUp p)].st = .off := by
  unfold splitting
  rw [updChan_self]
  exact ⟨rfl, rfl⟩

theorem splitting_lo (p : Fin 4) (s : State) : (splitting p s).chan[sh (pairLo p)].st = s.chan[sh (pairLo p)].st := by
  unfold splitting
  rw [updChan_other _ _ (pairUp_ne_pairLo p).symm, updChan_self]

theorem splitting_other {p : Fin 4} {m : Fin 12} (s : State) (hlo : m ≠ sh (pairLo p)) (hup : m ≠ sh (pairUp p)) :
    (splitting p s).chan[m] = s.chan[m] := by
  unfold splitting
  rw [updChan_other _ _ hup, updChan_other _ _ hlo]

theorem splitting_chs (p : Fin 4) (s : State) : (splitting p s).chs = { s.chs with pairs := vupd s.chs.pairs p fun _ => false } := rfl

theorem splitting_frame (p : Fin 4) (s : State) : { splitting p s with chan := s.chan, chs := s.chs } = s := rfl

/-- A pair that is split decides on the line of its lower channel, and each channel takes the current of its own line (R165, R176). -/
theorem splitPair_parts {p : Fin 4} {s : State} (hlo : (vget s.lines (2 * p.val) {}).wbrk = false) :
    ∃ i j, splitPair p (pairLo p) (pairUp p) s =
      updChan (sh (pairUp p)) (fun c => { c with lastI := j }) (updChan (sh (pairLo p)) (fun c => { c with own := false, lastI := i }) (splitting p s)) := by
  have hpairs : (splitting p s).chs.pairs[p] = false := vupd_same _ p _
  have hclear : lineBroken (splitting p s) (sh (pairLo p)) = false :=
    lineBroken_pairLo hlo fun h => absurd (h.symm.trans (paired_split (by omega) hpairs)) (by decide)
  rw [splitPair_eq, checkBreak_clear hclear]
  generalize splitting p s = u at hpairs
  obtain ⟨i, hi⟩ := refreshI_alone (paired_split (k := (pairLo p).val) (by rw [pairLo]; dsimp only; omega) hpairs :
    paired (updChan (sh (pairLo p)) (fun c => { c with own := false }) u) (pairLo p).val = false)
  rw [hi]
  obtain ⟨j, hj⟩ := refreshI_alone (paired_split (k := (pairUp p).val) (by rw [pairUp]; dsimp only; omega) hpairs :
    paired (updChan (sh (pairLo p)) (fun c => { c with lastI := i }) (updChan (sh (pairLo p)) (fun c => { c with own := false }) u)) (pairUp p).val = false)
  rw [hj]
  exact ⟨i, j, congrArg _ (updChan_updChan _ _ _ _)⟩

/-- The pair is split, its upper channel is in mode 0 and off, and its lower one keeps its state (R171). -/
theorem splitPair_splits {p : Fin 4} {s : State} (hlo : (vget s.lines (2 * p.val) {}).wbrk = false) :
    (splitPair p (pairLo p) (pairUp p) s).chs = { s.chs with pairs := vupd s.chs.pairs p fun _ => false } ∧
      (splitPair p (pairLo p) (pairUp p) s).chan[sh (pairUp p)].cfg.mode = 0 ∧
      (splitPair p (pairLo p) (pairUp p) s).chan[sh (pairUp p)].st = .off ∧
      (splitPair p (pairLo p) (pairUp p) s).chan[sh (pairLo p)].st = s.chan[sh (pairLo p)].st ∧
      (∀ m : Fin 12, m ≠ sh (pairLo p) → m ≠ sh (pairUp p) → (splitPair p (pairLo p) (pairUp p) s).chan[m] = s.chan[m]) ∧
      { splitPair p (pairLo p) (pairUp p) s with chan := s.chan, chs := s.chs } = s := by
  obtain ⟨i, j, h⟩ := splitPair_parts hlo
  have hne := pairUp_ne_pairLo p
  rw [h]
  obtain ⟨hmode, hst⟩ := splitting_up p s
  refine ⟨?_, ?_, ?_, ?_, fun m hmlo hmup => ?_, splitting_frame p s⟩
  · rw [updChan_chs, updChan_chs, splitting_chs]
  · rw [updChan_self, updChan_other _ _ hne, hmode]
  · rw [updChan_self, updChan_other _ _ hne, hst]
  · rw [updChan_other _ _ hne.symm, updChan_self, splitting_lo]
  · rw [updChan_other _ _ hmup, updChan_other _ _ hmlo, splitting_other s hmlo hmup]

/-! ### Scales (R151, R172) -/

/-- A scale held as pending. -/
def pendScale (n : Fin 12) (v : Nat) (s : State) : State := updChan n (fun c => { c with cfg := { c.cfg with scpend := v } }) s

theorem pendScale_self (n : Fin 12) (v : Nat) (s : State) :
    (pendScale n v s).chan[n] = { s.chan[n] with cfg := { s.chan[n].cfg with scpend := v } } := updChan_self _ _ _

theorem pendScale_idle {n : Fin 12} (v : Nat) {s : State} (hp : paired s n.val = false) : idle (pendScale n v s) n = idle s n := by
  have hp' : paired (pendScale n v s) n.val = false := hp
  rw [idle_of_lowerOf (lowerOf_unpaired hp), idle_of_lowerOf (lowerOf_unpaired hp'), pendScale_self]

/-- An idle channel that stands alone takes its scale at once. -/
theorem setScale_idle {n : Fin 12} {v : Nat} {s : State} (hv : v ≠ 0) (hp : paired s n.val = false) (hi : idle s n = true) :
    setScale n v s = { s with chan := vupd s.chan n (fun c => { c with cfg := { c.cfg with scale := v, scpend := 0 } }) } := by
  have hu : idle (pendScale n v s) n = true := (pendScale_idle v hp).trans hi
  have hp' : paired (updChan n (scaled v) (pendScale n v s)) n.val = false := hp
  have hpend : (pendScale n v s).chan[n].cfg.scpend = v := by rw [pendScale_self]
  have happly : applyScale n (pendScale n v s) = updChan n (scaled v) (pendScale n v s) := by
    unfold applyScale
    rw [hpend, if_neg hv]
    exact if_neg fun h => absurd (h.symm.trans hp') (by decide)
  calc setScale n v s = applyScale n (pendScale n v s) := if_pos hu
    _ = updChan n (scaled v) (pendScale n v s) := happly
    _ = _ := updChan_updChan _ _ _ _

theorem setScale_busy {n : Fin 12} {v : Nat} {s : State} (hp : paired s n.val = false) (hi : idle s n = false) :
    setScale n v s = { s with chan := vupd s.chan n (fun c => { c with cfg := { c.cfg with scpend := v } }) } := by
  have hu : idle (pendScale n v s) n = false := (pendScale_idle v hp).trans hi
  exact if_neg fun h => absurd (h.symm.trans hu) (by decide)

theorem cmdSenseScale_eq {a : Args} {n : Fin 12} {s : State} (hn : fld a.a0 0 3 = n.val) (h0 : within a.a0 7 = true) (h1 : a.a1 ≠ 0)
    (hp : paired s n.val = false) : cmdSenseScale a s = { st := setScale n a.a1.toNat s, q0 := if idle s n then 0 else 1 } := by
  obtain ⟨k, hk⟩ := n
  dsimp only at hn
  subst hn
  have hpartner : isPartner s ⟨fld a.a0 0 3, hk⟩ = false := by
    unfold isPartner
    rw [hp]
    rfl
  exact checked_ok _ _ _ _ (by rw [h0, bne_iff_ne.mpr h1]; rfl) (by simp [hpartner])

/-! ### The four channel commands on a free mailbox (R169 to R172) -/

section
variable {a : Args} {s : State} (hf : mboxFree s = true)
include hf

section
variable {n : Fin 12} (ha : admitted 0x10 a s = true) (hn : fld a.a0 0 4 = n.val) (h0 : within a.a0 0xFF7F = true) (h1 : within a.a1 0xFFF = true) (h2 : a.a2 ≠ 0)
  (hshaped : n.val < 8 ∨ fld a.a0 4 2 < 2 ∧ bit a.a0 6 = false) (hscale : fld a.a0 4 2 < 2 ∨ s.chan[n].cfg.scale ≠ 0)
  (hemit : emitDrives s n.val = false) (hpair : paired s n.val = false)
include ha hn h0 h1 h2 hshaped hscale hemit hpair

theorem channelSet_accepted (hidle : idleX s n = true) (hc : s.chan[n].cont = false) (hb : lineBroken s n = false) :
    ∃ t, exec (.channelSet a) s = .next t ∧ answered t 0 0 0 ∧
    t.chan[n].cfg = { s.chan[n].cfg with mode := fld a.a0 4 2, boostuse := bit a.a0 6, slew := fld a.a0 8 8, decthr := a.a1.toNat, decmax := a.a2.toNat } ∧
    t.chan[n].st = restState (fld a.a0 4 2) ∧ { t with mbox := s.mbox, bus := s.bus, chan := s.chan, chs := s.chs, trip := s.trip, diag := s.diag } = s := by
  have hchecks := cmdChannelSet_checks (s := started 0x10 a s) h0 h1 h2 hn hshaped hscale hemit hpair
  have hop : cmdChannelSet a (started 0x10 a s) = { st := channelMode n (setFields a) (started 0x10 a s) } :=
    hchecks.trans (checked_ok _ _ _ _ rfl (by rw [show idleX (started 0x10 a s) n = true from hidle]; rfl))
  obtain ⟨hcfg, hst⟩ := channelMode_free (s := started 0x10 a s) (setFields a) hc hb
  have hframe := eq_of_chanBut (channelMode_but n (setFields a) (started 0x10 a s))
  generalize channelMode n (setFields a) (started 0x10 a s) = u at hop hcfg hst hframe
  obtain ⟨hans, m, b, ht⟩ := mboxRow_answers hf ha hop (by rw [hframe])
  refine ⟨_, rfl, hans, ?_⟩
  rw [ht]
  exact ⟨hcfg, hst, by rw [hframe]; rfl⟩

theorem channelSet_refused (hidle : idleX s n = false) :
    ∃ t, exec (.channelSet a) s = .next t ∧ answered t 0x17 5 0 ∧ { t with mbox := s.mbox, bus := s.bus } = s := by
  have hchecks := cmdChannelSet_checks (s := started 0x10 a s) h0 h1 h2 hn hshaped hscale hemit hpair
  rw [show idleX (started 0x10 a s) n = false from hidle] at hchecks
  exact ⟨_, rfl, mboxRow_refuses hf ha (hchecks.trans (checked_fails _ _ _ 5 rfl (by decide)))⟩

end

section
variable (ha : admitted 0x11 a s = true) (h0 : within a.a0 0x13F = true)
include ha h0

theorem profileLoad_stages (happly : bit a.a0 8 = false) :
    ∃ t, exec (.profileLoad a) s = .next t ∧ answered t 0 0 0 ∧ t.chs = { s.chs with stage := stagedWith a s } ∧
      { t with mbox := s.mbox, bus := s.bus, chs := s.chs } = s := by
  obtain ⟨hans, m, b, ht⟩ := mboxRow_answers hf ha (cmdProfileLoad_stages (started 0x11 a s) h0 happly) rfl
  refine ⟨_, rfl, hans, ?_⟩
  rw [ht]
  exact ⟨rfl, rfl⟩

theorem profileLoad_applies (happly : bit a.a0 8 = true) (hpeak : (profOf (stagedWith a s)).hysp ≤ (profOf (stagedWith a s)).peak)
    (hhold : (profOf (stagedWith a s)).hysh ≤ (profOf (stagedWith a s)).hold) :
    ∃ t, exec (.profileLoad a) s = .next t ∧ answered t 0 0 0 ∧
      t.chs = { s.chs with stage := stagedWith a s, profs := vput s.chs.profs (fld a.a0 0 4) (profOf (stagedWith a s)) } ∧
      { t with mbox := s.mbox, bus := s.bus, chs := s.chs } = s := by
  have hop := (cmdProfileLoad_applies (started 0x11 a s) h0 happly).trans
    (checked_ok _ _ _ _ rfl (all_cons_true (decide_eq_true hpeak) (all_cons_true (decide_eq_true hhold) rfl)))
  obtain ⟨hans, m, b, ht⟩ := mboxRow_answers hf ha hop rfl
  refine ⟨_, rfl, hans, ?_⟩
  rw [ht]
  exact ⟨rfl, rfl⟩

/-- A peak below its hysteresis is check 1, and the words stay staged (R443). -/
theorem profileLoad_refused (happly : bit a.a0 8 = true) (hpeak : (profOf (stagedWith a s)).peak < (profOf (stagedWith a s)).hysp) :
    ∃ t, exec (.profileLoad a) s = .next t ∧ answered t 0x17 1 0 ∧ t.chs = { s.chs with stage := stagedWith a s } ∧
      { t with mbox := s.mbox, bus := s.bus, chs := s.chs } = s := by
  have hop := (cmdProfileLoad_applies (started 0x11 a s) h0 happly).trans
    (checked_fails _ _ _ 1 rfl (firstFail_first _ (decide_eq_false (Nat.not_le.mpr hpeak))))
  obtain ⟨hans, m, b, ht⟩ := mboxRow_answers hf ha hop rfl
  refine ⟨_, rfl, hans, ?_⟩
  rw [ht]
  exact ⟨rfl, rfl⟩

end

section
variable {p : Fin 4} (ha : admitted 0x13 a s = true) (h0 : within a.a0 7 = true) (hp : fld a.a0 0 2 = p.val)
include ha h0 hp

theorem pairSet_joins (hjoin : bit a.a0 2 = true) (hpair : s.chs.pairs[p] = false) (hlo : (vget s.lines (2 * p.val) {}).wbrk = false)
    (hup : (vget s.lines (2 * p.val + 1) {}).wbrk = false) (hil : s.chan[sh (pairLo p)].st = .idle) (hiu : s.chan[sh (pairUp p)].st = .idle)
    (hmode : s.chan[sh (pairLo p)].cfg.mode = 2) (hscale : s.chan[sh (pairLo p)].cfg.scale = s.chan[sh (pairUp p)].cfg.scale)
    (hscaled : s.chan[sh (pairLo p)].cfg.scale ≠ 0) :
    ∃ t, exec (.pairSet a) s = .next t ∧ answered t 0 0 0 ∧
    t.chs.pairs[p] = true ∧ t.chan[sh (pairUp p)].cfg.mode = 4 ∧ t.chan[sh (pairUp p)].st = .off ∧ t.chan[sh (pairLo p)].st = .idle ∧
    { t with mbox := s.mbox, bus := s.bus, chan := s.chan, chs := s.chs, trip := s.trip, diag := s.diag } = s := by
  have hop : cmdPairSet a (started 0x13 a s) = { st := joinPair p (pairLo p) (pairUp p) (started 0x13 a s) } :=
    cmdPairSet_joins (s := started 0x13 a s) hp hjoin h0 hpair hil hiu hmode hscale hscaled
  obtain ⟨hpairs, hm, hst, hlow⟩ := joinPair_joins (s := started 0x13 a s) hlo hup
  have hframe := eq_of_chanBut (joinPair_but p (pairLo p) (pairUp p) (started 0x13 a s))
  generalize joinPair p (pairLo p) (pairUp p) (started 0x13 a s) = u at hop hpairs hm hst hlow hframe
  obtain ⟨hans, m, b, ht⟩ := mboxRow_answers hf ha hop (by rw [hframe])
  refine ⟨_, rfl, hans, ?_⟩
  rw [ht]
  exact ⟨hpairs, hm, hst, hlow.trans hil, by rw [hframe]; rfl⟩

theorem pairSet_splits (hsplit : bit a.a0 2 = false) (hpair : s.chs.pairs[p] = true) (hlo : (vget s.lines (2 * p.val) {}).wbrk = false)
    (hil : s.chan[sh (pairLo p)].st = .idle) :
    ∃ t, exec (.pairSet a) s = .next t ∧ answered t 0 0 0 ∧ t.chs = { s.chs with pairs := vupd s.chs.pairs p fun _ => false } ∧
      t.chan[sh (pairUp p)].cfg.mode = 0 ∧ t.chan[sh (pairUp p)].st = .off ∧ t.chan[sh (pairLo p)].st = .idle ∧
      (∀ m : Fin 12, m ≠ sh (pairLo p) → m ≠ sh (pairUp p) → t.chan[m] = s.chan[m]) ∧
      { t with mbox := s.mbox, bus := s.bus, chan := s.chan, chs := s.chs } = s := by
  have heven : (sh (pairLo p)).val % 2 = 0 := Nat.mul_mod_right 2 p.val
  have hidle : idle (started 0x13 a s) (sh (pairLo p)) = true := (idle_of_lowerOf (lowerOf_even heven)).trans (congrArg ChSt.resting hil)
  have hop : cmdPairSet a (started 0x13 a s) = { st := splitPair p (pairLo p) (pairUp p) (started 0x13 a s) } := by
    rw [cmdPairSet_split (started 0x13 a s) hp hsplit, checked_ok _ _ _ _ h0 (by rw [hidle, Bool.or_true]; rfl)]
    exact congrArg (fun u : State => ({ st := u } : CmdRes)) (if_pos hpair)
  obtain ⟨hchs, hm, hst, hlow, hother, hframe⟩ := splitPair_splits (s := started 0x13 a s) hlo
  have hmbox : (splitPair p (pairLo p) (pairUp p) (started 0x13 a s)).mbox = (started 0x13 a s).mbox := (congrArg State.mbox hframe :)
  generalize splitPair p (pairLo p) (pairUp p) (started 0x13 a s) = u at hop hchs hm hst hlow hother hframe hmbox
  obtain ⟨hans, m, b, ht⟩ := mboxRow_answers hf ha hop hmbox
  refine ⟨_, rfl, hans, ?_⟩
  rw [ht]
  exact ⟨hchs, hm, hst, hlow.trans hil, hother, congrArg (fun v : State => { v with mbox := s.mbox, bus := s.bus }) hframe⟩

end

section
variable {n : Fin 12} (ha : admitted 0x19 a s = true) (h0 : within a.a0 7 = true) (h1 : a.a1 ≠ 0) (hn : fld a.a0 0 3 = n.val) (hpair : paired s n.val = false)
include ha h0 h1 hn hpair

theorem senseScale_idle (hidle : idle s n = true) :
    ∃ t, exec (.senseScale a) s = .next t ∧ answered t 0 0 0 ∧
    t.chan = vupd s.chan n (fun c => { c with cfg := { c.cfg with scale := a.a1.toNat, scpend := 0 } }) ∧ { t with mbox := s.mbox, bus := s.bus, chan := s.chan } = s := by
  have hv : a.a1.toNat ≠ 0 := fun h => h1 (BitVec.eq_of_toNat_eq h)
  have hop := cmdSenseScale_eq (s := started 0x19 a s) hn h0 h1 hpair
  rw [setScale_idle (s := started 0x19 a s) hv hpair hidle, show idle (started 0x19 a s) n = true from hidle] at hop
  obtain ⟨hans, m, b, ht⟩ := mboxRow_answers hf ha hop rfl
  refine ⟨_, rfl, hans, ?_⟩
  rw [ht]
  exact ⟨rfl, rfl⟩

theorem senseScale_busy (hidle : idle s n = false) :
    ∃ t, exec (.senseScale a) s = .next t ∧ answered t 0 1 0 ∧
    t.chan = vupd s.chan n (fun c => { c with cfg := { c.cfg with scpend := a.a1.toNat } }) ∧ { t with mbox := s.mbox, bus := s.bus, chan := s.chan } = s := by
  have hop := cmdSenseScale_eq (s := started 0x19 a s) hn h0 h1 hpair
  rw [setScale_busy (s := started 0x19 a s) hpair hidle, show idle (started 0x19 a s) n = false from hidle] at hop
  obtain ⟨hans, m, b, ht⟩ := mboxRow_answers hf ha hop rfl
  refine ⟨_, rfl, hans, ?_⟩
  rw [ht]
  exact ⟨rfl, rfl⟩

end
end

/-- Settles O37: each command that its checks accept has its effect alone, and CHANNEL_SET and PROFILE_LOAD name the check that fails. -/
theorem channelCommands : Obligations.ChannelCommands := by
  refine ⟨?_, ?_, ?_, ?_, ?_, ?_, ?_, ?_, ?_⟩
  · intro a n s hf ha hn h0 h1 h2 hshaped hscale hemit hpair hidle hc hb
    exact channelSet_accepted hf ha hn h0 h1 h2 hshaped hscale hemit hpair hidle hc hb
  · intro a n s hf ha hn h0 h1 h2 hshaped hscale hemit hpair hidle
    exact channelSet_refused hf ha hn h0 h1 h2 hshaped hscale hemit hpair hidle
  · intro a s hf ha h0 happly
    exact profileLoad_stages hf ha h0 happly
  · rintro a v s hf ha h0 happly rfl hpeak hhold
    exact profileLoad_applies hf ha h0 happly hpeak hhold
  · rintro a v s hf ha h0 happly rfl hpeak
    exact profileLoad_refused hf ha h0 happly hpeak
  · intro a p lo up s hf ha h0 hp hlo hup hjoin hpair hbl hbu hil hiu _ hmode hscale hscaled
    obtain rfl : lo = sh (pairLo p) := Fin.ext hlo
    obtain rfl : up = sh (pairUp p) := Fin.ext hup
    exact pairSet_joins hf ha h0 hp hjoin hpair hbl hbu hil hiu hmode hscale hscaled
  · intro a p lo up s hf ha h0 hp hlo hup hsplit hpair hbl hil _
    obtain rfl : lo = sh (pairLo p) := Fin.ext hlo
    obtain rfl : up = sh (pairUp p) := Fin.ext hup
    exact pairSet_splits hf ha h0 hp hsplit hpair hbl hil
  · intro a n s hf ha h0 h1 hn hpair hidle
    exact senseScale_idle hf ha h0 h1 hn hpair hidle
  · intro a n s hf ha h0 h1 hn hpair hidle
    exact senseScale_busy hf ha h0 h1 hn hpair hidle

end Sys2Proof.Machine

/-! The Brass sequencer (R173 to R187): what an instruction does to the channel that issues it, the ends of holds, the loading of
programs, and reads of SIGIRQ. -/

namespace Sys2Proof.Machine

/-! ### The issue of an instruction (R174, R178) -/

/-- The channel whose instruction has been counted; the next one issues in FCLK cycle `k` at the earliest. -/
def counted (k : Nat) (c : Chan) : Chan := { c with prog := { c.prog with issued := satInc c.prog.issued 65535, next := k } }

/-- The channel whose program continues at the next instruction. -/
def advanced (c : Chan) : Chan := { c with prog := { c.prog with pc := c.prog.pc + 1 } }

theorem issued_eq (n : Fin 8) (s : State) : issued n s = updChan (sh n) (counted (issueAt s n + 1)) s := rfl

theorem stepPc_eq (n : Fin 8) (s : State) : stepPc n s = updChan (sh n) advanced s := rfl

/-- What counting an instruction leaves alone, the issue leaves alone on every channel. -/
theorem issued_keeps {β : Type} (p : Chan → β) (hp : ∀ k c, p (counted k c) = p c) (n : Fin 8) (m : Fin 12) (s : State) :
    p (issued n s).chan[m] = p s.chan[m] := by
  rw [issued_eq]
  by_cases hm : m = sh n
  · subst hm
    rw [updChan_self, hp]
  · rw [updChan_other _ _ hm]

theorem codeOf_issued (n : Fin 8) (m : Fin 12) (x : Nat) (s : State) : codeOf (issued n s) m x = codeOf s m x := by
  have hscale : (issued n s).chan[lowerOf (issued n s) m].cfg.scale = s.chan[lowerOf s m].cfg.scale :=
    issued_keeps (fun c => c.cfg.scale) (fun _ _ => rfl) n _ s
  have hpaired : paired (issued n s) m.val = paired s m.val := rfl
  unfold codeOf
  rw [hpaired, hscale]

theorem lastLine_issued (n : Fin 8) (s : State) : lastLine (issued n s) n = lastLine s n := by
  have hfallback : (issued n s).chan[lowerOf (issued n s) (sh n)].fallback = s.chan[lowerOf s (sh n)].fallback :=
    issued_keeps Chan.fallback (fun _ _ => rfl) n _ s
  unfold lastLine
  rw [hfallback]
  rfl

/-- A branch decides as it would before it is counted (R176). -/
theorem brassCond_issued (n : Fin 8) (cond : BitVec 4) (level : Word) (s : State) :
    brassCond (issued n s) n cond level = brassCond s n cond level := by
  have htimed := issued_keeps (fun c => c.prog.timedOut) (fun _ _ => rfl) n (sh n) s
  have hsiga := issued_keeps (fun c => c.prog.siga) (fun _ _ => rfl) n (sh n) s
  have hsigb := issued_keeps (fun c => c.prog.sigb) (fun _ _ => rfl) n (sh n) s
  have hlast := issued_keeps Chan.lastI (fun _ _ => rfl) n (sh n) s
  have hfallback := issued_keeps Chan.fallback (fun _ _ => rfl) n (sh n) s
  have hgaps : (issued n s).chan[lowerOf (issued n s) (sh n)].gaps = s.chan[lowerOf s (sh n)].gaps :=
    issued_keeps Chan.gaps (fun _ _ => rfl) n _ s
  have hstep : stepOf (issued n s) (sh n) = stepOf s (sh n) := rfl
  have hwheel : (issued n s).wheel = s.wheel := rfl
  unfold brassCond
  dsimp only at htimed hsiga hsigb ⊢
  rw [lastLine_issued, codeOf_issued, hstep, hwheel, htimed, hsiga, hsigb, hlast, hfallback, hgaps]

/-- Only a channel that nothing holds issues (R178). -/
theorem wait_of_dueIssue {n : Fin 8} {s : State} (h : dueIssue s n = true) : s.chan[sh n].prog.wait = .none := by
  simp only [dueIssue, canIssue, Bool.and_eq_true, beq_iff_eq] at h
  obtain ⟨⟨⟨-, hwait⟩, -⟩, -⟩ := h
  exact hwait

/-- An update of one channel leaves the other channels and the other blocks alone. -/
theorem updChan_alone (n : Fin 12) (f : Chan → Chan) (s : State) :
    (∀ m : Fin 12, m ≠ n → (updChan n f s).chan[m] = s.chan[m]) ∧ { updChan n f s with chan := s.chan } = s :=
  ⟨fun _ => updChan_other f s, rfl⟩

/-! ### Targets and hysteresis (R179) -/

/-- The target that SETT puts in force. -/
def settTarget (n : Fin 8) (level : Word) (thr : Bool) (s : State) : Nat :=
  if thr then throttled (codeOf s (sh n) level.toNat) (stepOf s (sh n)) else codeOf s (sh n) level.toNat

/-- The channel with its THR bit and the code before the throttle reduction. -/
def targeted (thr : Bool) (code : Nat) (c : Chan) : Chan := { c with prog := { c.prog with thr := thr, full := code } }

/-- The channel with a target in force; a new one is a retarget (R153). -/
def retargeted (v : Nat) (noslew : Bool) (c : Chan) : Chan :=
  if c.reg.target = v then c else { c with reg := { c.reg with target := v, retarget := true, noslew := noslew } }

theorem retargeted_prog (v : Nat) (noslew : Bool) (c : Chan) : (retargeted v noslew c).prog = c.prog := by
  unfold retargeted
  split <;> rfl

theorem retargeted_target (v : Nat) (noslew : Bool) (c : Chan) : (retargeted v noslew c).reg.target = v := by
  unfold retargeted
  split
  · assumption
  · rfl

theorem retargeted_new {v : Nat} {c : Chan} (noslew : Bool) (h : c.reg.target ≠ v) :
    (retargeted v noslew c).reg.retarget = true ∧ (retargeted v noslew c).reg.noslew = noslew := by
  unfold retargeted
  rw [if_neg h]
  exact ⟨rfl, rfl⟩

/-- SETT on the channel that issues it. -/
def settChan (n : Fin 8) (level : Word) (thr noslew : Bool) (s : State) (c : Chan) : Chan :=
  advanced (retargeted (settTarget n level thr s) noslew (targeted thr (codeOf s (sh n) level.toNat) (counted (issueAt s n + 1) c)))

theorem opSett_eq (n : Fin 8) (level : Word) (thr noslew : Bool) (s : State) :
    opSett n level thr noslew s = updChan (sh n) (settChan n level thr noslew s) s := by
  have hop : opSett n level thr noslew s = updChan (sh n) advanced (updChan (sh n) (retargeted (settTarget n level thr (issued n s)) noslew)
      (updChan (sh n) (targeted thr (codeOf (issued n s) (sh n) level.toNat)) (issued n s))) := rfl
  have htarget : settTarget n level thr (issued n s) = settTarget n level thr s := by
    unfold settTarget
    rw [codeOf_issued]
    rfl
  rw [hop, htarget, codeOf_issued, issued_eq, updChan_updChan, updChan_updChan, updChan_updChan]
  rfl

theorem settChan_prog (n : Fin 8) (level : Word) (thr noslew : Bool) (s : State) (c : Chan) :
    (settChan n level thr noslew s c).prog =
      { c.prog with issued := satInc c.prog.issued 65535, next := issueAt s n + 1, thr := thr, full := codeOf s (sh n) level.toNat, pc := c.prog.pc + 1 } := by
  simp only [settChan, advanced, retargeted_prog]
  rfl

theorem settChan_target (n : Fin 8) (level : Word) (thr noslew : Bool) (s : State) (c : Chan) :
    (settChan n level thr noslew s c).reg.target = settTarget n level thr s := retargeted_target _ _ _

theorem settChan_retargets {n : Fin 8} {level : Word} {thr : Bool} {s : State} {c : Chan} (noslew : Bool) (h : c.reg.target ≠ settTarget n level thr s) :
    (settChan n level thr noslew s c).reg.retarget = true ∧ (settChan n level thr noslew s c).reg.noslew = noslew := by
  have hnew : (targeted thr (codeOf s (sh n) level.toNat) (counted (issueAt s n + 1) c)).reg.target ≠ settTarget n level thr s := h
  exact retargeted_new noslew hnew

theorem exec_sett {n : Fin 8} {s : State} (level : Word) (thr noslew : Bool) (h : dueIssue s n = true) :
    exec (.sett n level thr noslew) s = .next (updChan (sh n) (settChan n level thr noslew s) s) := by
  rw [← opSett_eq]
  exact congrArg Host.Outcome.next (if_pos h)

theorem sett_full (n : Fin 8) (level : Word) (noslew : Bool) (s : State) (h : dueIssue s n = true) :
    ∃ t, exec (.sett n level false noslew) s = .next t ∧ t.chan[sh n].prog.issued = satInc s.chan[sh n].prog.issued 65535 ∧
      t.chan[sh n].reg.target = codeOf s (sh n) level.toNat ∧ t.chan[sh n].prog.thr = false ∧ t.chan[sh n].prog.pc = s.chan[sh n].prog.pc + 1 ∧
      (s.chan[sh n].reg.target ≠ codeOf s (sh n) level.toNat → t.chan[sh n].reg.retarget = true ∧ t.chan[sh n].reg.noslew = noslew) ∧
      (∀ m : Fin 12, m ≠ sh n → t.chan[m] = s.chan[m]) ∧ { t with chan := s.chan } = s := by
  refine ⟨_, exec_sett level false noslew h, ?_⟩
  rw [updChan_self, settChan_prog]
  exact ⟨rfl, settChan_target _ _ _ _ _ _, rfl, rfl, fun hne => settChan_retargets noslew hne, updChan_alone _ _ _⟩

theorem sett_throttled (n : Fin 8) (level : Word) (noslew : Bool) (s : State) (h : dueIssue s n = true) :
    ∃ t, exec (.sett n level true noslew) s = .next t ∧ t.chan[sh n].prog.issued = satInc s.chan[sh n].prog.issued 65535 ∧
      t.chan[sh n].reg.target = throttled (codeOf s (sh n) level.toNat) (stepOf s (sh n)) ∧ t.chan[sh n].prog.thr = true ∧
      t.chan[sh n].prog.full = codeOf s (sh n) level.toNat ∧ (∀ m : Fin 12, m ≠ sh n → t.chan[m] = s.chan[m]) ∧ { t with chan := s.chan } = s := by
  refine ⟨_, exec_sett level true noslew h, ?_⟩
  rw [updChan_self, settChan_prog]
  exact ⟨rfl, settChan_target _ _ _ _ _ _, rfl, rfl, updChan_alone _ _ _⟩

/-- SETH on the channel that issues it. -/
def sethChan (n : Fin 8) (hys : Word) (s : State) (c : Chan) : Chan :=
  advanced { counted (issueAt s n + 1) c with reg := { c.reg with h := codeOf s (sh n) hys.toNat } }

theorem opSeth_eq (n : Fin 8) (hys : Word) (s : State) : opSeth n hys s = updChan (sh n) (sethChan n hys s) s := by
  have hop : opSeth n hys s = updChan (sh n) advanced
      (updChan (sh n) (fun c => { c with reg := { c.reg with h := codeOf (issued n s) (sh n) hys.toNat } }) (issued n s)) := rfl
  rw [hop, codeOf_issued, issued_eq, updChan_updChan, updChan_updChan]
  rfl

theorem seth_issues (n : Fin 8) (hys : Word) (s : State) (h : dueIssue s n = true) :
    ∃ t, exec (.seth n hys) s = .next t ∧ t.chan[sh n].prog.issued = satInc s.chan[sh n].prog.issued 65535 ∧
      t.chan[sh n].reg = { s.chan[sh n].reg with h := codeOf s (sh n) hys.toNat } ∧
      t.chan[sh n].prog.pc = s.chan[sh n].prog.pc + 1 ∧ (∀ m : Fin 12, m ≠ sh n → t.chan[m] = s.chan[m]) ∧ { t with chan := s.chan } = s := by
  refine ⟨_, congrArg Host.Outcome.next ((if_pos h).trans (opSeth_eq n hys s)), ?_⟩
  rw [updChan_self]
  exact ⟨rfl, rfl, rfl, updChan_alone _ _ _⟩

/-! ### Holds and branches (R176, R178, R181) -/

/-- The channel that a hold has begun on. -/
def holding (w : BrWait) (c : Chan) : Chan := { c with prog := { c.prog with wait := w } }

/-- The instant at which a WAITT ends its hold. -/
def waittStop (n : Fin 8) (d : BitVec 24) (abs : Bool) (s : State) : Tb :=
  (if abs then s.chan[sh n].pulse.startAt else s.clk.tb) + BitVec.ofNat 48 (10 * d.toNat)

theorem opWaitt_eq (n : Fin 8) (d : BitVec 24) (abs : Bool) (s : State) :
    opWaitt n d abs s = if tbGe s.clk.tb (waittStop n d abs s) then updChan (sh n) (fun c => advanced (counted (issueAt s n + 1) c)) s
      else updChan (sh n) (fun c => holding (.time (waittStop n d abs s)) (counted (issueAt s n + 1) c)) s := by
  have hstart := issued_keeps (fun c => c.pulse.startAt) (fun _ _ => rfl) n (sh n) s
  have hop : opWaitt n d abs s = if tbGe s.clk.tb (waittStop n d abs (issued n s)) then updChan (sh n) advanced (issued n s)
      else updChan (sh n) (holding (.time (waittStop n d abs (issued n s)))) (issued n s) := rfl
  have hstop : waittStop n d abs (issued n s) = waittStop n d abs s := by
    unfold waittStop
    rw [hstart]
    rfl
  rw [hop, hstop, issued_eq, updChan_updChan, updChan_updChan]

section
variable (n : Fin 8) (d : BitVec 24) (abs : Bool) (s : State) (h : dueIssue s n = true)
include h

theorem waitt_holds (hstop : tbGe s.clk.tb ((if abs then s.chan[sh n].pulse.startAt else s.clk.tb) + BitVec.ofNat 48 (10 * d.toNat)) = false) :
    ∃ t, exec (.waitt n d abs) s = .next t ∧ t.chan[sh n].prog.issued = satInc s.chan[sh n].prog.issued 65535 ∧
      t.chan[sh n].prog.wait = .time ((if abs then s.chan[sh n].pulse.startAt else s.clk.tb) + BitVec.ofNat 48 (10 * d.toNat)) ∧
      t.chan[sh n].prog.pc = s.chan[sh n].prog.pc ∧ (∀ m : Fin 12, m ≠ sh n → t.chan[m] = s.chan[m]) ∧ { t with chan := s.chan } = s := by
  have hlater : ¬ tbGe s.clk.tb (waittStop n d abs s) = true := Bool.eq_false_iff.mp hstop
  refine ⟨_, congrArg Host.Outcome.next ((if_pos h).trans ((opWaitt_eq n d abs s).trans (if_neg hlater))), ?_⟩
  rw [updChan_self]
  exact ⟨rfl, rfl, rfl, updChan_alone _ _ _⟩

theorem waitt_elapsed (hstop : tbGe s.clk.tb ((if abs then s.chan[sh n].pulse.startAt else s.clk.tb) + BitVec.ofNat 48 (10 * d.toNat)) = true) :
    ∃ t, exec (.waitt n d abs) s = .next t ∧ t.chan[sh n].prog.issued = satInc s.chan[sh n].prog.issued 65535 ∧
      t.chan[sh n].prog.wait = .none ∧ t.chan[sh n].prog.pc = s.chan[sh n].prog.pc + 1 ∧ { t with chan := s.chan } = s := by
  refine ⟨_, congrArg Host.Outcome.next ((if_pos h).trans ((opWaitt_eq n d abs s).trans (if_pos hstop))), ?_⟩
  rw [updChan_self]
  exact ⟨rfl, wait_of_dueIssue h, rfl, rfl⟩

end

/-- The instant at which a WAITI gives up, when it has a timeout. -/
def waitiStop (tmo : BitVec 12) (s : State) : Option Tb := if tmo = 0 then none else some (s.clk.tb + BitVec.ofNat 48 (100 * tmo.toNat))

theorem opWaiti_eq (n : Fin 8) (level : Word) (dir : Bool) (tmo : BitVec 12) (s : State) :
    opWaiti n level dir tmo s =
      updChan (sh n) (fun c => holding (.current (codeOf s (sh n) level.toNat) dir (waitiStop tmo s)) (counted (issueAt s n + 1) c)) s := by
  have hop : opWaiti n level dir tmo s =
      updChan (sh n) (holding (.current (codeOf (issued n s) (sh n) level.toNat) dir (waitiStop tmo s))) (issued n s) := rfl
  rw [hop, codeOf_issued, issued_eq, updChan_updChan]

theorem waiti_holds (n : Fin 8) (level : Word) (dir : Bool) (tmo : BitVec 12) (s : State) (h : dueIssue s n = true) :
    ∃ t, exec (.waiti n level dir tmo) s = .next t ∧ t.chan[sh n].prog.issued = satInc s.chan[sh n].prog.issued 65535 ∧
      t.chan[sh n].prog.wait = .current (codeOf s (sh n) level.toNat) dir (if tmo = 0 then none else some (s.clk.tb + BitVec.ofNat 48 (100 * tmo.toNat))) ∧
      t.chan[sh n].prog.pc = s.chan[sh n].prog.pc ∧ (∀ m : Fin 12, m ≠ sh n → t.chan[m] = s.chan[m]) ∧ { t with chan := s.chan } = s := by
  refine ⟨_, congrArg Host.Outcome.next ((if_pos h).trans (opWaiti_eq n level dir tmo s)), ?_⟩
  rw [updChan_self]
  exact ⟨rfl, rfl, rfl, updChan_alone _ _ _⟩

/-- The channel whose program goes on at an instruction. -/
def jumped (pc : Nat) (c : Chan) : Chan := { c with prog := { c.prog with pc := pc } }

/-- The instruction at which a BR goes on. -/
def brTarget (n : Fin 8) (dest : BitVec 5) (inv : Bool) (cond : BitVec 4) (level : Word) (s : State) : Nat :=
  if brassCond s n cond level = inv then s.chan[sh n].prog.pc + 1 else dest.toNat

theorem opBr_chan (n : Fin 8) (dest : BitVec 5) (inv : Bool) (cond : BitVec 4) (level : Word) (s : State) :
    (opBr n dest inv cond level s).chan[sh n] = jumped (brTarget n dest inv cond level s) (counted (issueAt s n + 1) s.chan[sh n]) ∧
      ∀ m : Fin 12, m ≠ sh n → (opBr n dest inv cond level s).chan[m] = s.chan[m] := by
  have hop : opBr n dest inv cond level s = if brassCond (issued n s) n cond level != inv then updChan (sh n) (jumped dest.toNat) (issued n s)
      else updChan (sh n) advanced (issued n s) := rfl
  rw [hop, brassCond_issued, issued_eq, updChan_updChan, updChan_updChan, brTarget]
  by_cases hc : brassCond s n cond level = inv
  · rw [if_neg (by simp [hc]), if_pos hc, updChan_self]
    exact ⟨rfl, fun _ => updChan_other _ s⟩
  · rw [if_pos (by simpa using hc), if_neg hc, updChan_self]
    exact ⟨rfl, fun _ => updChan_other _ s⟩

/-- Outside the channels a state that agrees with another is that state with its own channels. -/
theorem chanOnly_of_but {s t : State} (h : but 2048 t = but 2048 s) : { t with chan := s.chan } = s := by
  rw [(but_ext (m := 2048) (n := 4294965247) rfl h rfl : t = { s with chan := t.chan })]

theorem br_issues (n : Fin 8) (dest : BitVec 5) (inv : Bool) (cond : BitVec 4) (level : Word) (s : State) (h : dueIssue s n = true) :
    ∃ t, exec (.br n dest inv cond level) s = .next t ∧ t.chan[sh n].prog.issued = satInc s.chan[sh n].prog.issued 65535 ∧
      t.chan[sh n].prog.pc = (if brassCond s n cond level = inv then s.chan[sh n].prog.pc + 1 else dest.toNat) ∧ t.chan[sh n].reg = s.chan[sh n].reg ∧
      (∀ m : Fin 12, m ≠ sh n → t.chan[m] = s.chan[m]) ∧ { t with chan := s.chan } = s := by
  obtain ⟨hself, hother⟩ := opBr_chan n dest inv cond level s
  refine ⟨_, congrArg Host.Outcome.next (if_pos h), ?_⟩
  rw [hself]
  exact ⟨rfl, rfl, rfl, hother, chanOnly_of_but (opBr_but n dest inv cond level s)⟩

/-! ### SIG (R182) -/

/-- The channel with its signals as a SIG sets them. -/
def signalled (value mask : BitVec 2) (c : Chan) : Chan :=
  { c with prog := { c.prog with siga := if mask.getLsbD 0 then value.getLsbD 0 else c.prog.siga, sigb := if mask.getLsbD 1 then value.getLsbD 1 else c.prog.sigb } }

theorem opSig_chan (n : Fin 8) (value mask : BitVec 2) (irq : Bool) (s : State) :
    (opSig n value mask irq s).chan = (updChan (sh n) (fun c => advanced (signalled value mask (counted (issueAt s n + 1) c))) s).chan := by
  have hop : (opSig n value mask irq s).chan = (updChan (sh n) advanced (updChan (sh n) (signalled value mask) (issued n s))).chan := by
    cases irq <;> rfl
  rw [hop, issued_eq, updChan_updChan, updChan_updChan]

theorem opSig_sigirq (n : Fin 8) (value mask : BitVec 2) (irq : Bool) (s : State) :
    (opSig n value mask irq s).brass.sigirq = if irq then s.brass.sigirq ||| BitVec.ofNat 8 (2 ^ n.val) else s.brass.sigirq := by
  cases irq <;> rfl

theorem opSig_interrupts (n : Fin 8) (value mask : BitVec 2) (s : State) : bit (opSig n value mask true s).bus.intstat 8 = true := by
  have hbus : (opSig n value mask true s).bus = (setInt 8 s).bus := rfl
  rw [hbus]
  exact bit_setInt s (by decide)

theorem opSig_frame (n : Fin 8) (value mask : BitVec 2) (irq : Bool) (s : State) :
    { opSig n value mask irq s with chan := s.chan, brass := s.brass, bus := s.bus } = s := by
  have hbut := opSig_but n value mask irq s
  generalize opSig n value mask irq s = t at hbut ⊢
  rw [(but_ext (m := 33589248) (n := 4261378047) rfl hbut rfl : t = { s with chan := t.chan, brass := t.brass, bus := t.bus })]

theorem sig_issues (n : Fin 8) (value mask : BitVec 2) (irq : Bool) (s : State) (h : dueIssue s n = true) :
    ∃ t, exec (.sig n value mask irq) s = .next t ∧ t.chan[sh n].prog.issued = satInc s.chan[sh n].prog.issued 65535 ∧
      t.chan[sh n].prog.siga = (if mask.getLsbD 0 then value.getLsbD 0 else s.chan[sh n].prog.siga) ∧
      t.chan[sh n].prog.sigb = (if mask.getLsbD 1 then value.getLsbD 1 else s.chan[sh n].prog.sigb) ∧
      t.brass.sigirq = (if irq then s.brass.sigirq ||| BitVec.ofNat 8 (2 ^ n.val) else s.brass.sigirq) ∧ (irq = true → bit t.bus.intstat 8 = true) ∧
      t.chan[sh n].prog.pc = s.chan[sh n].prog.pc + 1 ∧ (∀ m : Fin 12, m ≠ sh n → t.chan[m] = s.chan[m]) ∧
      { t with chan := s.chan, brass := s.brass, bus := s.bus } = s := by
  obtain ⟨hother, -⟩ := updChan_alone (sh n) (fun c => advanced (signalled value mask (counted (issueAt s n + 1) c))) s
  have hint : irq = true → bit (opSig n value mask irq s).bus.intstat 8 = true := by
    rintro rfl
    exact opSig_interrupts n value mask s
  refine ⟨_, congrArg Host.Outcome.next (if_pos h), ?_⟩
  rw [opSig_chan, updChan_self]
  exact ⟨rfl, rfl, rfl, opSig_sigirq n value mask irq s, hint, rfl, hother, opSig_frame n value mask irq s⟩

/-! ### What BOOSTEN leaves alone (R157, R162) -/

theorem BoostMoved.prog {c d : Chan} (h : BoostMoved c d) : d.prog = c.prog := by obtain ⟨f, l, e, rfl⟩ := h; rfl
theorem BoostMoved.breq {c d : Chan} (h : BoostMoved c d) : d.breq = c.breq := by obtain ⟨f, l, e, rfl⟩ := h; rfl

theorem mate_mate (n : Fin 12) : mate (mate n) = n := (by decide : ∀ n : Fin 12, mate (mate n) = n) n

/-- The two channels of a pair are paired together. -/
theorem paired_mate (s : State) (n : Fin 12) : paired s (mate n).val = paired s n.val := by
  have hpair : ∀ n : Fin 12, decide ((mate n).val < 8) = decide (n.val < 8) ∧ (mate n).val / 2 = n.val / 2 := by decide
  obtain ⟨hshaped, hhalf⟩ := hpair n
  unfold paired
  rw [hshaped, hhalf]

theorem paired_congr {s t : State} (h : t.chs.pairs = s.chs.pairs) (k : Nat) : paired t k = paired s k := by
  unfold paired
  rw [h]

/-- Driving a channel changes no channel but in its level. -/
theorem setDrv_chan (n m : Fin 12) (lvl : Bool) (s : State) : ∃ l, (setDrv n lvl s).chan[m] = { s.chan[m] with drv := l } := by
  have h1 : ∀ (k : Fin 12) (t : State), ∃ l, (setDrv1 k lvl t).chan[m] = { t.chan[m] with drv := l } := fun k t => by
    unfold setDrv1
    by_cases hk : m = k
    · subst hk
      rw [updChan_self]
      exact ⟨_, rfl⟩
    · rw [updChan_other _ _ hk]
      exact ⟨_, rfl⟩
  unfold setDrv
  split
  · obtain ⟨l, hl⟩ := h1 n s
    obtain ⟨l', hl'⟩ := h1 (mate n) (setDrv1 n lvl s)
    exact ⟨l', by rw [hl', hl]⟩
  · exact h1 n s

/-- Driving a channel leaves alone a channel that is neither it nor its partner in an enabled pair (R162). -/
theorem setDrv_other {n m : Fin 12} {s : State} (lvl : Bool) (hm : m ≠ n) (hmate : paired s n.val = true → m ≠ mate n) :
    (setDrv n lvl s).chan[m] = s.chan[m] := by
  unfold setDrv setDrv1
  split
  · next hp => rw [updChan_other _ _ (hmate hp), updChan_other _ _ hm]
  · exact updChan_other _ _ hm

/-- A channel that BOOSTEN does not force, and whose partner in an enabled pair it does not force either, keeps its level (R157, R162). -/
theorem forceLow_drv {n : Fin 12} {s : State} (hn : forceable s.chan[n] = false) (hmate : paired s n.val = true → forceable s.chan[mate n] = false) :
    (forceLow s).chan[n].drv = s.chan[n].drv := by
  let fs := (List.finRange 12).filter fun k => forceable s.chan[k]
  let force (k : Fin 12) (t : State) : State := updChan k (fun c => { c with forced := true }) (setDrv k false t)
  have hforce : ∀ k ∈ fs, ∀ t : State, t.chs = s.chs → (force k t).chan[n] = t.chan[n] := fun k hk t ht => by
    have hk' : forceable s.chan[k] = true := (List.mem_filter.mp hk).2
    have hne : n ≠ k := by
      rintro rfl
      rw [hn] at hk'
      exact absurd hk' (by decide)
    have hpartner : paired t k.val = true → n ≠ mate k := by
      rintro hp rfl
      rw [paired_congr (congrArg Chs.pairs ht), ← paired_mate] at hp
      rw [← mate_mate k, hmate hp] at hk'
      exact absurd hk' (by decide)
    exact (updChan_other _ _ hne).trans (setDrv_other false hne hpartner)
  have hfold : (foldSt fs force s).chs = s.chs ∧ (foldSt fs force s).chan[n] = s.chan[n] :=
    List.foldlRecOn (motive := fun t : State => t.chs = s.chs ∧ t.chan[n] = s.chan[n]) fs (fun t k => force k t) ⟨rfl, rfl⟩
      fun t ⟨hchs, hchan⟩ k hk =>
        ⟨(chs_of_but rfl ((updChan_but k _ _).trans (setDrv_but k false t))).trans hchs, (hforce k hk t hchs).trans hchan⟩
  obtain ⟨-, hchan⟩ := hfold
  have heq : (forceLow s).chan = vmapi (fun _ c => if forceable c then c else { c with forced := false }) (foldSt fs force s).chan := rfl
  rw [heq, vmapi_getElem, hchan]
  split <;> rfl

theorem boostUpdate_drv {n : Fin 12} {s : State} (old : Vector Chan 12) (hn : forceable s.chan[n] = false)
    (hmate : paired s n.val = true → forceable s.chan[mate n] = false) : (boostUpdate old s).chan[n].drv = s.chan[n].drv := by
  obtain h | ⟨e, h⟩ | h := boostUpdate_cases old s
  · rw [h]
    exact forceLow_drv (s := { s with chs := boostChs old s }) hn hmate
  · rw [h, boostEnds]
    dsimp only
    rw [vmapi_getElem]
    split <;> rfl
  · rw [h]

/-- BOOSTEN is decided high exactly while a channel requests it (R157). -/
theorem boostUpdate_boosten (old : Vector Chan 12) (s : State) : (boostUpdate old s).chs.boosten = s.chan.toList.any requests := by
  obtain h | ⟨e, h⟩ | h := boostUpdate_cases old s
  · rw [h, chs_of_but (t := forceLow _) rfl (forceLow_but _)]
    rfl
  · rw [h]
    rfl
  · rw [h]
    rfl

/-! ### END and BOOST (R180, R183) -/

/-- The program of a channel that enters DECAY is over, and its request is dropped (R158, R183). -/
theorem enterDecay_stops (n : Fin 12) (s : State) : (enterDecay n s).chan[n].prog = stopProg s.chan[n].prog ∧ (enterDecay n s).chan[n].breq = false := by
  have hs := settle_self n .decay s
  unfold enterDecay
  rw [updChan_self]
  exact ⟨hs.prog, hs.breq⟩

theorem brassEnd_ends (n : Fin 8) (s : State) (h : dueIssue s n = true) :
    ∃ t, exec (.brassEnd n) s = .next t ∧ t.chan[sh n].st = .decay ∧ t.chan[sh n].drv = false ∧
      t.chan[sh n].prog.run = false ∧ t.chan[sh n].breq = false ∧ t.chan[sh n].prog.issued = (if s.chan[sh n].prog.issued < 65535 then s.chan[sh n].prog.issued + 1 else 65535) ∧
      { t with chan := s.chan, chs := s.chs, trip := s.trip, diag := s.diag } = s := by
  obtain ⟨hst, hdrv, -, -⟩ := enterDecay_self (sh n) (issued n s)
  obtain ⟨hprog, hbreq⟩ := enterDecay_stops (sh n) (issued n s)
  rw [issued_eq, updChan_self, ← issued_eq] at hprog
  exact ⟨_, congrArg Host.Outcome.next (if_pos h), hst, hdrv, congrArg Prog.run hprog, hbreq, congrArg Prog.issued hprog, chanFrame_of_but (opEnd_but n s)⟩

/-- The channel with the request that BOOST makes (R180). -/
def requested (c : Chan) : Chan := { c with breq := true, forced := false, reg := { c.reg with deadTo := none } }

/-- The state in which the channel requests BOOSTEN and is driven, before BOOSTEN follows. -/
def boosting (n : Fin 8) (s : State) : State := setDrv (sh n) true (updChan (sh n) requested (issued n s))

theorem boosting_self (n : Fin 8) (s : State) :
    (boosting n s).chan[sh n] = { requested (counted (issueAt s n + 1) s.chan[sh n]) with drv := true } := by
  unfold boosting
  rw [setDrv_self, updChan_self, issued_eq, updChan_self]

theorem boosting_requests (n : Fin 8) (s : State) : (boosting n s).chan.toList.any requests = true := by
  have hreq : requests (boosting n s).chan[sh n] = true := by
    rw [boosting_self]
    exact Bool.or_true _
  have hmem : (boosting n s).chan[sh n] ∈ (boosting n s).chan.toList := by simp
  exact List.any_eq_true.mpr ⟨_, hmem, hreq⟩

/-- The partner is forced by BOOSTEN as it would have been before. -/
theorem boosting_mate (n : Fin 8) (s : State) : forceable (boosting n s).chan[mate (sh n)] = forceable s.chan[mate (sh n)] := by
  have hne : mate (sh n) ≠ sh n := (by decide : ∀ n : Fin 8, mate (sh n) ≠ sh n) n
  obtain ⟨l, hl⟩ := setDrv_chan (sh n) (mate (sh n)) true (updChan (sh n) requested (issued n s))
  unfold boosting
  rw [hl, issued_eq, updChan_other _ _ hne, updChan_other _ _ hne]
  rfl

theorem boosting_paired (n : Fin 8) (s : State) : paired (boosting n s) n.val = paired s n.val := by
  have hchs : (boosting n s).chs = (updChan (sh n) requested (issued n s)).chs := chs_of_but rfl (setDrv_but (sh n) true _)
  exact paired_congr (congrArg Chs.pairs hchs) n.val

theorem opBoost_on {n : Fin 8} {s : State} (hreq : s.chan[sh n].breq = false) :
    opBoost n true s = updChan (sh n) advanced (boostUpdate (issued n s).chan (boosting n s)) := by
  have hreq' : (issued n s).chan[sh n].breq = false := (issued_keeps Chan.breq (fun _ _ => rfl) n (sh n) s).trans hreq
  have hon : boostOn n (issued n s) = boostUpdate (issued n s).chan (boosting n s) := if_neg (by rw [hreq']; decide)
  exact congrArg (stepPc n) hon

theorem boost_requests (n : Fin 8) (s : State) (h : dueIssue s n = true) (hreq : s.chan[sh n].breq = false) :
    ∃ t, exec (.boost n true) s = .next t ∧ t.chan[sh n].prog.issued = satInc s.chan[sh n].prog.issued 65535 ∧ t.chan[sh n].breq = true ∧
      ((paired s n.val = true → forceable s.chan[mate (sh n)] = false) → t.chan[sh n].drv = true) ∧ t.chan[sh n].prog.pc = s.chan[sh n].prog.pc + 1 ∧
      t.chs.boosten = true ∧ { t with chan := s.chan, chs := s.chs, trip := s.trip, diag := s.diag } = s := by
  have hmoved := boostUpdate_moves (issued n s).chan (boosting n s) (sh n)
  have hboosten := (boostUpdate_boosten (issued n s).chan (boosting n s)).trans (boosting_requests n s)
  have hdrv : (paired s n.val = true → forceable s.chan[mate (sh n)] = false) → (boostUpdate (issued n s).chan (boosting n s)).chan[sh n].drv = true := by
    intro hmate
    have hself : forceable (boosting n s).chan[sh n] = false := by
      rw [boosting_self]
      exact Bool.and_false _
    have hpartner : paired (boosting n s) n.val = true → forceable (boosting n s).chan[mate (sh n)] = false := fun hp => by
      rw [boosting_mate]
      exact hmate (boosting_paired n s ▸ hp)
    rw [boostUpdate_drv _ hself hpartner, boosting_self]
  rw [boosting_self] at hmoved
  have hframe := chanFrame_of_but (opBoost_but n true s)
  refine ⟨opBoost n true s, congrArg Host.Outcome.next (if_pos h), ?_⟩
  rw [opBoost_on hreq] at hframe ⊢
  rw [updChan_self]
  exact ⟨congrArg Prog.issued hmoved.prog, hmoved.breq, hdrv, congrArg (fun p => p.pc + 1) hmoved.prog, hboosten, hframe⟩

/-- The channel that has dropped its request, and is held until the dead time is over (R178, R180). -/
def released (c : Chan) : Chan := { c with breq := false, prog := { c.prog with wait := .boostOff } }

theorem opBoost_off {n : Fin 8} {s : State} (hreq : s.chan[sh n].breq = true) :
    opBoost n false s = boostUpdate (issued n s).chan (updChan (sh n) released (setDrv (sh n) false (issued n s))) := by
  have hreq' : (setDrv (sh n) false (issued n s)).chan[sh n].breq = true := by
    rw [setDrv_self]
    exact (issued_keeps Chan.breq (fun _ _ => rfl) n (sh n) s).trans hreq
  exact if_pos hreq'

theorem boost_releases (n : Fin 8) (s : State) (h : dueIssue s n = true) (hreq : s.chan[sh n].breq = true) :
    ∃ t, exec (.boost n false) s = .next t ∧ t.chan[sh n].prog.issued = satInc s.chan[sh n].prog.issued 65535 ∧ t.chan[sh n].breq = false ∧
      t.chan[sh n].drv = false ∧ t.chan[sh n].prog.wait = .boostOff ∧ t.chan[sh n].prog.pc = s.chan[sh n].prog.pc ∧
      { t with chan := s.chan, chs := s.chs, trip := s.trip, diag := s.diag } = s := by
  have hmoved := boostUpdate_moves (issued n s).chan (updChan (sh n) released (setDrv (sh n) false (issued n s))) (sh n)
  rw [updChan_self, setDrv_self, issued_eq, updChan_self, ← issued_eq] at hmoved
  have hprog := hmoved.prog
  have hframe := chanFrame_of_but (opBoost_but n false s)
  refine ⟨opBoost n false s, congrArg Host.Outcome.next (if_pos h), ?_⟩
  rw [opBoost_off hreq] at hframe ⊢
  exact ⟨congrArg Prog.issued hprog, hmoved.breq, hmoved.drv_low rfl, congrArg Prog.wait hprog, (congrArg Prog.pc hprog :), hframe⟩

/-! ### Outside the issue cycle (R178) -/

/-- A row of the sequencer whose time has not come changes nothing. -/
theorem row_early {due : Bool} (s t : State) (h : due = false) :
    (Host.Outcome.next (if due then t else s) : Host.Outcome State Fault Refusal) = .next s :=
  congrArg Host.Outcome.next (if_neg (by simp [h]))

theorem instructions_early (n : Fin 8) (level : Word) (thr noslew : Bool) (d : BitVec 24) (tmo : BitVec 12) (dest : BitVec 5) (cond : BitVec 4)
    (vm : BitVec 2) (s : State) (h : dueIssue s n = false) :
    exec (.brassEnd n) s = .next s ∧ exec (.sett n level thr noslew) s = .next s ∧ exec (.seth n level) s = .next s ∧
      exec (.waitt n d thr) s = .next s ∧ exec (.boost n thr) s = .next s ∧ exec (.waiti n level thr tmo) s = .next s ∧
      exec (.br n dest thr cond level) s = .next s ∧ exec (.sig n vm vm thr) s = .next s :=
  ⟨row_early s _ h, row_early s _ h, row_early s _ h, row_early s _ h, row_early s _ h, row_early s _ h, row_early s _ h, row_early s _ h⟩

/-- Settles O38: each instruction by what it does to the channel that issues it, and BOOST also by how BOOSTEN follows. -/
theorem brassInstructions : Obligations.BrassInstructions :=
  ⟨brassEnd_ends, sett_full, sett_throttled, seth_issues, waitt_holds, waitt_elapsed, waiti_holds, br_issues, boost_requests, boost_releases,
    sig_issues, instructions_early⟩

/-! ### The issue cycle, and the ends of holds (R173, R178, R181) -/

theorem exec_brassIssueCycle {n : Fin 8} {s : State} (h : dueIssue s n = true) :
    exec (.brassIssueCycle n) s = .next (brassIssue n (brassFetch s n) s) :=
  congrArg Host.Outcome.next (if_pos h)

/-- The issue cycle is the instruction that stands at PC (R178). -/
theorem brassIssueCycle_fetched {n : Fin 8} {s : State} {op : BrassOp} (h : dueIssue s n = true) (hop : brassFetch s n = op) :
    exec (.brassIssueCycle n) s = .next (brassIssue n op s) := by
  rw [exec_brassIssueCycle h, hop]

theorem brassFetch_empty {n : Fin 8} {s : State} (h : (vget s.brass.dir s.chan[sh n].prog.entry {}).len = 0) : brassFetch s n = .stop :=
  if_pos h

theorem brassIssueCycle_sett (n : Fin 8) (level : Word) (thr noslew : Bool) (s : State) (h : dueIssue s n = true)
    (hop : brassFetch s n = .sett level thr noslew) :
    ∃ t, exec (.brassIssueCycle n) s = .next t ∧ exec (.sett n level thr noslew) s = .next t ∧
      t.chan[sh n].prog.pc = s.chan[sh n].prog.pc + 1 ∧ { t with chan := s.chan } = s := by
  refine ⟨_, brassIssueCycle_fetched h hop, congrArg Host.Outcome.next (if_pos h), ?_⟩
  change (opSett n level thr noslew s).chan[sh n].prog.pc = _ ∧ { opSett n level thr noslew s with chan := s.chan } = s
  rw [opSett_eq, updChan_self, settChan_prog]
  exact ⟨rfl, rfl⟩

theorem brassIssueCycle_br (n : Fin 8) (dest : BitVec 5) (inv : Bool) (cond : BitVec 4) (level : Word) (s : State) (h : dueIssue s n = true)
    (hop : brassFetch s n = .br dest inv cond level) :
    ∃ t, exec (.brassIssueCycle n) s = .next t ∧ exec (.br n dest inv cond level) s = .next t ∧ { t with chan := s.chan } = s :=
  ⟨_, brassIssueCycle_fetched h hop, congrArg Host.Outcome.next (if_pos h), chanOnly_of_but (opBr_but n dest inv cond level s)⟩

/-- An empty entry ends at once, as END does (R173). -/
theorem brassIssueCycle_empty (n : Fin 8) (s : State) (h : dueIssue s n = true) (hlen : (vget s.brass.dir s.chan[sh n].prog.entry {}).len = 0) :
    ∃ t, exec (.brassIssueCycle n) s = .next t ∧ exec (.brassEnd n) s = .next t ∧ t.chan[sh n].st = .decay ∧ t.chan[sh n].prog.run = false := by
  obtain ⟨t, hend, hst, -, hrun, -⟩ := brassEnd_ends n s h
  have hsame : exec (.brassIssueCycle n) s = exec (.brassEnd n) s :=
    (brassIssueCycle_fetched h (brassFetch_empty hlen)).trans (congrArg Host.Outcome.next (if_pos h)).symm
  exact ⟨t, hsame.trans hend, hend, hst, hrun⟩

/-- The channel whose hold is over: it goes on at the next instruction, in FCLK cycle `k` at the earliest. -/
def resumed (k : Nat) (c : Chan) : Chan := { c with prog := { c.prog with wait := .none, pc := c.prog.pc + 1, next := k } }

theorem holdEnds_eq (n : Fin 8) (s : State) : holdEnds n s = updChan (sh n) (resumed (s.clk.fcyc + 1)) s := rfl

theorem waittExpiry_due (n : Fin 8) (s : State) (h : dueWaitt s n = true) :
    ∃ t, exec (.waittExpiry n) s = .next t ∧ t.chan[sh n].prog.wait = .none ∧ t.chan[sh n].prog.pc = s.chan[sh n].prog.pc + 1 ∧
      t.chan[sh n].prog.timedOut = s.chan[sh n].prog.timedOut ∧ (∀ m : Fin 12, m ≠ sh n → t.chan[m] = s.chan[m]) ∧ { t with chan := s.chan } = s := by
  refine ⟨_, congrArg Host.Outcome.next ((if_pos h).trans (holdEnds_eq n s)), ?_⟩
  rw [updChan_self]
  exact ⟨rfl, rfl, rfl, updChan_alone _ _ _⟩

/-- The channel that remembers the timeout of its WAITI (R181). -/
def gaveUp (c : Chan) : Chan := { c with prog := { c.prog with timedOut := true } }

theorem waitiTimeout_due (n : Fin 8) (s : State) (h : dueWaiti s n = true) :
    ∃ t, exec (.waitiTimeout n) s = .next t ∧ t.chan[sh n].prog.wait = .none ∧ t.chan[sh n].prog.pc = s.chan[sh n].prog.pc + 1 ∧
      t.chan[sh n].prog.timedOut = true ∧ (∀ m : Fin 12, m ≠ sh n → t.chan[m] = s.chan[m]) ∧ { t with chan := s.chan } = s := by
  refine ⟨_, congrArg Host.Outcome.next ((if_pos h).trans (updChan_updChan (sh n) (resumed (s.clk.fcyc + 1)) gaveUp s)), ?_⟩
  rw [updChan_self]
  exact ⟨rfl, rfl, rfl, updChan_alone _ _ _⟩

/-! ### BRASS_LOAD (R186, R187, R445) -/

theorem exec_brassLoadInstruction {a : Args} (s : State) (h : bit a.a0 15 = false) :
    exec (.brassLoadInstruction a) s = .next (mboxRow 0x12 cmdBrassLoad a s) := by
  change Host.Outcome.next (mboxRow 0x12 cmdBrassLoad { a with a0 := a.a0 &&& 0x7FFF } s) = _
  rw [and_low15 h]

theorem exec_brassLoadHeader {a : Args} (s : State) (h : bit a.a0 15 = true) :
    exec (.brassLoadHeader a) s = .next (mboxRow 0x12 cmdBrassLoad a s) := by
  change Host.Outcome.next (mboxRow 0x12 cmdBrassLoad { a with a0 := a.a0 ||| 0x8000 } s) = _
  rw [or_bit15 h]

theorem cmdBrassLoad_stages {a : Args} (s : State) (hform : bit a.a0 15 = false) (h0 : within a.a0 0x801F = true) :
    cmdBrassLoad a s = { st := { s with brass := { s.brass with staged := vput s.brass.staged (fld a.a0 0 5) (a.a2 ++ a.a1) } } } := by
  unfold cmdBrassLoad
  rw [if_neg (by simp [hform]), if_neg (by simp [h0])]

theorem brassLoadInstruction_stages (a : Args) (s : State) (hf : mboxFree s = true) (ha : admitted 0x12 a s = true) (hform : bit a.a0 15 = false)
    (h0 : within a.a0 0x801F = true) :
    ∃ t, exec (.brassLoadInstruction a) s = .next t ∧ answered t 0 0 0 ∧
      t.brass = { s.brass with staged := vput s.brass.staged (fld a.a0 0 5) (a.a2 ++ a.a1) } ∧ { t with mbox := s.mbox, bus := s.bus, brass := s.brass } = s := by
  obtain ⟨hans, m, b, ht⟩ := mboxRow_completes hf ha (cmdBrassLoad_stages (started 0x12 a s) hform h0) rfl
  refine ⟨_, exec_brassLoadInstruction s hform, hans, ?_⟩
  rw [ht]
  exact ⟨rfl, rfl⟩

/-- The entry names the program, and the store holds the staged instructions at their place and elsewhere what it held (R186, R187). -/
theorem brassApply_changes (e base len : Nat) (maxon : Word) (s : State) :
    ∃ code, brassApply e base len maxon s = { s with brass := { s.brass with code := code, dir := vput s.brass.dir e ⟨base, len, maxon.toNat⟩ } } ∧
      ∀ i : Fin 256, code[i] = if base ≤ i.val ∧ i.val < base + len then vget s.brass.staged (i.val - base) 0 else s.brass.code[i] :=
  ⟨_, rfl, fun i => vmapi_getElem _ s.brass.code i⟩

/-- The five checks of a header, for the entry, the base and the length that it names (R186, R445). -/
def headerChecks (a : Args) (s : State) : List Bool :=
  [decide (fld a.a1 0 8 + fld a.a1 8 6 ≤ 256), (stagedProg s (fld a.a1 8 6)).all brassClean, (stagedProg s (fld a.a1 8 6)).all (brassInside (fld a.a1 8 6)),
    fld a.a1 8 6 == 0 || brassCloses (vget s.brass.staged (fld a.a1 8 6 - 1) 0), !brassInUse s (fld a.a0 0 4) (fld a.a1 0 8) (fld a.a1 8 6)]

section
variable {a : Args} {s : State} (hform : bit a.a0 15 = true) (h0 : within a.a0 0x810F = true) (h1 : within a.a1 0x3FFF = true) (hlen : fld a.a1 8 6 ≤ 32)
include hform h0 h1 hlen

theorem cmdBrassLoad_header : cmdBrassLoad a s =
    checked true (headerChecks a s) s { st := if bit a.a0 8 then brassApply (fld a.a0 0 4) (fld a.a1 0 8) (fld a.a1 8 6) a.a2 s else s } := by
  unfold cmdBrassLoad
  rw [if_pos hform]
  dsimp only
  rw [h0, h1, decide_eq_true hlen]
  rfl

section
variable (hf : mboxFree s = true) (ha : admitted 0x12 a s = true)
include hf ha

/-- A program that passes the five checks is written at its base, and its entry names it (R186, R187). -/
theorem brassLoadHeader_applies (happly : bit a.a0 8 = true) (hchecks : (headerChecks a s).all id = true) :
    ∃ t, exec (.brassLoadHeader a) s = .next t ∧ answered t 0 0 0 ∧
      t.brass.dir = vput s.brass.dir (fld a.a0 0 4) ⟨fld a.a1 0 8, fld a.a1 8 6, a.a2.toNat⟩ ∧
      (∀ i : Fin 256, t.brass.code[i] =
        (if fld a.a1 0 8 ≤ i.val ∧ i.val < fld a.a1 0 8 + fld a.a1 8 6 then vget s.brass.staged (i.val - fld a.a1 0 8) 0 else s.brass.code[i])) ∧
      t.brass.sigirq = s.brass.sigirq ∧ { t with mbox := s.mbox, bus := s.bus, brass := s.brass } = s := by
  have hchecks' : (headerChecks a (started 0x12 a s)).all id = true := hchecks
  have hop : cmdBrassLoad a (started 0x12 a s) = { st := brassApply (fld a.a0 0 4) (fld a.a1 0 8) (fld a.a1 8 6) a.a2 (started 0x12 a s) } := by
    rw [cmdBrassLoad_header hform h0 h1 hlen, checked_ok _ _ _ _ rfl hchecks', if_pos happly]
  obtain ⟨code, happlied, hcode⟩ := brassApply_changes (fld a.a0 0 4) (fld a.a1 0 8) (fld a.a1 8 6) a.a2 (started 0x12 a s)
  rw [happlied] at hop
  obtain ⟨hans, m, b, ht⟩ := mboxRow_completes hf ha hop rfl
  refine ⟨_, exec_brassLoadHeader s hform, hans, ?_⟩
  rw [ht]
  exact ⟨rfl, hcode, rfl, rfl⟩

/-- A program that runs past the end of the store is check 1 (R445). -/
theorem brassLoadHeader_overruns (hend : 256 < fld a.a1 0 8 + fld a.a1 8 6) :
    ∃ t, exec (.brassLoadHeader a) s = .next t ∧ answered t 0x17 1 0 ∧ { t with mbox := s.mbox, bus := s.bus } = s := by
  have hop : cmdBrassLoad a (started 0x12 a s) = { st := started 0x12 a s, status := 0x17, q0 := 1 } :=
    (cmdBrassLoad_header hform h0 h1 hlen).trans (checked_fails _ _ _ 1 rfl (firstFail_first _ (decide_eq_false (Nat.not_le.mpr hend))))
  exact ⟨_, exec_brassLoadHeader s hform, mboxRow_refuses hf ha hop⟩

end
end

theorem headerChecks_hold {a : Args} {s : State} (hend : fld a.a1 0 8 + fld a.a1 8 6 ≤ 256) (hclean : (stagedProg s (fld a.a1 8 6)).all brassClean = true)
    (hinside : (stagedProg s (fld a.a1 8 6)).all (brassInside (fld a.a1 8 6)) = true)
    (hcloses : fld a.a1 8 6 = 0 ∨ brassCloses (vget s.brass.staged (fld a.a1 8 6 - 1) 0) = true)
    (hfree : brassInUse s (fld a.a0 0 4) (fld a.a1 0 8) (fld a.a1 8 6) = false) : (headerChecks a s).all id = true := by
  have hlast : (fld a.a1 8 6 == 0 || brassCloses (vget s.brass.staged (fld a.a1 8 6 - 1) 0)) = true := by
    rwa [Bool.or_eq_true, beq_iff_eq]
  exact all_cons_true (decide_eq_true hend) (all_cons_true hclean (all_cons_true hinside (all_cons_true hlast
    (all_cons_true (by rw [hfree]; rfl) rfl))))

/-! ### Reads of SIGIRQ (R174, R330, R419) -/

/-- The state with the host's pointer at SIGIRQ in window BRASS. -/
def atSigirq (s : State) : State := { s with bus := { s.bus with winsel := w16 3, winadr := w16 576 } }

theorem exec_sigirqRead {s : State} (hb : hostBus s = true) (hu : busUp s = true) :
    exec .sigirqRead s = .next (putData (gatedWindow .chan 3 readSigirq (atSigirq s)).1 (stepWinadr .host (gatedWindow .chan 3 readSigirq (atSigirq s)).2)) := by
  obtain ⟨hadr, -⟩ := regOpen_pointer hu
  change Host.Outcome.next (windowRead .sigirqRead 3 576 (gatedWindow .chan 3 readSigirq) s) = _
  rw [windowRead, hostRead_answered _ _ hb hu, pointAt_open 3 576 hadr]
  rfl

theorem sigirqRead_clears (s : State) (hb : hostBus s = true) (hu : busUp s = true) (hblk : blkOn s .chan = true) :
    exec .sigirqRead s = .next { s with
      brass := { s.brass with sigirq := 0 }, bus := { s.bus with data := s.brass.sigirq.setWidth 16, winsel := 3, winadr := 577 } } := by
  have hread : gatedWindow .chan 3 readSigirq (atSigirq s) = readSigirq (atSigirq s) := if_pos hblk
  rw [exec_sigirqRead hb hu, hread]
  rfl

/-- While the clock of the block is off the read answers 0, and is an access of a disabled block (R330). -/
theorem sigirqRead_gated (s : State) (hb : hostBus s = true) (hu : busUp s = true) (hblk : blkOn s .chan = false) :
    ∃ t, exec .sigirqRead s = .next t ∧ waits t 46 0 0x0308 ∧
      quietly s t = { s with bus := { s.bus with data := 0, winsel := 3, winadr := 577 } } := by
  have hn : isNative (atSigirq s) = true := native_of_busUp hu
  have hblk' : blkOn (atSigirq s) .chan = false := hblk
  have hread : gatedWindow .chan 3 readSigirq (atSigirq s) = (0, raise 46 0 0x0308 (atSigirq s)) := if_neg (by rw [hblk']; decide)
  have hwaits := raise_waits 46 0 0x0308 hn
  rw [exec_sigirqRead hb hu, hread]
  refine ⟨_, rfl, waits_of_flt (s := raise 46 0 0x0308 (atSigirq s)) rfl hwaits, ?_⟩
  rw [raise_native 46 0 0x0308 hn]
  rfl

/-- Settles O39: the issue cycle by the instruction at PC, the ends of holds, BRASS_LOAD by its two forms, and SIGIRQ by the clock of its block. -/
theorem brassCourse : Obligations.BrassCourse := by
  refine ⟨fun n s => exec_brassIssueCycle, brassIssueCycle_sett, brassIssueCycle_br, brassIssueCycle_empty, fun n s => row_early s _, waittExpiry_due,
    fun n s => row_early s _, waitiTimeout_due, fun n s => row_early s _, brassLoadInstruction_stages, ?_, ?_, sigirqRead_clears, sigirqRead_gated⟩
  · intro a s hf ha hform happly h0 h1 hlen hend hclean hinside hcloses hfree
    exact brassLoadHeader_applies hform h0 h1 hlen hf ha happly (headerChecks_hold hend hclean hinside hcloses hfree)
  · intro a s hf ha hform h0 h1 hlen hend
    exact brassLoadHeader_overruns hform h0 h1 hlen hf ha hend

end Sys2Proof.Machine

/-! DIAG_RUN by its three forms (R208 to R210, R446), and the ends of step 1 and of a test pulse (R19, R27, R211). -/

namespace Sys2Proof.Machine

/-! ### The forms of DIAG_RUN (R446) -/

/-- The two upper bits of a word beside its fourteen lower ones are the word. -/
theorem and_or_upper2 {w : Word} {k : Nat} (h : fld w 14 2 = k) : (w &&& 0x3FFF) ||| w16 (k * 16384) = w := by
  have hw : w.toNat < 2 ^ 16 := w.isLt
  have hk : w.toNat / 2 ^ 14 = k := by
    unfold fld at h
    omega
  have hlow : w.toNat &&& 0x3FFF = w.toNat % 2 ^ 14 := Nat.and_two_pow_sub_one_eq_mod _ 14
  have hhigh : k * 16384 % 2 ^ 16 = 2 ^ 14 * k := by omega
  refine BitVec.eq_of_toNat_eq ?_
  calc ((w &&& 0x3FFF) ||| w16 (k * 16384)).toNat
      = (w.toNat &&& 0x3FFF) ||| (k * 16384 % 2 ^ 16) := by rw [BitVec.toNat_or, BitVec.toNat_and, w16, BitVec.toNat_ofNat]; rfl
    _ = (2 ^ 14 * k) ||| (w.toNat % 2 ^ 14) := by rw [hlow, hhigh, Nat.or_comm]
    _ = 2 ^ 14 * k + w.toNat % 2 ^ 14 := (Nat.two_pow_add_eq_or_of_lt (Nat.mod_lt _ (by decide)) k).symm
    _ = w.toNat := by rw [← hk]; exact Nat.div_add_mod _ _

theorem formArgs_own {a : Args} {k : Nat} (h : fld a.a0 14 2 = k) : formArgs k a = a := by
  unfold formArgs
  rw [and_or_upper2 h]

theorem exec_diagRunChan {a : Args} (s : State) (h : fld a.a0 14 2 = 0) : exec (.diagRunChan a) s = .next (mboxRow 0x14 cmdDiagRun a s) := by
  change Host.Outcome.next (mboxRow 0x14 cmdDiagRun (formArgs 0 a) s) = _
  rw [formArgs_own h]

theorem exec_diagRunTrip {a : Args} (s : State) (h : fld a.a0 14 2 = 1) : exec (.diagRunTrip a) s = .next (mboxRow 0x14 cmdDiagRun a s) := by
  change Host.Outcome.next (mboxRow 0x14 cmdDiagRun (formArgs 1 a) s) = _
  rw [formArgs_own h]

theorem exec_diagRunTest {a : Args} (s : State) (h : fld a.a0 14 2 = 2) :
    exec (.diagRunTest a) s = .next (testStart s (mboxRow 0x14 cmdDiagRun a s)) := by
  change Host.Outcome.next (testStart s (mboxRow 0x14 cmdDiagRun (formArgs 2 a) s)) = _
  rw [formArgs_own h]

theorem cmdDiagRun_chan {a : Args} (s : State) (h : fld a.a0 14 2 = 0) : cmdDiagRun a s = diagChan a s := by
  unfold cmdDiagRun
  rw [h]
  rfl

theorem cmdDiagRun_trip {a : Args} (s : State) (h : fld a.a0 14 2 = 1) : cmdDiagRun a s = diagTrip a s := by
  unfold cmdDiagRun
  rw [h]
  rfl

theorem cmdDiagRun_test {a : Args} (s : State) (h : fld a.a0 14 2 = 2) : cmdDiagRun a s = diagTest a s := by
  unfold cmdDiagRun
  rw [h]
  rfl

/-! ### CHAN and TRIP (R208, R209) -/

/-- A channel's diagnostics with the fields of a CHAN command; its judgement begins anew (R208). -/
def diagFields (a : Args) (d : DiagCh) : DiagCh :=
  { d with en := bit a.a0 3, nocur := a.a1.toNat, oclim := a.a2.toNat, didt := a.a3.toNat, nrise := fld a.a0 4 4, conf := fld a.a0 8 4, cand := 0, cnt := 0, cls := if bit a.a0 3 then d.cls else 0 }

theorem diagChan_accepted {a : Args} {n : Fin 8} (s : State) (h0 : within a.a0 0xCFFF = true) (h1 : within a.a1 0xFFF = true)
    (h2 : within a.a2 0xFFF = true) (h3 : within a.a3 0xFFF = true) (hrise : fld a.a0 4 4 ≠ 0) (hconf : fld a.a0 8 4 ≠ 0) (hnocur : a.a1 ≠ 0)
    (hoclim : a.a2 ≠ 0) (hdidt : a.a3 ≠ 0) (hn : fld a.a0 0 3 = n.val) : diagChan a s = { st := updDiag n (diagFields a) s } := by
  obtain ⟨k, hk⟩ := n
  dsimp only at hn
  subst hn
  unfold diagChan
  exact checked_ok _ _ _ _ (by
    rw [h0, h1, h2, h3, bne_iff_ne.mpr hrise, bne_iff_ne.mpr hconf, bne_iff_ne.mpr hnocur, bne_iff_ne.mpr hoclim, bne_iff_ne.mpr hdidt]
    rfl) rfl

theorem diagRunChan_accepted (a : Args) (n : Fin 8) (s : State) (hf : mboxFree s = true) (ha : admitted 0x14 a s = true) (hform : fld a.a0 14 2 = 0)
    (hop : diagChan a (started 0x14 a s) = { st := updDiag n (diagFields a) (started 0x14 a s) }) :
    ∃ t, exec (.diagRunChan a) s = .next t ∧ answered t 0 0 0 ∧ t.diag.ch[n] = diagFields a s.diag.ch[n] ∧
      (∀ m : Fin 8, m ≠ n → t.diag.ch[m] = s.diag.ch[m]) ∧ t.diag.test = s.diag.test ∧ { t with mbox := s.mbox, bus := s.bus, diag := s.diag } = s := by
  obtain ⟨hans, m, b, ht⟩ := mboxRow_completes hf ha ((cmdDiagRun_chan _ hform).trans hop) rfl
  refine ⟨_, exec_diagRunChan s hform, hans, ?_⟩
  rw [ht]
  exact ⟨vupd_same _ _ _, fun m hm => vupd_other _ _ _ _ hm.symm, rfl, rfl⟩

/-- The groups after a TRIP command: with KEEP those that stand (R209). -/
def tripGroups (a : Args) (s : State) : Vector Nat 12 := if bit a.a3 0 then s.trip.group else Vector.ofFn (groupArg a)

theorem diagTrip_accepted {a : Args} (s : State) (hlo : 5 ≤ fld a.a0 0 6) (hhi : fld a.a0 0 6 ≤ 50) (hblank : fld a.a0 6 8 ≤ 200)
    (h3 : within a.a3 1 = true) (h2 : bit a.a3 0 = true ∨ within a.a2 0xFF = true) (hpairs : ∀ p : Fin 4, s.chs.pairs[p] = false)
    (hquiet : bit a.a3 0 = true ∨ ∀ g : Fin 4, s.trip.latched[g] = false ∧ s.trip.defer[g] = []) :
    diagTrip a s = { st := { s with trip := { s.trip with dead := fld a.a0 0 6, tblank := fld a.a0 6 8, group := tripGroups a s } } } := by
  have hchannels : ((List.finRange 4).all fun p => !s.chs.pairs[p] ||
      vget (tripGroups a s) (2 * p.val) 0 == vget (tripGroups a s) (2 * p.val + 1) 0) = true :=
    List.all_eq_true.mpr fun p _ => by rw [hpairs p]; rfl
  have hlatches : (bit a.a3 0 || (s.trip.latched.toList.all (!·) && s.trip.defer.toList.all (·.isEmpty))) = true := by
    rw [Bool.or_eq_true, Bool.and_eq_true, List.all_eq_true, List.all_eq_true]
    refine hquiet.imp_right fun h => ⟨fun x hx => ?_, fun x hx => ?_⟩ <;>
      obtain ⟨i, hi, rfl⟩ := Vector.getElem_of_mem (Vector.mem_toList_iff.mp hx)
    · rw [show s.trip.latched[i] = false from (h ⟨i, hi⟩).1]
      rfl
    · rw [show s.trip.defer[i] = [] from (h ⟨i, hi⟩).2]
      rfl
  exact checked_ok _ _ s _ (by simp [hlo, hhi, hblank, h3, h2]) (all_cons_true hchannels (all_cons_true hlatches rfl))

theorem diagRunTrip_accepted (a : Args) (s : State) (hf : mboxFree s = true) (ha : admitted 0x14 a s = true) (hform : fld a.a0 14 2 = 1)
    (hlo : 5 ≤ fld a.a0 0 6) (hhi : fld a.a0 0 6 ≤ 50) (hblank : fld a.a0 6 8 ≤ 200) (h3 : within a.a3 1 = true)
    (h2 : bit a.a3 0 = true ∨ within a.a2 0xFF = true) (hpairs : ∀ p : Fin 4, s.chs.pairs[p] = false)
    (hquiet : bit a.a3 0 = true ∨ ∀ g : Fin 4, s.trip.latched[g] = false ∧ s.trip.defer[g] = []) :
    ∃ t, exec (.diagRunTrip a) s = .next t ∧ answered t 0 0 0 ∧
      t.trip = { s.trip with dead := fld a.a0 0 6, tblank := fld a.a0 6 8, group := tripGroups a s } ∧
      { t with mbox := s.mbox, bus := s.bus, trip := s.trip } = s := by
  have hop := (cmdDiagRun_trip _ hform).trans (diagTrip_accepted (started 0x14 a s) hlo hhi hblank h3 h2 hpairs hquiet)
  obtain ⟨hans, m, b, ht⟩ := mboxRow_completes hf ha hop rfl
  refine ⟨_, exec_diagRunTrip s hform, hans, ?_⟩
  rw [ht]
  exact ⟨rfl, rfl⟩

/-! ### The course of a test (R210, R211) -/

@[simp] theorem vget_vput_same {α : Type} {n i : Nat} (v : Vector α n) (x d : α) (h : i < n) : vget (vput v i x) i d = x := by
  unfold vget vput
  rw [dif_pos h, dif_pos h, Vector.getElem_set_self]

theorem diag_of_but {m : Nat} {s t : State} (h : m.testBit 16 = false) (e : but m t = but m s) : t.diag = s.diag := by
  simpa only [but, h, Bool.false_eq_true, if_false] using congrArg State.diag e

theorem testLines_alone {s : State} {n : Nat} (h : paired s n = false) : testLines s n = 1 :=
  if_neg (by rw [h]; decide)

theorem testBegin_alone {s : State} {n : Fin 8} (d : DTest) (h : paired s n.val = false) :
    testBegin d n s = { s with diag := { s.diag with
      ch := vput s.diag.ch n.val { vget s.diag.ch n.val {} with cand := 0, cnt := 0 }
      test := some { mask := d.mask, pulse := d.pulse, tpulse := d.tpulse, res := d.res, ch := n.val, since := s.clk.tb } } } := by
  unfold testBegin
  dsimp only
  rw [testLines_alone h]
  rfl

/-- The state with the result `r` of a channel that stands alone noted in the test `d` (R211). -/
def noted (d : DTest) (n r : Nat) (s : State) : State :=
  { s with diag := { s.diag with
      ch := vput s.diag.ch n { vget s.diag.ch n {} with lastrun := r }
      test := some { d with res := vput d.res n r } } }

theorem testNote_alone {s : State} {d : DTest} (n : Nat) (r : Vector Nat 2) (h : s.diag.test = some d) :
    testNote n 1 r s = noted d n (vget r 0 0) s := by
  unfold testNote
  rw [h]
  rfl

theorem noted_lastrun {n : Nat} (d : DTest) (r : Nat) (s : State) (h : n < 8) : (vget (noted d n r s).diag.ch n {}).lastrun = r := by
  unfold noted
  rw [vget_vput_same _ _ _ h]

/-- A test without a channel left that its mask names ends (R210, R211). -/
theorem testFrom_unnamed {s : State} {d : DTest} (h : s.diag.test = some d) (fuel : Nat) {n : Nat}
    (hnames : ∀ m, n ≤ m → testNames s d.mask m = false) : testFrom fuel n s = testEnd s := by
  induction fuel generalizing n with
  | zero => rfl
  | succ fuel ih =>
    unfold testFrom
    rw [h]
    dsimp only
    split
    · rw [hnames n (Nat.le_refl n), if_neg Bool.false_ne_true]
      exact ih fun m hm => hnames m (by omega)
    · rfl

theorem testFrom_past {s : State} {d : DTest} (h : s.diag.test = some d) (fuel : Nat) {n : Nat} (hn : 8 ≤ n) : testFrom fuel n s = testEnd s := by
  cases fuel with
  | zero => rfl
  | succ fuel =>
    unfold testFrom
    rw [h]
    exact dif_neg (by omega)

section
variable {s : State} {d : DTest} {n : Fin 8} (h : s.diag.test = some d) (fuel : Nat) (hpair : paired s n.val = false) (hname : testNames s d.mask n.val = true)
include h hpair hname

theorem testFrom_skipped (hskip : testSkips s d (sh n) = true) : testFrom (fuel + 1) n.val s = testFrom fuel (n.val + 1) (noted d n.val 8 s) := by
  rw [testFrom, h]
  dsimp only
  rw [dif_pos n.isLt, if_pos hname, testLines_alone hpair, testNote_alone n.val #v[8, 8] h]
  exact if_pos hskip

theorem testFrom_tested (hskip : testSkips s d (sh n) = false) (hline : testBroken s n.val 0 = false) :
    testFrom (fuel + 1) n.val s = testBegin d n s := by
  have hskip' : ¬ testSkips s d (sh n) = true := by rw [hskip]; decide
  have hlines : ¬ (List.range 1).all (testBroken s n.val) = true := by simp [hline]
  rw [testFrom, h]
  dsimp only
  rw [dif_pos n.isLt, if_pos hname, testLines_alone hpair, if_neg hlines]
  exact if_neg hskip'

end

theorem testEnd_diag {s : State} {d : DTest} (h : s.diag.test = some d) : (testEnd s).diag = { s.diag with test := none } := by
  unfold testEnd
  rw [h]
  exact (diag_of_but rfl (endIf_but _ _ _ _ _) :)

/-- The end of a test ends the DIAG_RUN that waits for it (R211, R446). -/
theorem testEnd_ends {s : State} {d : DTest} {c : Cmd} (h : s.diag.test = some d) (hrun : s.mbox.run = some c) (hcode : c.code = 0x14)
    (hcom : s.mbox.committed = true) (hcut : s.mbox.cut = false) (hhalt : s.dbg.halted = false) :
    testEnd s = endCmd 0 (testResults d.res % 65536) (testResults d.res / 65536) { s with diag := { s.diag with test := none } } := by
  unfold testEnd
  rw [h]
  unfold endIf
  dsimp only
  rw [hrun]
  dsimp only
  rw [if_pos (by rw [hcode, hcom, hcut]; decide), if_neg (by rw [hhalt]; decide)]

/-! ### TEST is accepted (R210, R446) -/

/-- On a free mailbox the core is not halted, and no command is past its commit cycle or cut short. -/
theorem idle_of_mboxFree {s : State} (h : mboxFree s = true) : s.dbg.halted = false ∧ s.mbox.committed = false ∧ s.mbox.cut = false := by
  simp only [mboxFree, coreOn, Bool.and_eq_true, Bool.not_eq_true'] at h
  obtain ⟨⟨⟨⟨⟨⟨-, ⟨⟨-, hhalt⟩, -⟩⟩, -⟩, -⟩, -⟩, hcom⟩, hcut⟩ := h
  exact ⟨hhalt, hcom, hcut⟩

/-- The test that the words of a TEST command ask for. -/
def testOf (a : Args) : DTest := { mask := a.a0.setWidth 8, pulse := bit a.a0 8, tpulse := fld a.a1 0 8 }

/-- The command runs past its commit cycle, and its test has begun at no channel yet. -/
def testing (a : Args) (s : State) : State :=
  { started 0x14 a s with mbox := { (started 0x14 a s).mbox with committed := true }, diag := { s.diag with test := some (testOf a) } }

section
variable {a : Args} {s : State} (hf : mboxFree s = true) (ha : admitted 0x14 a s = true) (hform : fld a.a0 14 2 = 2) (h0 : within a.a0 0x81FF = true)
  (h1 : within a.a1 0xFF = true) (hlo : 1 ≤ fld a.a1 0 8) (hhi : fld a.a1 0 8 ≤ 200) (hidle : s.diag.test = none)

section
include h0 h1 hlo hhi hidle

theorem diagTest_accepted : diagTest a s = { st := { s with diag := { s.diag with test := some (testOf a) } }, done := false } := by
  have hdrop : dropPulse s = s := by
    unfold dropPulse
    rw [hidle]
  unfold diagTest
  dsimp only
  rw [if_neg (by simp [h0, h1, hlo, hhi]), hdrop]
  rfl

end

include hf ha hform h0 h1 hlo hhi hidle

theorem exec_diagRunTest_accepted : exec (.diagRunTest a) s = .next (testFrom 9 0 (testing a s)) := by
  obtain ⟨-, hcom, -⟩ := idle_of_mboxFree hf
  have hop := (cmdDiagRun_test _ hform).trans (diagTest_accepted (s := started 0x14 a s) h0 h1 hlo hhi hidle)
  have hrow : mboxRow 0x14 cmdDiagRun a s = testing a s := by
    rw [mboxRow_waits 0x14 cmdDiagRun a s hf ha (by rw [hop]), hop]
    rfl
  rw [exec_diagRunTest s hform, hrow]
  unfold testStart
  rw [hcom]
  rfl

end

/-- Channel 0 alone was named and is noted as skipped; the test is over, and its command is about to end. -/
def testedNone (a : Args) (s : State) : State :=
  { testing a s with diag := { (noted (testOf a) 0 8 (testing a s)).diag with test := none } }

/-- In the results of a fresh test the channel's four bits stand alone (R211). -/
theorem testResults_first (a : Args) (r : Nat) : testResults (vput (testOf a).res 0 r) = r := rfl

/-- The mask of channel 0 alone names no other channel that stands outside its pair (R210). -/
theorem testNames_first {s : State} (hpair : s.chs.pairs[(0 : Fin 4)] = false) {m : Nat} (hm : 1 ≤ m) : testNames s 1 m = false := by
  have hbit : ∀ i, 1 ≤ i → (1 : BitVec 8).getLsbD i = false := fun i hi => by
    rw [BitVec.ofNat_eq_ofNat, BitVec.getLsbD_one]
    simp only [Bool.and_eq_false_iff, decide_eq_false_iff_not]
    omega
  unfold testNames
  rw [hbit m hm, Bool.false_or]
  by_cases h1 : m = 1
  · rw [paired_split (p := 0) (by rw [h1]; rfl) hpair, Bool.false_and]
  · rw [hbit _ (by omega), hbit _ (by omega), Bool.false_or, Bool.and_false]

theorem testNames_of_bit {s : State} {mask : BitVec 8} {n : Nat} (h : mask.getLsbD n = true) : testNames s mask n = true := by
  unfold testNames
  rw [h, Bool.true_or]

section
variable {a : Args} {s : State} (hf : mboxFree s = true) (ha : admitted 0x14 a s = true) (hform : fld a.a0 14 2 = 2) (h0 : within a.a0 0x81FF = true)
  (h1 : within a.a1 0xFF = true) (hlo : 1 ≤ fld a.a1 0 8) (hhi : fld a.a1 0 8 ≤ 200) (hidle : s.diag.test = none)
  (hpair : s.chs.pairs[(0 : Fin 4)] = false)
include hf ha hform h0 h1 hlo hhi hidle hpair

theorem diagRunTest_skipped (hoe : s.sys.oe = false) (hmask : fld a.a0 0 8 = 1) :
    ∃ t, exec (.diagRunTest a) s = .next t ∧ answered t 0 8 0 ∧ t.diag.test = none ∧
      (vget t.diag.ch 0 {}).lastrun = 8 ∧ { t with mbox := s.mbox, bus := s.bus, diag := s.diag } = s := by
  obtain ⟨hhalt, -, hcut⟩ := idle_of_mboxFree hf
  have hone : (testOf a).mask = 1 := BitVec.eq_of_toNat_eq <| by
    rw [show (testOf a).mask = a.a0.setWidth 8 from rfl, BitVec.toNat_setWidth, ← Nat.div_one a.a0.toNat]
    exact hmask
  have hskip : testSkips (testing a s) (testOf a) (sh 0) = true := by
    unfold testSkips
    rw [show (testing a s).sys.oe = false from hoe]
    simp only [Bool.not_false, Bool.or_true, Bool.true_or]
  have hrest : testFrom 9 0 (testing a s) = testEnd (noted (testOf a) 0 8 (testing a s)) := by
    refine (testFrom_skipped (s := testing a s) (n := 0) rfl 8 (paired_split (p := 0) rfl hpair) (testNames_of_bit (by rw [hone]; rfl)) hskip).trans
      (testFrom_unnamed rfl 8 fun m hm => ?_)
    dsimp only
    rw [hone]
    exact testNames_first hpair hm
  have hend : testEnd (noted (testOf a) 0 8 (testing a s)) = endCmd 0 8 0 (testedNone a s) :=
    (testEnd_ends (s := noted (testOf a) 0 8 (testing a s)) rfl rfl rfl rfl hcut hhalt).trans (by dsimp only; rw [testResults_first]; rfl)
  obtain ⟨m, b, ht⟩ : ∃ m b, endCmd 0 8 0 (testedNone a s) = { testedNone a s with mbox := m, bus := b } := ⟨_, _, endCmd_host 0x14 a 0 8 0 _ rfl⟩
  refine ⟨_, exec_diagRunTest_accepted hf ha hform h0 h1 hlo hhi hidle, ?_⟩
  rw [hrest, hend]
  refine ⟨endCmd_answered 0x14 a 0 8 0 (testedNone a s) rfl, ?_⟩
  rw [ht]
  exact ⟨rfl, noted_lastrun (testOf a) 8 (testing a s) (by decide), rfl⟩

theorem diagRunTest_tested (hname : bit a.a0 0 = true) (hskip : testSkips s (testOf a) 0 = false) (hline : s.lines[(0 : Fin 8)].wbrk = false) :
    ∃ t, exec (.diagRunTest a) s = .next t ∧ t.mbox.busy = true ∧ t.mbox.committed = true ∧
      t.diag.test = some { testOf a with since := s.clk.tb } ∧ { t with mbox := s.mbox, diag := s.diag } = s := by
  have hpair0 : paired (testing a s) 0 = false := paired_split (p := 0) rfl hpair
  have hnamed : testNames (testing a s) (testOf a).mask 0 = true :=
    testNames_of_bit (by rw [show (testOf a).mask = a.a0.setWidth 8 from rfl, BitVec.getLsbD_setWidth]; exact hname)
  have hbegin : testFrom 9 0 (testing a s) = testBegin (testOf a) 0 (testing a s) := testFrom_tested (n := 0) rfl 8 hpair0 hnamed hskip hline
  refine ⟨_, exec_diagRunTest_accepted hf ha hform h0 h1 hlo hhi hidle, ?_⟩
  rw [hbegin, testBegin_alone (n := 0) _ hpair0]
  exact ⟨rfl, rfl, rfl, rfl⟩

end

/-! ### The end of step 1 (R27, R211) -/

theorem exec_diagTestWaitTimeout {s : State} {d : DTest} (hdue : dueTestWait s = true) (h : s.diag.test = some d) :
    exec .diagTestWaitTimeout s = .next (testFinish d.ch #v[testFirst s d 0, testFirst s d 1] s) := by
  change execDiagTestWaitTimeout s = _
  unfold execDiagTestWaitTimeout
  rw [h]
  exact congrArg Host.Outcome.next (if_pos hdue)

theorem diagTestWaitTimeout_early (s : State) (h : dueTestWait s = false) : exec .diagTestWaitTimeout s = .next s := by
  change execDiagTestWaitTimeout s = _
  unfold execDiagTestWaitTimeout
  split
  · exact row_early s _ h
  · rfl

section
variable {s : State} {d : DTest} (h : s.diag.test = some d) (hpair : paired s 7 = false) (r : Vector Nat 2)
include h hpair

/-- Behind the last channel the firmware ends the test. -/
theorem testFinish_last (hhalt : s.dbg.halted = false) : testFinish 7 r s = testEnd (noted d 7 (vget r 0 0) s) := by
  unfold testFinish
  dsimp only
  rw [testLines_alone hpair, testNote_alone 7 r h, if_neg (by rw [show (noted d 7 (vget r 0 0) s).dbg.halted = false from hhalt]; decide)]
  exact testFrom_past rfl 9 (by decide)

/-- A halted firmware has the test wait (R27). -/
theorem testFinish_last_halted (hhalt : s.dbg.halted = true) : testFinish 7 r s = testHold .next 8 (noted d 7 (vget r 0 0) s) := by
  unfold testFinish
  dsimp only
  rw [testLines_alone hpair, testNote_alone 7 r h]
  exact if_pos hhalt

theorem testFinish_last_lastrun : (vget (testFinish 7 r s).diag.ch 7 {}).lastrun = vget r 0 0 := by
  cases hhalt : s.dbg.halted with
  | false =>
    rw [testFinish_last h hpair r hhalt, testEnd_diag rfl]
    exact noted_lastrun d _ s (by decide)
  | true =>
    rw [testFinish_last_halted h hpair r hhalt]
    exact noted_lastrun d _ s (by decide)

end

theorem testFirst_unjudged {s : State} {d : DTest} {k : Nat} (h : testHas s d k = false) : testFirst s d k = if vget d.sawI k false then 6 else 7 :=
  if_neg (by rw [h]; decide)

theorem diagTestWaitTimeout_last (d : DTest) (s : State) (hdue : dueTestWait s = true) (h : s.diag.test = some d) (hch : d.ch = 7)
    (hpair : paired s 7 = false) (hframes : testHas s d 0 = false) :
    ∃ t, exec .diagTestWaitTimeout s = .next t ∧ (s.dbg.halted = false → t.diag.test = none) ∧
      (s.dbg.halted = true → t.diag.test.map (·.ph) = some .next ∧ t.mbox = s.mbox) ∧
      (vget t.diag.ch 7 {}).lastrun = (if vget d.sawI 0 false then 6 else 7) ∧ t.chan = s.chan ∧ t.store = s.store ∧ t.pending = s.pending := by
  have hbut := testFinish_but 7 #v[testFirst s d 0, testFirst s d 1] s
  refine ⟨_, exec_diagTestWaitTimeout hdue h, ?_⟩
  rw [hch]
  refine ⟨fun hhalt => ?_, fun hhalt => ?_, ?_, chan_of_but rfl hbut, testFinish_store _ _ _, testFinish_pending _ _ _⟩
  · rw [testFinish_last h hpair _ hhalt, testEnd_diag rfl]
  · rw [testFinish_last_halted h hpair _ hhalt]
    exact ⟨rfl, rfl⟩
  · rw [testFinish_last_lastrun h hpair]
    exact testFirst_unjudged hframes

/-! ### The end of a test pulse (R19, R211) -/

theorem exec_diagTestPulseEnd {s : State} {d : DTest} (hdue : dueTestPulse s = true) (h : s.diag.test = some d) :
    exec .diagTestPulseEnd s = .next (opTestPulse d s) := by
  change execDiagTestPulseEnd s = _
  unfold execDiagTestPulseEnd
  rw [h]
  exact congrArg Host.Outcome.next (if_pos hdue)

theorem diagTestPulseEnd_early (s : State) (h : dueTestPulse s = false) : exec .diagTestPulseEnd s = .next s := by
  change execDiagTestPulseEnd s = _
  unfold execDiagTestPulseEnd
  split
  · exact row_early s _ h
  · rfl

/-- Only the channels differ where a level is decided. -/
theorem setDrv_eq (n : Fin 12) (lvl : Bool) (s : State) : setDrv n lvl s = { s with chan := (setDrv n lvl s).chan } :=
  but_ext (m := 2048) (n := 4294965247) rfl (setDrv_but n lvl s) rfl

theorem setDrv_drv (n : Fin 12) (lvl : Bool) (s : State) : (setDrv n lvl s).chan[n].drv = lvl :=
  congrArg Chan.drv (setDrv_self n lvl s)

theorem diagTestPulseEnd_lowers (d : DTest) (s : State) (hdue : dueTestPulse s = true) (h : s.diag.test = some d)
    (hpin : tbSince d.since s.clk.tb < 10 * d.tpulse + 3) :
    ∃ t, exec .diagTestPulseEnd s = .next t ∧ t.diag = s.diag ∧ t.chan[chOf d.ch].drv = false ∧ { t with chan := s.chan } = s := by
  have hop : opTestPulse d s = setDrv (chOf d.ch) false s := by
    unfold opTestPulse
    rw [setDrv_eq]
    exact if_neg (by change ¬ d.tpulse * 10 + 3 ≤ tbSince d.since s.clk.tb; omega)
  refine ⟨_, exec_diagTestPulseEnd hdue h, ?_⟩
  rw [hop]
  exact ⟨diag_of_but rfl (setDrv_but _ _ _), setDrv_drv _ _ _, chanOnly_of_but (setDrv_but _ _ _)⟩

theorem diagTestPulseEnd_decays (d : DTest) (s : State) (hdue : dueTestPulse s = true) (h : s.diag.test = some d)
    (hpin : 10 * d.tpulse + 3 ≤ tbSince d.since s.clk.tb) :
    ∃ t, exec .diagTestPulseEnd s = .next t ∧ t.diag.test = some { d with ph := .decay, since := s.clk.tb, offs := #v[0, 0] } ∧
      t.chan[chOf d.ch].drv = false ∧ { t with chan := s.chan, diag := s.diag } = s := by
  have hdrv := setDrv_drv (chOf d.ch) false s
  have hop : opTestPulse d s = { s with
      chan := (setDrv (chOf d.ch) false s).chan
      diag := { s.diag with test := some { d with ph := .decay, since := s.clk.tb, offs := #v[0, 0] } } } := by
    unfold opTestPulse
    rw [setDrv_eq]
    exact if_pos (by change d.tpulse * 10 + 3 ≤ tbSince d.since s.clk.tb; omega)
  refine ⟨_, exec_diagTestPulseEnd hdue h, ?_⟩
  rw [hop]
  exact ⟨rfl, hdrv, rfl⟩

/-- Settles O41: DIAG_RUN by its three forms, TEST by whether its channel may be driven, and the ends of step 1 and of a test pulse. -/
theorem diagRuns : Obligations.DiagRuns := by
  refine ⟨?_, ?_, ?_, ?_, ?_, diagTestWaitTimeout_last, diagTestWaitTimeout_early, diagTestPulseEnd_lowers, diagTestPulseEnd_decays,
    diagTestPulseEnd_early⟩
  · intro a n s hf ha hform h0 h1 h2 h3 hrise hconf hnocur hoclim hdidt hn
    exact diagRunChan_accepted a n s hf ha hform (diagChan_accepted _ h0 h1 h2 h3 hrise hconf hnocur hoclim hdidt hn)
  · intro a s hf ha hform hlo hhi hblank h3 hkeep hpairs
    have hgroups : tripGroups a s = s.trip.group := if_pos hkeep
    have hrow := diagRunTrip_accepted a s hf ha hform hlo hhi hblank h3 (.inl hkeep) hpairs (.inl hkeep)
    rwa [hgroups] at hrow
  · intro a s hf ha hform hlo hhi hblank h3 hkeep h2 hpairs hquiet
    have hgroups : tripGroups a s = Vector.ofFn (groupArg a) := if_neg (by rw [hkeep]; decide)
    have hrow := diagRunTrip_accepted a s hf ha hform hlo hhi hblank h3 (.inr h2) hpairs (.inr hquiet)
    rwa [hgroups] at hrow
  · intro a s hf ha hform h0 h1 hlo hhi hidle hoe hmask hpair
    exact diagRunTest_skipped hf ha hform h0 h1 hlo hhi hidle hpair hoe hmask
  · intro a s hf ha hform h0 h1 hlo hhi hidle hname hpair hskip hline
    exact diagRunTest_tested hf ha hform h0 h1 hlo hhi hidle hpair hname hskip hline

end Sys2Proof.Machine

/-! THERM_SET by its five forms (R225, R226, R449). -/

namespace Sys2Proof.Machine

/-! ### The forms of THERM_SET (R449) -/

/-- The upper bits of a word beside its lower ones are the word. -/
theorem and_or_upper {w : Word} {lo k : Nat} (h : fld w lo (16 - lo) = k) : (w &&& w16 (2 ^ lo - 1)) ||| w16 (k * 2 ^ lo) = w := by
  subst h
  refine BitVec.eq_of_getLsbD_eq fun i hi => ?_
  simp only [w16, fld, BitVec.getLsbD_or, BitVec.getLsbD_and, BitVec.getLsbD_ofNat, hi, decide_true, Bool.true_and, Nat.testBit_two_pow_sub_one,
    Nat.testBit_mul_two_pow, Nat.testBit_mod_two_pow, Nat.testBit_div_two_pow]
  rcases Nat.lt_or_ge i lo with hlo | hlo
  · simp [hlo, Nat.not_le.mpr hlo]
  · simp [hlo, Nat.not_lt.mpr hlo, show i - lo < 16 - lo by omega, Nat.sub_add_cancel hlo, BitVec.getLsbD]

/-- A command that is of its row's form already is taken as it is. -/
theorem thermForm_own {a : Args} {k : Nat} (h : fld a.a0 13 3 = k) : thermForm k a = a := by
  have hword : (a.a0 &&& 0x1FFF) ||| w16 (k * 8192) = a.a0 := and_or_upper (lo := 13) h
  rw [thermForm, hword]

/-- A row of THERM_SET is the command of its form. -/
theorem thermRow_own {a : Args} {k : Nat} (s : State) (h : fld a.a0 13 3 = k) :
    (Host.Outcome.next (mboxRow 0x18 cmdThermSet (thermForm k a) s) : Host.Outcome State Fault Refusal) = .next (mboxRow 0x18 cmdThermSet a s) := by
  rw [thermForm_own h]

theorem cmdThermSet_stage {a : Args} (s : State) (h : fld a.a0 13 3 = 0) :
    cmdThermSet a s = checked (within a.a0 0xE0FF && decide (fld a.a0 3 5 ≤ 17)) [] s
      { st := updTh (fun n c => if n.val = fld a.a0 0 3 then { c with staged := vput c.staged (fld a.a0 3 5) (thWord (fld a.a0 3 5) a.a1) } else c) s } := by
  unfold cmdThermSet
  rw [h]
  rfl

theorem cmdThermSet_apply {a : Args} (s : State) (h : fld a.a0 13 3 = 1) :
    cmdThermSet a s = checked (within a.a0 0xE0FF) [(List.finRange 8).all fun (n : Fin 8) => !bit a.a0 n.val || thApplyOk s.therm.ch[n].staged] s
      { st := updTh (fun n c => thApply (bit a.a0 n.val) c) s } := by
  unfold cmdThermSet
  rw [h]
  rfl

theorem cmdThermSet_amb {a : Args} (s : State) (h : fld a.a0 13 3 = 2) :
    cmdThermSet a s = checked (within a.a0 0xE000 && ambOk a.a1 && ambOk a.a2) [] s
      { st := { s with therm := { s.therm with amb := some (sgn a.a1, sgn a.a2) } } } := by
  unfold cmdThermSet
  rw [h]
  rfl

theorem cmdThermSet_init {a : Args} (s : State) (h : fld a.a0 13 3 = 3) :
    cmdThermSet a s = checked (within a.a0 0xE0FF && ambOk a.a1) [] s
      { st := updTh (fun n c => if bit a.a0 n.val then { c with init := some (sgn a.a1) } else c) s } := by
  unfold cmdThermSet
  rw [h]
  rfl

theorem cmdThermSet_die {a : Args} (s : State) (h : fld a.a0 13 3 = 4) :
    cmdThermSet a s = checked (within a.a0 0xE000 && decide (a.a1.toNat ≤ 350) && within a.a2 0x003F) [] s
      { st := { s with therm := { s.therm with dieSet := some (a.a1.toNat, a.a2.toNat) } } } := by
  unfold cmdThermSet
  rw [h]
  rfl

/-! ### Commands that reach the thermal block -/

section
variable {a : Args} {s : State} (hf : mboxFree s = true) (ha : admitted 0x18 a s = true)
include hf ha

/-- An accepted command that changes the channels' models alone. -/
theorem thermRow_channels {f : Fin 8 → ThCh → ThCh} (hop : cmdThermSet a (started 0x18 a s) = { st := updTh f (started 0x18 a s) }) :
    answered (mboxRow 0x18 cmdThermSet a s) 0 0 0 ∧ (∀ n : Fin 8, (mboxRow 0x18 cmdThermSet a s).therm.ch[n] = f n s.therm.ch[n]) ∧
      { mboxRow 0x18 cmdThermSet a s with
        mbox := s.mbox, bus := s.bus, therm := { (mboxRow 0x18 cmdThermSet a s).therm with ch := s.therm.ch } } = s := by
  obtain ⟨hans, m, b, ht⟩ := mboxRow_completes hf ha hop rfl
  refine ⟨hans, ?_⟩
  rw [ht]
  exact ⟨fun n => vmapi_getElem f s.therm.ch n, rfl⟩

/-- An accepted command whose settings wait for the tick. -/
theorem thermRow_settings {t : Therm} (hop : cmdThermSet a (started 0x18 a s) = { st := { started 0x18 a s with therm := t } }) :
    answered (mboxRow 0x18 cmdThermSet a s) 0 0 0 ∧ (mboxRow 0x18 cmdThermSet a s).therm = t ∧
      { mboxRow 0x18 cmdThermSet a s with mbox := s.mbox, bus := s.bus, therm := s.therm } = s := by
  obtain ⟨hans, m, b, ht⟩ := mboxRow_completes hf ha hop rfl
  refine ⟨hans, ?_⟩
  rw [ht]
  exact ⟨rfl, rfl⟩

end

/-! ### The clauses of `Obligations.ThermalCommands` -/

theorem thermSetStage_stages (a : Args) (n : Fin 8) (s : State) (hf : mboxFree s = true) (ha : admitted 0x18 a s = true) (hform : fld a.a0 13 3 = 0)
    (h0 : within a.a0 0xE0FF = true) (hn : fld a.a0 0 3 = n.val) (hword : fld a.a0 3 5 ≤ 17) :
    ∃ t, exec (.thermSetStage a) s = .next t ∧ answered t 0 0 0 ∧
      t.therm.ch[n] = { s.therm.ch[n] with staged := vput s.therm.ch[n].staged (fld a.a0 3 5) (if fld a.a0 3 5 = 0 then a.a1 &&& 0x1F03 else a.a1) } ∧
      (∀ m : Fin 8, m ≠ n → t.therm.ch[m] = s.therm.ch[m]) ∧
      { t with mbox := s.mbox, bus := s.bus, therm := { t.therm with ch := s.therm.ch } } = s := by
  have hop := (cmdThermSet_stage (started 0x18 a s) hform).trans (checked_ok _ _ _ _ (by rw [h0, decide_eq_true hword]; rfl) rfl)
  obtain ⟨hans, hch, hframe⟩ := thermRow_channels hf ha hop
  refine ⟨_, thermRow_own s hform, hans, ?_, fun m hm => ?_, hframe⟩
  · rw [hch, if_pos hn.symm]
    rfl
  · rw [hch, if_neg fun h => hm (Fin.ext (h.trans hn))]

theorem thermSetStage_badArg (a : Args) (s : State) (hf : mboxFree s = true) (ha : admitted 0x18 a s = true) (hform : fld a.a0 13 3 = 0)
    (hword : 17 < fld a.a0 3 5) :
    ∃ t, exec (.thermSetStage a) s = .next t ∧ answered t 0x16 0 0 ∧ { t with mbox := s.mbox, bus := s.bus } = s := by
  have hbad : (within a.a0 0xE0FF && decide (fld a.a0 3 5 ≤ 17)) = false := by
    rw [decide_eq_false (Nat.not_le.mpr hword), Bool.and_false]
  exact ⟨_, thermRow_own s hform, mboxRow_refuses hf ha ((cmdThermSet_stage _ hform).trans (checked_badArg _ _ _ hbad))⟩

theorem thermSetApply_waits (a : Args) (s : State) (hf : mboxFree s = true) (ha : admitted 0x18 a s = true) (hform : fld a.a0 13 3 = 1)
    (h0 : within a.a0 0xE0FF = true) (hok : ∀ n : Fin 8, bit a.a0 n.val = true → thApplyOk s.therm.ch[n].staged = true) :
    ∃ t, exec (.thermSetApply a) s = .next t ∧ answered t 0 0 0 ∧
      (∀ n : Fin 8, t.therm.ch[n] = if bit a.a0 n.val then { s.therm.ch[n] with waiting := some s.therm.ch[n].staged }
        else { s.therm.ch[n] with staged := (s.therm.ch[n].waiting).getD s.therm.ch[n].live }) ∧
      { t with mbox := s.mbox, bus := s.bus, therm := { t.therm with ch := s.therm.ch } } = s := by
  have hcheck : ((List.finRange 8).all fun (n : Fin 8) => !bit a.a0 n.val || thApplyOk s.therm.ch[n].staged) = true :=
    List.all_eq_true.mpr fun n _ => by
      cases hbit : bit a.a0 n.val with
      | false => rfl
      | true => exact hok n hbit
  have hop := (cmdThermSet_apply (started 0x18 a s) hform).trans (checked_ok _ _ _ _ h0 (all_cons_true hcheck rfl))
  obtain ⟨hans, hch, hframe⟩ := thermRow_channels hf ha hop
  exact ⟨_, thermRow_own s hform, hans, hch, hframe⟩

/-- A set named that does not meet its conditions fails the one check of APPLY (R225). -/
theorem thermSetApply_check1 (a : Args) (n : Fin 8) (s : State) (hf : mboxFree s = true) (ha : admitted 0x18 a s = true) (hform : fld a.a0 13 3 = 1)
    (h0 : within a.a0 0xE0FF = true) (hbit : bit a.a0 n.val = true) (hbad : thApplyOk s.therm.ch[n].staged = false) :
    ∃ t, exec (.thermSetApply a) s = .next t ∧ answered t 0x17 1 0 ∧ { t with mbox := s.mbox, bus := s.bus } = s := by
  have hcheck : ((List.finRange 8).all fun (n : Fin 8) => !bit a.a0 n.val || thApplyOk s.therm.ch[n].staged) = false :=
    List.all_eq_false.mpr ⟨n, List.mem_finRange n, by rw [hbit, hbad]; decide⟩
  exact ⟨_, thermRow_own s hform, mboxRow_refuses hf ha ((cmdThermSet_apply _ hform).trans (checked_fails _ _ _ 1 h0 (firstFail_first _ hcheck)))⟩

theorem thermSetAmb_waits (a : Args) (s : State) (hf : mboxFree s = true) (ha : admitted 0x18 a s = true) (hform : fld a.a0 13 3 = 2)
    (h0 : within a.a0 0xE000 = true) (h1 : ambOk a.a1 = true) (h2 : ambOk a.a2 = true) :
    ∃ t, exec (.thermSetAmb a) s = .next t ∧ answered t 0 0 0 ∧ t.therm = { s.therm with amb := some (a.a1.toInt, a.a2.toInt) } ∧
      { t with mbox := s.mbox, bus := s.bus, therm := s.therm } = s := by
  have hop := (cmdThermSet_amb (started 0x18 a s) hform).trans (checked_ok _ _ _ _ (by rw [h0, h1, h2]; rfl) rfl)
  exact ⟨_, thermRow_own s hform, thermRow_settings hf ha hop⟩

theorem thermSetInit_waits (a : Args) (s : State) (hf : mboxFree s = true) (ha : admitted 0x18 a s = true) (hform : fld a.a0 13 3 = 3)
    (h0 : within a.a0 0xE0FF = true) (h1 : ambOk a.a1 = true) :
    ∃ t, exec (.thermSetInit a) s = .next t ∧ answered t 0 0 0 ∧
      (∀ n : Fin 8, t.therm.ch[n] = if bit a.a0 n.val then { s.therm.ch[n] with init := some a.a1.toInt } else s.therm.ch[n]) ∧
      { t with mbox := s.mbox, bus := s.bus, therm := { t.therm with ch := s.therm.ch } } = s := by
  have hop := (cmdThermSet_init (started 0x18 a s) hform).trans (checked_ok _ _ _ _ (by rw [h0, h1]; rfl) rfl)
  exact ⟨_, thermRow_own s hform, thermRow_channels hf ha hop⟩

theorem thermSetDie_waits (a : Args) (s : State) (hf : mboxFree s = true) (ha : admitted 0x18 a s = true) (hform : fld a.a0 13 3 = 4)
    (h0 : within a.a0 0xE000 = true) (h1 : a.a1.toNat ≤ 350) (h2 : within a.a2 0x3F = true) :
    ∃ t, exec (.thermSetDie a) s = .next t ∧ answered t 0 0 0 ∧ t.therm = { s.therm with dieSet := some (a.a1.toNat, a.a2.toNat) } ∧
      { t with mbox := s.mbox, bus := s.bus, therm := s.therm } = s := by
  have hop := (cmdThermSet_die (started 0x18 a s) hform).trans (checked_ok _ _ _ _ (by rw [h0, decide_eq_true h1, h2]; rfl) rfl)
  exact ⟨_, thermRow_own s hform, thermRow_settings hf ha hop⟩

/-- Settles O43: each form of THERM_SET by what its command changes, STAGE past the last word and APPLY of a bad set by their refusals. -/
theorem thermalCommands : Obligations.ThermalCommands :=
  ⟨thermSetStage_stages, fun a s hf ha hform _ hword => thermSetStage_badArg a s hf ha hform hword, thermSetApply_waits, thermSetApply_check1,
    thermSetAmb_waits, thermSetInit_waits, thermSetDie_waits⟩

end Sys2Proof.Machine

/-! The thermal tick (R217 to R225), the die sensors (R215, R216) and reads of TW (R227, R330). -/

namespace Sys2Proof.Machine

/-! ### What follows the models in a tick -/

/-- From `s` to `t` the thermal block changes in DIEHI at most, no channel in its state or level, and no waiting event and no interrupt
condition is lost; outside the channels and the store nothing else differs. -/
structure TickMoved (s t : State) : Prop where
  therm : t.therm = { s.therm with diehi := t.therm.diehi }
  chan : ∀ n : Fin 12, t.chan[n].st = s.chan[n].st ∧ t.chan[n].drv = s.chan[n].drv
  waits : ∀ src ch det, waits s src ch det → waits t src ch det
  ints : intsStay s t
  rest : { quietly s t with therm := s.therm, chan := s.chan, store := s.store } = s

theorem TickMoved.refl (s : State) : TickMoved s s := ⟨rfl, fun _ => ⟨rfl, rfl⟩, fun _ _ _ => id, intsStay_of_bus rfl, rfl⟩

theorem TickMoved.trans {s t u : State} (h : TickMoved s t) (h' : TickMoved t u) : TickMoved s u where
  therm := by rw [h'.therm, h.therm]
  chan n := ⟨(h'.chan n).1.trans (h.chan n).1, (h'.chan n).2.trans (h.chan n).2⟩
  waits src ch det hw := h'.waits src ch det (h.waits src ch det hw)
  ints := h.ints.trans h'.ints
  rest := (congrArg (fun v => { quietly s v with therm := s.therm, chan := s.chan, store := s.store }) h'.rest).trans h.rest

theorem TickMoved.native {s t : State} (h : TickMoved s t) (hn : isNative s = true) : isNative t = true := by
  have hsys : t.sys = s.sys := (congrArg State.sys h.rest :)
  rwa [isNative, hsys]

theorem TickMoved.ite {s t : State} (c : Prop) [Decidable c] (h : TickMoved s t) : TickMoved s (if c then t else s) := by
  split
  · exact h
  · exact .refl s

theorem foldSt_tickMoved {α : Type} {f : α → State → State} (hf : ∀ x s, TickMoved s (f x s)) (xs : List α) (s : State) :
    TickMoved s (foldSt xs f s) := by
  unfold foldSt
  induction xs generalizing s with
  | nil => exact .refl s
  | cons x xs ih => exact (hf x s).trans (ih (f x s))

/-- Each operation of such a run takes place on the way. -/
theorem foldSt_passes {α : Type} {f : α → State → State} (hf : ∀ x s, TickMoved s (f x s)) {x : α} {xs : List α} (hx : x ∈ xs) (s : State) :
    ∃ u, TickMoved s u ∧ TickMoved (f x u) (foldSt xs f s) := by
  induction xs generalizing s with
  | nil => simp at hx
  | cons y ys ih =>
    rcases List.mem_cons.mp hx with rfl | hy
    · exact ⟨s, .refl s, foldSt_tickMoved hf ys (f x s)⟩
    · obtain ⟨u, hu, hrest⟩ := ih hy (f y s)
      exact ⟨u, (hf y s).trans hu, hrest⟩

theorem raise_tickMoved (src ch : Nat) (det : Word) (s : State) : TickMoved s (raise src ch det s) := by
  obtain ⟨q, hq⟩ := raiseC_changes src ch det false s
  change raise src ch det s = _ at hq
  have hwaits := fun src' ch' det' => waits_raise (s := s) (src := src') (ch := ch') (det := det') src ch det
  rw [hq] at hwaits ⊢
  exact ⟨rfl, fun _ => ⟨rfl, rfl⟩, hwaits, intsStay_of_bus rfl, rfl⟩

theorem setIntIf_tickMoved (c : Bool) (b : Nat) (s : State) : TickMoved s (setIntIf c b s) :=
  .ite (c = true) ⟨rfl, fun _ => ⟨rfl, rfl⟩, fun _ _ _ => waits_of_flt rfl, setInt_intsStay b s, rfl⟩

/-- A retarget moves no state and no level (R153). -/
theorem setTarget_tickMoved (n : Fin 12) (v : Nat) (noslew : Bool) (s : State) : TickMoved s (setTarget n v noslew s) := by
  refine ⟨rfl, fun m => ?_, fun _ _ _ => waits_of_flt rfl, intsStay_of_bus rfl, rfl⟩
  by_cases hm : m = n
  · subst hm
    rw [setTarget, updChan_self]
    split <;> exact ⟨rfl, rfl⟩
  · rw [setTarget, updChan_other _ _ hm]
    exact ⟨rfl, rfl⟩

theorem throttleMoved_tickMoved (n : Fin 12) (s : State) : TickMoved s (throttleMoved n s) := by
  unfold throttleMoved
  dsimp only
  split
  · exact setTarget_tickMoved _ _ _ s
  · exact .ite _ (setTarget_tickMoved _ _ _ s)

theorem shadowTherm_tickMoved (s : State) : TickMoved s (shadowTherm s) := by
  obtain ⟨st, hst⟩ := shadowPut_changes atTherm (thermBytes s.therm) s
  rw [shadowTherm, hst]
  exact ⟨rfl, fun _ => ⟨rfl, rfl⟩, fun _ _ _ => waits_of_flt rfl, intsStay_of_bus rfl, rfl⟩

/-! ### DIEHI (R216) -/

theorem therm_of_but {m : Nat} {s t : State} (h : m.testBit 18 = false) (e : but m t = but m s) : t.therm = s.therm := by
  simpa only [but, h, Bool.false_eq_true, if_false] using congrArg State.therm e

section
variable {s : State}

theorem dieCheck_high (hlow : s.therm.diehi = false) (h : (s.therm.diethr : Int) ≤ s.therm.diemax) :
    dieCheck s = raise 23 0 (i16 s.therm.diemax) { s with therm := { s.therm with diehi := true } } :=
  if_pos (by rw [hlow, decide_eq_true h]; rfl)

/-- The threshold less the hysteresis is not above the threshold, so below it DIEHI is 0 in each case. -/
theorem dieCheck_low (h : s.therm.diemax < (s.therm.diethr : Int) - s.therm.diehys) :
    dieCheck s = { s with therm := { s.therm with diehi := false } } := by
  have hthr : ¬ (s.therm.diethr : Int) ≤ s.therm.diemax := by omega
  unfold dieCheck
  dsimp only
  rw [decide_eq_false hthr, decide_eq_true h, Bool.and_false, Bool.and_true, if_neg Bool.false_ne_true]
  split
  · rfl
  · next hlow => rw [← Bool.eq_false_iff.mpr hlow]

end

/-- The check of DIEHI changes DIEHI and the waiting events alone, and loses none of these. -/
theorem dieCheck_changes (s : State) : ∃ q h, dieCheck s = { s with flt := { s.flt with queue := q }, therm := { s.therm with diehi := h } } ∧
    ∀ e ∈ s.flt.queue, e ∈ q := by
  unfold dieCheck
  dsimp only
  split
  · unfold raise raiseC
    split
    · exact ⟨_, _, rfl, fun e he => (mem_insertEvent _ _ _).mpr (.inr he)⟩
    · exact ⟨_, _, rfl, fun _ => id⟩
  · split <;> exact ⟨_, _, rfl, fun _ => id⟩

theorem dieCheck_tickMoved (s : State) : TickMoved s (dieCheck s) := by
  obtain ⟨q, h, heq, hq⟩ := dieCheck_changes s
  rw [heq]
  exact ⟨rfl, fun _ => ⟨rfl, rfl⟩, fun _ _ _ ⟨e, he, hfields⟩ => ⟨e, hq e he, hfields⟩, intsStay_of_bus rfl, rfl⟩

/-! ### One channel at a tick (R219, R220, R225) -/

/-- A channel as the update of a tick finds it: what waited is in force (R225). -/
def thReady (c : ThCh) : ThCh :=
  let c := { c with live := c.waiting.getD c.live, waiting := none }
  match c.init with
  | some t => { c with tw := node t, th := node t, tj := node t, init := none }
  | none => c

/-- The channel after its update, whose accumulators the tick then clears. -/
def thUpdated (ta tref : Int) (scale : Nat) (c : ThCh) : ThCh :=
  if (thReady c).en then thFlags (thStep (thModel ta tref scale (thReady c))) else thOff (thReady c)

/-- A step that falls at once to its limit, rises below it and falls above 0 stays within the limit (R220). -/
theorem nextStep_le (st raw smax : Nat) (below : Bool) :
    (if smax < st then smax else if st < min raw smax then st + 1 else if 0 < st && below then st - 1 else st) ≤ smax := by
  split
  · exact Nat.le_refl smax
  · split
    · omega
    · split <;> omega

section
variable (c : ThCh)

theorem thReady_eq : ∃ w h j, thReady c = { c with live := c.waiting.getD c.live, waiting := none, init := none, tw := w, th := h, tj := j } := by
  unfold thReady
  dsimp only
  split
  · exact ⟨_, _, _, rfl⟩
  · next h => exact ⟨c.tw, c.th, c.tj, by rw [← h]⟩

theorem thReady_kept (h : c.init = none) : thReady c = { c with live := c.waiting.getD c.live, waiting := none } := by
  unfold thReady
  dsimp only
  rw [h]

theorem thTick_eq (ta tref : Int) (scale : Nat) : thTick ta tref scale c = { thUpdated ta tref scale c with e2 := 0, e2on := 0, e1off := 0 } := rfl

variable (ta tref : Int) (scale : Nat)

/-- Parameters and settings change only where the tick puts them into force. -/
theorem thUpdated_settings : (thUpdated ta tref scale c).live = c.waiting.getD c.live ∧ (thUpdated ta tref scale c).waiting = none ∧
    (thUpdated ta tref scale c).init = none := by
  obtain ⟨w, h, j, hready⟩ := thReady_eq c
  unfold thUpdated
  rw [hready]
  split <;> exact ⟨rfl, rfl, rfl⟩

theorem thTick_live : (thTick ta tref scale c).live = c.waiting.getD c.live := (thUpdated_settings c ta tref scale).1

theorem thReady_live : (thReady c).live = c.waiting.getD c.live := by
  obtain ⟨w, h, j, hready⟩ := thReady_eq c
  rw [hready]

/-- EN after the tick is the EN that the update found. -/
theorem thTick_en : (thTick ta tref scale c).en = (thReady c).en := by
  rw [ThCh.en, ThCh.en, thTick_live, thReady_live]

theorem thTick_floor : (thTick ta tref scale c).floor = (thReady c).floor := by
  rw [ThCh.floor, ThCh.floor, thTick_live, thReady_live]

/-- The step of an enabled channel does not pass 16 - FLOOR (R220). -/
theorem thStep_le : (thStep c).step ≤ 16 - c.floor := nextStep_le _ _ _ _

theorem thTick_step_le (h : (thTick ta tref scale c).en = true) : (thTick ta tref scale c).step ≤ 16 - (thTick ta tref scale c).floor := by
  rw [thTick_en] at h
  rw [thTick_floor, thTick_eq, thUpdated, if_pos h]
  exact thStep_le (thModel ta tref scale (thReady c))

/-- A channel with EN 0 stands at step 0, with the nodes that it had (R220). -/
theorem thTick_off (h : (thTick ta tref scale c).en = false) : (thTick ta tref scale c).step = 0 ∧ (thTick ta tref scale c).raw = 0 ∧
    (c.init = none → (thTick ta tref scale c).tw = c.tw ∧ (thTick ta tref scale c).th = c.th ∧ (thTick ta tref scale c).tj = c.tj) := by
  rw [thTick_en] at h
  rw [thTick_eq, thUpdated, if_neg (by rw [h]; exact Bool.false_ne_true)]
  refine ⟨rfl, rfl, fun hinit => ?_⟩
  rw [thReady_kept c hinit]
  exact ⟨rfl, rfl, rfl⟩

end

/-! ### The events of the models (R223) -/

theorem raiseIf_tickMoved (c : Prop) [Decidable c] (src ch : Nat) (det : Word) (s : State) : TickMoved s (if c then raise src ch det s else s) :=
  .ite c (raise_tickMoved src ch det s)

theorem thEvents_tickMoved (n : Fin 8) (old new : ThCh) (s : State) : TickMoved s (thEvents n old new s) := by
  unfold thEvents
  dsimp only
  exact ((((raiseIf_tickMoved _ 24 _ _ _).trans (raiseIf_tickMoved _ 25 _ _ _)).trans (raiseIf_tickMoved _ 26 _ _ _)).trans
    (raiseIf_tickMoved _ 27 _ _ _)).trans (setIntIf_tickMoved _ 4 _)

/-- A step that leaves 0 is source 24 and sets THR. -/
theorem thEvents_throttles {n : Fin 8} {old new : ThCh} {s : State} (hn : isNative s = true) (hold : old.step = 0) (hnew : 0 < new.step) :
    waits (thEvents n old new s) 24 n.val (w16 new.step) ∧ bit (thEvents n old new s).bus.intstat 4 = true := by
  have hleaves : (decide (old.step = 0) && decide (0 < new.step)) = true := by rw [decide_eq_true hold, decide_eq_true hnew]; rfl
  have hthr : (decide (old.step = 0) != decide (new.step = 0)) = true := by
    rw [decide_eq_true hold, decide_eq_false (Nat.ne_of_gt hnew)]; rfl
  unfold thEvents
  dsimp only
  rw [if_pos hleaves, hthr, Bool.true_or, Bool.true_or, Bool.true_or]
  refine ⟨?_, bit_setInt _ (by decide)⟩
  exact ((((raiseIf_tickMoved _ 25 _ _ _).trans (raiseIf_tickMoved _ 26 _ _ _)).trans (raiseIf_tickMoved _ 27 _ _ _)).trans
    (setIntIf_tickMoved true 4 _)).waits _ _ _ (raise_waits 24 n.val (w16 new.step) hn)

/-! ### The whole tick (R219 to R225) -/

/-- The thermal block after its update, before what follows it. -/
def thermUpdated (s : State) : Therm :=
  let t := thSettings { s.therm with tickAt := some s.clk.tb }
  { t with ch := vmapi (fun (n : Fin 8) c => thTick t.ta t.tref s.chan[sh n].cfg.scale c) t.ch }

/-- The settings that waited are in force, and nothing else changes (R225). -/
theorem thSettings_eq (t : Therm) : ∃ r thr hys, thSettings t = { t with
    ta := (match t.amb with | some (a, _) => a | none => t.ta), tref := r, amb := none, diethr := thr, diehys := hys, dieSet := none } := by
  obtain ⟨ch, ta, tref, amb, tickAt, dieSet, thr, hys, m, die, val, peak, hi⟩ := t
  cases amb <;> cases dieSet <;> exact ⟨_, _, _, rfl⟩

section
variable (s : State)

theorem thermUpdated_settings : (thermUpdated s).tickAt = some s.clk.tb ∧ (thermUpdated s).amb = none ∧ (thermUpdated s).dieSet = none ∧
    (thermUpdated s).ta = (match s.therm.amb with | some (a, _) => a | none => s.therm.ta) := by
  obtain ⟨r, thr, hys, heq⟩ := thSettings_eq { s.therm with tickAt := some s.clk.tb }
  unfold thermUpdated
  rw [heq]
  exact ⟨rfl, rfl, rfl, rfl⟩

theorem thermUpdated_ch (n : Fin 8) : ∃ ta tref scale, (thermUpdated s).ch[n] = thTick ta tref scale s.therm.ch[n] := by
  obtain ⟨r, thr, hys, heq⟩ := thSettings_eq { s.therm with tickAt := some s.clk.tb }
  unfold thermUpdated
  rw [heq]
  dsimp only
  rw [vmapi_getElem]
  exact ⟨_, _, _, rfl⟩

/-- The state with its thermal block updated and the events of its channels raised. -/
def thermRaised (s : State) : State :=
  foldSt (List.finRange 8) (fun n t => thEvents n s.therm.ch[n] (thermUpdated s).ch[n] t) { s with therm := thermUpdated s }

theorem thermRaised_tickMoved : TickMoved { s with therm := thermUpdated s } (thermRaised s) :=
  foldSt_tickMoved (fun n t => thEvents_tickMoved n _ _ t) _ _

theorem opThermalTick_follows : TickMoved (thermRaised s) (opThermalTick s) := by
  have hthrottle : ∀ steps : Fin 12 → Nat, TickMoved (thermRaised s) (foldSt (List.finRange 8)
      (fun (n : Fin 8) t => if stepOf t (sh n) = steps (sh n) then t else throttleMoved (sh n) t) (thermRaised s)) := fun steps =>
    foldSt_tickMoved (fun n t => by
      split
      · exact .refl t
      · exact throttleMoved_tickMoved (sh n) t) _ _
  exact ((hthrottle (stepOf s)).trans (.ite _ (dieCheck_tickMoved _))).trans (.ite _ (shadowTherm_tickMoved _))

end

theorem opThermalTick_tickMoved (s : State) : TickMoved { s with therm := thermUpdated s } (opThermalTick s) :=
  (thermRaised_tickMoved s).trans (opThermalTick_follows s)

theorem opThermalTick_throttles {s : State} (hn : isNative s = true) (n : Fin 8) (hold : s.therm.ch[n].step = 0)
    (hnew : 0 < (thermUpdated s).ch[n].step) :
    waits (opThermalTick s) 24 n.val (w16 (thermUpdated s).ch[n].step) ∧ bit (opThermalTick s).bus.intstat 4 = true := by
  obtain ⟨u, hbefore, hafter⟩ := foldSt_passes (fun n t => thEvents_tickMoved n s.therm.ch[n] (thermUpdated s).ch[n] t) (List.mem_finRange n)
    { s with therm := thermUpdated s }
  have hrest := hafter.trans (opThermalTick_follows s)
  obtain ⟨hwaits, hint⟩ := thEvents_throttles (n := n) (hbefore.native hn) hold hnew
  exact ⟨hrest.waits _ _ _ hwaits, hrest.ints 4 hint⟩

/-! ### The clauses of `Obligations.Temperatures` on the tick -/

theorem native_of_liveN {s : State} (h : liveN s = true) : isNative s = true := by
  rw [liveN, Bool.and_eq_true] at h
  obtain ⟨hn, -⟩ := h
  exact hn

theorem liveN_of_dueThermal {s : State} (h : dueThermal s = true) : liveN s = true := by
  simp only [dueThermal, Bool.and_eq_true] at h
  obtain ⟨⟨⟨hlive, -⟩, -⟩, -⟩ := h
  exact hlive

theorem thermalTick_early (s : State) (h : dueThermal s = false) : exec .thermalTick s = .next s := row_early s _ h

theorem thermalTick_due (s : State) (h : dueThermal s = true) :
    ∃ t, exec .thermalTick s = .next t ∧ t.therm.tickAt = some s.clk.tb ∧ t.therm.amb = none ∧ t.therm.dieSet = none ∧
    t.therm.ta = (match s.therm.amb with | some (a, _) => a | none => s.therm.ta) ∧
    (∀ n : Fin 8, t.therm.ch[n].e2 = 0 ∧ t.therm.ch[n].e2on = 0 ∧ t.therm.ch[n].e1off = 0 ∧ t.therm.ch[n].waiting = none ∧ t.therm.ch[n].init = none ∧
      t.therm.ch[n].live = (s.therm.ch[n].waiting).getD s.therm.ch[n].live) ∧
    (∀ n : Fin 8, t.therm.ch[n].en = true → t.therm.ch[n].step ≤ 16 - t.therm.ch[n].floor) ∧
    (∀ n : Fin 8, t.therm.ch[n].en = false → t.therm.ch[n].step = 0 ∧ t.therm.ch[n].raw = 0 ∧
      (s.therm.ch[n].init = none → t.therm.ch[n].tw = s.therm.ch[n].tw ∧ t.therm.ch[n].th = s.therm.ch[n].th ∧ t.therm.ch[n].tj = s.therm.ch[n].tj)) ∧
    (∀ n : Fin 8, s.therm.ch[n].step = 0 → 0 < t.therm.ch[n].step → waits t 24 n.val (w16 t.therm.ch[n].step) ∧ bit t.bus.intstat 4 = true) ∧
    (∀ n : Fin 12, t.chan[n].st = s.chan[n].st ∧ t.chan[n].drv = s.chan[n].drv) ∧
    { quietly s t with therm := s.therm, chan := s.chan, store := s.store } = s := by
  obtain ⟨htherm, hchan, -, -, hframe⟩ := opThermalTick_tickMoved s
  obtain ⟨htick, hamb, hdie, hta⟩ := thermUpdated_settings s
  have hthrottles := opThermalTick_throttles (native_of_liveN (liveN_of_dueThermal h))
  refine ⟨opThermalTick s, congrArg Host.Outcome.next (if_pos h), ?_⟩
  rw [htherm]
  refine ⟨htick, hamb, hdie, hta, fun n => ?_, fun n => ?_, fun n => ?_, hthrottles, hchan,
    congrArg (fun v : State => { v with therm := s.therm }) hframe⟩ <;>
    obtain ⟨ta, tref, scale, hn⟩ := thermUpdated_ch s n <;> dsimp only <;> rw [hn]
  · obtain ⟨hlive, hwaiting, hinit⟩ := thUpdated_settings s.therm.ch[n] ta tref scale
    exact ⟨rfl, rfl, rfl, hwaiting, hinit, hlive⟩
  · exact thTick_step_le _ ta tref scale
  · exact thTick_off _ ta tref scale

/-! ### Conversions of the die sensors (R215, R216) -/

/-- DIEMAX and the peak follow the readings (R215). -/
def dieNoted (t : Therm) : Therm := { t with diemax := dieMax t, diepeak := max t.diepeak (dieMax t) }

/-- The thermal block with the valid reading of a sensor, before DIEMAX follows. -/
def dieRead (k : Fin 4) (r : Int) (t : Therm) : Therm := { t with die := vupd t.die k fun _ => r, dieval := vupd t.dieval k fun _ => true }

/-- The thermal block with the reading of a sensor lost, before DIEMAX follows. -/
def dieLost (k : Fin 4) (t : Therm) : Therm := { t with dieval := vupd t.dieval k fun _ => false }

theorem opDie_valid {k : Fin 4} {r : Int} {s : State} (hlo : -110 ≤ r) (hhi : r ≤ 350) :
    opDie k r s = dieCheck { s with therm := dieNoted (dieRead k r s.therm) } := by
  unfold opDie
  rw [decide_eq_true hlo, decide_eq_true hhi]
  rfl

theorem opDie_invalid {k : Fin 4} {r : Int} {s : State} (hr : r < -110 ∨ 350 < r) (hval : s.therm.dieval[k] = true) :
    opDie k r s = dieCheck { raise 22 0 (w16 k.val) s with therm := dieNoted (dieLost k s.therm) } := by
  have hbad : (decide (-110 ≤ r) && decide (r ≤ 350)) = false := by
    rw [Bool.and_eq_false_iff, decide_eq_false_iff_not, decide_eq_false_iff_not]
    omega
  unfold opDie
  dsimp only
  rw [hbad, hval]
  rfl

/-- A running maximum is not below its start, nor below any value that it has met. -/
theorem le_foldl_max {α : Type} (f : α → Int) (xs : List α) (m : Int) :
    m ≤ xs.foldl (fun m x => max m (f x)) m ∧ ∀ x ∈ xs, f x ≤ xs.foldl (fun m x => max m (f x)) m := by
  induction xs generalizing m with
  | nil => simp
  | cons y ys ih =>
    obtain ⟨hstart, hmet⟩ := ih (max m (f y))
    rw [List.foldl_cons]
    refine ⟨(le_max_left _ _).trans hstart, fun x hx => ?_⟩
    rcases List.mem_cons.mp hx with rfl | hx
    · exact (le_max_right _ _).trans hstart
    · exact hmet x hx

/-- No valid reading is above DIEMAX (R215). -/
theorem die_le_dieMax {t : Therm} {j : Fin 4} (h : t.dieval[j] = true) : t.die[j] ≤ dieMax t := by
  have hj : j ∈ (List.finRange 4).filter fun (k : Fin 4) => t.dieval[k] := List.mem_filter.mpr ⟨List.mem_finRange j, h⟩
  unfold dieMax
  dsimp only
  split
  · next hnone =>
    rw [hnone] at hj
    exact absurd hj List.not_mem_nil
  · next k ks hvs =>
    obtain ⟨hstart, hmet⟩ := le_foldl_max (fun (i : Fin 4) => t.die[i]) ks t.die[k]
    rw [hvs] at hj
    rcases List.mem_cons.mp hj with rfl | hks
    · exact hstart
    · exact hmet j hks

/-- The check of DIEHI leaves the rest of the thermal block alone. -/
theorem dieCheck_therm (s : State) : (dieCheck s).therm = { s.therm with diehi := (dieCheck s).therm.diehi } := (dieCheck_tickMoved s).therm

/-- What lies outside the thermal block and the waiting events, the check leaves alone. -/
theorem dieCheck_frame {s u : State} (h : { quietly s u with therm := s.therm } = s) : { quietly s (dieCheck u) with therm := s.therm } = s := by
  obtain ⟨q, hi, heq, -⟩ := dieCheck_changes u
  rw [heq]
  exact h

theorem exec_dieConversion {k : Fin 4} {r : Int} {s : State} (hlive : liveN s = true) (hblk : blkOn s .therm = true) :
    exec (.dieConversion k r) s = .next (opDie k r s) := by
  change execDieConversion k r s = _
  rw [execDieConversion, hlive, hblk]
  rfl

theorem dieConversion_valid (k : Fin 4) (r : Int) (s : State) (hlive : liveN s = true) (hblk : blkOn s .therm = true) (hlo : -110 ≤ r)
    (hhi : r ≤ 350) :
    ∃ t, exec (.dieConversion k r) s = .next t ∧ t.therm.die[k] = r ∧
    t.therm.dieval[k] = true ∧ (∀ j : Fin 4, j ≠ k → t.therm.die[j] = s.therm.die[j] ∧ t.therm.dieval[j] = s.therm.dieval[j]) ∧
    (∀ j : Fin 4, t.therm.dieval[j] = true → t.therm.die[j] ≤ t.therm.diemax) ∧ t.therm.diepeak = max s.therm.diepeak t.therm.diemax ∧
    t.therm.ch = s.therm.ch ∧
    (s.therm.diehi = false → (s.therm.diethr : Int) ≤ t.therm.diemax → t.therm.diehi = true ∧ waits t 23 0 (i16 t.therm.diemax)) ∧
    (t.therm.diemax < (s.therm.diethr : Int) - s.therm.diehys → t.therm.diehi = false) ∧
    { quietly s t with therm := s.therm } = s := by
  refine ⟨_, (exec_dieConversion hlive hblk).trans (congrArg _ (opDie_valid hlo hhi)), ?_⟩
  rw [dieCheck_therm]
  refine ⟨vupd_same _ _ _, vupd_same _ _ _, fun j hj => ⟨vupd_other _ _ _ _ hj.symm, vupd_other _ _ _ _ hj.symm⟩,
    fun j => die_le_dieMax (t := dieRead k r s.therm), rfl, rfl, fun hlow hmax => ?_, fun hmax => ?_, dieCheck_frame rfl⟩
  · rw [dieCheck_high (s := { s with therm := dieNoted (dieRead k r s.therm) }) hlow hmax]
    exact ⟨congrArg Therm.diehi (therm_of_but rfl (raise_but 23 0 _ _)), raise_waits _ _ _ (native_of_liveN hlive)⟩
  · exact congrArg (fun v : State => v.therm.diehi) (dieCheck_low (s := { s with therm := dieNoted (dieRead k r s.therm) }) hmax)

theorem dieConversion_invalid (k : Fin 4) (r : Int) (s : State) (hlive : liveN s = true) (hblk : blkOn s .therm = true)
    (hr : r < -110 ∨ 350 < r) (hval : s.therm.dieval[k] = true) :
    ∃ t, exec (.dieConversion k r) s = .next t ∧ t.therm.dieval[k] = false ∧ t.therm.die = s.therm.die ∧ waits t 22 0 (w16 k.val) ∧
      { quietly s t with therm := s.therm } = s := by
  have hraised := raise_waits 22 0 (w16 k.val) (native_of_liveN hlive)
  refine ⟨_, (exec_dieConversion hlive hblk).trans (congrArg _ (opDie_invalid hr hval)), ?_⟩
  rw [dieCheck_therm]
  refine ⟨vupd_same _ _ _, rfl, (dieCheck_tickMoved _).waits _ _ _ hraised, dieCheck_frame ?_⟩
  rw [raise_native 22 0 (w16 k.val) (native_of_liveN hlive)]
  rfl

/-! ### Reads of TW (R227, R330) -/

/-- The state with the host's pointer at TW of a channel in window THERM. -/
def atTw (n : Fin 8) (s : State) : State := { s with bus := { s.bus with winsel := w16 6, winadr := w16 (32 * n.val + 18) } }

theorem exec_thermCapture {n : Fin 8} {s : State} (hb : hostBus s = true) (hu : busUp s = true) :
    exec (.thermCapture n) s = .next (putData (gatedWindow .therm 6 (readTw .host n) (atTw n s)).1
      (stepWinadr .host (gatedWindow .therm 6 (readTw .host n) (atTw n s)).2)) := by
  obtain ⟨hadr, -⟩ := regOpen_pointer hu
  change Host.Outcome.next (windowRead (.thermCapture n) 6 (32 * n.val + 18) (gatedWindow .therm 6 (readTw .host n)) s) = _
  rw [windowRead, hostRead_answered _ _ hb hu, pointAt_open 6 _ hadr]
  rfl

/-- A channel after the capture of words 19 to 23 on the host's path. -/
def twCaptured (n : Fin 8) (s : State) (k : Fin 8) (c : ThCh) : ThCh := if k = n then { c with capH := thSnapshot s n } else c

theorem thermCapture_captures (n : Fin 8) (s : State) (hb : hostBus s = true) (hu : busUp s = true) (hblk : blkOn s .therm = true) :
    ∃ t, exec (.thermCapture n) s = .next t ∧ t.bus.data = i16 (nodeWord s.therm.ch[n].tw) ∧
    t.therm.ch[n].capH = thSnapshot s n ∧ t.therm.ch[n].capD = s.therm.ch[n].capD ∧ t.therm.ch[n].tw = s.therm.ch[n].tw ∧
    { t with therm := s.therm, bus := s.bus } = s := by
  have hread : gatedWindow .therm 6 (readTw .host n) (atTw n s) = (i16 (nodeWord s.therm.ch[n].tw), updTh (twCaptured n s) (atTw n s)) := if_pos hblk
  have hch : (vmapi (twCaptured n s) (atTw n s).therm.ch)[n] = { s.therm.ch[n] with capH := thSnapshot s n } :=
    (vmapi_getElem _ s.therm.ch n).trans (if_pos rfl)
  refine ⟨_, exec_thermCapture hb hu, ?_⟩
  rw [hread]
  dsimp only [putData, stepWinadr, updTh]
  rw [hch]
  exact ⟨rfl, rfl, rfl, rfl, rfl⟩

/-- While the clock of the block is off the read answers 0, and is an access of a disabled block (R330). -/
theorem thermCapture_gated (n : Fin 8) (s : State) (hb : hostBus s = true) (hu : busUp s = true) (hblk : blkOn s .therm = false) :
    ∃ t, exec (.thermCapture n) s = .next t ∧ t.bus.data = 0 ∧ waits t 46 0 0x0609 ∧ { quietly s t with bus := s.bus } = s := by
  have hn : isNative (atTw n s) = true := native_of_busUp hu
  have hblk' : blkOn (atTw n s) .therm = false := hblk
  have hread : gatedWindow .therm 6 (readTw .host n) (atTw n s) = (0, raise 46 0 0x0609 (atTw n s)) := if_neg (by rw [hblk']; decide)
  have hwaits := raise_waits 46 0 0x0609 hn
  refine ⟨_, exec_thermCapture hb hu, ?_⟩
  rw [hread]
  dsimp only [putData, stepWinadr]
  refine ⟨rfl, waits_of_flt rfl hwaits, ?_⟩
  rw [raise_native 46 0 0x0609 hn]
  dsimp only [quietly, atTw]

/-- Settles O42: the tick by its update and by what follows it, a conversion by its reading, and a read of TW by the clock of the block. -/
theorem temperatures : Obligations.Temperatures :=
  ⟨thermalTick_early, thermalTick_due, dieConversion_valid, dieConversion_invalid, thermCapture_captures, thermCapture_gated⟩

end Sys2Proof.Machine

/-! The general timers (R229 to R243): increments that set a flag, the end of a gated one-shot, and the writes of the timer registers. -/

namespace Sys2Proof.Machine

/-! ### Increments (R230 to R232, R235) -/

section
variable {t : Timer}

theorem Timer.count_ne_top (hlow : t.count < 4294967295) : t.count ≠ countTop := hlow.ne

/-- Below the top, a one-shot and a count that CLRM does not clear go on without a wrap. -/
theorem Timer.wraps_below (hstay : t.os = true ∨ t.count ≠ t.cmp) (hlow : t.count < 4294967295) : t.wraps = false := by
  have hclears : t.clears = false := by
    rcases hstay with hos | hcmp
    · simp [Timer.clears, hos]
    · simp [Timer.clears, hcmp]
  simp [Timer.wraps, hclears, Timer.count_ne_top hlow]

theorem Timer.incTo_below (hwraps : t.wraps = false) (hlow : t.count < 4294967295) : t.incTo = t.count + 1 := by
  rw [Timer.incTo, hwraps, if_neg Bool.false_ne_true, if_neg (Timer.count_ne_top hlow)]

theorem Timer.incOvf_below (hlow : t.count < 4294967295) : t.incOvf = false := by
  rw [Timer.incOvf, beq_false_of_ne (Timer.count_ne_top hlow), Bool.false_and]

/-- An increment that sets MATCH leaves the count at TIMCMP (R231). -/
theorem Timer.incTo_match (h : t.incMatch = true) : t.incTo = t.cmp := by
  rw [Timer.incMatch, Bool.and_eq_true, beq_iff_eq] at h
  exact h.2

/-- An increment below the top that sets MATCH in a counting timer. -/
theorem Timer.step_match (hwraps : t.wraps = false) (hlow : t.count < 4294967295) (hmatch : t.incMatch = true) (hos : t.os = false) :
    t.step = { t with count := t.count + 1, hit := true, inc := false } := by
  simp [Timer.step, hwraps, hmatch, hos, Timer.incOvf_below hlow, Timer.incTo_below hwraps hlow]

/-- The same in a one-shot, which it ends at TIMCMP (R232). -/
theorem Timer.step_match_oneShot (hwraps : t.wraps = false) (hlow : t.count < 4294967295) (hmatch : t.incMatch = true) (hos : t.os = true)
    (hpld : t.pld = false) :
    t.step = { t with en := false, shut := false, count := t.cmp, hit := true, inc := false } := by
  simp [Timer.step, Timer.halt, hwraps, hmatch, hos, hpld, Timer.incOvf_below hlow, Timer.incTo_match hmatch]

/-- Only the increment from the top sets OVF, and in a counting timer it returns the count to 0 (R230). -/
theorem Timer.wraps_of_incOvf (hovf : t.incOvf = true) (hos : t.os = false) : t.wraps = true := by
  rw [Timer.incOvf, Bool.and_eq_true] at hovf
  simp [Timer.wraps, hos, hovf.1]

theorem Timer.incTo_wraps (hwraps : t.wraps = true) : t.incTo = 0 := if_pos hwraps

/-- The increment from the top sets no MATCH where TIMCMP is not 0. -/
theorem Timer.incMatch_wraps (hwraps : t.wraps = true) (hcmp : t.cmp ≠ 0) : t.incMatch = false := by
  rw [Timer.incMatch, Timer.incTo_wraps hwraps, beq_false_of_ne hcmp.symm, Bool.and_false]

/-- The increment from the top sets OVF and takes a waiting preload (R230, R235). -/
theorem Timer.step_overflow (hovf : t.incOvf = true) (hos : t.os = false) (hcmp : t.cmp ≠ 0) :
    t.step = { t with count := 0, ovf := true, inc := false, cmp := if t.pld then t.preload else t.cmp, pld := false } := by
  have hwraps := Timer.wraps_of_incOvf hovf hos
  simp [Timer.step, hwraps, hovf, hos, Timer.incTo_wraps hwraps, Timer.incMatch_wraps hwraps hcmp]

/-- After its increment no increment waits. -/
theorem Timer.step_inc (t : Timer) : t.step.inc = false := by
  unfold Timer.step
  dsimp only
  split
  · rfl
  · split <;> rfl

end

/-! ### A change of one timer -/

/-- A condition leaves the timers alone. -/
theorem setIntIf_tim (c : Bool) (b : Nat) (s : State) : (setIntIf c b s).tim = s.tim :=
  tim_of_but (by decide) (setIntIf_but c b s)

theorem updTim_self (k : Fin 8) (f : Timer → Timer) (s : State) : (updTim k f s).tim.t[k] = f s.tim.t[k] := vupd_same _ _ _

theorem updTim_others (k : Fin 8) (f : Timer → Timer) (s : State) (j : Fin 8) (h : j ≠ k) : (updTim k f s).tim.t[j] = s.tim.t[j] :=
  vupd_other _ _ _ _ h.symm

/-- A timer that changes, and the condition that may follow, are all that changes. -/
theorem setIntIf_updTim_frame (c : Bool) (b : Nat) (k : Fin 8) (f : Timer → Timer) (s : State) :
    { quietly s (setIntIf c b (updTim k f s)) with tim := s.tim } = s := by
  cases c <;> rfl

section
variable (k : Fin 8) (m o : Bool) (f : Timer → Timer) (s : State)

theorem timDo_tim : (timDo k m o f s).tim = (updTim k (fun t => (f t).noteSet m o s.clk.tb) s).tim := setIntIf_tim _ _ _

theorem timDo_self : (timDo k m o f s).tim.t[k] = (f s.tim.t[k]).noteSet m o s.clk.tb := by
  rw [timDo_tim, updTim_self]

theorem timDo_others (j : Fin 8) (h : j ≠ k) : (timDo k m o f s).tim.t[j] = s.tim.t[j] := by
  rw [timDo_tim, updTim_others _ _ _ _ h]

theorem timDo_frame : { quietly s (timDo k m o f s) with tim := s.tim } = s := setIntIf_updTim_frame _ _ _ _ _

/-- A flag that rises while IE is 1 sets TIM in INTSTAT (R243). -/
theorem timDo_interrupts (hie : (f s.tim.t[k]).ie = true)
    (hrise : (f s.tim.t[k]).hit = true ∧ s.tim.t[k].hit = false ∨ (f s.tim.t[k]).ovf = true ∧ s.tim.t[k].ovf = false) :
    bit (timDo k m o f s).bus.intstat 5 = true := by
  have hself : (updTim k (fun t => (f t).noteSet m o s.clk.tb) s).tim.t[k] = (f s.tim.t[k]).noteSet m o s.clk.tb := updTim_self _ _ _
  have hcond : ((f s.tim.t[k]).ie && ((f s.tim.t[k]).hit && !s.tim.t[k].hit || (f s.tim.t[k]).ovf && !s.tim.t[k].ovf)) = true := by
    rcases hrise with ⟨hset, hclear⟩ | ⟨hset, hclear⟩ <;> rw [hie, hset, hclear] <;> simp
  have hint : timDo k m o f s = setInt 5 (updTim k (fun t => (f t).noteSet m o s.clk.tb) s) := by
    rw [timDo, timInt, hself]
    exact if_pos hcond
  rw [hint]
  exact bit_setInt _ (by decide)

end

/-! ### The rows of the increments and of the gate (R230 to R232) -/

theorem timerMatch_early (k : Fin 8) (s : State) (h : dueMatch s k = false) : exec (.timerMatch k) s = .next s := row_early s _ h

theorem timerOverflow_early (k : Fin 8) (s : State) (h : dueOvf s k = false) : exec (.timerOverflow k) s = .next s := row_early s _ h

theorem timerGateStop_early (k : Fin 8) (s : State) (h : dueGateStop s k = false) : exec (.timerGateStop k) s = .next s := row_early s _ h

theorem incMatch_of_dueMatch {s : State} {k : Fin 8} (h : dueMatch s k = true) : s.tim.t[k].incMatch = true := by
  rw [dueMatch, Bool.and_eq_true] at h
  exact h.2

theorem incOvf_of_dueOvf {s : State} {k : Fin 8} (h : dueOvf s k = true) : s.tim.t[k].incOvf = true := by
  rw [dueOvf, Bool.and_eq_true] at h
  exact h.2

theorem exec_timerMatch {k : Fin 8} {s : State} (h : dueMatch s k = true) : exec (.timerMatch k) s = .next (timStep k s) :=
  congrArg Host.Outcome.next (if_pos h)

theorem exec_timerOverflow {k : Fin 8} {s : State} (h : dueOvf s k = true) : exec (.timerOverflow k) s = .next (timStep k s) :=
  congrArg Host.Outcome.next (if_pos h)

theorem exec_timerGateStop {k : Fin 8} {s : State} (h : dueGateStop s k = true) :
    exec (.timerGateStop k) s = .next (timDo k true false Timer.gateStop s) :=
  congrArg Host.Outcome.next (if_pos h)

theorem timStep_self (k : Fin 8) (s : State) :
    (timStep k s).tim.t[k] = s.tim.t[k].step.noteSet s.tim.t[k].incMatch s.tim.t[k].incOvf s.clk.tb := timDo_self _ _ _ _ _

theorem timerMatch_matches (k : Fin 8) (s : State) (hdue : dueMatch s k = true) (hos : s.tim.t[k].os = false)
    (hcmp : s.tim.t[k].count ≠ s.tim.t[k].cmp) (hlow : s.tim.t[k].count < 4294967295) :
    ∃ t, exec (.timerMatch k) s = .next t ∧
    t.tim.t[k] = { s.tim.t[k] with count := s.tim.t[k].count + 1, hit := true, inc := false, hitAt := some s.clk.tb } ∧ s.tim.t[k].count + 1 = s.tim.t[k].cmp ∧
    (s.tim.t[k].ie = true → s.tim.t[k].hit = false → bit t.bus.intstat 5 = true) ∧ (∀ j : Fin 8, j ≠ k → t.tim.t[j] = s.tim.t[j]) ∧ { quietly s t with tim := s.tim } = s := by
  have hmatch := incMatch_of_dueMatch hdue
  have hwraps := Timer.wraps_below (.inr hcmp) hlow
  have hstep := Timer.step_match hwraps hlow hmatch hos
  refine ⟨_, exec_timerMatch hdue, ?_, (Timer.incTo_below hwraps hlow).symm.trans (Timer.incTo_match hmatch), fun hie hhit => ?_,
    timDo_others _ _ _ _ _, timDo_frame _ _ _ _ _⟩
  · rw [timStep_self, hstep, hmatch, Timer.incOvf_below hlow]
    rfl
  · refine timDo_interrupts _ _ _ _ _ ?_ (.inl ⟨congrArg Timer.hit hstep, hhit⟩)
    rw [hstep]
    exact hie

theorem timerMatch_ends_oneShot (k : Fin 8) (s : State) (hdue : dueMatch s k = true) (hos : s.tim.t[k].os = true)
    (hlow : s.tim.t[k].count < 4294967295) (hpld : s.tim.t[k].pld = false) :
    ∃ t, exec (.timerMatch k) s = .next t ∧
    t.tim.t[k] = { s.tim.t[k] with en := false, shut := false, count := s.tim.t[k].cmp, hit := true, inc := false, hitAt := some s.clk.tb } ∧ (∀ j : Fin 8, j ≠ k → t.tim.t[j] = s.tim.t[j]) ∧
    { quietly s t with tim := s.tim } = s := by
  have hmatch := incMatch_of_dueMatch hdue
  refine ⟨_, exec_timerMatch hdue, ?_, timDo_others _ _ _ _ _, timDo_frame _ _ _ _ _⟩
  rw [timStep_self, Timer.step_match_oneShot (Timer.wraps_below (.inl hos) hlow) hlow hmatch hos hpld, hmatch, Timer.incOvf_below hlow]
  rfl

theorem timerOverflow_overflows (k : Fin 8) (s : State) (hdue : dueOvf s k = true) (hos : s.tim.t[k].os = false) (hcmp : s.tim.t[k].cmp ≠ 0) :
    ∃ t, exec (.timerOverflow k) s = .next t ∧
    t.tim.t[k].count = 0 ∧ t.tim.t[k].ovf = true ∧ t.tim.t[k].hit = s.tim.t[k].hit ∧ t.tim.t[k].en = s.tim.t[k].en ∧ t.tim.t[k].pld = false ∧
    t.tim.t[k].cmp = (if s.tim.t[k].pld then s.tim.t[k].preload else s.tim.t[k].cmp) ∧ (s.tim.t[k].ie = true → s.tim.t[k].ovf = false → bit t.bus.intstat 5 = true) ∧
    (∀ j : Fin 8, j ≠ k → t.tim.t[j] = s.tim.t[j]) ∧ { quietly s t with tim := s.tim } = s := by
  have hstep := Timer.step_overflow (incOvf_of_dueOvf hdue) hos hcmp
  have hint : s.tim.t[k].ie = true → s.tim.t[k].ovf = false → bit (timStep k s).bus.intstat 5 = true := fun hie hovf => by
    refine timDo_interrupts _ _ _ _ _ ?_ (.inr ⟨congrArg Timer.ovf hstep, hovf⟩)
    rw [hstep]
    exact hie
  refine ⟨_, exec_timerOverflow hdue, ?_⟩
  rw [timStep_self, hstep]
  exact ⟨rfl, rfl, rfl, rfl, rfl, rfl, hint, timDo_others _ _ _ _ _, timDo_frame _ _ _ _ _⟩

theorem timerGateStop_ends (k : Fin 8) (s : State) (hdue : dueGateStop s k = true) :
    ∃ t, exec (.timerGateStop k) s = .next t ∧ t.tim.t[k].en = false ∧ t.tim.t[k].hit = true ∧
    t.tim.t[k].count = s.tim.t[k].count ∧ t.tim.t[k].residue = s.tim.t[k].residue ∧ (∀ j : Fin 8, j ≠ k → t.tim.t[j] = s.tim.t[j]) ∧ { quietly s t with tim := s.tim } = s := by
  refine ⟨_, exec_timerGateStop hdue, ?_⟩
  rw [timDo_self]
  exact ⟨rfl, rfl, rfl, rfl, timDo_others _ _ _ _ _, timDo_frame _ _ _ _ _⟩

/-! ### Register writes of a block (R330) -/

/-- While the clock of the block runs the row is its write. -/
theorem hostRow_gatedWrite {i : Instr} {b : Blk} {a : Nat} {f : State → State} {s : State} (hb : hostBus s = true) (ho : regOpen s a = true)
    (hblk : blkOn s b = true) : hostRow i (gatedWrite b a f) s = f s := by
  rw [hostRow_hostBus _ _ hb, gatedWrite, ho, hblk]
  rfl

/-- While it is off the row raises source 46, and nothing else changes. -/
theorem hostRow_gatedWrite_off (i : Instr) {b : Blk} {a : Nat} (f : State → State) {s : State} (hb : hostBus s = true) (ho : regOpen s a = true)
    (hblk : blkOn s b = false) :
    ∃ t, (.next (hostRow i (gatedWrite b a f) s) : Host.Outcome State Fault Refusal) = .next t ∧ waits t 46 0 (w16 (b.bit + 256 * a)) ∧ quietly s t = s := by
  have hn := native_of_regOpen ho
  have hrow : hostRow i (gatedWrite b a f) s = raise 46 0 (w16 (b.bit + 256 * a)) s := by
    rw [hostRow_hostBus _ _ hb, gatedWrite, ho, hblk]
    rfl
  refine ⟨_, congrArg Host.Outcome.next hrow, raise_waits _ _ _ hn, ?_⟩
  rw [raise_native _ _ _ hn]
  rfl

/-! ### TIMCTL (R229, R235, R240) -/

theorem bit_or_one_zero (w : Word) : bit (w ||| 1) 0 = true := by
  simp [bit]

theorem fld_or_one {lo : Nat} (w : Word) (n : Nat) (h : 0 < lo) : fld (w ||| 1) lo n = fld w lo n := by
  have hone : (1 : Nat) / 2 ^ lo = 0 := Nat.div_eq_of_lt (Nat.one_lt_two_pow h.ne')
  have hor : (w ||| 1).toNat / 2 ^ lo = w.toNat / 2 ^ lo := by
    rw [BitVec.toNat_or, Nat.or_div_two_pow, show (1 : Word).toNat = 1 from rfl, hone, Nat.or_zero]
  rw [fld, hor, fld]

theorem bit_or_one {i : Nat} (w : Word) (h : 0 < i) : bit (w ||| 1) i = bit w i := by
  simp [bit, BitVec.getLsbD_one, h.ne']

/-- EN 1 starts a timer at rest with residue 0 (R229, R240). -/
theorem Timer.control_starts {t : Timer} (w : Word) (hen : t.en = false) :
    t.control (w ||| 1) = { t with en := true, os := bit w 1, clrm := bit w 2, pre := fld w 3 4, gsrc := fld w 7 6, glvl := bit w 13, ie := bit w 14, residue := 0, gateSeen := false, inc := false, shut := false } := by
  unfold Timer.control
  simp only [bit_or_one_zero, bit_or_one, fld_or_one, Nat.reduceLT]
  simp [hen]

/-- EN 1 gives a running timer its fields; a new PRE clears the residue (R229, R240). -/
theorem Timer.control_runs_on {t : Timer} (w : Word) (hen : t.en = true) :
    t.control (w ||| 1) = { t with os := bit w 1, clrm := bit w 2, pre := fld w 3 4, gsrc := fld w 7 6, glvl := bit w 13, ie := bit w 14, residue := if fld w 3 4 = t.pre then t.residue else 0 } := by
  unfold Timer.control
  simp only [bit_or_one_zero, bit_or_one, fld_or_one, Nat.reduceLT]
  simp [hen]

theorem exec_timerRearm {w : Word} {s : State} (hb : hostBus s = true) (ho : regOpen s 0x52 = true) (hblk : blkOn s .tim = true) :
    exec (.timerRearm w) s = .next (writeTimctl (w ||| 1) s) :=
  congrArg Host.Outcome.next (hostRow_gatedWrite hb ho hblk)

/-- Without an increment that waits, the write takes the fields at once; IE that rises over a flag is a condition (R243). -/
theorem writeTimctl_settled {s : State} {k : Fin 8} (w : Word) (hk : timSel s = k) (hinc : s.tim.t[k].inc = false) :
    writeTimctl w s = setIntIf (bit w 14 && !s.tim.t[k].ie && (s.tim.t[k].hit || s.tim.t[k].ovf)) 5 (updTim k (Timer.control w) s) := by
  subst hk
  unfold writeTimctl
  dsimp only
  rw [hinc]
  rfl

/-- The selected timer takes the fields of the write, and nothing else changes. -/
theorem timerRearm_settled {w : Word} {s : State} {x : Timer} (hb : hostBus s = true) (ho : regOpen s 0x52 = true) (hblk : blkOn s .tim = true)
    (hinc : s.tim.t[timSel s].inc = false) (hx : s.tim.t[timSel s].control (w ||| 1) = x) :
    ∃ t, exec (.timerRearm w) s = .next t ∧ t.tim.t[timSel s] = x ∧ (∀ j : Fin 8, j ≠ timSel s → t.tim.t[j] = s.tim.t[j]) ∧
      { quietly s t with tim := s.tim } = s := by
  refine ⟨_, (exec_timerRearm hb ho hblk).trans (congrArg Host.Outcome.next (writeTimctl_settled _ rfl hinc)), ?_, ?_, setIntIf_updTim_frame _ _ _ _ _⟩
  · rw [setIntIf_tim, updTim_self, hx]
  · rw [setIntIf_tim]
    exact updTim_others _ _ _

theorem timerRearm_starts (w : Word) (s : State) (hb : hostBus s = true) (ho : regOpen s 0x52 = true) (hblk : blkOn s .tim = true)
    (hen : s.tim.t[timSel s].en = false) (hinc : s.tim.t[timSel s].inc = false) :
    ∃ t, exec (.timerRearm w) s = .next t ∧
    t.tim.t[timSel s] = { s.tim.t[timSel s] with en := true, os := bit w 1, clrm := bit w 2, pre := fld w 3 4, gsrc := fld w 7 6, glvl := bit w 13, ie := bit w 14, residue := 0, gateSeen := false, inc := false, shut := false } ∧
    (∀ j : Fin 8, j ≠ timSel s → t.tim.t[j] = s.tim.t[j]) ∧ { quietly s t with tim := s.tim } = s :=
  timerRearm_settled hb ho hblk hinc (Timer.control_starts w hen)

theorem timerRearm_runs_on (w : Word) (s : State) (hb : hostBus s = true) (ho : regOpen s 0x52 = true) (hblk : blkOn s .tim = true)
    (hen : s.tim.t[timSel s].en = true) (hinc : s.tim.t[timSel s].inc = false) :
    ∃ t, exec (.timerRearm w) s = .next t ∧
    t.tim.t[timSel s] = { s.tim.t[timSel s] with os := bit w 1, clrm := bit w 2, pre := fld w 3 4, gsrc := fld w 7 6, glvl := bit w 13, ie := bit w 14, residue := if fld w 3 4 = s.tim.t[timSel s].pre then s.tim.t[timSel s].residue else 0 } ∧
    (∀ j : Fin 8, j ≠ timSel s → t.tim.t[j] = s.tim.t[j]) ∧ { quietly s t with tim := s.tim } = s :=
  timerRearm_settled hb ho hblk hinc (Timer.control_runs_on w hen)

/-! ### TIMCTL on an increment that waits (R240, log 1) -/

/-- An increment changes the timer and INTSTAT at most. -/
theorem timStep_changes (k : Fin 8) (s : State) : ∃ f b, timStep k s = { updTim k f s with bus := b } := by
  obtain ⟨b, h⟩ := setIntIf_changes (s := updTim k _ s) _ 5
  exact ⟨_, b, h⟩

theorem timStep_settles (k : Fin 8) (s : State) : (timStep k s).tim.t[k].inc = false :=
  (congrArg Timer.inc (timStep_self k s)).trans (Timer.step_inc _)

/-- The increment that waits is made before the write takes the fields. -/
theorem writeTimctl_waiting {s : State} (w : Word) (hinc : s.tim.t[timSel s].inc = true) (hen : bit w 0 = true) :
    writeTimctl w s = writeTimctl w (timStep (timSel s) s) := by
  have hsel : timSel (timStep (timSel s) s) = timSel s := by
    obtain ⟨f, b, h⟩ := timStep_changes (timSel s) s
    rw [h]
    rfl
  rw [writeTimctl_settled w hsel (timStep_settles _ _)]
  unfold writeTimctl
  dsimp only
  rw [hinc, hen]
  rfl

theorem timerRearm_waiting (w : Word) (s : State) (hb : hostBus s = true) (ho : regOpen s 0x52 = true) (hblk : blkOn s .tim = true)
    (hinc : s.tim.t[timSel s].inc = true) :
    ∃ t, exec (.timerRearm w) s = .next t ∧ exec (.timerRearm w) (timStep (timSel s) s) = .next t := by
  have hopen : hostBus (timStep (timSel s) s) = true ∧ regOpen (timStep (timSel s) s) 0x52 = true ∧ blkOn (timStep (timSel s) s) .tim = true := by
    obtain ⟨f, b, h⟩ := timStep_changes (timSel s) s
    rw [h]
    exact ⟨hb, ho, hblk⟩
  obtain ⟨hb', ho', hblk'⟩ := hopen
  refine ⟨_, exec_timerRearm hb ho hblk, ?_⟩
  rw [writeTimctl_waiting _ hinc (bit_or_one_zero w)]
  exact exec_timerRearm hb' ho' hblk'

theorem timerRearm_gated (w : Word) (s : State) (hb : hostBus s = true) (ho : regOpen s 0x52 = true) (hblk : blkOn s .tim = false) :
    ∃ t, exec (.timerRearm w) s = .next t ∧ waits t 46 0 0x5203 ∧ quietly s t = s := hostRow_gatedWrite_off _ _ hb ho hblk

/-! ### TIMCNT, TIMCMP and TIMFLG (R229, R235, R236, R242) -/

theorem countLoad_loads (w : Word) (s : State) (hb : hostBus s = true) (ho : regOpen s 0x56 = true) (hblk : blkOn s .tim = true) :
    ∃ t, exec (.countLoad w) s = .next t ∧
    t.tim.t[timSel s] = { s.tim.t[timSel s] with count := w.toNat * 65536 + s.tim.t[timSel s].cntStage.toNat, residue := 0, inc := false } ∧
    (∀ j : Fin 8, j ≠ timSel s → t.tim.t[j] = s.tim.t[j]) ∧ { t with tim := { t.tim with t := s.tim.t } } = s :=
  ⟨loadCount w s, congrArg Host.Outcome.next (hostRow_gatedWrite hb ho hblk), updTim_self _ _ _, updTim_others _ _ _, rfl⟩

theorem countLoad_gated (w : Word) (s : State) (hb : hostBus s = true) (ho : regOpen s 0x56 = true) (hblk : blkOn s .tim = false) :
    ∃ t, exec (.countLoad w) s = .next t ∧ waits t 46 0 0x5603 ∧ quietly s t = s := hostRow_gatedWrite_off _ _ hb ho hblk

/-- A timer with a preload, which a timer at rest takes at once and a running one lets wait (R235). -/
def Timer.preloaded (v : Nat) (t : Timer) : Timer := { t with preload := v, pld := t.en, cmp := if t.en then t.cmp else v }

theorem Timer.preloaded_eq (v : Nat) (t : Timer) :
    (if t.en then { t with preload := v, pld := true } else { t with preload := v, cmp := v, pld := false }) = t.preloaded v := by
  cases hen : t.en <;> simp [Timer.preloaded, hen]

theorem loadPreload_self (hi : Word) (s : State) :
    (loadPreload hi s).tim.t[timSel s] = s.tim.t[timSel s].preloaded (hi.toNat * 65536 + s.tim.t[timSel s].cmpStage.toNat) :=
  (updTim_self _ _ _).trans (Timer.preloaded_eq _ _)

theorem preloadLoad_loads (w : Word) (s : State) (hb : hostBus s = true) (ho : regOpen s 0x5A = true) (hblk : blkOn s .tim = true) :
    ∃ t, exec (.preloadLoad w) s = .next t ∧
    t.tim.t[timSel s].preload = w.toNat * 65536 + s.tim.t[timSel s].cmpStage.toNat ∧ t.tim.t[timSel s].pld = s.tim.t[timSel s].en ∧
    t.tim.t[timSel s].cmp = (if s.tim.t[timSel s].en then s.tim.t[timSel s].cmp else w.toNat * 65536 + s.tim.t[timSel s].cmpStage.toNat) ∧
    { t.tim.t[timSel s] with preload := s.tim.t[timSel s].preload, cmp := s.tim.t[timSel s].cmp, pld := s.tim.t[timSel s].pld } = s.tim.t[timSel s] ∧
    (∀ j : Fin 8, j ≠ timSel s → t.tim.t[j] = s.tim.t[j]) ∧ { t with tim := { t.tim with t := s.tim.t } } = s := by
  refine ⟨loadPreload w s, congrArg Host.Outcome.next (hostRow_gatedWrite hb ho hblk), ?_⟩
  rw [loadPreload_self]
  exact ⟨rfl, rfl, rfl, rfl, updTim_others _ _ _, rfl⟩

theorem preloadLoad_gated (w : Word) (s : State) (hb : hostBus s = true) (ho : regOpen s 0x5A = true) (hblk : blkOn s .tim = false) :
    ∃ t, exec (.preloadLoad w) s = .next t ∧ waits t 46 0 0x5A03 ∧ quietly s t = s := hostRow_gatedWrite_off _ _ hb ho hblk

theorem timerFlagClear_clears (w : Word) (s : State) (hb : hostBus s = true) (ho : regOpen s 0x5C = true) (hblk : blkOn s .tim = true) :
    ∃ t, exec (.timerFlagClear w) s = .next t ∧
    (∀ k : Fin 8, t.tim.t[k] = { s.tim.t[k] with hit := s.tim.t[k].hit && (!bit w k.val || s.tim.t[k].hitAt == some s.clk.tb), ovf := s.tim.t[k].ovf && (!bit w (8 + k.val) || s.tim.t[k].ovfAt == some s.clk.tb) }) ∧
    { t with tim := { t.tim with t := s.tim.t } } = s :=
  ⟨clearFlags w s, congrArg Host.Outcome.next (hostRow_gatedWrite hb ho hblk), fun k => vmapi_getElem _ s.tim.t k, rfl⟩

theorem timerFlagClear_gated (w : Word) (s : State) (hb : hostBus s = true) (ho : regOpen s 0x5C = true) (hblk : blkOn s .tim = false) :
    ∃ t, exec (.timerFlagClear w) s = .next t ∧ waits t 46 0 0x5C03 ∧ quietly s t = s := hostRow_gatedWrite_off _ _ hb ho hblk

/-- Settles O44: the rows of a timer by its increment or by its gate, and each register write by the clock of the block. -/
theorem timers : Obligations.Timers :=
  ⟨timerMatch_matches, timerMatch_ends_oneShot, timerMatch_early, timerOverflow_overflows, timerOverflow_early, timerGateStop_ends,
    timerGateStop_early, timerRearm_starts, timerRearm_runs_on, timerRearm_waiting, countLoad_loads, preloadLoad_loads, timerFlagClear_clears,
    timerRearm_gated, countLoad_gated, preloadLoad_gated, timerFlagClear_gated⟩

end Sys2Proof.Machine

/-! Events that the collector ignores (R247), and the record of a safe-state entry, which waits for the last event of its instant (R109,
R112). -/

namespace Sys2Proof.Machine

/-! ### The counts of a source (R247, R268, R368) -/

theorem satInc_eq_min (x lim : Nat) : satInc x lim = min lim (x + 1) := by
  unfold satInc
  split <;> omega

/-- A two-byte value reads as written. -/
theorem cell16_cellPuts_le16 (d : Byte) (a x : Nat) (m : List Host.Cell) (h : cellsFrom d 0 m = true) (hx : x < 65536) :
    cell16 d a (cellPuts d a (le16 x) m) = x := by
  have hlow := cellPut_wf d a 0 (BitVec.ofNat 8 x) m h (Nat.zero_le a)
  have hsame : cellGet d a (cellPuts d a (le16 x) m) = BitVec.ofNat 8 x := by
    rw [le16, cellPuts, cellPuts, cellPuts, cellGet_cellPut d _ _ 0 _ _ hlow, if_neg (Nat.lt_succ_self a).ne, cellGet_cellPut d _ _ 0 _ _ h, if_pos rfl]
  have hnext : cellGet d (a + 1) (cellPuts d a (le16 x) m) = BitVec.ofNat 8 (x / 256) := by
    rw [le16, cellPuts, cellPuts, cellPuts, cellGet_cellPut d _ _ 0 _ _ hlow, if_pos rfl]
  rw [cell16, hsame, hnext, BitVec.toNat_ofNat, BitVec.toNat_ofNat]
  omega

/-- FCNT counts up to its limit (R368). -/
theorem cell16_shadowCount (src k : Nat) (m : List Host.Cell) (h : cellsFrom shadowDefault 0 m = true) :
    cell16 shadowDefault (atCnt + 2 * src) (shadowCount src k m) = min 65535 (cell16 shadowDefault (atCnt + 2 * src) m + k) :=
  cell16_cellPuts_le16 _ _ _ _ h (by omega)

/-- The store with an event of a source counted in FCNT at once. -/
def Store.counted (src : Nat) (t : Store) : Store := { t with shadow := shadowCount src 1 t.shadow, dirty := true }

/-- The state with an event of a source counted in CNT and in FCNT (R247, R268, R368). -/
def eventCounted (src : Nat) (s : State) : State :=
  { s with flt := { s.flt with cnt := vput s.flt.cnt src (min 65535 (vget s.flt.cnt src 0 + 1)) }, store := s.store.counted src }

/-- While no commit runs an event counts in both at once. -/
theorem countSrc_idle {s : State} (src : Nat) (h : s.store.run = none) : countSrc src s = eventCounted src s := by
  unfold eventCounted
  rw [← satInc_eq_min]
  exact if_neg (by rw [updFlt_store, h]; decide)

theorem lifetime_counted {s t : State} (src : Nat) (hwf : Memory.wf s = true) (ht : t.store = s.store.counted src) :
    lifetime t src = min 65535 (lifetime s src + 1) := by
  have hshadow : cellsFrom shadowDefault 0 s.store.shadow = true := by
    simp only [Memory.wf, storeWf, Bool.and_eq_true] at hwf
    exact hwf.2
  unfold lifetime
  rw [ht]
  dsimp only [Store.counted]
  rw [cell16_shadowCount _ _ _ hshadow]
  omega

/-! ### An ignored event (R247) -/

/-- The collector with the events that wait behind the one that it applies. -/
def behindEvent (rest : List FEvent) (s : State) : State := updFlt (fun f => { f with queue := rest }) s

theorem exec_faultEventApply {e : FEvent} {rest : List FEvent} {s : State} (hon : collectorOn s = true) (hq : s.flt.queue = e :: rest) :
    exec .faultEventApply s = .next (flushBulk (applyEvent e (behindEvent rest s))) := by
  change Host.Outcome.next (if collectorOn s then opFaultApply s else s) = _
  rw [if_pos hon, opFaultApply, hq]
  rfl

/-- Severity 0 stops at the counts. -/
theorem applyEvent_ignored {e : FEvent} {s : State} (h : sevOf s e.src = 0) : applyEvent e s = countSrc e.src s := if_pos h

/-- Without a safe-state entry in its instant an event leaves no BULK record behind (R109). -/
theorem flushBulk_none {s : State} (h : s.flt.bulk = none) : flushBulk s = s := by
  unfold flushBulk
  rw [h]

theorem faultEventApply_ignored (e : FEvent) (rest : List FEvent) (s : State) (hon : collectorOn s = true) (hq : s.flt.queue = e :: rest)
    (hsev : vget s.flt.sev e.src 0 = 0) (hrun : s.store.run = none) (hwf : Memory.wf s = true) (hbulk : s.flt.bulk = none) :
    ∃ t, exec .faultEventApply s = .next t ∧
      t.flt = { s.flt with queue := rest, cnt := vput s.flt.cnt e.src (min 65535 (vget s.flt.cnt e.src 0 + 1)) } ∧
      lifetime t e.src = min 65535 (lifetime s e.src + 1) ∧ t.store.dirty = true ∧ { t with flt := s.flt, store := s.store } = s := by
  have hcounts : flushBulk (applyEvent e (behindEvent rest s)) = eventCounted e.src (behindEvent rest s) :=
    calc flushBulk (applyEvent e (behindEvent rest s))
        = flushBulk (countSrc e.src (behindEvent rest s)) := congrArg flushBulk (applyEvent_ignored hsev)
      _ = flushBulk (eventCounted e.src (behindEvent rest s)) := congrArg flushBulk (countSrc_idle _ hrun)
      _ = eventCounted e.src (behindEvent rest s) := flushBulk_none hbulk
  refine ⟨_, (exec_faultEventApply hon hq).trans (congrArg _ hcounts), rfl, lifetime_counted e.src hwf rfl, rfl, rfl⟩

/-! ### Where the statement on fault events fails -/

/-- The safe state has been entered in this instant, with slot 3 retired, and its commit has ended. The BULK record of the entry waits
for the last event of the instant: an access of a gated block, whose source has severity 0. -/
def safeEntered : State :=
  { State.reset with
    sys := { boot := 5 }
    clk := { fclkOn := true, tb := 1000000 }
    chan := vmapi (fun _ c => { c with st := .contained, cont := true }) State.reset.chan
    sched := { slots := vput (Vector.replicate 64 {}) 3 { st := .retired, last := 4 } }
    flt := { State.reset.flt with safe := true, safeSrc := 0x8005, bulk := some (0, 1, 0), queue := [⟨0, 46, 0, 0x5203, false⟩] } }

/-- With that event the record of one cancelled slot with reason 4 enters the report FIFO (R109, R112). -/
theorem safeEntered_fifo : (opFaultApply safeEntered).rpt.fifo = [⟨0x5004, 0, 1, 0⟩] := by decide

/-- Refutes O45: its clause on severity 0 lets nothing but the counts change, but does not ask that no safe-state entry of the same
instant waits for its BULK record. The last event of the instant brings that record (R112), whatever its own severity.
`faultEventApply_ignored` proves the clause without such an entry. -/
theorem not_faultEvents : ¬ Obligations.FaultEvents := by
  rintro ⟨-, -, hignored, -⟩
  obtain ⟨t, ht, -, -, -, hframe⟩ := hignored ⟨0, 46, 0, 0x5203, false⟩ [] safeEntered (by decide) rfl (by decide) (by decide) rfl (by decide)
  obtain rfl : opFaultApply safeEntered = t := Host.Outcome.next.inj ht
  have hfifo : (opFaultApply safeEntered).rpt.fifo = [] := congrArg (fun s : State => s.rpt.fifo) hframe
  rw [safeEntered_fifo] at hfifo
  exact absurd hfifo (by decide)

end Sys2Proof.Machine

/-! FLTACK on a record of its own tick (R250, R253, R254, R266). -/

namespace Sys2Proof.Machine

/-! ### A write of ACK (R253) -/

/-- ACK alone lifts nothing, and leaves the history and SELF alone. -/
theorem writeFltack_ack (s : State) : writeFltack 0x8000 s = ackOpen s := rfl

theorem exec_faultAck {s : State} (hb : hostBus s = true) (ho : regOpen s 0x4C = true) : exec .faultAck s = .next (ackOpen s) := by
  change Host.Outcome.next (hostRow .faultAck (fltackDo (writeFltack 0x8000)) s) = _
  rw [hostRow_hostBus _ _ hb, fltackDo, if_pos ho, writeFltack_ack]

theorem ackOpen_fresh {r : OpenRec} {s : State} (hr : s.flt.freshNow s.clk.tb = some r) :
    ackOpen s = updFlt (fun f => { f with openRec := some r, hist := f.hist.map (unmerge r), capH := none, capD := none }) s := by
  unfold ackOpen
  rw [hr]

/-- An event of the same tick opens the next record, and its record in the history is not marked as merged (R253, R254). -/
theorem faultAck_fresh (r : OpenRec) (s : State) (hb : hostBus s = true) (ho : regOpen s 0x4C = true) (hr : s.flt.freshNow s.clk.tb = some r) :
    ∃ t, exec .faultAck s = .next t ∧ t.flt.openRec = some r ∧ t.flt.hist = s.flt.hist.map (unmerge r) ∧ t.flt.cnt = s.flt.cnt ∧
      { t with flt := s.flt } = s := by
  refine ⟨_, exec_faultAck hb ho, ?_⟩
  rw [ackOpen_fresh hr]
  exact ⟨rfl, rfl, rfl, rfl⟩

/-! ### Where the statement on the fault registers fails -/

/-- A record of source 5 is open, and a bad crank tooth waits for the collector. -/
def toothWaits : State :=
  { State.reset with
    sys := { boot := 5 }
    clk := { fclkOn := true, tb := 1000000 }
    flt := { State.reset.flt with openRec := some ⟨5, 0, 2, 0, 0, 7, 8, 9, 0, 32⟩, queue := [⟨0, 0, 0, 9, false⟩] } }

/-- The tooth is merged into the open record, and MERGED stands in its history record (R252, R254). -/
def toothMerged : State := opFaultApply toothWaits

/-- The record that the tooth opens by itself. -/
def toothRecord : OpenRec := ⟨0, 0, 1, 0, 9, 0, tbLo 1000000, tbHi 1000000, 0, 1⟩

theorem toothMerged_hist : toothMerged.flt.hist = [⟨0x9000, 0, tbLo 1000000, tbHi 1000000⟩] := by decide

/-- After ACK MERGED is 0: the tooth has opened a record (R253). -/
theorem toothAcked_hist : (ackOpen toothMerged).flt.hist = [⟨0x1000, 0, tbLo 1000000, tbHi 1000000⟩] := by decide

/-- Refutes O46: its clause on ACK in the tick of an event lets the history stay as it is. The event has been merged, with MERGED in its
history record (R254), and ACK comes before it (R253): it opens the next record, so that MERGED becomes 0. `faultAck_fresh` proves the
clause with this change of the history. -/
theorem not_faultRegisters : ¬ Obligations.FaultRegisters := by
  rintro ⟨-, hack, -⟩
  have hb : hostBus toothMerged = true := by decide
  have ho : regOpen toothMerged 0x4C = true := by decide
  obtain ⟨t, ht, -, hhist, -⟩ := hack toothRecord toothMerged hb ho (by decide)
  obtain rfl : ackOpen toothMerged = t := Host.Outcome.next.inj ((exec_faultAck hb ho).symm.trans ht)
  rw [toothMerged_hist, toothAcked_hist] at hhist
  exact absurd hhist (by decide)

end Sys2Proof.Machine

/-! The commands of the collector (R270, R271, R450): FSRC_SET by its checks, and the three forms of FLT_READ. -/

namespace Sys2Proof.Machine

/-! ### Commands that answer with results (R417, R431) -/

/-- A command that answers at once gives its status and both results, and leaves its effect beside the mailbox and INTSTAT. -/
theorem mboxRow_results {code : Byte} {op : Args → State → CmdRes} {a : Args} {s u : State} {status q0 q1 : Nat} (hf : mboxFree s = true)
    (ha : admitted code a s = true) (hop : op a (started code a s) = { st := u, status := status, q0 := q0, q1 := q1 })
    (hm : u.mbox = (started code a s).mbox) :
    answered (mboxRow code op a s) status q0 q1 ∧ ∃ m b, mboxRow code op a s = { u with mbox := m, bus := b } := by
  have hrun : u.mbox.run = some ⟨.host, code, a⟩ := congrArg Mbox.run hm
  rw [mboxRow_ends code op a s hf ha (by rw [hop]), hop]
  exact ⟨endCmd_answered code a _ _ _ _ hrun, _, _, endCmd_host code a _ _ _ _ hrun⟩

/-- A command that only reads changes the mailbox and INTSTAT alone. -/
theorem mboxRow_reads {code : Byte} {op : Args → State → CmdRes} {a : Args} {s : State} {q0 q1 : Nat} (hf : mboxFree s = true)
    (ha : admitted code a s = true) (hop : op a (started code a s) = { st := started code a s, q0 := q0, q1 := q1 }) :
    answered (mboxRow code op a s) 0 q0 q1 ∧ { mboxRow code op a s with mbox := s.mbox, bus := s.bus } = s := by
  obtain ⟨hans, m, b, ht⟩ := mboxRow_results hf ha hop rfl
  refine ⟨hans, ?_⟩
  rw [ht]
  rfl

/-- A command none of whose numbered checks fails takes its effect. -/
theorem checked_passes {argsOk : Bool} {checks : List Bool} (s : State) (eff : CmdRes) (h : argsOk = true) (hk : firstFail checks = none) :
    checked argsOk checks s eff = eff := by
  simp [checked, h, hk]

/-! ### FSRC_SET (R270) -/

/-- The words of FSRC_SET name a source and a severity (R270). -/
theorem fsrcArgs_ok {a : Args} (h0 : within a.a0 0x0F3F = true) (hsrc : fld a.a0 0 6 ≤ 46) (hsev : fld a.a0 8 3 ≤ 5) :
    (within a.a0 0x0F3F && decide (fld a.a0 0 6 ≤ 46) && decide (fld a.a0 8 3 ≤ 5)) = true := by
  rw [h0, decide_eq_true hsrc, decide_eq_true hsev]
  rfl

/-- The collector with a severity and a RING flag of a source. -/
def Flt.setSource (src sev : Nat) (ring : Bool) (f : Flt) : Flt := { f with sev := vput f.sev src sev, ring := vput f.ring src ring }

theorem fsrcSet_sets (a : Args) (s : State) (hf : mboxFree s = true) (ha : admitted 0x20 a s = true) (h0 : within a.a0 0x0F3F = true)
    (hsrc : fld a.a0 0 6 ≤ 46) (hsev : fld a.a0 8 3 ≤ 5) (hk : firstFail (fsrcChecks (fld a.a0 0 6) (fld a.a0 8 3) (bit a.a0 11)) = none)
    (hrun : s.store.run = none) :
    ∃ t, exec (.fsrcSet a) s = .next t ∧ answered t 0 0 0 ∧
      t.flt = { s.flt with sev := vput s.flt.sev (fld a.a0 0 6) (fld a.a0 8 3), ring := vput s.flt.ring (fld a.a0 0 6) (bit a.a0 11) } ∧
      t.store.dirty = true ∧ { t with mbox := s.mbox, bus := s.bus, flt := s.flt, store := s.store } = s := by
  have hset : cmdFsrcSet a (started 0x20 a s) =
      { st := shadowSev (updFlt (Flt.setSource (fld a.a0 0 6) (fld a.a0 8 3) (bit a.a0 11)) (started 0x20 a s)) } :=
    checked_passes _ _ (fsrcArgs_ok h0 hsrc hsev) hk
  have hop := hset.trans (congrArg (fun u => ({ st := u } : CmdRes)) (shadowPut_idle _ _ hrun))
  obtain ⟨hans, m, b, ht⟩ := mboxRow_completes hf ha hop rfl
  refine ⟨mboxRow 0x20 cmdFsrcSet a s, rfl, hans, ?_⟩
  rw [ht]
  exact ⟨rfl, rfl, rfl⟩

theorem fsrcSet_fails (a : Args) (k : Nat) (s : State) (hf : mboxFree s = true) (ha : admitted 0x20 a s = true) (h0 : within a.a0 0x0F3F = true)
    (hsrc : fld a.a0 0 6 ≤ 46) (hsev : fld a.a0 8 3 ≤ 5) (hk : firstFail (fsrcChecks (fld a.a0 0 6) (fld a.a0 8 3) (bit a.a0 11)) = some k) :
    ∃ t, exec (.fsrcSet a) s = .next t ∧ answered t 0x17 k 0 ∧ { t with mbox := s.mbox, bus := s.bus } = s :=
  ⟨mboxRow 0x20 cmdFsrcSet a s, rfl, mboxRow_refuses hf ha (checked_fails _ _ _ k (fsrcArgs_ok h0 hsrc hsev) hk)⟩

/-- RING of source 38 fails the fourth check, where its severity passes the three before it (R256, R270). -/
theorem firstFail_ring38 : ∀ sev ≤ 2, firstFail (fsrcChecks 38 sev true) = some 4 := by decide

theorem fsrcSet_ring38 (a : Args) (s : State) (hf : mboxFree s = true) (ha : admitted 0x20 a s = true) (h0 : within a.a0 0x0F3F = true)
    (hsrc : fld a.a0 0 6 = 38) (hsev : fld a.a0 8 3 ≤ 2) (hring : bit a.a0 11 = true) :
    ∃ t, exec (.fsrcSet a) s = .next t ∧ answered t 0x17 4 0 ∧ { t with mbox := s.mbox, bus := s.bus } = s := by
  refine fsrcSet_fails a 4 s hf ha h0 (by omega) (by omega) ?_
  rw [hsrc, hring]
  exact firstFail_ring38 _ hsev

theorem fsrcSet_badArg (a : Args) (s : State) (hf : mboxFree s = true) (ha : admitted 0x20 a s = true) (hsrc : 46 < fld a.a0 0 6) :
    ∃ t, exec (.fsrcSet a) s = .next t ∧ answered t 0x16 0 0 ∧ { t with mbox := s.mbox, bus := s.bus } = s := by
  have hbad : (within a.a0 0x0F3F && decide (fld a.a0 0 6 ≤ 46) && decide (fld a.a0 8 3 ≤ 5)) = false := by
    rw [decide_eq_false (Nat.not_le.mpr hsrc), Bool.and_false, Bool.false_and]
  exact ⟨mboxRow 0x20 cmdFsrcSet a s, rfl, mboxRow_refuses hf ha (checked_badArg _ _ _ hbad)⟩

/-! ### The forms of FLT_READ (R271) -/

/-- The number of a form stands above the fields of its word. -/
theorem fltForm_toNat {k : Nat} (a : Args) (hk : k < 4) : (fltForm k a).a0.toNat = 2 ^ 14 * k + a.a0.toNat % 2 ^ 14 := by
  have hlow : a.a0.toNat &&& 0x3FFF = a.a0.toNat % 2 ^ 14 := Nat.and_two_pow_sub_one_eq_mod _ 14
  have hhigh : k * 16384 % 2 ^ 16 = 2 ^ 14 * k := by omega
  rw [Nat.two_pow_add_eq_or_of_lt (Nat.mod_lt _ (by decide)), ← hlow, ← hhigh, Nat.or_comm, fltForm, BitVec.toNat_or, BitVec.toNat_and, w16,
    BitVec.toNat_ofNat]
  rfl

theorem fltForm_form {k : Nat} (a : Args) (hk : k < 4) : fld (fltForm k a).a0 14 2 = k := by
  rw [fld, fltForm_toNat a hk]
  omega

theorem fltForm_source {k : Nat} (a : Args) (hk : k < 4) : fld (fltForm k a).a0 0 6 = fld a.a0 0 6 := by
  rw [fld, fltForm_toNat a hk, fld]
  omega

theorem fltForm_record {k : Nat} (a : Args) (hk : k < 4) : fld (fltForm k a).a0 0 4 = fld a.a0 0 4 := by
  rw [fld, fltForm_toNat a hk, fld]
  omega

theorem fltForm_half (a : Args) : bit (fltForm 2 a).a0 4 = bit a.a0 4 := by
  simp [bit, fltForm, w16]

/-- The words of a form name a source. -/
theorem fltArgs_ok {k : Nat} {a : Args} (hk : k < 4) (h0 : within (fltForm k a).a0 0xC03F = true) (hsrc : fld a.a0 0 6 ≤ 47) :
    (within (fltForm k a).a0 0xC03F && decide (fld (fltForm k a).a0 0 6 ≤ 47)) = true := by
  rw [h0, fltForm_source a hk, decide_eq_true hsrc]
  rfl

theorem cmdFltRead_count {a : Args} (s : State) (h0 : within (fltForm 0 a).a0 0xC03F = true) (hsrc : fld a.a0 0 6 ≤ 47) :
    cmdFltRead (fltForm 0 a) s = { st := s, q0 := vget s.flt.cnt (fld a.a0 0 6) 0, q1 := lifetime s (fld a.a0 0 6) } := by
  unfold cmdFltRead
  dsimp only
  rw [fltForm_form a (by decide)]
  refine (checked_passes _ _ (fltArgs_ok (by decide) h0 hsrc) rfl).trans ?_
  rw [fltForm_source a (by decide)]

theorem cmdFltRead_clear {a : Args} (s : State) (h0 : within (fltForm 1 a).a0 0xC03F = true) (hsrc : fld a.a0 0 6 ≤ 47) :
    cmdFltRead (fltForm 1 a) s = { st := updFlt (fun f => { f with cnt := vput f.cnt (fld a.a0 0 6) 0 }) s, q0 := vget s.flt.cnt (fld a.a0 0 6) 0, q1 := lifetime s (fld a.a0 0 6) } := by
  unfold cmdFltRead
  dsimp only
  rw [fltForm_form a (by decide)]
  refine (checked_passes _ _ (fltArgs_ok (by decide) h0 hsrc) rfl).trans ?_
  rw [fltForm_source a (by decide)]

/-- HIST gives words 0 and 1 of the record, or words 2 and 3. -/
theorem cmdFltRead_hist {a : Args} {q : Quad} (s : State) (h0 : within (fltForm 2 a).a0 0xC01F = true) (hq : s.flt.hist[fld a.a0 0 4]? = some q) :
    cmdFltRead (fltForm 2 a) s = { st := s, q0 := (if bit a.a0 4 then q.w2 else q.w0).toNat, q1 := (if bit a.a0 4 then q.w3 else q.w1).toNat } := by
  have hheld : fld a.a0 0 4 < s.flt.hist.length := (List.getElem?_eq_some_iff.mp hq).1
  unfold cmdFltRead
  dsimp only
  rw [fltForm_form a (by decide), fltForm_record a (by decide), fltForm_half, hq]
  exact checked_passes _ _ h0 (firstFail_none _ (all_cons_true (decide_eq_true hheld) rfl))

theorem cmdFltRead_past {a : Args} (s : State) (h0 : within (fltForm 2 a).a0 0xC01F = true) (hk : s.flt.hist.length ≤ fld a.a0 0 4) :
    cmdFltRead (fltForm 2 a) s = checkFail 1 s := by
  unfold cmdFltRead
  dsimp only
  rw [fltForm_form a (by decide), fltForm_record a (by decide)]
  exact checked_fails _ _ _ 1 h0 (firstFail_first _ (decide_eq_false (Nat.not_lt.mpr hk)))

theorem fltReadCount_reads (a : Args) (s : State) (hf : mboxFree s = true) (ha : admitted 0x21 (fltForm 0 a) s = true)
    (h0 : within (fltForm 0 a).a0 0xC03F = true) (hsrc : fld a.a0 0 6 ≤ 47) :
    ∃ t, exec (.fltReadCount a) s = .next t ∧ answered t 0 (vget s.flt.cnt (fld a.a0 0 6) 0) (lifetime s (fld a.a0 0 6)) ∧
      { t with mbox := s.mbox, bus := s.bus } = s :=
  ⟨mboxRow 0x21 cmdFltRead (fltForm 0 a) s, rfl, mboxRow_reads hf ha (cmdFltRead_count _ h0 hsrc)⟩

theorem fltReadClear_clears (a : Args) (s : State) (hf : mboxFree s = true) (ha : admitted 0x21 (fltForm 1 a) s = true)
    (h0 : within (fltForm 1 a).a0 0xC03F = true) (hsrc : fld a.a0 0 6 ≤ 47) :
    ∃ t, exec (.fltReadClear a) s = .next t ∧ answered t 0 (vget s.flt.cnt (fld a.a0 0 6) 0) (lifetime s (fld a.a0 0 6)) ∧
      t.flt = { s.flt with cnt := vput s.flt.cnt (fld a.a0 0 6) 0 } ∧ { t with mbox := s.mbox, bus := s.bus, flt := s.flt } = s := by
  obtain ⟨hans, m, b, ht⟩ := mboxRow_results hf ha (cmdFltRead_clear (started 0x21 (fltForm 1 a) s) h0 hsrc) rfl
  refine ⟨mboxRow 0x21 cmdFltRead (fltForm 1 a) s, rfl, hans, ?_⟩
  rw [ht]
  exact ⟨rfl, rfl⟩

theorem fltReadHist_reads (a : Args) (q : Quad) (s : State) (hf : mboxFree s = true) (ha : admitted 0x21 (fltForm 2 a) s = true)
    (h0 : within (fltForm 2 a).a0 0xC01F = true) (hq : s.flt.hist[fld a.a0 0 4]? = some q) :
    ∃ t, exec (.fltReadHist a) s = .next t ∧
      answered t 0 (if bit a.a0 4 then q.w2 else q.w0).toNat (if bit a.a0 4 then q.w3 else q.w1).toNat ∧
      { t with mbox := s.mbox, bus := s.bus } = s :=
  ⟨mboxRow 0x21 cmdFltRead (fltForm 2 a) s, rfl, mboxRow_reads hf ha (cmdFltRead_hist _ h0 hq)⟩

theorem fltReadHist_firstHalf (a : Args) (q : Quad) (s : State) (hf : mboxFree s = true) (ha : admitted 0x21 (fltForm 2 a) s = true)
    (h0 : within (fltForm 2 a).a0 0xC01F = true) (hq : s.flt.hist[fld a.a0 0 4]? = some q) (hhalf : bit a.a0 4 = false) :
    ∃ t, exec (.fltReadHist a) s = .next t ∧ answered t 0 q.w0.toNat q.w1.toNat ∧ { t with mbox := s.mbox, bus := s.bus } = s := by
  have h := fltReadHist_reads a q s hf ha h0 hq
  rw [hhalf] at h
  exact h

theorem fltReadHist_secondHalf (a : Args) (q : Quad) (s : State) (hf : mboxFree s = true) (ha : admitted 0x21 (fltForm 2 a) s = true)
    (h0 : within (fltForm 2 a).a0 0xC01F = true) (hq : s.flt.hist[fld a.a0 0 4]? = some q) (hhalf : bit a.a0 4 = true) :
    ∃ t, exec (.fltReadHist a) s = .next t ∧ answered t 0 q.w2.toNat q.w3.toNat ∧ { t with mbox := s.mbox, bus := s.bus } = s := by
  have h := fltReadHist_reads a q s hf ha h0 hq
  rw [hhalf] at h
  exact h

theorem fltReadHist_past (a : Args) (s : State) (hf : mboxFree s = true) (ha : admitted 0x21 (fltForm 2 a) s = true)
    (h0 : within (fltForm 2 a).a0 0xC01F = true) (hk : s.flt.hist.length ≤ fld a.a0 0 4) :
    ∃ t, exec (.fltReadHist a) s = .next t ∧ answered t 0x17 1 0 ∧ { t with mbox := s.mbox, bus := s.bus } = s :=
  ⟨mboxRow 0x21 cmdFltRead (fltForm 2 a) s, rfl, mboxRow_refuses hf ha (cmdFltRead_past _ h0 hk)⟩

/-- Settles O47: FSRC_SET by its checks, and each form of FLT_READ by what its command answers. -/
theorem faultCommands : Obligations.FaultCommands :=
  ⟨fsrcSet_sets, fsrcSet_ring38, fsrcSet_fails, fsrcSet_badArg, fltReadCount_reads, fltReadClear_clears, fltReadHist_firstHalf,
    fltReadHist_secondHalf, fltReadHist_past⟩

end Sys2Proof.Machine
